-- ==== Sys2Proof/Word.lean ====
section
/-! DEFINITION. Words and the plainest bit arithmetic on natural numbers that the register model uses. -/

namespace Sys2Proof

/-- A byte on a wire or in a buffer. -/
abbrev Byte := BitVec 8

/-- A 32-bit register word (R4). -/
abbrev Word := BitVec 32

/-- Bits `[lo + w - 1 : lo]` of `n`. -/
def bitsOf (n lo w : Nat) : Nat := n / 2 ^ lo % 2 ^ w

/-- Bit `i` of `n`. -/
def bitAt (n i : Nat) : Bool := n / 2 ^ i % 2 == 1

/-- A Bool as the value of a one-bit field. -/
def b2n (b : Bool) : Nat := if b then 1 else 0

/-- Signed reading of a `w`-bit two's-complement value. -/
def toSigned (w n : Nat) : Int := if n % 2 ^ w < 2 ^ (w - 1) then (n % 2 ^ w : Nat) else (n % 2 ^ w : Nat) - (2 ^ w : Nat)

/-- `w`-bit two's-complement coding of an integer. -/
def ofSigned (w : Nat) (z : Int) : Nat := (z % (2 ^ w : Nat)).toNat

/-- Number of set bits among the low `w` bits of `n`. -/
def popCount : Nat → Nat → Nat
  | 0, _ => 0
  | w + 1, n => n % 2 + popCount w (n / 2)

/-- Position of the lowest set bit among the low `w` bits, counted from `from`; `none` when there is none. -/
def lowestBit : Nat → Nat → Nat → Option Nat
  | 0, _, _ => none
  | w + 1, n, pos => if n % 2 = 1 then some pos else lowestBit w (n / 2) (pos + 1)

/-- Big-endian value of a byte string (R5). -/
def beVal (bs : List Byte) : Nat := bs.foldl (fun a b => a * 256 + b.toNat) 0

/-- Big-endian bytes of a value, `n` of them (R5). -/
def beBytes : Nat → Nat → List Byte
  | 0, _ => []
  | n + 1, v => beBytes n (v / 256) ++ [BitVec.ofNat 8 v]

/-- Little-endian value of a byte string. -/
def leVal : List Byte → Nat
  | [] => 0
  | b :: r => b.toNat + 256 * leVal r

/-- Little-endian bytes of a value, `n` of them. -/
def leBytes : Nat → Nat → List Byte
  | 0, _ => []
  | n + 1, v => BitVec.ofNat 8 v :: leBytes n (v / 256)

/-- Bytes `[i, i + n)` of a string, zero beyond its end. -/
def bytesAt (bs : List Byte) (i n : Nat) : List Byte :=
  let t := (bs.drop i).take n
  t ++ List.replicate (n - t.length) 0

/-- Nanoseconds and seconds in the unit of device time, 2^-48 ns (R67). -/
def fineNs : Nat := 2 ^ 48

/-- One second in units of 2^-48 ns. -/
def fineSec : Nat := 1000000000 * 2 ^ 48

end Sys2Proof
end

