-- ==== Sys2Proof/Syntax.lean ====
section
/-! DEFINITION. The commands and events the block takes, one constructor per row of the opcode table. -/

namespace Sys2Proof

/-- Who writes or reads a register: the host driver over PCIe or the management complex (R35). -/
inductive Master where
  | host
  | mgmt
  deriving DecidableEq, Repr

/-- 0 for the host, 1 for the management complex. -/
def Master.num : Master → Nat
  | .host => 0
  | .mgmt => 1

/-- The space of an access: BAR0 holds the register pages, BAR2 doorbells and MSI-X (R33, R32), and the function's configuration space
the values of R29. -/
inductive Bar where
  | bar0
  | bar2
  | config
  deriving DecidableEq, Repr

/-- What the disagreeing circuit was working on. -/
inductive CheckSite where
  /-- The frame in progress on a port's MAC, before or after a byte of it has left the cluster, with the bytes that arrived since its head. -/
  | rx (port : Nat) (pmac : Bool) (before : Bool) (more : List Byte)
  /-- The copy in transmission on a port, or the next one issued when none is. -/
  | tx (port : Nat)
  /-- The next key load of the key-load engine (R203). -/
  | keyLoad
  deriving DecidableEq, Repr

/-- A request of the far end's link training for this transmitter (R108): a preset by number, or one step of a tap (0 C_M3, 1 C_M2, 2 C_M1,
3 C_0, 4 C_P1) up or down. -/
inductive TrainRequest where
  | preset (n : Nat)
  | step (tap : Fin 5) (up : Bool)
  deriving DecidableEq, Repr

/-- Why a lane's stage does not complete (R103, R146): its limit, a PCS lane whose markers do not lock, or the skew between the port's
lanes in ns. -/
inductive Overrun where
  | limit
  | markers
  | skew (ns : Nat)
  deriving DecidableEq, Repr

/-- What the decoder and the MAC check find in a line that the memory guard reads (R448). Levels are those of R449. -/
inductive Finding where
  /-- Errors in a data line that the code corrects. -/
  | corrected
  /-- A data line with more errors than the code corrects. -/
  | uncorrectable
  /-- A PROTECTED data line that decodes and whose MAC fails. -/
  | macFails
  /-- Errors in a counter block or tree node that the code corrects. -/
  | metaCorrected
  /-- A counter block (level 0) or tree node with more errors than the code corrects. -/
  | metaUncorrectable (level : Nat)
  /-- A counter block or tree node that decodes and whose MAC fails. -/
  | metaMacFails (level : Nat)
  /-- An uncorrectable word of the counter cache, or root copies that differ. -/
  | storeFails
  deriving DecidableEq, Repr

/-- What the boot flash holds at a place of R368: the 512 bytes of the header, the image at IMAGE_OFFSET, and whether reading them
fails. -/
structure FlashImage where
  header : List Byte
  image : List Byte
  error : Bool
  deriving DecidableEq, Repr

/-- The words of a write (R33): one, or the low and the high word of an aligned 8-byte access. -/
structure WriteWords where
  lo : Word
  hi : Option Word
  deriving DecidableEq, Repr

/-- Where a read of a 64-bit register goes, and whether it is an aligned 8-byte access, which reads the high word next (R33). -/
structure ReadPlace where
  addr : BitVec 24
  wide : Bool
  deriving DecidableEq, Repr

/-- A space and an address in it. -/
structure SpacePlace where
  bar : Bar
  addr : BitVec 24
  deriving DecidableEq, Repr

/-- An edge at a PPS input (R75): the width of the pulse it belongs to, and the units of 2^-16 ns since it crossed the ball. -/
structure PulseEdge where
  widthNs : Nat
  ago : Nat
  deriving DecidableEq, Repr

/-- The end of a lane's link training, with the requests the far end made of this transmitter, in order (R108). -/
structure TrainingEnd where
  lane : Fin 256
  requests : List TrainRequest
  deriving DecidableEq, Repr

/-- What a lane's checker found since it was last heard of: bits compared while locked, and errors among them (R122). -/
structure CompareReport where
  lane : Fin 256
  bits : Nat
  errors : Nat
  deriving DecidableEq, Repr

/-- The RS-FEC ability and request in the partner's base page (R138). -/
structure PartnerFec where
  able : Bool
  asked : Bool
  deriving DecidableEq, Repr

/-- The value that the hi_ber variable of a port's PCS takes (R137). -/
structure BerChange where
  port : Fin 256
  up : Bool
  deriving DecidableEq, Repr

/-- An uncorrectable codeword of a port, with what its decoder has found since the last report: for each codeword it decoded, the corrected
symbols of each PCS lane, and for each PCS lane the errored blocks (R136, R158, R159). -/
structure CodewordReport where
  port : Fin 256
  good : List (List Nat)
  blocks : List Nat
  deriving DecidableEq, Repr

/-- The commands and events of the part: one constructor per row of the opcode table, with its operands; the
commands without operands stand last. -/
inductive Instr where
  /-- POWER_ON_RESET (R24): The main supplies reach range and all main-domain state is cleared, while Base Camp keeps its contents.
  `straps`: the strap balls as they are tied (R532). -/
  | powerOnReset (straps : BitVec 4)
  /-- RESET_N (R536): RESET_N is held low for at least 1 µs, which starts a device reset that clears all main-domain state including anchors, vault and SA table.
  `heldNs`: how long the pin is held low. -/
  | resetN (heldNs : Nat)
  /-- DEVICE_RESET (R39): A write of DEV_CTRL.DEVICE_RESET with RESET_KEY 0xD1E5 starts a device reset; a write with any other key is ignored. -/
  | deviceReset (key : BitVec 16)
  /-- MSIX_MASK_WRITE (R59): A change of MSI-X vector or function masking makes a pending message be sent, or the pending bit be cleared, at the first tick at which the rule applies.
  `vector`: the vector whose mask changes, none for the function mask. -/
  | msixMaskWrite (vector : Option (Fin 64)) (mask : Bool)
  /-- REGISTER_WRITE (R33): A BAR0 write to a register with no row of its own stores the word, is ignored and counted when its byte enables are partial, and is ignored for reserved or unopened pages.
  `be`: the byte enables, those of the first word in the low half. -/
  | registerWrite (m : Master) (bar : Bar) (addr : BitVec 24) (be : BitVec 8) (v : WriteWords)
  /-- REG64_LOW_READ (R37): A read of the low word of a 64-bit register loads the master's latch with the high word, and clears the whole register when it is read-clear. -/
  | reg64LowRead (m : Master) (place : ReadPlace)
  /-- REG64_LOW_WRITE (R38): A write to the low word of a 64-bit RW register is held until the same master writes the high word. -/
  | reg64LowWrite (m : Master) (addr : BitVec 24) (v : Word)
  /-- REG64_HIGH_WRITE (R38): A write to the high word of a 64-bit RW register commits it with the held low word, or with the current low word when none is held. -/
  | reg64HighWrite (m : Master) (addr : BitVec 24) (v : Word)
  /-- READ_CLEAR (R507): A read of an RC counter returns its value and clears it for both masters, without losing or double-counting an increment made in the same cycle. -/
  | readClear (m : Master) (place : SpacePlace)
  /-- SOFT_RESET (R544): A write of 1 to PAGE_CTRL.SOFT_RESET acts on its page as the soft-reset table states, in the tick after the write, and clears no anchor.
  `pg`: the page. -/
  | softReset (pg : Fin 256)
  /-- ANCHOR_WRITE (R61): A write of 1 to an ANCHOR_STATUS bit makes the fields of that anchor group read-only until the next power-on reset or device reset.
  `bits`: the written bits of the page's ANCHOR_SET. -/
  | anchorWrite (pg : Fin 256) (bits : BitVec 8)
  /-- EVT_LATCH_CLEAR (R43): A write of 1 to an EVT_LATCH bit clears it, unless its condition rises again in the same tick. -/
  | evtLatchClear (pg : Fin 256) (bits : Word)
  /-- EVT_FORCE (R43): A write of 1 to an EVT_FORCE bit sets the matching EVT_LATCH bit on the next tick. -/
  | evtForce (pg : Fin 256) (bits : Word)
  /-- EVT_FIRST_REARM (R43): A write of 1 to EVT_FIRST.VALID rearms the page's first-event capture. -/
  | evtFirstRearm (pg : Fin 256)
  /-- MSIX_SEND (R59): On a tick with VEC_SENT bit v at 0 and an active mapped source, the controller sends one MSI-X message for vector v, or sets the pending bit when the vector is masked. -/
  | msixSend (v : Fin 64)
  /-- VEC_SENT_ACK (R59): A write of 1 to a VEC_SENT bit acknowledges the vector, so that a source still active sends a new message on the following tick.
  `half`: the word of VEC_SENT. -/
  | vecSentAck (half : Fin 2) (bits : Word)
  /-- TBL_READ (R47): A TBL_CMD READ copies one table entry into TBL_DATA as one snapshot, with key material reading zero. -/
  | tblRead (m : Master) (pg : Fin 256)
  /-- TBL_WRITE (R47): A TBL_CMD WRITE replaces one table entry in one update, or is refused with an error code under the chapter that owns the table. -/
  | tblWrite (m : Master) (pg : Fin 256)
  /-- TBL_CLEAR (R47): A TBL_CMD CLEAR writes the reset values of an entry and zeroes its counters, unless the owning chapter refuses the clear or gives it another effect. -/
  | tblClear (m : Master) (pg : Fin 256)
  /-- TBL_OP_DONE (R45): A table-window operation completes within 2 µs, clears BUSY and sets CODE to DONE_OK or to an error code. -/
  | tblOpDone (m : Master) (pg : Fin 256)
  /-- RESULT_READ_ONCE (R54): A read of the last RESULT word of a read-once command returns it and sets STATUS to CONSUMED, after which every result reads zero. -/
  | resultReadOnce (m : Master) (pg : Fin 256) (slot : Fin 4)
  /-- TIME_LATCH_READ (R68): A read of TIME_NOW_FRAC, or of the fraction word of a PPS capture, latches the other words of that time for the reading master.
  `group`: TIME_NOW or a PPS capture. -/
  | timeLatchRead (m : Master) (group : Fin 3)
  /-- RATE_ADJ_COMMIT (R69): A committed RATE_ADJ takes effect on the next tick, clamped to 1,000 ppm with RATE_CLAMPED set, unless ROPE discipline refuses it. -/
  | rateAdjCommit (rate : BitVec 40)
  /-- DISCIPLINE_SRC_WRITE (R73): A change of TB_CTRL.DISCIPLINE_SRC ends the cause of holdover that belongs to the old source and starts the rules of the new one. -/
  | disciplineSrcWrite (rope : Bool)
  /-- PPS_IN_EDGE (R75): The selected edge of an enabled PPS input captures device time, less PPS_INn_DELAY, into PPS_INn_TIME.
  `edge`: the pulse and the instant of its edge. -/
  | ppsInEdge (n : Fin 2) (rising : Bool) (edge : PulseEdge)
  /-- TOD_TX_WRITE (R76): A write to TOD_TX_DATA appends one byte to the time-of-day transmit queue, or is ignored when the queue is full. -/
  | todTxWrite (b : Byte)
  /-- TOD_RX_BYTE (R76): The time-of-day UART receives a byte into its 64-byte queue, or drops it when the queue is full. -/
  | todRxByte (b : Byte)
  /-- TOD_RX_READ (R76): A read of TOD_RX_DATA removes and returns the oldest received byte. -/
  | todRxRead (m : Master)
  /-- TS_CALIBRATION_DONE (R78): The first lane calibration of a port completes within 200 µs of reaching ACTIVE, and CALIBRATED is set. -/
  | tsCalibrationDone (p : Fin 256)
  /-- TS_RECALIBRATION (R78): Every 100 ms the timestamp unit repeats the calibration of the port's lanes without disturbing traffic. -/
  | tsRecalibration (p : Fin 256)
  /-- WP_TX_SA_SWITCH (R226): A TX_SA_SWITCH waypoint executes at T − 1 µs and sets SWITCH_PENDING and PENDING_AN, or fails when the named SA is not LOADED or a switch is pending. -/
  | wpTxSaSwitch (n : Fin 4096)
  /-- WP_SA_ENABLE (R231): An SA_ENABLE waypoint admits a LOADED SA to service, on receive from the first frame stamped at or after T. -/
  | wpSaEnable (n : Fin 4096)
  /-- WP_SA_RETIRE (R231): An SA_RETIRE waypoint takes an SA out of service, on receive for every frame stamped at or after T. -/
  | wpSaRetire (n : Fin 4096)
  /-- WP_GATE_LIST_SWAP (R323): A GATE_LIST_SWAP waypoint checks the port's admin list and sets a pending ConfigChange at T. -/
  | wpGateListSwap (n : Fin 4096)
  /-- WP_WINDOW_EDGE (R510): A WINDOW_EDGE waypoint closes the open measurement window of every port in its group and opens the next one. -/
  | wpWindowEdge (n : Fin 4096)
  /-- WP_PPS_EDGE (R88): A PPS_EDGE waypoint places the leading edge of a pulse of width ARG0 at T plus PPS_OUTn_DELAY on an enabled output. -/
  | wpPpsEdge (n : Fin 4096)
  /-- WP_EYE_SCAN_START (R117): An EYE_SCAN_START waypoint requests the eye-scan grant of a lane and starts the scan at T, or when the grant arrives. -/
  | wpEyeScanStart (n : Fin 4096)
  /-- WP_TOD_SEND (R76): A TOD_SEND waypoint starts sending the time-of-day queue with the first start bit at T. -/
  | wpTodSend (n : Fin 4096)
  /-- WP_TIME_STEP (R88): A TIME_STEP waypoint steps device time by its signed offset at T, after every other entry due at T. -/
  | wpTimeStep (n : Fin 4096)
  /-- WP_REG_WRITE (R91): A REG_WRITE waypoint writes its register as the management master, at most 8 in one tick. -/
  | wpRegWrite (n : Fin 4096)
  /-- WP_REG_WRITE_DEFERRED (R91): A REG_WRITE that exceeded the limit of 8 per tick executes in a later tick with DELAYED set. -/
  | wpRegWriteDeferred (n : Fin 4096)
  /-- WP_MARK (R88): A MARK waypoint executes with no effect beyond recording and NOTIFY. -/
  | wpMark (n : Fin 4096)
  /-- OCT_REF_SEL_WRITE (R99): A write of OCT_REF.SEL selects the octet's quadrant reference, or is refused with CFG_REFUSED while any lane of the octet is not OFF. -/
  | octRefSelWrite (k : Fin 32) (sel : Fin 4)
  /-- OCT_PLL_VCO_WRITE (R99): A write of OCT_PLL_A.VCO or OCT_PLL_B.VCO sets the PLL's rate, or is refused while a lane clocked by that PLL is not OFF. -/
  | octPllVcoWrite (k : Fin 32) (pll : Fin 2) (code : Fin 4)
  /-- PLL_LOCK (R101): An octet PLL locks within 300 µs of the grant of the first lane it clocks. -/
  | pllLock (k : Fin 32) (pll : Fin 2)
  /-- OCT_REF_LOST (R101): The selected quadrant reference is lost: REF_PRESENT clears, both PLLs lose lock and the lanes leave ACTIVE. -/
  | octRefLost (k : Fin 32)
  /-- OCT_REF_RETURN (R101): The quadrant reference returns and the octet PLLs relock without firmware action. -/
  | octRefReturn (k : Fin 32)
  /-- LANE_PAGE_DISABLE (R102): Clearing PAGE_CTRL.ENABLE of a lane page returns every lane of the octet to OFF and releases its bursts, scans and test reservations. -/
  | lanePageDisable (k : Fin 32)
  /-- TEST_ENABLE_WRITE (R103): A write of LANE_CTRL.TEST_ENABLE brings a lane outside any port up at RATE and requests its steady power. -/
  | testEnableWrite (l : Fin 256) (v : Bool)
  /-- LANE_RX_DETECT_DONE (R103): Signal energy has been present without a break for 100 µs, and the lane enters TRAINING. -/
  | laneRxDetectDone (l : Fin 256)
  /-- LANE_TRAINING_DONE (R108): Link training under Clause 136 or 162, or start-up adaptation, converges and the lane enters BIT_LOCK.
  `t`: the lane, and what the far end requested of this transmitter. -/
  | laneTrainingDone (t : TrainingEnd)
  /-- LANE_BIT_LOCK_DONE (R103): The CDR locks and the equalizer converges, and the lane enters SYMBOL_LOCK. -/
  | laneBitLockDone (l : Fin 256)
  /-- LANE_SYMBOL_LOCK_DONE (R103): The port engine reports block or codeword lock on the lane, which enters CAP_EXCHANGE. -/
  | laneSymbolLockDone (l : Fin 256)
  /-- LANE_CAP_EXCHANGE_DONE (R103): The port engine reports the port aligned with no remote fault, and the lane enters ACTIVE. -/
  | laneCapExchangeDone (l : Fin 256)
  /-- LANE_STAGE_OVERRUN (R103): A bring-up stage exceeds its limit, and the lane returns to RX_DETECT, increments BRINGUP_FAILS and requests its burst again.
  `why`: the limit of R103, or the alignment failure of R146. -/
  | laneStageOverrun (l : Fin 256) (why : Overrun)
  /-- LANE_LOCK_LOSS (R105): An ACTIVE lane loses CDR or symbol lock with energy present and returns to BIT_LOCK without retraining. -/
  | laneLockLoss (l : Fin 256)
  /-- LANE_SIGNAL_LOSS (R148): A lane of an UP or HOLDOFF port loses signal energy and is held in BIT_LOCK as if it had lost lock. -/
  | laneSignalLoss (l : Fin 256)
  /-- LANE_CMD_RESTART (R106): LANE_CMD.RESTART returns a lane that is not OFF to RX_DETECT without counting a failure. -/
  | laneCmdRestart (l : Fin 256)
  /-- LANE_CMD_ADAPT_BURST (R111): LANE_CMD.ADAPT_BURST on an ACTIVE lane requests an adaptation burst of up to 10 ms. -/
  | laneCmdAdaptBurst (l : Fin 256)
  /-- ADAPT_BURST_END (R111): An adaptation burst ends after at most 10 ms and releases its grant. -/
  | adaptBurstEnd (l : Fin 256)
  /-- TX_FIR_WRITE (R110): A write of TX_FIR sets the transmitter taps, or is refused with FIR_REFUSED when the taps sum beyond 63 or the lane is training. -/
  | txFirWrite (l : Fin 256) (v : Word)
  /-- RICHNESS_WINDOW (R113): A window of 16,384 UI ends and is judged rich or low, which applies or discards its adaptation update and can freeze or resume adaptation.
  `l`: the receiver, 256 and above those of the Belay and management lanes; `flips`, `level` and `run`: what the window counted. -/
  | richnessWindow (l : Fin 259) (flips : Nat) (level : Nat) (run : Nat)
  /-- LANE_CMD_SCAN_START (R117): LANE_CMD.SCAN_START checks the profile and requests the eye-scan grant of the lane, or is refused. -/
  | laneCmdScanStart (l : Fin 256) (profile : Fin 16)
  /-- LANE_CMD_SCAN_ABORT (R118): LANE_CMD.SCAN_ABORT ends a running scan in ABORTED and releases its grant. -/
  | laneCmdScanAbort (l : Fin 256)
  /-- SCAN_POINT_DONE (R116): An eye-scan point reaches its dwell or its error limit, records its result and moves to the next point, or ends the scan in DONE.
  `m`: the boundary exponent at which the point ended; `errors`: its errors. -/
  | scanPointDone (l : Fin 256) (m : Nat) (errors : Nat)
  /-- GEN_EN_WRITE (R121): A write of PRBS_CTRL.GEN_EN starts the pattern generator on a test lane, or sets GEN_REFUSED. -/
  | genEnWrite (l : Fin 256) (v : Bool)
  /-- CHK_EN_WRITE (R122): Setting PRBS_CTRL.CHK_EN zeroes the checker counters and starts the checker. -/
  | chkEnWrite (l : Fin 256) (v : Bool)
  /-- CHECKER_LOCK (R122): The checker sees 256 consecutive correct bits and reports CHK_LOCKED.
  `r`: the lane, and what a checker that was locked already has compared since it was last heard of. -/
  | checkerLock (r : CompareReport)
  /-- CHECKER_LOCK_LOSS (R122): The checker sees 64 errors within 512 bits, increments CHK_LOCK_LOSS and resynchronizes.
  `bits`, `errors`: bits compared while locked, and errors among them. -/
  | checkerLockLoss (l : Fin 256) (bits : Nat) (errors : Nat)
  /-- INJECT_SINGLE (R123): INJ_CTRL.GO in mode SINGLE inverts one transmitted bit. -/
  | injectSingle (l : Fin 256)
  /-- INJECT_BURST (R123): INJ_CTRL.GO in mode BURST inverts BURST_LEN consecutive transmitted bits. -/
  | injectBurst (l : Fin 256)
  /-- INJECT_RATE (R123): In mode RATE, one transmitted bit is inverted each time INJ_PERIOD bits have been counted. -/
  | injectRate (l : Fin 256)
  /-- OCT_PORT_MODE_WRITE (R545): An accepted write of OCT_PORT_MODE regroups the octet's slots and resets every slot whose port width changes. -/
  | octPortModeWrite (k : Fin 32) (mode : Fin 16)
  /-- PORT_ENABLE (R141): A write of 1 to PORT_CTRL.ENABLE of a DISABLED port is checked and requests the port's power reservation. -/
  | portEnable (p : Fin 256)
  /-- PORT_DISABLE (R143): A write of 0 to PORT_CTRL.ENABLE returns the port to DISABLED in the next tick, releases its reservation and aborts a frame in transmission. -/
  | portDisable (p : Fin 256)
  /-- HOLDOFF_EXPIRY (R151): The hold-off timer reaches LANE_HOLDOFF without realignment, so the port goes down, declares local fault and restarts its lanes. -/
  | holdoffExpiry (p : Fin 256)
  /-- AN_RESOLVED (R138): Clause 73 auto-negotiation resolves and the port's first lane leaves RX_DETECT with the resolved FEC.
  `far`: what the partner says of RS-FEC. -/
  | anResolved (p : Fin 256) (far : PartnerFec)
  /-- AN_RESTART (R139): The link partner does not advertise the configured ability, so the port sets AN_NO_HCD and restarts negotiation. -/
  | anRestart (p : Fin 256)
  /-- HI_BER_RISE (R137): The PCS hi_ber indication rises, which increments HI_BER_COUNT.
  `c`: the port, and the value that the variable takes. -/
  | hiBerRise (c : BerChange)
  /-- FEC_UNCORRECTABLE (R136): The RS decoder finds a codeword uncorrectable and marks its blocks errored, so that overlapping frames end with error.
  `r`: the port, and what its decoder has found. -/
  | fecUncorrectable (r : CodewordReport)
  /-- AM_LOCK_LOSS (R147): An aligned port loses marker lock on a PCS lane, counts AM_LOCK_LOSS and treats the event as a loss of alignment. -/
  | amLockLoss (p : Fin 256)
  /-- FAULT_ORDERED_SETS (R154): A change in received local or remote fault ordered sets changes LOCAL_FAULT or RF_RECEIVED and the port's transmit behaviour.
  `lf`, `rf`: local and remote fault as received now. -/
  | faultOrderedSets (p : Fin 256) (lf : Bool) (rf : Bool)
  /-- RX_FRAME_HEAD (R283): The first 128 plaintext bytes of a received frame are available, and the frame is classified, policed, forwarded and judged for admission.
  `pmac`: it is received by the preemptable MAC; `ago`: units of 2^-16 ns since its timestamp point crossed the ball; `bytes`: what has arrived, from DA; `whole`: that is all of it. -/
  | rxFrameHead (p : Fin 256) (pmac : Bool) (ago : Nat) (bytes : List Byte) (whole : Bool)
  /-- RX_FRAME_TAIL (R187): The tail of a received frame arrives, the line checks and the ICV verdict are applied, PNs and counters move, and the frame is delivered or discarded.
  `rest`: the bytes after those of the head; `ended`: it ended with an error control character; `frags`, `assemblyError`, `smdErrors`: what the MAC merge sublayer found. -/
  | rxFrameTail (p : Fin 256) (pmac : Bool) (rest : List Byte) (ended : Bool) (frags : Nat) (assemblyError : Bool) (smdErrors : Nat)
  /-- RX_SA_DRAINING (R231): A retired receive SA enters DRAINING once every frame stamped before T has been parsed, and no later than T + 400 ns. -/
  | rxSaDraining (index : BitVec 16)
  /-- SA_DRAIN_COMPLETE (R191): A DRAINING SA has its key and entry zeroed, reads EMPTY within 2 µs and queues an EMPTIED record. -/
  | saDrainComplete (rx : Bool) (index : BitVec 17)
  /-- COPY_ISSUE (R223): The port engine issues the next eligible copy, fixing its planned start, latching its SA and PN, and applying any pending switch or rollover.
  `ago`: units of 2^-16 ns since the issue instant. -/
  | copyIssue (p : Fin 256) (ago : Nat)
  /-- COPY_START (R224): An issued copy starts at its planned start, or is dropped when a disable, a port down, a run-state change or a committed-departure cause intervenes. -/
  | copyStart (p : Fin 256)
  /-- SA_CMD_ENABLE (R193): SA_CMD OP ENABLE admits a LOADED SA to service in the tick after the write. -/
  | saCmdEnable (rx : Bool) (index : BitVec 17)
  /-- SA_CMD_RETIRE (R193): SA_CMD OP RETIRE takes an IN_SERVICE SA to DRAINING in the tick after the write. -/
  | saCmdRetire (rx : Bool) (index : BitVec 17)
  /-- SA_EVT_POP_READ (R198): A read of SA_EVT_POP returns and removes the oldest SA event record. -/
  | saEvtPopRead (m : Master)
  /-- CIPHER_CHECK_MISMATCH (R206): An inverse-pipe, multiplier or round-key parity check disagrees, so the frame is suppressed or poisoned and the cipher-check alarm is raised.
  `site`: what the circuit worked on; `set`: its pipe set; `kind`: which circuit disagreed. -/
  | cipherCheckMismatch (site : CheckSite) (set : Fin 5) (kind : Fin 3)
  /-- CLUSTER_RUN (R216): A cipher cluster whose cipher units were granted reaches RUN within 20 µs. -/
  | clusterRun (k : Fin 32)
  /-- PIPE_SET_AWAKE (R216): A pipe set wakes within 2 µs of its grant, including a replacement for a fenced set. -/
  | pipeSetAwake (k : Fin 32) (tx : Bool) (set : Fin 5)
  /-- PIPE_SET_SLEEP (R217): A pipe set that is no longer needed sleeps after its blocks in flight complete and is zeroed. -/
  | pipeSetSleep (k : Fin 32) (tx : Bool) (set : Fin 5)
  /-- CC_FENCE_WRITE (R218): A write of CC_FENCE fences pipe sets, requests a replacement when needed, or is refused with FENCE_REFUSED. -/
  | ccFenceWrite (k : Fin 32) (rx : BitVec 5) (tx : BitVec 5)
  /-- PIPE_SET_FENCED (R218): A fenced pipe set finishes its blocks in flight, is zeroed and enters FENCED. -/
  | pipeSetFenced (k : Fin 32) (tx : Bool) (set : Fin 5)
  /-- BLOB_LOAD (R253): The vault command BLOB_LOAD unseals a blob under its owner root into a vault slot. -/
  | blobLoad (c : Fin 8)
  /-- BLOB_SEAL (R264): The vault command BLOB_SEAL seals a slot key under an owner root into a blob in the slot buffer. -/
  | blobSeal (c : Fin 8)
  /-- KEY_GENERATE (R264): The vault command KEY_GENERATE draws a new key from the key-generation DRBG into a slot. -/
  | keyGenerate (c : Fin 8)
  /-- KEY_DERIVE (R264): The vault command KEY_DERIVE derives a key from a KDK with the SP 800-108 counter-mode KDF. -/
  | keyDerive (c : Fin 8)
  /-- MKA_DERIVE (R264): The vault command MKA_DERIVE derives the KEK and the ICK from a CAK into two slots at once. -/
  | mkaDerive (c : Fin 8)
  /-- KEY_WRAP (R264): The vault command KEY_WRAP wraps a slot key under a KEK with RFC 3394 into the slot buffer. -/
  | keyWrap (c : Fin 8)
  /-- KEY_UNWRAP (R264): The vault command KEY_UNWRAP unwraps an RFC 3394 wrapped key into a slot. -/
  | keyUnwrap (c : Fin 8)
  /-- SA_LOAD (R274): The vault command SA_LOAD loads a SAK slot's key with a salt into an EMPTY SA. -/
  | saLoad (c : Fin 8)
  /-- SAK_UNWRAP_TO_SA (R274): The vault command SAK_UNWRAP_TO_SA unwraps a distributed SAK directly into an EMPTY SA. -/
  | sakUnwrapToSa (c : Fin 8)
  /-- CMAC_BEGIN (R275): The vault command CMAC_BEGIN starts a CMAC context of the slot under an ICK. -/
  | cmacBegin (c : Fin 8)
  /-- CMAC_UPDATE (R275): The vault command CMAC_UPDATE appends buffer data to the slot's CMAC context. -/
  | cmacUpdate (c : Fin 8)
  /-- CMAC_FINAL (R275): The vault command CMAC_FINAL returns the CMAC or verifies it against an expected ICV and releases the context. -/
  | cmacFinal (c : Fin 8)
  /-- DRBG_READ (R278): The vault command DRBG_READ returns n read-once words from the output DRBG instance. -/
  | drbgRead (c : Fin 8)
  /-- DRBG_RESEED (R277): The vault command DRBG_RESEED repeats the start-up tests and reseeds both DRBG instances. -/
  | drbgReseed (c : Fin 8)
  /-- SLOT_ERASE (R268): The vault command SLOT_ERASE zeroes a slot in any state and ends every command that uses it with ERR_KEY_GONE. -/
  | slotErase (c : Fin 8)
  /-- SLOT_RESTRICT (R264): The vault command SLOT_RESTRICT narrows a slot's operations, export, presence, expiry or use limit. -/
  | slotRestrict (c : Fin 8)
  /-- ROOT_GENERATE (R251): The vault command ROOT_GENERATE draws a new owner root, with presence, in OWNED. -/
  | rootGenerate (c : Fin 8)
  /-- ROOT_SET (R251): The vault command ROOT_SET sets an owner root from a ROOT_SOURCE slot and erases the slot. -/
  | rootSet (c : Fin 8)
  /-- ROOT_ERASE (R251): The vault command ROOT_ERASE erases an owner root, with presence, in OWNED. -/
  | rootErase (c : Fin 8)
  /-- VAULT_ENGINE_STEP (R265): The vault engine runs one step of at most 2 µs of a queued or running command and commits its destination at the last step.
  `c`: the command slot, 0 to 3 host and 4 to 7 management; `mismatch`: the two computations of the step differ. -/
  | vaultEngineStep (c : Fin 8) (mismatch : Bool)
  /-- VAULT_SELFTEST_DONE (R279): The vault known-answer tests complete, which lets queued commands run or sets FAULT when a test fails.
  `pass`: the known-answer tests pass. -/
  | vaultSelftestDone (pass : Bool)
  /-- ENTROPY_COLLECTION_DONE (R276): A reseed's collection of 384 bits of min-entropy completes, and the reseed continues. -/
  | entropyCollectionDone (c : Fin 8)
  /-- POOL_SIZE_WRITE (R297): A write of POOL_SIZE sets a pool's size, or is refused with CFG_REFUSED when the cell budget would be exceeded. -/
  | poolSizeWrite (k : Fin 8) (v : BitVec 19)
  /-- GATE_CMD_CONFIG_CHANGE (R323): GATE_CMD OP CONFIG_CHANGE checks a port's admin list and sets a pending ConfigChange at the computed ConfigChangeTime.
  `m`: the gate page; `n`: the port in it. -/
  | gateCmdConfigChange (m : Fin 8) (n : Fin 32)
  /-- GATE_CMD_CANCEL (R325): GATE_CMD OP CANCEL withdraws a pending ConfigChange, unless it lies within 2 µs.
  `m`: the gate page; `n`: the port in it. -/
  | gateCmdCancel (m : Fin 8) (n : Fin 32)
  /-- CONFIG_CHANGE (R324): At ConfigChangeTime the admin list replaces the operational list, the old cycle is cut and the new list starts with entry 0. -/
  | configChange (p : Fin 256)
  /-- GATE_ENTRY_BOUNDARY (R322): An entry boundary or cycle start of the operational gate list applies the next gate states and MAC hold operation. -/
  | gateEntryBoundary (p : Fin 256)
  /-- MM_VERIFY_ATTEMPT (R329): Every VERIFY_TIME milliseconds the port makes a Clause 99 verify attempt and updates VERIFY_STATUS.
  `responded`: the attempt was answered. -/
  | mmVerifyAttempt (p : Fin 256) (responded : Bool)
  /-- PREEMPT_DISABLE_DONE (R329): A write of 0 to PREEMPT_EN takes effect once no preemptable copy is suspended, and PREEMPT_ACTIVE clears. -/
  | preemptDisableDone (p : Fin 256)
  /-- RING_DOORBELL (R346): A doorbell write advances a ring's TAIL, or is refused and counted in DOORBELL_REFUSED. -/
  | ringDoorbell (m : Master) (n : Fin 130) (t : BitVec 16)
  /-- RING_ACK_WRITE (R347): The ring owner's write of RING_ACK acknowledges completions, and a write by the other master is ignored. -/
  | ringAckWrite (m : Master) (n : Fin 130) (v : BitVec 16)
  /-- RX_RING_DELIVERY (R352): The punt scheduler delivers a waiting copy to a receive ring with a free descriptor under the ceiling and reserve buckets.
  `words`: the next descriptor as the host's memory holds it. -/
  | rxRingDelivery (words : List Word)
  /-- TX_DESCRIPTOR_FETCH (R349): The device takes a transmit descriptor, reads its frame into buffer cells and admits it under CLASSIFY or DIRECT, or completes it with BAD_DESC.
  `words`: the next descriptor as the host's memory holds it; `data`: the frame's bytes there. -/
  | txDescriptorFetch (n : Fin 128) (words : List Word) (data : List Byte)
  /-- RING_STOP (R345): A disabled ring stops at its next descriptor boundary and its queued copies are discarded. -/
  | ringStop (n : Fin 130)
  /-- CLASS_RESERVE_WRITE (R353): A write of CLASS_RESERVE sets a trap class's reserve, or is ignored with RESERVE_REFUSED when the reserves would exceed 100 %. -/
  | classReserveWrite (c : Fin 16) (v : BitVec 7)
  /-- WD_SERVICE (R360): A management write of 0xA5C3 to WD_SERVICE restarts the watchdog count. -/
  | wdService (m : Master) (key : BitVec 16)
  /-- MGMT_RESTART (R361): A keyed MGMT_CTRL.RESTART write, or a watchdog action, holds the cores in reset and resets the management slots, rings and MGMT0. -/
  | mgmtRestart (key : BitVec 16)
  /-- ACCESS_FAULT (R340): A core access to an unmapped, read-only, closed-ROM or guard-refused address takes an access-fault exception.
  `write`: a store, else a load. -/
  | accessFault (core : Fin 4) (addr : BitVec 64) (write : Bool)
  /-- MSIP_WRITE (R342): A write of MSIP(c) raises or clears the machine software interrupt of core c. -/
  | msipWrite (core : Fin 4) (v : Bool)
  /-- MACHINE_TIMER_INTERRUPT (R342): MTIME reaches MTIMECMP(c), and core c takes its machine timer interrupt. -/
  | machineTimerInterrupt (core : Fin 4)
  /-- MGMT0_RX_FRAME (R363): A frame received on MGMT0 is written to the MGMT0 receive ring.
  `bytes`: the frame with its FCS; `ended`: it ended with an error; `violations`: code violations in it. -/
  | mgmt0RxFrame (bytes : List Byte) (ended : Bool) (violations : Nat)
  /-- MGMT0_LINK_CHANGE (R365): MGMT0_STATUS.LINK changes and MGMT0_LINK latches. -/
  | mgmt0LinkChange (up : Bool) (anDone : Bool)
  /-- BOOT_ROM (R367): After a reset the boot ROM runs its steps, resumes transitions, commits evidence, trains DRAM, measures and verifies stage 1, and jumps to it.
  `primary`, `secondary`: what the boot flash holds at the two places of R368; `dramGib`: the DRAM that training finds. -/
  | bootRom (primary : FlashImage) (secondary : FlashImage) (dramGib : Fin 33)
  /-- ASCENT_EXTEND (R372): The page 0x0D command ASCENT_EXTEND extends the ascent log with a firmware event before the seal. -/
  | ascentExtend (slot : Fin 4)
  /-- BOOT_COMPLETE (R374): The page 0x0D command BOOT_COMPLETE advances rollback, increments BOOT_COUNT, seals the record and moves the run state to ACTIVE or CONTAINED. -/
  | bootComplete (slot : Fin 4)
  /-- RECORD_READ (R379): The page 0x0D command RECORD_READ copies the sealed record of a named BOOT_COUNT into the slot buffer. -/
  | recordRead (slot : Fin 4)
  /-- CHALLENGE (R380): The page 0x0D command CHALLENGE builds a MACed response to a verifier nonce, with a read-once device nonce. -/
  | challenge (slot : Fin 4)
  /-- ALARM_CONDITION (R386): A detector reports a supply, clock, temperature, tamper, state-machine or fault condition of an alarm source.
  `on`: the condition begins or ceases to hold, none for a pulse; `glitch`: a supply excursion is a glitch, else slow; `machine`: the guarded machine of AL18 and AL51. -/
  | alarmCondition (n : Fin 64) (on : Option Bool) (glitch : Bool) (machine : Fin 32)
  /-- DETECTOR_DISAGREEMENT (R386): The agreement time of a detector pair expires with only one detector reporting, which raises the pair's disagreement source. -/
  | detectorDisagreement (n : Fin 64)
  /-- CONTAIN_RELEASE (R396): A write of 0x5245 to CONTAIN_RELEASE returns the device from CONTAINED to ACTIVE, or is refused with ERR_STATE. -/
  | containRelease (key : BitVec 16)
  /-- ALARM_LATCH_CLEAR (R396): A write of 1 to an ALARM_LATCH bit clears it unless its source is sampled active.
  `half`: the word. -/
  | alarmLatchClear (half : Fin 2) (bits : Word)
  /-- STICKY_CLEAR (R400): A write of 1 to a STICKY_CLEAR bit clears a sticky flag with presence and its source inactive, or counts a refusal.
  `half`: the word. -/
  | stickyClear (half : Fin 2) (bits : Word)
  /-- ZEROIZE_REQUEST (R404): A write of 0x5A5A to ZEROIZE_REQUEST raises AL61. -/
  | zeroizeRequest (key : BitVec 16)
  /-- BC_CFG_WRITE (R391): A write of BC_CFG takes effect only with presence and learns mesh delay references; otherwise it is refused and counted. -/
  | bcCfgWrite (v : Word)
  /-- BC_BATT_ZEROIZE_WRITE (R391): A write of BC_BATT_ZEROIZE takes effect only with presence; otherwise it is refused and counted. -/
  | bcBattZeroizeWrite (v : Word)
  /-- ALARM_CFG_WRITE (R385): A write of ALARM_CFG SEVERITY or FLOOR stores a value within the source's range and ignores one outside it. -/
  | alarmCfgWrite (n : Fin 64) (v : Word)
  /-- LC_TRANSITION (R411): A keyed write of LC_TRANSITION requests a life-cycle transition, which is checked and then started, or refused. -/
  | lcTransition (target : Fin 8) (key : BitVec 16)
  /-- OTP_PROGRAM (R430): The page 0x06 command OTP_PROGRAM ORs a value into an OTP word in TEST. -/
  | otpProgram (slot : Fin 4)
  /-- ENROLL_LOAD (R420): The page 0x06 command ENROLL_LOAD checks an owner package, and stages it or installs its attestation root and owner roots. -/
  | enrollLoad (slot : Fin 4)
  /-- KEYHASH_REVOKE (R421): The page 0x06 command KEYHASH_REVOKE blows the revocation bit of a permitted image key slot, with presence. -/
  | keyhashRevoke (slot : Fin 4)
  /-- DEBUG_CHALLENGE (R425): The page 0x06 command DEBUG_CHALLENGE issues a debug challenge for a class, with a read-once nonce. -/
  | debugChallenge (slot : Fin 4)
  /-- DEBUG_RESPOND (R426): The page 0x06 command DEBUG_RESPOND checks the maker's response and opens the lane class or starts the full-debug wipe. -/
  | debugRespond (slot : Fin 4)
  /-- RANGE_ENABLE (R435): A write of 1 to RANGE_CTRL.ENABLE checks a memory-guard range, draws its keys and puts it in PENDING, or refuses it. -/
  | rangeEnable (r : Fin 8)
  /-- RANGE_INIT_DONE (R435): INIT has written every line and the metadata of a range, which enters ACTIVE. -/
  | rangeInitDone (r : Fin 8)
  /-- MEMORY_ACCESS (R447): A core, DMA or debug access to DRAM is checked against range rights, then enciphered, authenticated and corrected, or refused.
  `u`: the master, cores 0 to 3, DMA 4, debug 5; `n`: bytes read; `data`: bytes written, none for a read; `findings`: what decoder and MAC check find, by line of the transfer. -/
  | memoryAccess (u : Fin 6) (addr : BitVec 36) (n : Nat) (data : Option (List Byte)) (findings : List (Nat × Finding))
  /-- REENCRYPT_STEP (R444): One step of at most 2 µs re-encrypts 8 lines of a page whose minor counter overflowed, and the last step writes the new counter block.
  `finding`: what the step finds in a line. -/
  | reencryptStep (r : Fin 8) (page : Nat) (finding : Option Finding)
  /-- SCRUB_READ (R451): The scrubber reads and classifies the next line at its paced rate, and completes a pass at the last line.
  `finding`: what the read finds. -/
  | scrubRead (finding : Option Finding)
  /-- BELAY_ENABLE (R459): A write of BELAY_CTRL.ENABLE starts or stops a Belay port. -/
  | belayEnable (b : Fin 2) (v : Bool)
  /-- BELAY_ALIGNED (R459): A Belay port achieves comma alignment and 64 clean characters, and enters HELLO with a new LINK_EPOCH. -/
  | belayAligned (b : Fin 2)
  /-- BELAY_ALIGN_LOSS (R478): A Belay port loses alignment, leaves UP or its training state, and returns to ALIGN. -/
  | belayAlignLoss (b : Fin 2)
  /-- BELAY_HELLO_TIMER (R460): Every 100 µs in HELLO or CONFIRM, the port sends a HELLO frame. -/
  | belayHelloTimer (b : Fin 2)
  /-- BELAY_HELLO (R460): A HELLO frame is received and either shows a conflict or lets the link derive its keys and enter CONFIRM.
  `bytes`: the frame as received; `err`: it ended with an error; `violations`: code violations in it. -/
  | belayHello (b : Fin 2) (bytes : List Byte) (err : Bool) (violations : Nat)
  /-- BELAY_CONFIRM (R461): A CONFIRM frame passes its tag and matches both HELLOs, and the link enters UP.
  `bytes`: the frame as received; `err`: it ended with an error; `violations`: code violations in it. -/
  | belayConfirm (b : Fin 2) (bytes : List Byte) (err : Bool) (violations : Nat)
  /-- BELAY_CONFIRM_TIMEOUT (R459): A link spends 10 ms in CONFIRM without completion and falls back to ALIGN. -/
  | belayConfirmTimeout (b : Fin 2)
  /-- BELAY_TIME_MARKER_TX (R471): At each multiple of 10,000 ns an UP port sends a time marker, stamps its departure and then sends a TIME frame.
  `off`: units of 2^-16 ns until the even character position. -/
  | belayTimeMarkerTx (b : Fin 2) (off : Nat)
  /-- BELAY_TIME_MARKER_RX (R471): A time marker arrives and its arrival is stamped at the ball.
  `ago`: units of 2^-16 ns since the marker crossed the ball. -/
  | belayTimeMarkerRx (b : Fin 2) (mseq : Byte) (ago : Nat)
  /-- BELAY_TIME (R472): A TIME frame is received, and the link delay and offset are computed and the rope discipline correction is applied.
  `bytes`: the frame as received; `err`: it ended with an error; `violations`: code violations in it. -/
  | belayTime (b : Fin 2) (bytes : List Byte) (err : Bool) (violations : Nat)
  /-- BELAY_MARKER_TIMEOUT (R478): Three markers in a row fail to arrive within 30 µs, and the port leaves UP. -/
  | belayMarkerTimeout (b : Fin 2)
  /-- BELAY_ANNOUNCE (R469): The lead receives an ANNOUNCE, records the position and enters FORMED when every expected position is present.
  `bytes`: the frame as received; `err`: it ended with an error; `violations`: code violations in it. -/
  | belayAnnounce (b : Fin 2) (bytes : List Byte) (err : Bool) (violations : Nat)
  /-- BELAY_FORMED (R469): A member receives a FORMED frame that lists it and enters FORMED.
  `bytes`: the frame as received; `err`: it ended with an error; `violations`: code violations in it. -/
  | belayFormed (b : Fin 2) (bytes : List Byte) (err : Bool) (violations : Nat)
  /-- BELAY_WAYPOINT (R474): A member receives a WAYPOINT frame and commits the rope entry on arrival.
  `bytes`: the frame as received; `err`: it ended with an error; `violations`: code violations in it. -/
  | belayWaypoint (b : Fin 2) (bytes : List Byte) (err : Bool) (violations : Nat)
  /-- BELAY_REMOTE_REQ (R476): A member receives a REMOTE_REQ, executes or refuses the access and returns a REMOTE_RESP.
  `bytes`: the frame as received; `err`: it ended with an error; `violations`: code violations in it. -/
  | belayRemoteReq (b : Fin 2) (bytes : List Byte) (err : Bool) (violations : Nat)
  /-- BELAY_REMOTE_RESP (R476): The lead receives a REMOTE_RESP and completes the matching remote command.
  `bytes`: the frame as received; `err`: it ended with an error; `violations`: code violations in it. -/
  | belayRemoteResp (b : Fin 2) (bytes : List Byte) (err : Bool) (violations : Nat)
  /-- BELAY_STATUS (R478): The lead receives a STATUS frame and updates the member's entry.
  `bytes`: the frame as received; `err`: it ended with an error; `violations`: code violations in it. -/
  | belayStatus (b : Fin 2) (bytes : List Byte) (err : Bool) (violations : Nat)
  /-- BELAY_ALARM (R481): A new ALARM frame is accepted, which makes AL57 active and records ROPE_ALARM_LAST.
  `bytes`: the frame as received; `err`: it ended with an error; `violations`: code violations in it. -/
  | belayAlarm (b : Fin 2) (bytes : List Byte) (err : Bool) (violations : Nat)
  /-- BELAY_UNKNOWN_TYPE (R464): A Belay frame of an unlisted type is discarded and counted in FRAMES_DISCARDED.
  `bytes`: the frame as received; `err`: it ended with an error; `violations`: code violations in it. -/
  | belayUnknownType (b : Fin 2) (bytes : List Byte) (err : Bool) (violations : Nat)
  /-- MEMBER_TIMEOUT (R478): No STATUS has arrived from a member for MEMBER_TIMEOUT, so the lead marks it lost, enters DEGRADED and sends FORMED. -/
  | memberTimeout (pos : Fin 8)
  /-- ROPE_CFG_WRITE (R458): A write of ROPE_CFG role, position, topology or expected mask is ignored with CFG_REFUSED unless the rope state is IDLE. -/
  | ropeCfgWrite (v : Word)
  /-- ROPE_KEY_INSTALL (R467): The page 0x0A command ROPE_KEY_INSTALL moves a ROPE slot key into the Belay engine with presence and returns the ports to ALIGN. -/
  | ropeKeyInstall (slot : Fin 4)
  /-- ROPE_KEY_ERASE (R468): The page 0x0A command ROPE_KEY_ERASE clears the rope key and returns every port to ALIGN. -/
  | ropeKeyErase (slot : Fin 4)
  /-- REMOTE_READ (R476): The page 0x0A command REMOTE_READ sends a REMOTE_REQ read to a formed member. -/
  | remoteRead (slot : Fin 4)
  /-- REMOTE_WRITE (R476): The page 0x0A command REMOTE_WRITE sends a REMOTE_REQ write to a formed member. -/
  | remoteWrite (slot : Fin 4)
  /-- REMOTE_TIMEOUT (R476): No response arrives within 100 µs, and the remote command ends with ERR_STATE, detail 3. -/
  | remoteTimeout (slot : Fin 4)
  /-- SET_POWER_STATE (R487): The page 0x04 command SET_POWER_STATE requests a move between STANDBY and ACTIVE, or is refused. -/
  | setPowerState (slot : Fin 4)
  /-- BUDGET_CEILING_WRITE (R491): A write of BUDGET_CEILING sets the budget, or is refused with CEILING_REFUSED when out of range or below the accounted total. -/
  | budgetCeilingWrite (v : BitVec 12)
  /-- AVS_ENABLE_WRITE (R501): A write of AVS_CTRL.ENABLE starts or stops voltage scaling, and a write of 0 then 1 clears an AVS fault stop. -/
  | avsEnableWrite (v : Word)
  /-- AVS_STEP (R500): At most every 100 µs the device sends one 5 mV Vout step towards the clamped target.
  `hot`: the hottest sensor's reading. -/
  | avsStep (hot : BitVec 16)
  /-- AVS_READBACK (R501): Every 1 ms the device reads back Vout and Iout, and latches AVS_FAULT after ten bad readbacks or 10 ms without response.
  `response`: voltage and current as answered, none for no valid answer. -/
  | avsReadback (response : Option (BitVec 10 × BitVec 16))
  /-- WINDOW_CLOSE (R512): A window is closed within 14 µs of its END, its totals are copied into PORT_TELEM and its record is written. -/
  | windowClose (p : Fin 256)
  /-- THRESHOLD_CROSSING (R519): A threshold counter's ABOVE changes at a tick, which counts a rise and writes a threshold record. -/
  | thresholdCrossing (th : Fin 64)
  /-- PERF_COUNTER_OVERFLOW (R521): A core performance counter with overflow interrupts enabled wraps, sets OF and raises the local overflow interrupt.
  `addr`: the last instruction retired before the trap. -/
  | perfCounterOverflow (core : Fin 4) (n : Fin 8) (addr : BitVec 64)
  /-- SMB_READ_TEMPERATURE (R539): SMBus command 0x02 returns the hottest junction temperature.
  `hot`: the hottest sensor's reading. -/
  | smbReadTemperature (hot : BitVec 16)
  /-- PCS_REALIGNED (R150): The PCS of a port in HOLDOFF regains marker lock on every PCS lane and realigns while all its lanes stay ACTIVE, so the port returns to UP and counts HOLDOFF_RECOVERED. -/
  | pcsRealigned (p : Fin 256)
  /-- COPY_END (R207): A transmitted copy hands its last byte to the port engine, so it leaves its queue's charge, frees its cells when no other copy holds them, and has its frame context zeroed within 20 ns.
  `handed`: bytes of the copy handed to the port engine. -/
  | copyEnd (p : Fin 256) (handed : Nat)
  /-- MAIN_SUPPLY_LOSS (R388): The main I/O supply stays below 1.62 V for 200 ns, so Base Camp switches to VBAT, holds the main domain in reset and the device enters BASE_CAMP_ONLY. -/
  | mainSupplyLoss
  /-- BASE_CAMP_COLD_START (R378): Base Camp starts cold after both VBAT and the main supply were absent, so all Base Camp state is lost and the configuration takes its cold defaults. -/
  | baseCampColdStart
  /-- PCIE_CONVENTIONAL_RESET (R55): PERST# or a hot reset resets the PCIe endpoint, the host rings and the host command slots, and erases host-created EXPIRE_AT_RESET slots, while traffic continues. -/
  | pcieConventionalReset
  /-- FUNCTION_LEVEL_RESET (R31): A function-level reset acts with the scope of a PCIe conventional reset. -/
  | functionLevelReset
  /-- BUS_MASTER_DISABLE (R31): Clearing Bus Master Enable stops all host-ring DMA at the next descriptor boundary and leaves the data plane running. -/
  | busMasterDisable
  /-- D3HOT_ENTRY (R31): Entry to D3hot stops host DMA as a Bus Master Enable clear does and changes neither the power state nor the run state. -/
  | d3hotEntry
  /-- EV_FIRST_REARM (R58): A write of 1 to EV_FIRST.VALID rearms the capture of the device's first active event source. -/
  | evFirstRearm
  /-- TIMEBASE_PLL_LOCK (R66): The timebase PLL locks, device time starts at 0 s and ticks begin. -/
  | timebasePllLock
  /-- ADJ_STEP (R70): ADJ_CMD MODE STEP adds OFFSET to device time on the next tick, or is refused with ADJ_REFUSED when the result is out of range. -/
  | adjStep
  /-- ADJ_SLEW (R71): ADJ_CMD MODE SLEW loads OFFSET into ADJ_REMAIN and slews device time at SLEW_RATE. -/
  | adjSlew
  /-- ADJ_ABORT (R71): ADJ_CMD MODE ABORT ends a slew in progress and keeps the time gained so far. -/
  | adjAbort
  /-- SLEW_DONE (R71): ADJ_REMAIN reaches zero, which ends the slew and latches SLEW_DONE. -/
  | slewDone
  /-- HOLDOVER_TIMEOUT (R73): HOLDOVER_TIMEOUT milliseconds pass without an accepted rate commit or ADJ_CMD, and device time enters holdover. -/
  | holdoverTimeout
  /-- REF_LOST (R74): The timing reference is lost: the clock-monitor alarm is raised, REF_LOST is set, the PLL holds and device time enters holdover. -/
  | refLost
  /-- REF_RESTORED (R74): The timing reference returns within range, the PLL relocks in frequency without a time step, and REF_LOST clears. -/
  | refRestored
  /-- TOD_TX_EMPTY (R76): The time-of-day transmit queue has been sent empty, and TOD_TX_EMPTY latches. -/
  | todTxEmpty
  /-- WAYPOINT_ENGINE_ENABLE (R93): Setting PAGE_CTRL.ENABLE of page 0x03 from 0 to 1 starts the waypoint engine and judges every ARMED entry as committed at that instant. -/
  | waypointEngineEnable
  /-- PARENT_CASCADE_DONE (R272): The cascade of erasures by parent-loss policy completes within 10 µs and CASCADE_ACTIVE clears. -/
  | parentCascadeDone
  /-- VAULT_GRANT_IDLE_RELEASE (R266): After 100 µs with no vault command queued or running, the vault engine releases its 2-unit grant. -/
  | vaultGrantIdleRelease
  /-- ENTROPY_TEST_FAIL (R277): An entropy health test fails, so DRBG_STATE becomes ERROR and the entropy alarm is raised. -/
  | entropyTestFail
  /-- FDB_OP_LOOKUP (R290): FDB_OP LOOKUP finds the key of FDB_KEY in its bucket and reports HIT and INDEX. -/
  | fdbOpLookup
  /-- FDB_OP_INSERT (R290): FDB_OP INSERT places or replaces the forwarding entry of FDB_KEY, or ends with FULL. -/
  | fdbOpInsert
  /-- FDB_OP_DELETE (R290): FDB_OP DELETE removes the forwarding entry of FDB_KEY. -/
  | fdbOpDelete
  /-- FDB_AGING_PASS (R292): At the end of every AGE_PERIOD, dynamic entries with HIT 0 are removed and HIT is cleared in the others. -/
  | fdbAgingPass
  /-- BUFFER_ZERO_FILL_DONE (R305): A whole-buffer zero-fill ends with every charge zero and latches ZERO_FILL_DONE. -/
  | bufferZeroFillDone
  /-- WATCHDOG_ENABLE (R358): A write of 1 to WD_CTRL.ENABLE starts the watchdog until the next device reset. -/
  | watchdogEnable
  /-- WATCHDOG_TIMEOUT (R358): WD_TIMEOUT elapses without service, and the watchdog enters GRACE and asserts interrupt source 513. -/
  | watchdogTimeout
  /-- WATCHDOG_EXPIRY (R359): WD_GRACE elapses without service, and the watchdog takes the lower of ACTION and WD_LIMIT. -/
  | watchdogExpiry
  /-- MGMT_RESTART_CORES_START (R361): After 10 µs in reset the cores start again in the boot ROM and MGMT_RESTARTED latches. -/
  | mgmtRestartCoresStart
  /-- MGMT0_TX_DESCRIPTOR (R363): A descriptor of the MGMT0 transmit ring is taken and its frame is sent on MGMT0. -/
  | mgmt0TxDescriptor
  /-- ALARM_RECORD (R393): At a tick, newly active sources are recorded with sticky flags and log entries, and the highest effective severity's response is applied. -/
  | alarmRecord
  /-- ZEROIZE_KEYS_CLEAR (R397): Roots, vault, SA keys, cipher contexts, memory-guard keys and rope key are clear within 2 µs, and KEYS_CLEAR sets. -/
  | zeroizeKeysClear
  /-- ZEROIZE_MEMORY_CLEAR (R397): SRAM, caches and buffer are clear within 1 ms, and MEMORY_CLEAR sets. -/
  | zeroizeMemoryClear
  /-- BATTERY_ALARM_RECORD (R398): In battery-only operation, or before the first tick, a Base Camp source is recorded on a Base Camp cycle with its battery response. -/
  | batteryAlarmRecord
  /-- EVIDENCE_OTP_COMMIT (R401): With main power on, the OTP controller commits pending evidence increments within 1 ms. -/
  | evidenceOtpCommit
  /-- BC_TIME_REF_CAPTURE (R403): At each tick whose time is a whole second, Base Camp stores that second, BC_COUNT and TIME_SET in BC_TIME_REF. -/
  | bcTimeRefCapture
  /-- PRESENCE_ASSERTED (R410): PRESENCE_N has been sampled low at every tick for 20 ms, and presence becomes asserted. -/
  | presenceAsserted
  /-- PRESENCE_WITHDRAWN (R410): PRESENCE_N is sampled high and presence is withdrawn, ending commands and transitions that need it. -/
  | presenceWithdrawn
  /-- LC_INTENT_COMMITTED (R413): The last fuse of the target's intent word is blown, and the transition no longer needs presence. -/
  | lcIntentCommitted
  /-- LC_WIPE_DONE (R412): The stores listed for the transition are cleared and the INSTALL phase begins. -/
  | lcWipeDone
  /-- LC_INSTALL_DONE (R412): The OTP words and Base Camp contents of the transition are written and the completion word is programmed. -/
  | lcInstallDone
  /-- LC_TRANSITION_COMPLETE (R415): The completion word is programmed, LC_LAST records the transition and a device reset follows. -/
  | lcTransitionComplete
  /-- DEBUG_CHALLENGE_EXPIRY (R425): An outstanding debug challenge expires 120 s of device time after it was issued. -/
  | debugChallengeExpiry
  /-- FULL_DEBUG_WIPE_DONE (R427): The main-domain stores are cleared after a full-debug response, and FULL_OPEN is set. -/
  | fullDebugWipeDone
  /-- ANNOUNCE_TIMER (R464): Every 1 ms while JOINING, a member sends ANNOUNCE. -/
  | announceTimer
  /-- STATUS_TIMER (R464): Every 1 ms while FORMED or JOINING, a member sends STATUS to the lead. -/
  | statusTimer
  /-- LEAD_TIMEOUT (R479): A member receives no rope frame from position 0 for LEAD_TIMEOUT and enters LEAD_LOST. -/
  | leadTimeout
  /-- ROPE_CMD_START (R469): ROPE_CMD OP START makes a member JOINING or a lead FORMING. -/
  | ropeCmdStart
  /-- ROPE_CMD_LEAVE (R469): ROPE_CMD OP LEAVE returns the device to IDLE and clears its member table. -/
  | ropeCmdLeave
  /-- ROPE_CMD_FORCE_FORM (R469): ROPE_CMD OP FORCE_FORM makes a FORMING lead enter FORMED with the positions recorded so far. -/
  | ropeCmdForceForm
  /-- POWER_STATE_TRANSITION_DONE (R487): A power-state transition completes its steps, POWER_STATE changes and event bit 16 latches. -/
  | powerStateTransitionDone
  /-- ARBITER_GRANT (R493): In a tick the arbiter grants waiting requests that fit, in class and arrival order, which starts the granted actions. -/
  | arbiterGrant
  /-- GRANT_PORTION (R494): A portion of a large grant is issued within the room of the SLEW_LIMIT window. -/
  | grantPortion
  /-- RELEASE_PORTION (R494): A portion of a release is admitted within the SLEW_LIMIT window, and its units leave the accounted total. -/
  | releasePortion
  /-- QUEUE_SAMPLE_SWEEP (R516): At each multiple of 2^PERIOD_LOG µs, every queue in sampling mode has its depth and head age sampled. -/
  | queueSampleSweep
  /-- SMB_READ_DEV_STATE (R539): SMBus command 0x01 returns the run state and the power state. -/
  | smbReadDevState
  /-- SMB_READ_TAMPER_MESH_CASE (R539): SMBus command 0x03 returns the mesh and case tamper counts. -/
  | smbReadTamperMeshCase
  /-- SMB_READ_TAMPER_SUPPLY_CLOCK (R539): SMBus command 0x04 returns the supply and clock tamper counts. -/
  | smbReadTamperSupplyClock
  /-- SMB_READ_STATUS_FLAGS (R539): SMBus command 0x05 returns the sticky, zeroize, halt-record and power-pending flags. -/
  | smbReadStatusFlags
  /-- SMB_READ_ACCOUNTED (R539): SMBus command 0x06 returns ARB_TOTAL.ACCOUNTED. -/
  | smbReadAccounted
  /-- SMB_READ_VOUT (R539): SMBus command 0x07 returns AVS_READ.VOUT_MV. -/
  | smbReadVout
  /-- SMB_READ_LC_STATE (R539): SMBus command 0x08 returns LC_STATE. -/
  | smbReadLcState
  /-- SMB_READ_DEVICE_ID (R539): SMBus command 0x10 returns DEVICE_ID as an 8-byte block read. -/
  | smbReadDeviceId
  /-- SMB_ALERT_RESPONSE (R539): A read of the SMBus Alert Response Address is answered while SMB_ALERT_N is asserted. -/
  | smbAlertResponse
  /-- SMB_OTHER (R539): An unlisted SMBus command code, or any SMBus write, is acknowledged and has no effect. -/
  | smbOther
  deriving DecidableEq, Repr

end Sys2Proof
end

