-- ==== Sys2Proof/Config.lean ====
section
/-! DEFINITION. What the spec leaves open: constants with no body, so that no proof can see a value. -/

namespace Sys2Proof.Config

/-- The n-th value the part produces where the spec gives no value; the consumer cuts it to its width. -/
opaque free : Nat → Nat

/-- The bucket of a forwarding-database key: a hash that the manual does not define (R289). -/
opaque fdbHash : Nat → Nat

/-- The process trim that the blank or programmed trim words stand for: the manual gives no layout of them (R500). -/
opaque avsCode : List (Nat × Nat) → Nat

/-- Time that alignment markers take on the line of a port while so many bytes are sent from an instant on: the manual does not say where
they fall (R326). -/
opaque markerTime : Nat → Nat → Nat → Nat

/-- What codeword boundaries and alignment markers delay a start on a port by that could otherwise come at an instant (R223). -/
opaque startDelay : Nat → Nat → Nat

/-- The configuration register that MGMT0 sends while it negotiates (R363). -/
opaque negotiation : Nat → Nat

/-- What a generator's shift register starts from: the manual gives no seed (R120). -/
opaque patternSeed : Nat → Nat

/-- The SHA-384 of the boot ROM, a constant of the stepping that the manual does not print (R372). -/
opaque romId : Nat

end Sys2Proof.Config
end

