-- ==== Sys2Proof/Machine/State.lean ====
section
/-! DEFINITION. The state of the block as plain data, the reasons a command can stop, and the state after reset. -/

namespace Sys2Proof.Machine

/-- The run states of R27, with the codes of DEV_STATE.RUN_STATE (R39). -/
inductive RunState where
  | booting
  | active
  | contained
  | alarmHold
  | halted
  | zeroized
  deriving DecidableEq, Repr

/-- The power states of R15. -/
inductive PowerState where
  | baseCampOnly
  | standby
  | active
  deriving DecidableEq, Repr

/-- A write whose effect the spec places in the tick after it: it waits in `Dev.posted` until that tick (R82, R83). -/
inductive Posted where
  /-- A committed RATE_ADJ value (R69). -/
  | rate (v : Nat)
  /-- ADJ_CMD with its MODE, and OFFSET in units of 2^-48 ns as it stood at the write (R70, R71). -/
  | adj (mode : Nat) (offset : Int)
  /-- Ones written to EVT_FORCE of a page (R42). -/
  | evtForce (pg : Nat) (bits : Nat)
  /-- PAGE_CTRL.SOFT_RESET of a page (R544). -/
  | softReset (pg : Nat)
  /-- PORT_CTRL.ENABLE of a port written 0 (R143), or written 1 behind such a write. -/
  | portDisable (p : Nat)
  | portEnable (p : Nat)
  /-- The hold-off timer of a port has ended: it acts at the end of its own tick (R150, R151). -/
  | holdoffEnd (p : Nat)
  /-- SA_CMD: ENABLE or RETIRE of a receive or transmit SA (R193). -/
  | saCmd (enable : Bool) (rx : Bool) (i : Nat)
  /-- GATE_CMD: CONFIG_CHANGE or CANCEL for a port (R323, R325). -/
  | gateCmd (p : Nat) (cancel : Bool)
  /-- GATE_ENABLE of a port written 0 (R321). -/
  | gateOff (p : Nat)
  /-- LC_TRANSITION with its TARGET (R411). -/
  | lifeCycle (target : Nat)
  /-- RANGE_CTRL.ENABLE of a memory-guard range written 1 (R435). -/
  | rangeEnable (r : Nat)
  /-- The seal of a BOOT_COMPLETE that has passed its checks, for slot `i` of page 0x0D (R374, R375). -/
  | bootSeal (i : Nat)
  deriving DecidableEq, Repr

/-- What leaves the device, in order: the model's own record of everything a step drives out of the part. -/
inductive Out where
  /-- The answer to a register read. -/
  | read (m : Master) (addr : Nat) (v : Nat)
  /-- An MSI-X message (R59). -/
  | msix (vector : Nat) (addr : Nat) (data : Nat)
  /-- A pulse on a PPS output: leading edge in units of 2^-48 ns, width in ns, active level (R88). -/
  | pps (output : Nat) (edge : Nat) (widthNs : Nat) (activeHigh : Bool)
  /-- A burst of the time-of-day UART (R76). -/
  | tod (bytes : List Byte)
  /-- A frame on a port, from DA to FCS, with its planned start in units of 2^-48 ns (R223). -/
  | frame (port : Nat) (start : Nat) (bytes : List Byte)
  /-- A fragment of a preempted copy is closed after this many bytes of the copy (R331). -/
  | fragment (port : Nat) (sent : Nat)
  /-- A transmission that ends with an error control character (R143, R151). -/
  | aborted (port : Nat) (start : Nat)
  /-- A line written to DRAM: offset, the 64 data bytes as stored, and the MAC of a PROTECTED line (R438, R440). -/
  | dram (offset : Nat) (line : List Byte) (mac : Option Nat)
  /-- The answer to a core, DMA or debug read of memory, or an error response (R447). -/
  | mem (master : Nat) (addr : Nat) (bytes : Option (List Byte))
  /-- Bytes the part writes to memory by DMA: to the host, or to management memory (R344, R522). -/
  | dma (mgmt : Bool) (addr : Nat) (bytes : List Byte)
  /-- A frame on a Belay port: 0 EAST, 1 WEST (R462). -/
  | belay (port : Nat) (bytes : List Byte)
  /-- A time marker on a Belay port (R471). -/
  | marker (port : Nat) (mseq : Nat)
  /-- A Vout command on the AVS bus, in mV (R500). -/
  | avs (mv : Nat)
  /-- What a lane's transmitter answers to a training request: applied or not (R108). -/
  | trained (lane : Nat) (request : TrainRequest) (applied : Bool)
  /-- The answer to an SMBus access: the code, and the data bytes (R539). -/
  | smb (code : Nat) (bytes : List Byte)
  deriving DecidableEq, Repr

/-- What a power request starts once its grant is complete (R490). -/
inductive PowerAction where
  /-- The reservation of a port (R142). -/
  | port (p : Nat)
  /-- Steady and PLL units of a test lane (R104). -/
  | testLane (l : Nat)
  /-- Bring-up burst of a lane (R104). -/
  | laneBurst (l : Nat)
  /-- Adaptation burst of a lane (R111). -/
  | adaptBurst (l : Nat)
  /-- Eye scan of a lane with a profile, for a waypoint or for a register start (R117). -/
  | eyeScan (l : Nat) (profile : Nat) (waypoint : Option Nat)
  /-- A replacement pipe set of a cluster: direction 0 receive, 1 transmit (R218). -/
  | pipeSet (k : Nat) (dir : Nat) (set : Nat)
  /-- The vault engine (R266). -/
  | vault
  /-- The memory-guard engine (R452). -/
  | memGuard
  /-- Entry to power state ACTIVE (R487). -/
  | powerState
  deriving DecidableEq, Repr

/-- A request at the power arbiter (R492, R493): class 0 A, 1 B, 2 C, 3 D. -/
structure PowerReq where
  requester : Nat
  units : Nat
  cls : Nat
  action : PowerAction
  arrived : Nat
  /-- It has been considered and did not fit, so it waits. -/
  waits : Bool
  deriving DecidableEq, Repr

/-- A grant that is being issued in portions (R494). -/
structure PowerGrant where
  requester : Nat
  action : PowerAction
  issued : Nat
  left : Nat
  deriving DecidableEq, Repr

/-- What the receive procedure decided about a frame when it was parsed (R184 to R188). -/
inductive RxKind where
  /-- The port is not protected, or the frame comes from a ring. -/
  | plain
  /-- Uncontrolled port, with the bypass class (R171). -/
  | bypass
  /-- Delivered without verified protection (R188). -/
  | unvalidated
  /-- Deciphered and verified under a latched SA. -/
  | controlled
  /-- A MAC Control frame, which the port engine counts and drops (R156). -/
  | macControl
  /-- Dropped at its parse. -/
  | dropped
  deriving DecidableEq, Repr

/-- A frame that the part holds, from its head until its last copy has left (R283, R297). -/
structure Frame where
  id : Nat
  /-- It was injected from a transmit ring; `src` is then the ring, else the ingress port. -/
  fromRing : Bool
  src : Nat
  /-- It is received by the preemptable MAC (R329). -/
  pmac : Bool
  /-- Receive timestamp in units of 2^-48 ns (R77), whether the part keeps it (R81), and its two flags. -/
  stamp : Nat
  stamped : Bool
  tsHold : Bool
  tsUncal : Bool
  /-- Bytes received so far as on the wire from DA, the FCS included once the tail has arrived. -/
  wire : List Byte
  /-- The stored plaintext, without SecTAG, ICV and FCS. -/
  plain : List Byte
  /-- Part of it came in an errored block (R136); its tail has arrived; it has passed every check; it has failed. -/
  errored : Bool
  tail : Bool
  passed : Bool
  failed : Bool
  kind : RxKind
  /-- Counters of tables 8 to 13 that move at the tail: table, entry, counter (R187). -/
  charges : List (Nat × Nat × Nat)
  /-- Receive SecY, SC and SA latched at the parse, with the PN and the context's copy of the key (R191, R200). -/
  secy : Option Nat
  sc : Nat
  sa : Option Nat
  pn : Nat
  key : Nat
  salt : Nat
  ssci : Nat
  /-- The rest of the context: SCI, cipher suite and CONF_OFFSET in bytes, and which load of the SA's key it holds (R191, R200). -/
  sci : Nat
  suite : Nat
  off : Nat
  load : Nat
  /-- Classifier key fields (R283). -/
  secStatus : Nat
  bypassClass : Nat
  /-- Rule applied, forwarding VID, and what the tail still does: learning and the policer's charge. -/
  rule : Option Nat
  vid : Nat
  noLearn : Bool
  meter : Option (Nat × Nat)
  /-- Trap classes whose buckets are charged at its tail (R319, R351). -/
  traps : List Nat
  /-- Cells of its bytes received so far, and their numbers in order (R296). -/
  cells : Nat
  cellNos : List Nat
  /-- It is the transmit stream of its own port, returned under LOOPBACK (R153). -/
  looped : Bool
  /-- STATUS of the receive descriptor (R347). -/
  status : Nat
  deriving DecidableEq, Repr

/-- What becomes of a copy's outer tag (R294, R320). -/
structure TagEdit where
  /-- NORMAL forwarding: tag with this VID and PCP, or leave without outer tag. -/
  normal : Bool
  untag : Bool
  vid : Nat
  pcp : Nat
  /-- REDIRECT: rewrite VID or PCP of an outer tag that the copy has. -/
  setVid : Bool
  setPcp : Bool
  /-- MARK_DEI applies. -/
  dei : Bool
  deriving DecidableEq, Repr

/-- A copy that waits in a queue (R294, R298). -/
structure Copy where
  id : Nat
  frame : Nat
  /-- Global queue number: 16 p + q, or 4,096 + ring. -/
  queue : Nat
  edit : TagEdit
  cdOp : Nat
  /-- Request receive time for TURNAROUND (R242). -/
  cdTime : Nat
  flow : Nat
  colour : Nat
  /-- Timebase cycle in which it joined its queue (R515). -/
  joined : Nat
  /-- Transmit ring and descriptor index whose completion waits for this copy (R350). -/
  desc : Option (Nat × Nat)
  tsReq : Bool
  deriving DecidableEq, Repr

/-- A copy that has been issued (R223). -/
structure TxCopy where
  copy : Copy
  port : Nat
  /-- Planned start in units of 2^-48 ns of device time, and the same instant counted in timebase cycles since device time
  started, which no step moves. -/
  start : Nat
  phys : Nat
  /-- It is protected under this transmit SA, with its PN and the context's copy of the key (R200). -/
  sa : Option Nat
  pn : Nat
  key : Nat
  /-- What the transmit procedure fixed for the cipher: SecTAG, IV, key length in bytes, confidentiality and its offset. -/
  tag : List Byte
  iv : Nat
  klen : Nat
  conf : Bool
  off : Nat
  /-- The committed time t_c in units of 2^-48 ns (R242). -/
  tc : Nat
  /-- It was issued before its frame's verdict (R301). -/
  cut : Bool
  /-- Line bytes S charged at issue (R311). -/
  s : Nat
  started : Bool
  /-- A committed copy that is to be dropped at its start, with the counter: 0 none, 1 FORMAT, 2 CAL (R244). -/
  drop : Nat
  /-- Steps of device time, and rate movement, counted when it was issued (R244). -/
  steps : Nat
  moved : Nat
  /-- The stomp counter of R212 once the copy is poisoned. -/
  poison : Option Nat
  /-- Preemptable, suspended, bytes sent in earlier fragments, and start of the present fragment, as `phys` (R331). -/
  pre : Bool
  suspended : Bool
  sent : Nat
  fragStart : Nat
  deriving DecidableEq, Repr

/-- A descriptor that has been taken and is not yet complete (R347, R350). -/
structure RingDesc where
  ring : Nat
  index : Nat
  words : List Nat
  /-- Frame that is being written to a receive ring's buffer, the tier in which it was served (0 when no bucket was charged) and
  the bytes charged so far (R352). -/
  frame : Option Nat
  tier : Nat
  charged : Nat
  /-- STATUS once it is known. -/
  done : Option Nat
  deriving DecidableEq, Repr

/-- A line of the counter tree held in the counter cache (R443): range, level (0 for a counter block), number. -/
structure MetaLine where
  range : Nat
  level : Nat
  n : Nat
  dirty : Bool
  deriving DecidableEq, Repr

/-- An access that waits for a page's re-encryption (R444): bytes to write into a line, or a read by a master. -/
inductive MgPending where
  | write (line off : Nat) (bytes : List Byte)
  | read (u addr n : Nat)
  deriving DecidableEq, Repr

/-- A page that is being re-encrypted: range, page, and steps done (R444). -/
structure MgReenc where
  range : Nat
  page : Nat
  done : Nat
  deriving DecidableEq, Repr

/-- A character of the 8b/10b code: a data byte, or a K-code by its byte (R124, R125). -/
inductive LineChar where
  | data (b : Byte)
  | k (b : Byte)
  deriving DecidableEq, Repr

/-- The transmitter of an 8b/10b line (R124 to R127). -/
structure LineTx where
  /-- Running disparity is positive. -/
  rd : Bool
  /-- The next character has an odd position. -/
  odd : Bool
  /-- Idle ordered sets in a row, to 18; 19 and 20 after a configuration set of MGMT0. -/
  idles : Nat
  /-- The last 31 bits of the richness filler's PRBS31. -/
  prbs : Nat
  /-- Characters that wait. -/
  queue : List LineChar
  deriving DecidableEq, Repr

/-- A transmitter that starts: disparity negative (R124). DESIGN CHOICE: the PRBS31 register holds all ones at reset, where the spec gives no
value (log 3). -/
def LineTx.start : LineTx := ⟨false, false, 0, 2 ^ 31 - 1, []⟩

/-- A Belay frame that waits for its port: its header fields and its payload in clear (R462, R466). -/
structure LineWait where
  port : Nat
  type : Nat
  origin : Nat
  hops : Nat
  dst : Nat
  epoch : Nat
  seq : Nat
  payload : List Byte
  deriving DecidableEq, Repr

/-- The main-domain and Base Camp contents of the part. -/
structure Dev where
  /-- Every register field, table field and latch of fixed width, sparse and canonical. -/
  cells : List (Nat × Nat)
  /-- Device time in units of 2^-48 ns (R65, R67). -/
  time : Nat
  /-- Timebase cycles since device time started (R66). -/
  cyc : Nat
  /-- The model's own serial number of the current tick: events with the same serial are simultaneous (R19). -/
  tick : Nat
  /-- The current tick's time, and the multiple of 4 ns that the next tick carries, in units of 2^-48 ns (R82). -/
  tickTime : Nat
  nextTick : Nat
  /-- Writes that act in the tick after theirs, in order of arrival, each with the serial of the tick in which it arrived (R83). -/
  posted : List (Nat × Posted)
  /-- The time-of-day queues, oldest byte first (R76). -/
  todTx : List Byte
  todRx : List Byte
  /-- Requests that the arbiter has not granted, in order of arrival (R493). -/
  waiting : List PowerReq
  /-- Grants being issued in portions (R494). -/
  issuing : List PowerGrant
  /-- Releases not yet admitted: requester and units (R494). -/
  releasing : List (Nat × Nat)
  /-- Grant portions issued and release portions admitted in the last 250 ticks: tick serial and units (R494). -/
  slewIssued : List (Nat × Nat)
  slewAdmitted : List (Nat × Nat)
  /-- SA event records, oldest first, as the word of SA_EVT_POP (R198). -/
  saEvents : List Nat
  /-- Frames held, in order of arrival; copies waiting in queues, in order of joining; copies issued, in order of issue. -/
  frames : List Frame
  copies : List Copy
  txs : List TxCopy
  /-- Buffer cells that are not zero, by number: 1 held by a frame, 2 released with its last contents (R296, R304). -/
  cellMem : List (Nat × Nat)
  /-- Frames returned to their own port under LOOPBACK and not yet received, oldest first: port, and bytes with the FCS (R153). -/
  looped : List (Nat × List Byte)
  /-- Scheduled admissions and retirements of transmit SAs whose instant has not come, in order of execution: the SA, whether it is
  admitted, and the instant (R18, R89). -/
  txHeld : List (Nat × Bool × Nat)
  /-- Ring descriptors taken and not complete, in the order taken. -/
  descs : List RingDesc
  /-- Plaintext of the DRAM lines as the guard would deliver them, by line number, zero lines not listed (R435). -/
  dram : List (Nat × Nat)
  /-- Majors by range and page, minors by line, and tree counters by range, level and number, zeros not listed (R441, R442). -/
  mgMajor : List (Nat × Nat)
  mgMinor : List (Nat × Nat)
  mgTree : List (Nat × Nat)
  /-- The counter cache, newest line first (R443). -/
  mgCache : List MetaLine
  /-- Accesses that wait for a re-encryption, and pages being re-encrypted (R444). -/
  mgPending : List MgPending
  mgReenc : List MgReenc
  /-- WAYPOINT frames held for a Belay port that is not UP, oldest first: port, the header and the payload in clear (R474). -/
  ropeHeld : List (Nat × List Byte)
  /-- Frames that wait for a Belay port to end the frame before, in order of arrival (R466). -/
  lineWait : List LineWait
  /-- Transmitters of the 8b/10b lines: Belay EAST, Belay WEST, MGMT0 (R124). -/
  lines : List LineTx
  /-- Bytes of the on-die SRAM by address, zeros not listed (R340). -/
  sram : List (Nat × Nat)
  /-- The model's own serial for frames and copies. -/
  serial : Nat
  /-- The model's own count of free values drawn. -/
  freeCtr : Nat
  /-- Everything the part has driven out, oldest first. -/
  out : List Out
  deriving DecidableEq, Repr

/-- The state of the block. -/
structure State where
  /-- Commands waiting, first in first out. -/
  pending : List Instr
  /-- The ten anchor groups of R61, bit n for group n. -/
  anchors : BitVec 10
  run : RunState
  power : PowerState
  /-- The OTP words of R408, as (word number, value), keys rising and no zero listed. -/
  otp : List (Nat × Nat)
  d : Dev
  deriving DecidableEq, Repr

/-- Why a step could stop with a fault. No command of this block faults. -/
inductive Fault where
  deriving DecidableEq, Repr

/-- Why a step answers with no next state. -/
inductive Refusal where
  /-- A command of the table that has no meaning yet. Raised by `exec` alone; safe. -/
  | notModelled (mnemonic : String)
  deriving DecidableEq, Repr

/-- The device contents right after reset: nothing listed, time not started. -/
def Dev.empty : Dev where
  cells := []
  time := 0
  cyc := 0
  tick := 0
  tickTime := 0
  nextTick := 0
  posted := []
  todTx := []
  todRx := []
  waiting := []
  issuing := []
  releasing := []
  slewIssued := []
  slewAdmitted := []
  saEvents := []
  frames := []
  copies := []
  txs := []
  cellMem := []
  looped := []
  txHeld := []
  descs := []
  dram := []
  mgMajor := []
  mgMinor := []
  mgTree := []
  mgCache := []
  mgPending := []
  mgReenc := []
  ropeHeld := []
  lineWait := []
  lines := [LineTx.start, LineTx.start, LineTx.start]
  sram := []
  serial := 0
  freeCtr := 0
  out := []

/-- The machine right after a power-on reset with a new Base Camp and blank fuses: STANDBY and BOOTING (R26). -/
def State.reset : State := ⟨[], 0, .booting, .standby, [], Dev.empty⟩

/-- The same state with other device contents. -/
def State.setDev (s : State) (d : Dev) : State := { s with d := d }

end Sys2Proof.Machine
end

