-- ==== Sys2Proof/Machine/Cells.lean ====
section
/-! DEFINITION. The store of named fields: a sparse list in canonical form, and reading and writing one field.
A stored number is the exclusive-or of the field's value with its reset value, so a field at its reset value is not
listed and a store with nothing listed is the store right after reset. -/

namespace Sys2Proof.Machine

/-- A named field: where its value is kept, its width, and its reset value. -/
structure Fld where
  key : Nat
  w : Nat
  reset : Nat
  deriving DecidableEq, Repr

/-- The stored number at a key; an unlisted key holds 0. -/
def Cells.find : List (Nat × Nat) → Nat → Nat
  | [], _ => 0
  | (j, v) :: r, k => if j = k then v else Cells.find r k

/-- Put a value that is not zero where the keys keep rising. -/
def Cells.insert : List (Nat × Nat) → Nat → Nat → List (Nat × Nat)
  | [], k, v => [(k, v)]
  | (j, u) :: r, k, v => if k < j then (k, v) :: (j, u) :: r else if j = k then (k, v) :: r else (j, u) :: Cells.insert r k v

/-- Store `v` at `k`, keeping the keys strictly rising and listing no zero. -/
def Cells.put (c : List (Nat × Nat)) (k v : Nat) : List (Nat × Nat) :=
  if v = 0 then c.filter (fun p => p.1 != k) else Cells.insert c k v

/-- Forget every cell whose key lies in `[lo, hi)`: those fields return to their reset values. -/
def Cells.dropRange (c : List (Nat × Nat)) (lo hi : Nat) : List (Nat × Nat) :=
  c.filter fun p => decide (p.1 < lo) || decide (hi ≤ p.1)

/-- The canonical form: every listed number is not zero and the keys rise strictly. -/
def Cells.wfFrom : Nat → List (Nat × Nat) → Bool
  | _, [] => true
  | k, (j, v) :: r => decide (k ≤ j) && decide (v ≠ 0) && Cells.wfFrom (j + 1) r

/-- The canonical form of a whole store. -/
def Cells.wf (c : List (Nat × Nat)) : Bool := Cells.wfFrom 0 c

/-- Value of a field. -/
def Dev.get (d : Dev) (f : Fld) : Nat := Cells.find d.cells f.key ^^^ f.reset

/-- Write a field; the value is cut to the field's width. -/
def Dev.set (d : Dev) (f : Fld) (v : Nat) : Dev :=
  { d with cells := Cells.put d.cells f.key ((v % 2 ^ f.w) ^^^ f.reset) }

/-- A one-bit field read as a Bool (any nonzero value counts as set). -/
def Dev.on (d : Dev) (f : Fld) : Bool := d.get f != 0

/-- Write a one-bit field. -/
def Dev.setB (d : Dev) (f : Fld) (b : Bool) : Dev := d.set f (b2n b)

/-- Return a field to its reset value. -/
def Dev.reset (d : Dev) (f : Fld) : Dev := d.set f f.reset

/-- Set several fields, in order. -/
def Dev.setAll (d : Dev) : List (Fld × Nat) → Dev
  | [] => d
  | (f, v) :: r => Dev.setAll (d.set f v) r

/-- Return every field with a key in `[lo, hi)` to its reset value. -/
def Dev.clearRange (d : Dev) (lo hi : Nat) : Dev := { d with cells := Cells.dropRange d.cells lo hi }

/-! Places. Registers lie at their BAR0 byte address; table entries at page, table and index; pieces of state with no
register in numbered groups; what Base Camp holds lies above `bcBase` and outlives every reset of the main domain. -/

def tblBase : Nat := 2 ^ 44
def latBase : Nat := 2 ^ 48
def bcBase : Nat := 2 ^ 56

/-- A field of the register at page:offset, at bit `lo`. -/
def regFld (page off lo w reset : Nat) : Fld := ⟨(page * 65536 + off) * 64 + lo, w, reset⟩
/-- A field of entry `idx` of a table of a page, at entry bit `lo`. -/
def tblFld (page table idx lo w reset : Nat) : Fld :=
  ⟨tblBase + ((page * 32 + table) * 2 ^ 20 + idx) * 512 + lo, w, reset⟩
/-- A piece of main-domain state without a register. -/
def latFld (group idx w reset : Nat) : Fld := ⟨latBase + group * 2 ^ 32 + idx, w, reset⟩
/-- A register field whose value Base Camp keeps. -/
def bcRegFld (page off lo w reset : Nat) : Fld := ⟨bcBase + (page * 65536 + off) * 64 + lo, w, reset⟩
/-- A table field whose value Base Camp keeps. -/
def bcTblFld (page table idx lo w reset : Nat) : Fld :=
  ⟨bcBase + tblBase + ((page * 32 + table) * 2 ^ 20 + idx) * 512 + lo, w, reset⟩
/-- A piece of Base Camp state without a register. -/
def bcLatFld (group idx w reset : Nat) : Fld := ⟨bcBase + latBase + group * 2 ^ 32 + idx, w, reset⟩

/-- First key of entry `idx` of a table: its fields lie in the 512 keys from there. -/
def tblKey (page table idx : Nat) : Nat := tblBase + ((page * 32 + table) * 2 ^ 20 + idx) * 512
/-- First key of a page's registers. -/
def pageKey (page : Nat) : Nat := page * 65536 * 64

/-- Clear one table entry to its reset values. -/
def Dev.clearEntry (d : Dev) (page table idx : Nat) : Dev :=
  d.clearRange (tblKey page table idx) (tblKey page table (idx + 1))

/-- Clear a whole table to its reset values. -/
def Dev.clearTable (d : Dev) (page table : Nat) : Dev :=
  d.clearRange (tblKey page table 0) (tblKey page (table + 1) 0)

/-- Clear group `g` of the state without registers. -/
def Dev.clearGroup (d : Dev) (f : Fld) : Dev :=
  let g := (f.key - latBase) / 2 ^ 32
  d.clearRange (latBase + g * 2 ^ 32) (latBase + (g + 1) * 2 ^ 32)

end Sys2Proof.Machine
end

