-- ==== Sys2Proof/Machine/Consts.lean ====
section
/-! DEFINITION. Constant tables of the spec that the model refers to: the page map with what each page header reports
(R40 to R42, and the header sentence of each page's chapter), and the tables that give reset values. -/

namespace Sys2Proof.Machine

/-- What the page map and a page's header sentence state of one page. -/
structure PageInfo where
  blockType : Nat
  inst : Nat
  /-- First event source of the page and how many it has (R40, R44). -/
  firstEv : Nat
  nEv : Nat
  evtBits : Nat
  window : Bool
  anchor : Bool
  slots : Nat
  tables : Nat
  /-- PAGE_CTRL.ENABLE reads 1 and ignores writes. -/
  enableFixed : Bool
  deriving DecidableEq, Repr

/-- The page map (R40). DEDUCED: the header sentences of pages 0x00 to 0x03 give no PAGE_CAPS; their numbers follow from
their event tables and from their having a table window or not. -/
def pageInfo (pg : Nat) : Option PageInfo :=
  if pg = 0x00 then some ⟨0x0001, 0xA1, 0, 8, 1, false, false, 0, 0, true⟩
  else if pg = 0x01 then some ⟨0x0002, 0, 0, 0, 0, false, false, 0, 0, true⟩
  else if pg = 0x02 then some ⟨0x0003, 0, 32, 16, 12, false, false, 0, 0, false⟩
  else if pg = 0x03 then some ⟨0x0004, 0, 48, 16, 6, true, false, 0, 1, false⟩
  else if pg = 0x04 then some ⟨0x0005, 0, 84, 4, 26, true, true, 4, 1, true⟩
  else if pg = 0x05 then some ⟨0x0006, 0, 16, 8, 12, true, true, 4, 2, true⟩
  else if pg = 0x06 then some ⟨0x0007, 0, 24, 8, 17, false, true, 4, 0, true⟩
  else if pg = 0x07 then some ⟨0x0008, 0, 8, 8, 9, true, true, 0, 1, true⟩
  else if pg = 0x08 then some ⟨0x0009, 0, 64, 8, 17, true, true, 4, 1, false⟩
  else if pg = 0x09 then some ⟨0x000A, 0, 76, 4, 25, false, true, 0, 0, false⟩
  else if pg = 0x0A then some ⟨0x000B, 0, 80, 4, 28, true, false, 4, 1, false⟩
  else if pg = 0x0B then some ⟨0x000C, 0, 88, 8, 2, true, false, 0, 3, false⟩
  else if pg = 0x0C then some ⟨0x000D, 0, 480, 16, 16, true, false, 0, 3, false⟩
  else if pg = 0x0D then some ⟨0x000E, 0, 72, 4, 25, true, false, 4, 1, true⟩
  else if 0x10 ≤ pg ∧ pg ≤ 0x2F then some ⟨0x0010, pg - 0x10, 384 + (pg - 0x10), 1, 27, true, false, 0, 1, false⟩
  else if 0x30 ≤ pg ∧ pg ≤ 0x4F then some ⟨0x0011, pg - 0x30, 128 + 8 * (pg - 0x30), 8, 32, true, false, 0, 2, false⟩
  else if 0x50 ≤ pg ∧ pg ≤ 0x6F then some ⟨0x0012, pg - 0x50, 416 + (pg - 0x50), 1, 5, false, false, 0, 0, true⟩
  else if pg = 0x70 then some ⟨0x0020, 0, 448, 32, 32, true, true, 0, 14, false⟩
  else if pg = 0x71 then some ⟨0x0021, 0, 96, 4, 1, true, false, 0, 4, false⟩
  else if pg = 0x72 then some ⟨0x0022, 0, 100, 4, 9, true, false, 0, 7, false⟩
  else if pg = 0x74 then some ⟨0x0024, 0, 104, 8, 17, true, false, 0, 4, false⟩
  else if 0x78 ≤ pg ∧ pg ≤ 0x7F then some ⟨0x0028, pg - 0x78, 112 + (pg - 0x78), 1, 3, true, false, 0, 6, true⟩
  else if 0x80 ≤ pg ∧ pg ≤ 0x87 then some ⟨0x0029, pg - 0x80, 120 + (pg - 0x80), 1, 32, true, false, 0, 4, false⟩
  else none

/-- The anchor group that bit `b` of ANCHOR_STATUS of page `pg` anchors (R61). -/
def anchorGroup (pg b : Nat) : Option (Fin 10) :=
  if pg = 0x70 then (if b = 0 then some 0 else if b = 1 then some 1 else if b = 2 then some 2 else none)
  else if pg = 0x04 then (if b = 0 then some 3 else none)
  else if pg = 0x07 then (if b = 0 then some 4 else none)
  else if pg = 0x08 then (if b = 0 then some 5 else if b = 1 then some 8 else none)
  else if pg = 0x06 then (if b = 0 then some 6 else none)
  else if pg = 0x09 then (if b = 0 then some 7 else none)
  else if pg = 0x05 then (if b = 0 then some 9 else none)
  else none

/-- Event bits a page uses, as the event table of its chapter lists them; the others read zero. -/
def evtMask (pg : Nat) : Nat :=
  if pg = 0x00 then 0x1
  else if pg = 0x02 then 0xFFF
  else if pg = 0x03 then 0x3F
  else if pg = 0x04 then 0x301030F
  else if pg = 0x05 then 0xFFF
  else if pg = 0x06 then 0x1133F
  else if pg = 0x07 then 0x1FF
  else if pg = 0x08 then 0x1337F
  else if pg = 0x09 then 0x1070103
  else if pg = 0x0A then 0xF070F0F
  else if pg = 0x0B then 0x3
  else if pg = 0x0C then 0x7FFF
  else if pg = 0x0D then 0x103030F
  else if 0x10 ≤ pg ∧ pg ≤ 0x2F then 0x7FFFFFF
  else if 0x30 ≤ pg ∧ pg ≤ 0x4F then 0xFFFFFFFF
  else if 0x50 ≤ pg ∧ pg ≤ 0x6F then 0x1F
  else if pg = 0x70 then 0xFFFFFFFF
  else if pg = 0x71 then 0x1
  else if pg = 0x72 then 0x10F
  else if pg = 0x74 then 0x111FF
  else if 0x78 ≤ pg ∧ pg ≤ 0x7F then 0x7
  else if 0x80 ≤ pg ∧ pg ≤ 0x87 then 0xFFFFFFFF
  else 0

/-- The page that event source `n` belongs to and its place among the page's sources (R40); the ring sources EV496 to
EV511 belong to no page. -/
def sourcePage (n : Nat) : Option (Nat × Nat) :=
  if n < 8 then some (0x00, n)
  else if n < 16 then some (0x07, n - 8)
  else if n < 24 then some (0x05, n - 16)
  else if n < 32 then some (0x06, n - 24)
  else if n < 48 then some (0x02, n - 32)
  else if n < 64 then some (0x03, n - 48)
  else if n < 72 then some (0x08, n - 64)
  else if n < 76 then some (0x0D, n - 72)
  else if n < 80 then some (0x09, n - 76)
  else if n < 84 then some (0x0A, n - 80)
  else if n < 88 then some (0x04, n - 84)
  else if n < 96 then some (0x0B, n - 88)
  else if n < 100 then some (0x71, n - 96)
  else if n < 104 then some (0x72, n - 100)
  else if n < 112 then some (0x74, n - 104)
  else if n < 120 then some (0x78 + (n - 112), 0)
  else if n < 128 then some (0x80 + (n - 120), 0)
  else if n < 384 then some (0x30 + (n - 128) / 8, (n - 128) % 8)
  else if n < 416 then some (0x10 + (n - 384), 0)
  else if n < 448 then some (0x50 + (n - 416), 0)
  else if n < 480 then some (0x70, n - 448)
  else if n < 496 then some (0x0C, n - 480)
  else none

/-- The sources AL19, AL62 and AL63 are reserved (R384). -/
def alarmReserved (n : Nat) : Bool := n == 19 || n == 62 || n == 63
/-- Default severity and floor of a source (R384). -/
def alarmDefault (n : Nat) : Nat :=
  if alarmReserved n then 0
  else if n = 12 ∨ n = 33 ∨ n = 39 ∨ (52 ≤ n ∧ n ≤ 54) ∨ n = 58 then 1
  else if n = 17 ∨ (28 ≤ n ∧ n ≤ 31) ∨ (44 ≤ n ∧ n ≤ 49) ∨ n = 56 ∨ n = 57 ∨ n = 60 then 2
  else if (20 ≤ n ∧ n ≤ 27) ∨ (32 ≤ n ∧ n ≤ 43) ∨ n = 50 ∨ n = 51 ∨ n = 55 ∨ n = 59 then 3
  else 4
/-- Lower bound of a source's range (R384). -/
def alarmLowest (n : Nat) : Nat :=
  if alarmReserved n ∨ n ≤ 12 ∨ n = 33 ∨ n = 39 ∨ n = 57 ∨ n = 58 then 0
  else if n ≤ 17 ∨ (28 ≤ n ∧ n ≤ 31) ∨ (44 ≤ n ∧ n ≤ 49) ∨ (52 ≤ n ∧ n ≤ 54) then 1
  else if (20 ≤ n ∧ n ≤ 27) ∨ (32 ≤ n ∧ n ≤ 43) ∨ n = 56 ∨ n = 60 then 2
  else if n = 50 ∨ n = 51 ∨ n = 55 ∨ n = 59 then 3
  else 4
/-- Upper bound of a source's range (R384). -/
def alarmHighest (n : Nat) : Nat := if alarmReserved n then 0 else if n = 56 then 2 else 4
/-- Evidence class that a source feeds: 0 mesh, 1 case, 2 supply, 3 clock (R384). -/
def alarmClass (n : Nat) : Option Nat :=
  if n < 4 then some 0
  else if n < 12 then some 1
  else if n ≤ 15 ∨ (20 ≤ n ∧ n ≤ 31) ∨ n = 50 then some 2
  else if n = 16 ∨ (32 ≤ n ∧ n ≤ 49) then some 3
  else none
/-- Disagreement source of the detector pair of a source, for the pairs that have one (R384, R386). -/
def alarmDisagree (n : Nat) : Option Nat :=
  if n ≤ 16 then some 17
  else if 20 ≤ n ∧ n ≤ 27 then some (28 + (n - 20) / 2)
  else if 32 ≤ n ∧ n ≤ 37 then some (n + 12)
  else none
/-- The source is a disagreement source. -/
def alarmIsDisagree (n : Nat) : Bool := n == 17 || (decide (28 ≤ n) && decide (n ≤ 31)) || (decide (44 ≤ n) && decide (n ≤ 49))
/-- FLOOR at reset of requester `q` (R490). -/
def reqFloorReset (q : Nat) : Nat := if q = 64 ∨ q = 65 then 2 else 0
/-- CEILING at reset of requester `q` (R490). -/
def reqCeilingReset (q : Nat) : Nat := if q < 32 then 54 else if q < 64 then 28 else if q < 66 then 2 else if q = 66 then 640 else 0

end Sys2Proof.Machine
end

