-- ==== Sys2Proof/Machine/Fields.lean ====
section
/-! DEFINITION. The named fields of the device: every register field of the page chapters and every table-entry field,
each at the place the spec's layout tables give it, and the named pieces of state that have no register (latches,
timers, key stores). One `Fld` per name; a field's width and reset value stand beside its place. -/

namespace Sys2Proof.Machine

namespace R

/-- DEV_CTRL_DEVICE_RESET: R39, access WO. -/
def DEV_CTRL_DEVICE_RESET : Fld := regFld 0x0 0x100 0 1 0
/-- DEV_CTRL_RESET_KEY: R39, access WO. -/
def DEV_CTRL_RESET_KEY : Fld := regFld 0x0 0x100 16 16 0
/-- DEV_STATE_RUN_STATE: R39, access RO. -/
def DEV_STATE_RUN_STATE : Fld := regFld 0x0 0x104 0 3 0
/-- DEV_STATE_POWER_STATE: R39, access RO. -/
def DEV_STATE_POWER_STATE : Fld := regFld 0x0 0x104 4 2 1
/-- ANCHOR_SUMMARY_GROUPS: R39, access RO. -/
def ANCHOR_SUMMARY_GROUPS : Fld := regFld 0x0 0x108 0 16 0
/-- ANCHOR_SUMMARY_ALL: R39, access RO. -/
def ANCHOR_SUMMARY_ALL : Fld := regFld 0x0 0x108 31 1 0
/-- ANCHORED_WRITES: R39, access RC. -/
def ANCHORED_WRITES : Fld := regFld 0x0 0x10c 0 32 0
/-- HOST_ACCESS_ERRS: R39, access RC. -/
def HOST_ACCESS_ERRS : Fld := regFld 0x0 0x110 0 32 0
/-- SCRATCH: R39, access RW. -/
def SCRATCH : Fld := regFld 0x0 0x114 0 32 0
/-- EV_CFG_VECTOR: R57, access RW. -/
def EV_CFG_VECTOR (j : Nat) : Fld := regFld 0x1 (0x100 + 4 * j) 0 6 0
/-- EV_CFG_TO_HOST: R57, access RW. -/
def EV_CFG_TO_HOST (j : Nat) : Fld := regFld 0x1 (0x100 + 4 * j) 8 1 0
/-- EV_CFG_TO_MGMT: R57, access RW. -/
def EV_CFG_TO_MGMT (j : Nat) : Fld := regFld 0x1 (0x100 + 4 * j) 9 1 0
/-- EV_ACTIVE: R57, access RO. -/
def EV_ACTIVE (j : Nat) : Fld := regFld 0x1 (0x900 + 4 * j) 0 32 0
/-- VEC_SENT: R57, access W1C. -/
def VEC_SENT : Fld := regFld 0x1 0xa00 0 64 0
/-- EV_FIRST_SOURCE: R57, access RO. -/
def EV_FIRST_SOURCE : Fld := regFld 0x1 0xb00 0 9 0
/-- EV_FIRST_VALID: R57, access W1C. -/
def EV_FIRST_VALID : Fld := regFld 0x1 0xb00 16 1 0
/-- EV_FIRST_SIMULTANEOUS: R57, access RO. -/
def EV_FIRST_SIMULTANEOUS : Fld := regFld 0x1 0xb00 17 1 0
/-- EV_FIRST_TIME_SEC: R57, access RO. -/
def EV_FIRST_TIME_SEC : Fld := regFld 0x1 0xb04 0 32 0
/-- EV_FIRST_TIME_NS: R57, access RO. -/
def EV_FIRST_TIME_NS : Fld := regFld 0x1 0xb08 0 30 0
/-- EV_FIRST_TIME_FRAC: R57, access RO. -/
def EV_FIRST_TIME_FRAC : Fld := regFld 0x1 0xb0c 0 16 0
/-- TS_CTRL_ENABLE: R81, access RW. -/
def TS_CTRL_ENABLE (i : Nat) : Fld := regFld (0x30 + i / 8) (0xf00 + 16 * (i % 8)) 0 1 0
/-- TS_CTRL_STAMP_ALL: R81, access RW. -/
def TS_CTRL_STAMP_ALL (i : Nat) : Fld := regFld (0x30 + i / 8) (0xf00 + 16 * (i % 8)) 1 1 0
/-- TS_RX_DELAY: R81, access RW. -/
def TS_RX_DELAY (i : Nat) : Fld := regFld (0x30 + i / 8) (0xf04 + 16 * (i % 8)) 0 32 0
/-- TS_TX_DELAY: R81, access RW. -/
def TS_TX_DELAY (i : Nat) : Fld := regFld (0x30 + i / 8) (0xf08 + 16 * (i % 8)) 0 32 0
/-- TS_CAL_STATUS_CALIBRATED: R81, access RO. -/
def TS_CAL_STATUS_CALIBRATED (i : Nat) : Fld := regFld (0x30 + i / 8) (0xf0c + 16 * (i % 8)) 0 1 0
/-- TS_CAL_STATUS_LANE_MASK: R81, access RO. -/
def TS_CAL_STATUS_LANE_MASK (i : Nat) : Fld := regFld (0x30 + i / 8) (0xf0c + 16 * (i % 8)) 8 8 0
/-- WP_TIME_SEC_LO: R85, access RW. -/
def WP_TIME_SEC_LO (i : Nat) : Fld := tblFld 0x3 0 i 0 32 0
/-- WP_TIME_SEC_HI: R85, access RW. -/
def WP_TIME_SEC_HI (i : Nat) : Fld := tblFld 0x3 0 i 32 16 0
/-- WP_TIME_FRAC: R85, access RW. -/
def WP_TIME_FRAC (i : Nat) : Fld := tblFld 0x3 0 i 48 16 0
/-- WP_TIME_NS: R85, access RW. -/
def WP_TIME_NS (i : Nat) : Fld := tblFld 0x3 0 i 64 30 0
/-- WP_ACTION: R85, access RW. -/
def WP_ACTION (i : Nat) : Fld := tblFld 0x3 0 i 96 8 0
/-- WP_LATE_POLICY: R85, access RW. -/
def WP_LATE_POLICY (i : Nat) : Fld := tblFld 0x3 0 i 104 2 0
/-- WP_NOTIFY: R85, access RW. -/
def WP_NOTIFY (i : Nat) : Fld := tblFld 0x3 0 i 106 1 0
/-- WP_ENABLE: R85, access RW. -/
def WP_ENABLE (i : Nat) : Fld := tblFld 0x3 0 i 107 1 0
/-- WP_MEMBER_MASK: R85, access RW. -/
def WP_MEMBER_MASK (i : Nat) : Fld := tblFld 0x3 0 i 112 8 0
/-- WP_TARGET: R85, access RW. -/
def WP_TARGET (i : Nat) : Fld := tblFld 0x3 0 i 128 24 0
/-- WP_ARG0: R85, access RW. -/
def WP_ARG0 (i : Nat) : Fld := tblFld 0x3 0 i 160 32 0
/-- WP_ARG1: R85, access RW. -/
def WP_ARG1 (i : Nat) : Fld := tblFld 0x3 0 i 192 32 0
/-- WP_PERIOD_NS: R85, access RW. -/
def WP_PERIOD_NS (i : Nat) : Fld := tblFld 0x3 0 i 224 40 0
/-- WP_PERIOD_FRAC: R85, access RW. -/
def WP_PERIOD_FRAC (i : Nat) : Fld := tblFld 0x3 0 i 264 16 0
/-- WP_STATE: R85, access RO. -/
def WP_STATE (i : Nat) : Fld := tblFld 0x3 0 i 288 2 0
/-- WP_LATE: R85, access RO. -/
def WP_LATE (i : Nat) : Fld := tblFld 0x3 0 i 290 1 0
/-- WP_FAILED: R85, access RO. -/
def WP_FAILED (i : Nat) : Fld := tblFld 0x3 0 i 291 1 0
/-- WP_DELAYED: R85, access RO. -/
def WP_DELAYED (i : Nat) : Fld := tblFld 0x3 0 i 292 1 0
/-- WP_FAIL_CODE: R85, access RO. -/
def WP_FAIL_CODE (i : Nat) : Fld := tblFld 0x3 0 i 296 8 0
/-- WP_EXEC_COUNT: R85, access RO. -/
def WP_EXEC_COUNT (i : Nat) : Fld := tblFld 0x3 0 i 304 16 0
/-- WP_MISSED: R85, access RO. -/
def WP_MISSED (i : Nat) : Fld := tblFld 0x3 0 i 320 16 0
/-- WP_LAST_EXEC_SEC: R85, access RO. -/
def WP_LAST_EXEC_SEC (i : Nat) : Fld := tblFld 0x3 0 i 336 16 0
/-- WP_LAST_EXEC_NS: R85, access RO. -/
def WP_LAST_EXEC_NS (i : Nat) : Fld := tblFld 0x3 0 i 352 30 0
/-- WP_STATUS_ARMED_COUNT: R96, access RO. -/
def WP_STATUS_ARMED_COUNT : Fld := regFld 0x3 0x100 0 13 0
/-- WP_STATUS_ROPE_LOCKED: R96, access RO. -/
def WP_STATUS_ROPE_LOCKED : Fld := regFld 0x3 0x100 16 1 0
/-- WP_LATE_COUNT: R96, access RC. -/
def WP_LATE_COUNT : Fld := regFld 0x3 0x104 0 32 0
/-- WP_FAIL_COUNT: R96, access RC. -/
def WP_FAIL_COUNT : Fld := regFld 0x3 0x108 0 32 0
/-- WP_LAST_LATE: R96, access RO. -/
def WP_LAST_LATE : Fld := regFld 0x3 0x10c 0 12 0
/-- WP_LAST_FAIL: R96, access RO. -/
def WP_LAST_FAIL : Fld := regFld 0x3 0x110 0 12 0
/-- TIME_NOW_FRAC: R97, access RO. -/
def TIME_NOW_FRAC : Fld := regFld 0x2 0x100 0 16 0
/-- TIME_NOW_NS: R97, access RO. -/
def TIME_NOW_NS : Fld := regFld 0x2 0x104 0 30 0
/-- TIME_NOW_SEC_LO: R97, access RO. -/
def TIME_NOW_SEC_LO : Fld := regFld 0x2 0x108 0 32 0
/-- TIME_NOW_SEC_HI: R97, access RO. -/
def TIME_NOW_SEC_HI : Fld := regFld 0x2 0x10c 0 16 0
/-- RATE_ADJ: R97, access RW. -/
def RATE_ADJ : Fld := regFld 0x2 0x110 0 40 0
/-- TB_CTRL_DISCIPLINE_SRC: R97, access RW. -/
def TB_CTRL_DISCIPLINE_SRC : Fld := regFld 0x2 0x118 0 1 0
/-- TB_CTRL_FORCE_HOLDOVER: R97, access RW. -/
def TB_CTRL_FORCE_HOLDOVER : Fld := regFld 0x2 0x118 1 1 0
/-- TB_CTRL_PPS_OUT_EN: R97, access RW. -/
def TB_CTRL_PPS_OUT_EN : Fld := regFld 0x2 0x118 8 2 0
/-- TB_CTRL_PPS_OUT_INV: R97, access RW. -/
def TB_CTRL_PPS_OUT_INV : Fld := regFld 0x2 0x118 10 2 0
/-- TB_CTRL_PPS_IN_EN: R97, access RW. -/
def TB_CTRL_PPS_IN_EN : Fld := regFld 0x2 0x118 12 2 0
/-- TB_CTRL_PPS_IN_FALL: R97, access RW. -/
def TB_CTRL_PPS_IN_FALL : Fld := regFld 0x2 0x118 14 2 0
/-- HOLDOVER_TIMEOUT: R97, access RW. -/
def HOLDOVER_TIMEOUT : Fld := regFld 0x2 0x11c 0 16 4000
/-- OFFSET_NS: R97, access RW. -/
def OFFSET_NS : Fld := regFld 0x2 0x120 0 64 0
/-- OFFSET_FRAC: R97, access RW. -/
def OFFSET_FRAC : Fld := regFld 0x2 0x128 0 16 0
/-- SLEW_RATE: R97, access RW. -/
def SLEW_RATE : Fld := regFld 0x2 0x12c 0 32 109951163
/-- ADJ_CMD_MODE: R97, access WO. -/
def ADJ_CMD_MODE : Fld := regFld 0x2 0x130 0 2 0
/-- ADJ_REMAIN: R97, access RO. -/
def ADJ_REMAIN : Fld := regFld 0x2 0x134 0 64 0
/-- TB_STATUS_TIME_SET: R97, access RO. -/
def TB_STATUS_TIME_SET : Fld := regFld 0x2 0x13c 0 1 0
/-- TB_STATUS_HOLDOVER: R97, access RO. -/
def TB_STATUS_HOLDOVER : Fld := regFld 0x2 0x13c 1 1 0
/-- TB_STATUS_REF_LOST: R97, access RO. -/
def TB_STATUS_REF_LOST : Fld := regFld 0x2 0x13c 2 1 0
/-- TB_STATUS_SLEWING: R97, access RO. -/
def TB_STATUS_SLEWING : Fld := regFld 0x2 0x13c 3 1 0
/-- TB_STATUS_PLL_LOCKED: R97, access RO. -/
def TB_STATUS_PLL_LOCKED : Fld := regFld 0x2 0x13c 4 1 0
/-- TB_STATUS_RATE_CLAMPED: R97, access RO. -/
def TB_STATUS_RATE_CLAMPED : Fld := regFld 0x2 0x13c 5 1 0
/-- TB_STATUS_ADJ_REFUSED: R97, access RO. -/
def TB_STATUS_ADJ_REFUSED : Fld := regFld 0x2 0x13c 6 1 0
/-- TB_STATUS_REF_25M: R97, access RO. -/
def TB_STATUS_REF_25M : Fld := regFld 0x2 0x13c 8 1 0
/-- PPS_IN0_TIME_FRAC: R97, access RO. -/
def PPS_IN0_TIME_FRAC : Fld := regFld 0x2 0x140 0 16 0
/-- PPS_IN0_TIME_NS: R97, access RO. -/
def PPS_IN0_TIME_NS : Fld := regFld 0x2 0x144 0 30 0
/-- PPS_IN0_TIME_SEC_LO: R97, access RO. -/
def PPS_IN0_TIME_SEC_LO : Fld := regFld 0x2 0x148 0 32 0
/-- PPS_IN0_TIME_SEC_HI: R97, access RO. -/
def PPS_IN0_TIME_SEC_HI : Fld := regFld 0x2 0x14c 0 16 0
/-- PPS_IN1_TIME_FRAC: R97, access RO. -/
def PPS_IN1_TIME_FRAC : Fld := regFld 0x2 0x150 0 16 0
/-- PPS_IN1_TIME_NS: R97, access RO. -/
def PPS_IN1_TIME_NS : Fld := regFld 0x2 0x154 0 30 0
/-- PPS_IN1_TIME_SEC_LO: R97, access RO. -/
def PPS_IN1_TIME_SEC_LO : Fld := regFld 0x2 0x158 0 32 0
/-- PPS_IN1_TIME_SEC_HI: R97, access RO. -/
def PPS_IN1_TIME_SEC_HI : Fld := regFld 0x2 0x15c 0 16 0
/-- PPS_IN_DELAY: R97, access RW. -/
def PPS_IN_DELAY (j : Nat) : Fld := regFld 0x2 (0x160 + 4 * j) 0 32 0
/-- PPS_OUT_DELAY: R97, access RW. -/
def PPS_OUT_DELAY (j : Nat) : Fld := regFld 0x2 (0x168 + 4 * j) 0 32 0
/-- TOD_CTRL_BAUD: R97, access RW. -/
def TOD_CTRL_BAUD : Fld := regFld 0x2 0x170 0 3 4
/-- TOD_CTRL_ENABLE: R97, access RW. -/
def TOD_CTRL_ENABLE : Fld := regFld 0x2 0x170 8 1 0
/-- TOD_CTRL_FREE_SEND: R97, access RW. -/
def TOD_CTRL_FREE_SEND : Fld := regFld 0x2 0x170 9 1 0
/-- TOD_TX_DATA: R97, access WO. -/
def TOD_TX_DATA : Fld := regFld 0x2 0x174 0 8 0
/-- TOD_RX_DATA_BYTE: R97, access RC. -/
def TOD_RX_DATA_BYTE : Fld := regFld 0x2 0x178 0 8 0
/-- TOD_RX_DATA_VALID: R97, access RO. -/
def TOD_RX_DATA_VALID : Fld := regFld 0x2 0x178 8 1 0
/-- TOD_STATUS_TX_LEVEL: R97, access RO. -/
def TOD_STATUS_TX_LEVEL : Fld := regFld 0x2 0x17c 0 7 0
/-- TOD_STATUS_RX_LEVEL: R97, access RO. -/
def TOD_STATUS_RX_LEVEL : Fld := regFld 0x2 0x17c 8 7 0
/-- TOD_STATUS_TX_BUSY: R97, access RO. -/
def TOD_STATUS_TX_BUSY : Fld := regFld 0x2 0x17c 16 1 0
/-- DISCIPLINE_REFUSED: R97, access RC. -/
def DISCIPLINE_REFUSED : Fld := regFld 0x2 0x180 0 32 0
/-- STEP_COUNT: R97, access RC. -/
def STEP_COUNT : Fld := regFld 0x2 0x184 0 32 0
/-- SCANRES_ERRORS: R119, access RO. -/
def SCANRES_ERRORS (i : Nat) : Fld := tblFld (0x10 + i / 65536) 0 (i % 65536) 0 10 0
/-- SCANRES_BITS_EXP: R119, access RO. -/
def SCANRES_BITS_EXP (i : Nat) : Fld := tblFld (0x10 + i / 65536) 0 (i % 65536) 10 6 0
/-- SCANRES_VOLT: R119, access RO. -/
def SCANRES_VOLT (i : Nat) : Fld := tblFld (0x10 + i / 65536) 0 (i % 65536) 16 7 0
/-- SCANRES_PHASE: R119, access RO. -/
def SCANRES_PHASE (i : Nat) : Fld := tblFld (0x10 + i / 65536) 0 (i % 65536) 24 6 0
/-- SCANRES_EYE: R119, access RO. -/
def SCANRES_EYE (i : Nat) : Fld := tblFld (0x10 + i / 65536) 0 (i % 65536) 30 2 0
/-- LANE_CTRL_TEST_ENABLE: R129, access RW. -/
def LANE_CTRL_TEST_ENABLE (i : Nat) : Fld := regFld (0x10 + i / 8) (0x100 + 256 * (i % 8)) 0 1 0
/-- LANE_CTRL_RATE: R129, access RW. -/
def LANE_CTRL_RATE (i : Nat) : Fld := regFld (0x10 + i / 8) (0x100 + 256 * (i % 8)) 1 2 0
/-- LANE_CTRL_TRAIN_EN: R129, access RW. -/
def LANE_CTRL_TRAIN_EN (i : Nat) : Fld := regFld (0x10 + i / 8) (0x100 + 256 * (i % 8)) 3 1 0
/-- LANE_CTRL_TX_INV: R129, access RW. -/
def LANE_CTRL_TX_INV (i : Nat) : Fld := regFld (0x10 + i / 8) (0x100 + 256 * (i % 8)) 4 1 0
/-- LANE_CTRL_RX_INV: R129, access RW. -/
def LANE_CTRL_RX_INV (i : Nat) : Fld := regFld (0x10 + i / 8) (0x100 + 256 * (i % 8)) 5 1 0
/-- LANE_CTRL_TX_IDLE: R129, access RW. -/
def LANE_CTRL_TX_IDLE (i : Nat) : Fld := regFld (0x10 + i / 8) (0x100 + 256 * (i % 8)) 6 1 0
/-- LANE_STATUS_STAGE: R129, access RO. -/
def LANE_STATUS_STAGE (i : Nat) : Fld := regFld (0x10 + i / 8) (0x104 + 256 * (i % 8)) 0 3 0
/-- LANE_STATUS_PLL: R129, access RO. -/
def LANE_STATUS_PLL (i : Nat) : Fld := regFld (0x10 + i / 8) (0x104 + 256 * (i % 8)) 3 1 0
/-- LANE_STATUS_NO_PLL: R129, access RO. -/
def LANE_STATUS_NO_PLL (i : Nat) : Fld := regFld (0x10 + i / 8) (0x104 + 256 * (i % 8)) 4 1 0
/-- LANE_STATUS_SIGNAL: R129, access RO. -/
def LANE_STATUS_SIGNAL (i : Nat) : Fld := regFld (0x10 + i / 8) (0x104 + 256 * (i % 8)) 5 1 0
/-- LANE_STATUS_ADAPT_FROZEN: R129, access RO. -/
def LANE_STATUS_ADAPT_FROZEN (i : Nat) : Fld := regFld (0x10 + i / 8) (0x104 + 256 * (i % 8)) 6 1 0
/-- LANE_STATUS_TRAINED: R129, access RO. -/
def LANE_STATUS_TRAINED (i : Nat) : Fld := regFld (0x10 + i / 8) (0x104 + 256 * (i % 8)) 7 1 0
/-- LANE_STATUS_FIR_REFUSED: R129, access RO. -/
def LANE_STATUS_FIR_REFUSED (i : Nat) : Fld := regFld (0x10 + i / 8) (0x104 + 256 * (i % 8)) 8 1 0
/-- LANE_CMD_ADAPT_BURST: R129, access WO. -/
def LANE_CMD_ADAPT_BURST (i : Nat) : Fld := regFld (0x10 + i / 8) (0x108 + 256 * (i % 8)) 0 1 0
/-- LANE_CMD_RESTART: R129, access WO. -/
def LANE_CMD_RESTART (i : Nat) : Fld := regFld (0x10 + i / 8) (0x108 + 256 * (i % 8)) 1 1 0
/-- LANE_CMD_SCAN_START: R129, access WO. -/
def LANE_CMD_SCAN_START (i : Nat) : Fld := regFld (0x10 + i / 8) (0x108 + 256 * (i % 8)) 2 1 0
/-- LANE_CMD_SCAN_ABORT: R129, access WO. -/
def LANE_CMD_SCAN_ABORT (i : Nat) : Fld := regFld (0x10 + i / 8) (0x108 + 256 * (i % 8)) 3 1 0
/-- LANE_CMD_PROFILE: R129, access WO. -/
def LANE_CMD_PROFILE (i : Nat) : Fld := regFld (0x10 + i / 8) (0x108 + 256 * (i % 8)) 4 4 0
/-- TX_FIR_C_M3: R129, access RW. -/
def TX_FIR_C_M3 (i : Nat) : Fld := regFld (0x10 + i / 8) (0x10c + 256 * (i % 8)) 0 6 0
/-- TX_FIR_C_M2: R129, access RW. -/
def TX_FIR_C_M2 (i : Nat) : Fld := regFld (0x10 + i / 8) (0x10c + 256 * (i % 8)) 6 6 0
/-- TX_FIR_C_M1: R129, access RW. -/
def TX_FIR_C_M1 (i : Nat) : Fld := regFld (0x10 + i / 8) (0x10c + 256 * (i % 8)) 12 6 0
/-- TX_FIR_C_0: R129, access RW. -/
def TX_FIR_C_0 (i : Nat) : Fld := regFld (0x10 + i / 8) (0x10c + 256 * (i % 8)) 18 6 63
/-- TX_FIR_C_P1: R129, access RW. -/
def TX_FIR_C_P1 (i : Nat) : Fld := regFld (0x10 + i / 8) (0x10c + 256 * (i % 8)) 24 6 0
/-- RX_EQ_CTLE: R129, access RO. -/
def RX_EQ_CTLE (i : Nat) : Fld := regFld (0x10 + i / 8) (0x110 + 256 * (i % 8)) 0 5 0
/-- RX_EQ_GAIN: R129, access RO. -/
def RX_EQ_GAIN (i : Nat) : Fld := regFld (0x10 + i / 8) (0x110 + 256 * (i % 8)) 8 6 0
/-- DFE_TAPS: R129, access RO. -/
def DFE_TAPS (i j : Nat) : Fld := regFld (0x10 + i / 8) (0x114 + 256 * (i % 8) + 4 * j) 0 32 0
/-- RX_EQ_CTRL_ADAPT_HOLD: R129, access RW. -/
def RX_EQ_CTRL_ADAPT_HOLD (i : Nat) : Fld := regFld (0x10 + i / 8) (0x120 + 256 * (i % 8)) 0 1 0
/-- RX_EQ_CTRL_CTLE_MANUAL: R129, access RW. -/
def RX_EQ_CTRL_CTLE_MANUAL (i : Nat) : Fld := regFld (0x10 + i / 8) (0x120 + 256 * (i % 8)) 1 1 0
/-- RX_EQ_CTRL_CTLE_VALUE: R129, access RW. -/
def RX_EQ_CTRL_CTLE_VALUE (i : Nat) : Fld := regFld (0x10 + i / 8) (0x120 + 256 * (i % 8)) 8 5 0
/-- RICH_CFG_TRANS_MIN: R129, access RW. -/
def RICH_CFG_TRANS_MIN (i : Nat) : Fld := regFld (0x10 + i / 8) (0x124 + 256 * (i % 8)) 0 8 64
/-- RICH_CFG_LEVEL_MIN: R129, access RW. -/
def RICH_CFG_LEVEL_MIN (i : Nat) : Fld := regFld (0x10 + i / 8) (0x124 + 256 * (i % 8)) 8 7 64
/-- RICH_CFG_RUN_MAX: R129, access RW. -/
def RICH_CFG_RUN_MAX (i : Nat) : Fld := regFld (0x10 + i / 8) (0x124 + 256 * (i % 8)) 16 6 32
/-- RICH_CFG_RESUME_N: R129, access RW. -/
def RICH_CFG_RESUME_N (i : Nat) : Fld := regFld (0x10 + i / 8) (0x124 + 256 * (i % 8)) 24 4 4
/-- RICH_STATUS_LAST_RICH: R129, access RO. -/
def RICH_STATUS_LAST_RICH (i : Nat) : Fld := regFld (0x10 + i / 8) (0x128 + 256 * (i % 8)) 0 1 0
/-- RICH_STATUS_LOW_RUN: R129, access RO. -/
def RICH_STATUS_LOW_RUN (i : Nat) : Fld := regFld (0x10 + i / 8) (0x128 + 256 * (i % 8)) 8 8 0
/-- FREEZE_COUNT: R129, access RC. -/
def FREEZE_COUNT (i : Nat) : Fld := regFld (0x10 + i / 8) (0x12c + 256 * (i % 8)) 0 32 0
/-- PRBS_CTRL_GEN_PATTERN: R129, access RW. -/
def PRBS_CTRL_GEN_PATTERN (i : Nat) : Fld := regFld (0x10 + i / 8) (0x130 + 256 * (i % 8)) 0 4 5
/-- PRBS_CTRL_GEN_EN: R129, access RW. -/
def PRBS_CTRL_GEN_EN (i : Nat) : Fld := regFld (0x10 + i / 8) (0x130 + 256 * (i % 8)) 4 1 0
/-- PRBS_CTRL_GEN_INV: R129, access RW. -/
def PRBS_CTRL_GEN_INV (i : Nat) : Fld := regFld (0x10 + i / 8) (0x130 + 256 * (i % 8)) 5 1 0
/-- PRBS_CTRL_CHK_PATTERN: R129, access RW. -/
def PRBS_CTRL_CHK_PATTERN (i : Nat) : Fld := regFld (0x10 + i / 8) (0x130 + 256 * (i % 8)) 8 4 5
/-- PRBS_CTRL_CHK_EN: R129, access RW. -/
def PRBS_CTRL_CHK_EN (i : Nat) : Fld := regFld (0x10 + i / 8) (0x130 + 256 * (i % 8)) 12 1 0
/-- PRBS_CTRL_CHK_INV: R129, access RW. -/
def PRBS_CTRL_CHK_INV (i : Nat) : Fld := regFld (0x10 + i / 8) (0x130 + 256 * (i % 8)) 13 1 0
/-- PRBS_CTRL_SQ_HALF: R129, access RW. -/
def PRBS_CTRL_SQ_HALF (i : Nat) : Fld := regFld (0x10 + i / 8) (0x130 + 256 * (i % 8)) 16 6 1
/-- PRBS_CTRL_USER_LEN: R129, access RW. -/
def PRBS_CTRL_USER_LEN (i : Nat) : Fld := regFld (0x10 + i / 8) (0x130 + 256 * (i % 8)) 24 6 32
/-- INJ_CTRL_MODE: R129, access RW. -/
def INJ_CTRL_MODE (i : Nat) : Fld := regFld (0x10 + i / 8) (0x134 + 256 * (i % 8)) 0 2 0
/-- INJ_CTRL_TARGET: R129, access RW. -/
def INJ_CTRL_TARGET (i : Nat) : Fld := regFld (0x10 + i / 8) (0x134 + 256 * (i % 8)) 2 1 0
/-- INJ_CTRL_GO: R129, access W1S. -/
def INJ_CTRL_GO (i : Nat) : Fld := regFld (0x10 + i / 8) (0x134 + 256 * (i % 8)) 3 1 0
/-- INJ_CTRL_BURST_LEN: R129, access RW. -/
def INJ_CTRL_BURST_LEN (i : Nat) : Fld := regFld (0x10 + i / 8) (0x134 + 256 * (i % 8)) 8 7 1
/-- INJ_PERIOD: R129, access RW. -/
def INJ_PERIOD (i : Nat) : Fld := regFld (0x10 + i / 8) (0x138 + 256 * (i % 8)) 0 32 1000000
/-- PRBS_STATUS_CHK_LOCKED: R129, access RO. -/
def PRBS_STATUS_CHK_LOCKED (i : Nat) : Fld := regFld (0x10 + i / 8) (0x13c + 256 * (i % 8)) 0 1 0
/-- PRBS_STATUS_GEN_RUNNING: R129, access RO. -/
def PRBS_STATUS_GEN_RUNNING (i : Nat) : Fld := regFld (0x10 + i / 8) (0x13c + 256 * (i % 8)) 1 1 0
/-- PRBS_STATUS_GEN_REFUSED: R129, access RO. -/
def PRBS_STATUS_GEN_REFUSED (i : Nat) : Fld := regFld (0x10 + i / 8) (0x13c + 256 * (i % 8)) 2 1 0
/-- CHK_BITS: R129, access RO. -/
def CHK_BITS (i : Nat) : Fld := regFld (0x10 + i / 8) (0x140 + 256 * (i % 8)) 0 64 0
/-- CHK_ERRORS: R129, access RO. -/
def CHK_ERRORS (i : Nat) : Fld := regFld (0x10 + i / 8) (0x148 + 256 * (i % 8)) 0 64 0
/-- CHK_LOCK_LOSS: R129, access RO. -/
def CHK_LOCK_LOSS (i : Nat) : Fld := regFld (0x10 + i / 8) (0x150 + 256 * (i % 8)) 0 32 0
/-- BRINGUP_FAILS: R129, access RC. -/
def BRINGUP_FAILS (i : Nat) : Fld := regFld (0x10 + i / 8) (0x154 + 256 * (i % 8)) 0 32 0
/-- LOCK_LOSS_COUNT: R129, access RC. -/
def LOCK_LOSS_COUNT (i : Nat) : Fld := regFld (0x10 + i / 8) (0x158 + 256 * (i % 8)) 0 32 0
/-- USER_PATTERN: R129, access RW. -/
def USER_PATTERN (i j : Nat) : Fld := regFld (0x10 + i / 8) (0x160 + 256 * (i % 8) + 4 * j) 0 32 0
/-- SCAN_STATUS_STATE: R129, access RO. -/
def SCAN_STATUS_STATE (i : Nat) : Fld := regFld (0x10 + i / 8) (0x180 + 256 * (i % 8)) 0 2 0
/-- SCAN_STATUS_PROFILE: R129, access RO. -/
def SCAN_STATUS_PROFILE (i : Nat) : Fld := regFld (0x10 + i / 8) (0x180 + 256 * (i % 8)) 4 4 0
/-- SCAN_STATUS_REFUSED: R129, access RO. -/
def SCAN_STATUS_REFUSED (i : Nat) : Fld := regFld (0x10 + i / 8) (0x180 + 256 * (i % 8)) 8 1 0
/-- SCAN_STATUS_WAIT_GRANT: R129, access RO. -/
def SCAN_STATUS_WAIT_GRANT (i : Nat) : Fld := regFld (0x10 + i / 8) (0x180 + 256 * (i % 8)) 9 1 0
/-- SCAN_STATUS_POINTS_DONE: R129, access RO. -/
def SCAN_STATUS_POINTS_DONE (i : Nat) : Fld := regFld (0x10 + i / 8) (0x180 + 256 * (i % 8)) 16 14 0
/-- SCAN_START_TIME_NS: R129, access RO. -/
def SCAN_START_TIME_NS (i : Nat) : Fld := regFld (0x10 + i / 8) (0x184 + 256 * (i % 8)) 0 30 0
/-- SCAN_START_TIME_SEC: R129, access RO. -/
def SCAN_START_TIME_SEC (i : Nat) : Fld := regFld (0x10 + i / 8) (0x188 + 256 * (i % 8)) 0 32 0
/-- OCT_REF_SEL: R130, access RW. -/
def OCT_REF_SEL (i : Nat) : Fld := regFld (0x10 + i) 0x900 0 2 (i / 8)
/-- OCT_PLL_A_VCO: R130, access RW. -/
def OCT_PLL_A_VCO (i : Nat) : Fld := regFld (0x10 + i) 0x904 0 2 0
/-- OCT_PLL_B_VCO: R130, access RW. -/
def OCT_PLL_B_VCO (i : Nat) : Fld := regFld (0x10 + i) 0x908 0 2 0
/-- OCT_STATUS_PLL_A_LOCKED: R130, access RO. -/
def OCT_STATUS_PLL_A_LOCKED (i : Nat) : Fld := regFld (0x10 + i) 0x90c 0 1 0
/-- OCT_STATUS_PLL_B_LOCKED: R130, access RO. -/
def OCT_STATUS_PLL_B_LOCKED (i : Nat) : Fld := regFld (0x10 + i) 0x90c 1 1 0
/-- OCT_STATUS_REF_PRESENT: R130, access RO. -/
def OCT_STATUS_REF_PRESENT (i : Nat) : Fld := regFld (0x10 + i) 0x90c 2 1 0
/-- OCT_STATUS_CFG_REFUSED: R130, access RO. -/
def OCT_STATUS_CFG_REFUSED (i : Nat) : Fld := regFld (0x10 + i) 0x90c 3 1 0
/-- SCANP_PH_START: R130, access RW. -/
def SCANP_PH_START (i : Nat) : Fld := regFld (0x10 + i / 16) (0xa00 + 16 * (i % 16)) 0 6 0
/-- SCANP_PH_STOP: R130, access RW. -/
def SCANP_PH_STOP (i : Nat) : Fld := regFld (0x10 + i / 16) (0xa00 + 16 * (i % 16)) 8 6 (if i % 16 = 0 then 63 else 0)
/-- SCANP_PH_STEP_LOG: R130, access RW. -/
def SCANP_PH_STEP_LOG (i : Nat) : Fld := regFld (0x10 + i / 16) (0xa00 + 16 * (i % 16)) 16 3 0
/-- SCANP_V_START: R130, access RW. -/
def SCANP_V_START (i : Nat) : Fld := regFld (0x10 + i / 16) (0xa04 + 16 * (i % 16)) 0 7 0
/-- SCANP_V_STOP: R130, access RW. -/
def SCANP_V_STOP (i : Nat) : Fld := regFld (0x10 + i / 16) (0xa04 + 16 * (i % 16)) 8 7 (if i % 16 = 0 then 127 else 0)
/-- SCANP_V_STEP_LOG: R130, access RW. -/
def SCANP_V_STEP_LOG (i : Nat) : Fld := regFld (0x10 + i / 16) (0xa04 + 16 * (i % 16)) 16 3 0
/-- SCANP_DWELL_EXP: R130, access RW. -/
def SCANP_DWELL_EXP (i : Nat) : Fld := regFld (0x10 + i / 16) (0xa08 + 16 * (i % 16)) 0 6 (if i % 16 = 0 then 30 else 0)
/-- SCANP_ERR_LIMIT: R130, access RW. -/
def SCANP_ERR_LIMIT (i : Nat) : Fld := regFld (0x10 + i / 16) (0xa08 + 16 * (i % 16)) 8 10 0
/-- SCANP_EYE_MASK: R130, access RW. -/
def SCANP_EYE_MASK (i : Nat) : Fld := regFld (0x10 + i / 16) (0xa08 + 16 * (i % 16)) 24 3 (if i % 16 = 0 then 2 else 0)
/-- SCANP_HOLD_ADAPT: R130, access RW. -/
def SCANP_HOLD_ADAPT (i : Nat) : Fld := regFld (0x10 + i / 16) (0xa08 + 16 * (i % 16)) 28 1 0
/-- PORT_CTRL_ENABLE: R160, access RW. -/
def PORT_CTRL_ENABLE (i : Nat) : Fld := regFld (0x30 + i / 8) (0x100 + 256 * (i % 8)) 0 1 0
/-- PORT_CTRL_AN_EN: R160, access RW. -/
def PORT_CTRL_AN_EN (i : Nat) : Fld := regFld (0x30 + i / 8) (0x100 + 256 * (i % 8)) 1 1 0
/-- PORT_CTRL_FEC_MODE: R160, access RW. -/
def PORT_CTRL_FEC_MODE (i : Nat) : Fld := regFld (0x30 + i / 8) (0x100 + 256 * (i % 8)) 2 1 0
/-- PORT_CTRL_RATE: R160, access RW. -/
def PORT_CTRL_RATE (i : Nat) : Fld := regFld (0x30 + i / 8) (0x100 + 256 * (i % 8)) 4 3 0
/-- PORT_CTRL_LOOPBACK: R160, access RW. -/
def PORT_CTRL_LOOPBACK (i : Nat) : Fld := regFld (0x30 + i / 8) (0x100 + 256 * (i % 8)) 8 1 0
/-- PORT_CTRL_TX_FORCE: R160, access RW. -/
def PORT_CTRL_TX_FORCE (i : Nat) : Fld := regFld (0x30 + i / 8) (0x100 + 256 * (i % 8)) 12 2 0
/-- PORT_CTRL_LANE_HOLDOFF: R160, access RW. -/
def PORT_CTRL_LANE_HOLDOFF (i : Nat) : Fld := regFld (0x30 + i / 8) (0x104 + 256 * (i % 8)) 0 10 0
/-- PORT_CFG_MAX_LEN: R160, access RW. -/
def PORT_CFG_MAX_LEN (i : Nat) : Fld := regFld (0x30 + i / 8) (0x108 + 256 * (i % 8)) 0 14 1522
/-- PORT_STATUS_STATE: R160, access RO. -/
def PORT_STATUS_STATE (i : Nat) : Fld := regFld (0x30 + i / 8) (0x10c + 256 * (i % 8)) 0 3 0
/-- PORT_STATUS_POWER_PENDING: R160, access RO. -/
def PORT_STATUS_POWER_PENDING (i : Nat) : Fld := regFld (0x30 + i / 8) (0x10c + 256 * (i % 8)) 3 1 0
/-- PORT_STATUS_ENABLE_CODE: R160, access RO. -/
def PORT_STATUS_ENABLE_CODE (i : Nat) : Fld := regFld (0x30 + i / 8) (0x10c + 256 * (i % 8)) 8 8 0
/-- PORT_STATUS_LOCAL_FAULT: R160, access RO. -/
def PORT_STATUS_LOCAL_FAULT (i : Nat) : Fld := regFld (0x30 + i / 8) (0x10c + 256 * (i % 8)) 16 1 0
/-- PORT_STATUS_RF_RECEIVED: R160, access RO. -/
def PORT_STATUS_RF_RECEIVED (i : Nat) : Fld := regFld (0x30 + i / 8) (0x10c + 256 * (i % 8)) 17 1 0
/-- PORT_STATUS_ALIGNED: R160, access RO. -/
def PORT_STATUS_ALIGNED (i : Nat) : Fld := regFld (0x30 + i / 8) (0x10c + 256 * (i % 8)) 18 1 0
/-- PORT_STATUS_HI_BER: R160, access RO. -/
def PORT_STATUS_HI_BER (i : Nat) : Fld := regFld (0x30 + i / 8) (0x10c + 256 * (i % 8)) 19 1 0
/-- PORT_STATUS_AN_DONE: R160, access RO. -/
def PORT_STATUS_AN_DONE (i : Nat) : Fld := regFld (0x30 + i / 8) (0x10c + 256 * (i % 8)) 20 1 0
/-- PORT_STATUS_AN_NO_HCD: R160, access RO. -/
def PORT_STATUS_AN_NO_HCD (i : Nat) : Fld := regFld (0x30 + i / 8) (0x10c + 256 * (i % 8)) 21 1 0
/-- PORT_STATUS_FEC_ACTIVE: R160, access RO. -/
def PORT_STATUS_FEC_ACTIVE (i : Nat) : Fld := regFld (0x30 + i / 8) (0x10c + 256 * (i % 8)) 22 1 0
/-- PORT_STATUS_LANES_DOWN: R160, access RO. -/
def PORT_STATUS_LANES_DOWN (i : Nat) : Fld := regFld (0x30 + i / 8) (0x10c + 256 * (i % 8)) 24 8 0
/-- FEC_CORRECTED_CW: R160, access RC. -/
def FEC_CORRECTED_CW (i : Nat) : Fld := regFld (0x30 + i / 8) (0x110 + 256 * (i % 8)) 0 64 0
/-- FEC_UNCORRECTED_CW: R160, access RC. -/
def FEC_UNCORRECTED_CW (i : Nat) : Fld := regFld (0x30 + i / 8) (0x118 + 256 * (i % 8)) 0 64 0
/-- FEC_CORRECTED_SYMBOLS: R160, access RC. -/
def FEC_CORRECTED_SYMBOLS (i : Nat) : Fld := regFld (0x30 + i / 8) (0x120 + 256 * (i % 8)) 0 64 0
/-- PCS_ERR_BLOCKS: R160, access RC. -/
def PCS_ERR_BLOCKS (i : Nat) : Fld := regFld (0x30 + i / 8) (0x128 + 256 * (i % 8)) 0 32 0
/-- HI_BER_COUNT: R160, access RC. -/
def HI_BER_COUNT (i : Nat) : Fld := regFld (0x30 + i / 8) (0x12c + 256 * (i % 8)) 0 32 0
/-- AM_LOCK_LOSS: R160, access RC. -/
def AM_LOCK_LOSS (i : Nat) : Fld := regFld (0x30 + i / 8) (0x130 + 256 * (i % 8)) 0 32 0
/-- DESKEW_FAILS: R160, access RC. -/
def DESKEW_FAILS (i : Nat) : Fld := regFld (0x30 + i / 8) (0x134 + 256 * (i % 8)) 0 32 0
/-- HOLDOFF_RECOVERED: R160, access RC. -/
def HOLDOFF_RECOVERED (i : Nat) : Fld := regFld (0x30 + i / 8) (0x138 + 256 * (i % 8)) 0 32 0
/-- HOLDOFF_EXPIRED: R160, access RC. -/
def HOLDOFF_EXPIRED (i : Nat) : Fld := regFld (0x30 + i / 8) (0x13c + 256 * (i % 8)) 0 32 0
/-- LINK_DOWN_COUNT: R160, access RC. -/
def LINK_DOWN_COUNT (i : Nat) : Fld := regFld (0x30 + i / 8) (0x140 + 256 * (i % 8)) 0 32 0
/-- RX_FCS_ERR: R160, access RC. -/
def RX_FCS_ERR (i : Nat) : Fld := regFld (0x30 + i / 8) (0x144 + 256 * (i % 8)) 0 32 0
/-- RX_RUNT: R160, access RC. -/
def RX_RUNT (i : Nat) : Fld := regFld (0x30 + i / 8) (0x148 + 256 * (i % 8)) 0 32 0
/-- RX_OVERSIZE: R160, access RC. -/
def RX_OVERSIZE (i : Nat) : Fld := regFld (0x30 + i / 8) (0x14c + 256 * (i % 8)) 0 32 0
/-- RX_ENDED_ERROR: R160, access RC. -/
def RX_ENDED_ERROR (i : Nat) : Fld := regFld (0x30 + i / 8) (0x150 + 256 * (i % 8)) 0 32 0
/-- RX_PAUSE: R160, access RC. -/
def RX_PAUSE (i : Nat) : Fld := regFld (0x30 + i / 8) (0x154 + 256 * (i % 8)) 0 32 0
/-- RX_MAC_CTRL_OTHER: R160, access RC. -/
def RX_MAC_CTRL_OTHER (i : Nat) : Fld := regFld (0x30 + i / 8) (0x158 + 256 * (i % 8)) 0 32 0
/-- TX_DISCARD_DOWN: R160, access RC. -/
def TX_DISCARD_DOWN (i : Nat) : Fld := regFld (0x30 + i / 8) (0x15c + 256 * (i % 8)) 0 32 0
/-- TX_DISCARD_FAULT: R160, access RC. -/
def TX_DISCARD_FAULT (i : Nat) : Fld := regFld (0x30 + i / 8) (0x160 + 256 * (i % 8)) 0 32 0
/-- TX_ABORTED: R160, access RC. -/
def TX_ABORTED (i : Nat) : Fld := regFld (0x30 + i / 8) (0x164 + 256 * (i % 8)) 0 32 0
/-- AN_RESTARTS: R160, access RC. -/
def AN_RESTARTS (i : Nat) : Fld := regFld (0x30 + i / 8) (0x168 + 256 * (i % 8)) 0 32 0
/-- TX_MAC_CTRL_DROPS: R160, access RC. -/
def TX_MAC_CTRL_DROPS (i : Nat) : Fld := regFld (0x30 + i / 8) (0x16c + 256 * (i % 8)) 0 32 0
/-- OCT_PORT_MODE_MODE: R161, access RW. -/
def OCT_PORT_MODE_MODE (i : Nat) : Fld := regFld (0x30 + i) 0x900 0 4 0
/-- OCT_PORT_STATUS_CFG_REFUSED: R161, access RO. -/
def OCT_PORT_STATUS_CFG_REFUSED (i : Nat) : Fld := regFld (0x30 + i) 0x904 0 1 0
/-- OCT_PORT_STATUS_PORTS_UP: R161, access RO. -/
def OCT_PORT_STATUS_PORTS_UP (i : Nat) : Fld := regFld (0x30 + i) 0x904 8 8 0
/-- PORT_CLASS_SECY: R167, access RW. -/
def PORT_CLASS_SECY (i : Nat) : Fld := tblFld 0x70 4 i 0 12 0
/-- PORT_CLASS_SECY_VALID: R167, access RW. -/
def PORT_CLASS_SECY_VALID (i : Nat) : Fld := tblFld 0x70 4 i 12 1 0
/-- PORT_CLASS_POLICY: R167, access RWA, anchor group 0. -/
def PORT_CLASS_POLICY (i : Nat) : Fld := tblFld 0x70 4 i 16 2 0
/-- PORT_CLASS_GUARD_MASK: R167, access RWA, anchor group 1. -/
def PORT_CLASS_GUARD_MASK (i : Nat) : Fld := tblFld 0x70 4 i 32 16 0
/-- VID_CLASS_CLASS: R167, access RWA, anchor group 0. -/
def VID_CLASS_CLASS (i : Nat) : Fld := tblFld 0x70 5 i 0 4 0
/-- BYPASS_ETHERTYPE: R170, access RWA, anchor group 1. -/
def BYPASS_ETHERTYPE (i : Nat) : Fld := tblFld 0x70 6 i 0 16 (if i = 0 then 0x888E else if i = 1 then 0x88F7 else 0)
/-- BYPASS_ETHERTYPE_EN: R170, access RWA, anchor group 1. -/
def BYPASS_ETHERTYPE_EN (i : Nat) : Fld := tblFld 0x70 6 i 16 1 (if i < 2 then 1 else 0)
/-- BYPASS_DA_EN: R170, access RWA, anchor group 1. -/
def BYPASS_DA_EN (i : Nat) : Fld := tblFld 0x70 6 i 17 1 0
/-- BYPASS_VALID: R170, access RWA, anchor group 1. -/
def BYPASS_VALID (i : Nat) : Fld := tblFld 0x70 6 i 18 1 (if i < 2 then 1 else 0)
/-- BYPASS_DA: R170, access RWA, anchor group 1. -/
def BYPASS_DA (i : Nat) : Fld := tblFld 0x70 6 i 32 48 0
/-- BYPASS_DA_MASK: R170, access RWA, anchor group 1. -/
def BYPASS_DA_MASK (i : Nat) : Fld := tblFld 0x70 6 i 80 48 0
/-- SECY_VALID: R173, access RW. -/
def SECY_VALID (i : Nat) : Fld := tblFld 0x70 0 i 0 1 0
/-- SECY_PROTECT_FRAMES: R173, access RW. -/
def SECY_PROTECT_FRAMES (i : Nat) : Fld := tblFld 0x70 0 i 1 1 0
/-- SECY_CONFIDENTIALITY: R173, access RW. -/
def SECY_CONFIDENTIALITY (i : Nat) : Fld := tblFld 0x70 0 i 2 1 0
/-- SECY_INCLUDE_SCI: R173, access RW. -/
def SECY_INCLUDE_SCI (i : Nat) : Fld := tblFld 0x70 0 i 3 1 0
/-- SECY_USE_ES: R173, access RW. -/
def SECY_USE_ES (i : Nat) : Fld := tblFld 0x70 0 i 4 1 0
/-- SECY_USE_SCB: R173, access RW. -/
def SECY_USE_SCB (i : Nat) : Fld := tblFld 0x70 0 i 5 1 0
/-- SECY_VALIDATE_FRAMES: R173, access RW. -/
def SECY_VALIDATE_FRAMES (i : Nat) : Fld := tblFld 0x70 0 i 6 2 0
/-- SECY_REPLAY_PROTECT: R173, access RW. -/
def SECY_REPLAY_PROTECT (i : Nat) : Fld := tblFld 0x70 0 i 8 1 0
/-- SECY_LIMIT_MODE: R173, access RW. -/
def SECY_LIMIT_MODE (i : Nat) : Fld := tblFld 0x70 0 i 9 1 0
/-- SECY_CIPHER_SUITE: R173, access RW. -/
def SECY_CIPHER_SUITE (i : Nat) : Fld := tblFld 0x70 0 i 10 2 0
/-- SECY_CONF_OFFSET: R173, access RW. -/
def SECY_CONF_OFFSET (i : Nat) : Fld := tblFld 0x70 0 i 12 2 0
/-- SECY_ENCODING_AN: R173, access RW. -/
def SECY_ENCODING_AN (i : Nat) : Fld := tblFld 0x70 0 i 14 2 0
/-- SECY_PORT: R173, access RW. -/
def SECY_PORT (i : Nat) : Fld := tblFld 0x70 0 i 16 8 0
/-- SECY_REPLAY_WINDOW: R173, access RW. -/
def SECY_REPLAY_WINDOW (i : Nat) : Fld := tblFld 0x70 0 i 32 31 0
/-- SECY_BYPASS_MASK: R173, access RWA, anchor group 1. -/
def SECY_BYPASS_MASK (i : Nat) : Fld := tblFld 0x70 0 i 64 16 0
/-- SECY_DEFAULT_RXSC: R173, access RW. -/
def SECY_DEFAULT_RXSC (i : Nat) : Fld := tblFld 0x70 0 i 80 14 0
/-- SECY_DEFAULT_RXSC_VALID: R173, access RW. -/
def SECY_DEFAULT_RXSC_VALID (i : Nat) : Fld := tblFld 0x70 0 i 94 1 0
/-- SECY_TX_MAX_LEN: R173, access RW. -/
def SECY_TX_MAX_LEN (i : Nat) : Fld := tblFld 0x70 0 i 96 16 0
/-- SECY_PENDING_AN: R173, access RO. -/
def SECY_PENDING_AN (i : Nat) : Fld := tblFld 0x70 0 i 112 2 0
/-- SECY_SWITCH_PENDING: R173, access RO. -/
def SECY_SWITCH_PENDING (i : Nat) : Fld := tblFld 0x70 0 i 114 1 0
/-- SECY_SCI: R173, access RW. -/
def SECY_SCI (i : Nat) : Fld := tblFld 0x70 0 i 128 64 0
/-- RXSC_VALID: R175, access RW. -/
def RXSC_VALID (i : Nat) : Fld := tblFld 0x70 2 i 0 1 0
/-- RXSC_SECY: R175, access RW. -/
def RXSC_SECY (i : Nat) : Fld := tblFld 0x70 2 i 16 12 0
/-- RXSC_SCI: R175, access RW. -/
def RXSC_SCI (i : Nat) : Fld := tblFld 0x70 2 i 64 64 0
/-- TXSA_STATE: R176, access RO. -/
def TXSA_STATE (i : Nat) : Fld := tblFld 0x70 1 i 0 3 0
/-- TXSA_ROLLOVER: R176, access RW. -/
def TXSA_ROLLOVER (i : Nat) : Fld := tblFld 0x70 1 i 3 1 0
/-- TXSA_KEY_PRESENT: R176, access RO. -/
def TXSA_KEY_PRESENT (i : Nat) : Fld := tblFld 0x70 1 i 4 1 0
/-- TXSA_THRESHOLD_HIT: R176, access RO. -/
def TXSA_THRESHOLD_HIT (i : Nat) : Fld := tblFld 0x70 1 i 5 1 0
/-- TXSA_LIMIT_REACHED: R176, access RO. -/
def TXSA_LIMIT_REACHED (i : Nat) : Fld := tblFld 0x70 1 i 6 1 0
/-- TXSA_PARENT_LOST: R176, access RO. -/
def TXSA_PARENT_LOST (i : Nat) : Fld := tblFld 0x70 1 i 7 1 0
/-- TXSA_ON_PARENT_LOSS: R176, access RW. -/
def TXSA_ON_PARENT_LOSS (i : Nat) : Fld := tblFld 0x70 1 i 8 2 0
/-- TXSA_ERASE_AT_WP: R176, access RW. -/
def TXSA_ERASE_AT_WP (i : Nat) : Fld := tblFld 0x70 1 i 10 12 0
/-- TXSA_PARENT: R176, access RO. -/
def TXSA_PARENT (i : Nat) : Fld := tblFld 0x70 1 i 22 11 0
/-- TXSA_PARENT_VALID: R176, access RO. -/
def TXSA_PARENT_VALID (i : Nat) : Fld := tblFld 0x70 1 i 33 1 0
/-- TXSA_NEXT_PN: R176, access RW. -/
def TXSA_NEXT_PN (i : Nat) : Fld := tblFld 0x70 1 i 64 64 0
/-- TXSA_PN_THRESHOLD: R176, access RW. -/
def TXSA_PN_THRESHOLD (i : Nat) : Fld := tblFld 0x70 1 i 128 64 0
/-- TXSA_SSCI: R176, access RW. -/
def TXSA_SSCI (i : Nat) : Fld := tblFld 0x70 1 i 192 32 0
/-- TXSA_FRAME_LIMIT: R176, access RW. -/
def TXSA_FRAME_LIMIT (i : Nat) : Fld := tblFld 0x70 1 i 224 32 0
/-- RXSA_STATE: R176, access RO. -/
def RXSA_STATE (i : Nat) : Fld := tblFld 0x70 3 i 0 3 0
/-- RXSA_KEY_PRESENT: R176, access RO. -/
def RXSA_KEY_PRESENT (i : Nat) : Fld := tblFld 0x70 3 i 4 1 0
/-- RXSA_PARENT_LOST: R176, access RO. -/
def RXSA_PARENT_LOST (i : Nat) : Fld := tblFld 0x70 3 i 7 1 0
/-- RXSA_ON_PARENT_LOSS: R176, access RW. -/
def RXSA_ON_PARENT_LOSS (i : Nat) : Fld := tblFld 0x70 3 i 8 2 0
/-- RXSA_ERASE_AT_WP: R176, access RW. -/
def RXSA_ERASE_AT_WP (i : Nat) : Fld := tblFld 0x70 3 i 10 12 0
/-- RXSA_PARENT: R176, access RO. -/
def RXSA_PARENT (i : Nat) : Fld := tblFld 0x70 3 i 22 11 0
/-- RXSA_PARENT_VALID: R176, access RO. -/
def RXSA_PARENT_VALID (i : Nat) : Fld := tblFld 0x70 3 i 33 1 0
/-- RXSA_NEXT_PN: R176, access RW. -/
def RXSA_NEXT_PN (i : Nat) : Fld := tblFld 0x70 3 i 64 64 0
/-- RXSA_SSCI: R176, access RW. -/
def RXSA_SSCI (i : Nat) : Fld := tblFld 0x70 3 i 128 32 0
/-- RXSA_LOWEST_PN: R176, access RW. -/
def RXSA_LOWEST_PN (i : Nat) : Fld := tblFld 0x70 3 i 160 64 0
/-- SA_CMD_INDEX: R197, access WO. -/
def SA_CMD_INDEX : Fld := regFld 0x70 0x100 0 17 0
/-- SA_CMD_DIR: R197, access WO. -/
def SA_CMD_DIR : Fld := regFld 0x70 0x100 20 1 0
/-- SA_CMD_OP: R197, access WO. -/
def SA_CMD_OP : Fld := regFld 0x70 0x100 24 2 0
/-- SA_CMD_STATUS_CODE: R197, access RO. -/
def SA_CMD_STATUS_CODE : Fld := regFld 0x70 0x104 0 8 0
/-- SA_CMD_STATUS_BUSY: R197, access RO. -/
def SA_CMD_STATUS_BUSY : Fld := regFld 0x70 0x104 8 1 0
/-- SAK_POLICY_DIRECT_SAK_WRITE: R197, access RWA, anchor group 2. -/
def SAK_POLICY_DIRECT_SAK_WRITE : Fld := regFld 0x70 0x108 0 1 0
/-- SA_EVT_POP_INDEX: R197, access RC. -/
def SA_EVT_POP_INDEX : Fld := regFld 0x70 0x10c 0 17 0
/-- SA_EVT_POP_DIR: R197, access RC. -/
def SA_EVT_POP_DIR : Fld := regFld 0x70 0x10c 17 1 0
/-- SA_EVT_POP_KIND: R197, access RC. -/
def SA_EVT_POP_KIND : Fld := regFld 0x70 0x10c 20 3 0
/-- SA_EVT_POP_VALID: R197, access RC. -/
def SA_EVT_POP_VALID : Fld := regFld 0x70 0x10c 31 1 0
/-- SA_EVT_STATUS_LEVEL: R197, access RO. -/
def SA_EVT_STATUS_LEVEL : Fld := regFld 0x70 0x110 0 9 0
/-- SA_EVT_STATUS_OVERFLOW: R197, access W1C. -/
def SA_EVT_STATUS_OVERFLOW : Fld := regFld 0x70 0x110 16 1 0
/-- SA_EVT_LOST: R197, access RC. -/
def SA_EVT_LOST : Fld := regFld 0x70 0x114 0 32 0
/-- CC_STATUS_STATE: R220, access RO. -/
def CC_STATUS_STATE (i : Nat) : Fld := regFld (0x50 + i) 0x100 0 2 0
/-- CC_STATUS_RX_AWAKE: R220, access RO. -/
def CC_STATUS_RX_AWAKE (i : Nat) : Fld := regFld (0x50 + i) 0x100 4 3 0
/-- CC_STATUS_TX_AWAKE: R220, access RO. -/
def CC_STATUS_TX_AWAKE (i : Nat) : Fld := regFld (0x50 + i) 0x100 8 3 0
/-- CC_STATUS_NEEDED: R220, access RO. -/
def CC_STATUS_NEEDED (i : Nat) : Fld := regFld (0x50 + i) 0x100 12 3 0
/-- CC_STATUS_SHARE: R220, access RO. -/
def CC_STATUS_SHARE (i : Nat) : Fld := regFld (0x50 + i) 0x100 16 7 0
/-- CC_FENCE_RX: R220, access RW. -/
def CC_FENCE_RX (i : Nat) : Fld := regFld (0x50 + i) 0x104 0 5 0
/-- CC_FENCE_TX: R220, access RW. -/
def CC_FENCE_TX (i : Nat) : Fld := regFld (0x50 + i) 0x104 8 5 0
/-- CC_FENCE_STATUS_RX_FENCED: R220, access RO. -/
def CC_FENCE_STATUS_RX_FENCED (i : Nat) : Fld := regFld (0x50 + i) 0x108 0 5 0
/-- CC_FENCE_STATUS_TX_FENCED: R220, access RO. -/
def CC_FENCE_STATUS_TX_FENCED (i : Nat) : Fld := regFld (0x50 + i) 0x108 8 5 0
/-- CC_FENCE_STATUS_FENCE_PENDING: R220, access RO. -/
def CC_FENCE_STATUS_FENCE_PENDING (i : Nat) : Fld := regFld (0x50 + i) 0x108 16 1 0
/-- CC_FENCE_STATUS_FENCE_REFUSED: R220, access RO. -/
def CC_FENCE_STATUS_FENCE_REFUSED (i : Nat) : Fld := regFld (0x50 + i) 0x108 17 1 0
/-- CHECK_LAST_DIR: R220, access RO. -/
def CHECK_LAST_DIR (i : Nat) : Fld := regFld (0x50 + i) 0x110 0 1 0
/-- CHECK_LAST_SET: R220, access RO. -/
def CHECK_LAST_SET (i : Nat) : Fld := regFld (0x50 + i) 0x110 1 3 0
/-- CHECK_LAST_KIND: R220, access RO. -/
def CHECK_LAST_KIND (i : Nat) : Fld := regFld (0x50 + i) 0x110 4 2 0
/-- CHECK_LAST_VALID: R220, access W1C. -/
def CHECK_LAST_VALID (i : Nat) : Fld := regFld (0x50 + i) 0x110 8 1 0
/-- CHECK_LAST_SA_INDEX: R220, access RO. -/
def CHECK_LAST_SA_INDEX (i : Nat) : Fld := regFld (0x50 + i) 0x114 0 17 0
/-- CHECK_LAST_TIME_NS: R220, access RO. -/
def CHECK_LAST_TIME_NS (i : Nat) : Fld := regFld (0x50 + i) 0x118 0 30 0
/-- CHECK_LAST_TIME_SEC: R220, access RO. -/
def CHECK_LAST_TIME_SEC (i : Nat) : Fld := regFld (0x50 + i) 0x11c 0 32 0
/-- RX_FRAMES: R220, access RC. -/
def RX_FRAMES (i : Nat) : Fld := regFld (0x50 + i) 0x120 0 64 0
/-- RX_BLOCKS: R220, access RC. -/
def RX_BLOCKS (i : Nat) : Fld := regFld (0x50 + i) 0x128 0 64 0
/-- TX_FRAMES: R220, access RC. -/
def TX_FRAMES (i : Nat) : Fld := regFld (0x50 + i) 0x130 0 64 0
/-- TX_BLOCKS: R220, access RC. -/
def TX_BLOCKS (i : Nat) : Fld := regFld (0x50 + i) 0x138 0 64 0
/-- RX_ZERO_OVERWRITES: R220, access RC. -/
def RX_ZERO_OVERWRITES (i : Nat) : Fld := regFld (0x50 + i) 0x140 0 32 0
/-- RX_CHECK_SUPPRESSED: R220, access RC. -/
def RX_CHECK_SUPPRESSED (i : Nat) : Fld := regFld (0x50 + i) 0x144 0 32 0
/-- TX_CHECK_SUPPRESSED: R220, access RC. -/
def TX_CHECK_SUPPRESSED (i : Nat) : Fld := regFld (0x50 + i) 0x148 0 32 0
/-- RX_SET_MISMATCH: R220, access RC. -/
def RX_SET_MISMATCH (i j : Nat) : Fld := regFld (0x50 + i) (0x150 + 4 * j) 0 32 0
/-- TX_SET_MISMATCH: R220, access RC. -/
def TX_SET_MISMATCH (i j : Nat) : Fld := regFld (0x50 + i) (0x170 + 4 * j) 0 32 0
/-- STOMP_ICV: R221, access RC. -/
def STOMP_ICV (i : Nat) : Fld := regFld (0x50 + i / 8) (0x400 + 64 * (i % 8)) 0 32 0
/-- STOMP_REPLAY: R221, access RC. -/
def STOMP_REPLAY (i : Nat) : Fld := regFld (0x50 + i / 8) (0x404 + 64 * (i % 8)) 0 32 0
/-- STOMP_CHECK: R221, access RC. -/
def STOMP_CHECK (i : Nat) : Fld := regFld (0x50 + i / 8) (0x408 + 64 * (i % 8)) 0 32 0
/-- STOMP_FCS: R221, access RC. -/
def STOMP_FCS (i : Nat) : Fld := regFld (0x50 + i / 8) (0x40c + 64 * (i % 8)) 0 32 0
/-- STOMP_RUNT: R221, access RC. -/
def STOMP_RUNT (i : Nat) : Fld := regFld (0x50 + i / 8) (0x410 + 64 * (i % 8)) 0 32 0
/-- STOMP_OVERSIZE: R221, access RC. -/
def STOMP_OVERSIZE (i : Nat) : Fld := regFld (0x50 + i / 8) (0x414 + 64 * (i % 8)) 0 32 0
/-- STOMP_RX_ERROR: R221, access RC. -/
def STOMP_RX_ERROR (i : Nat) : Fld := regFld (0x50 + i / 8) (0x418 + 64 * (i % 8)) 0 32 0
/-- STOMP_POLICY: R221, access RC. -/
def STOMP_POLICY (i : Nat) : Fld := regFld (0x50 + i / 8) (0x41c + 64 * (i % 8)) 0 32 0
/-- RX_STOMP_SEEN: R221, access RC. -/
def RX_STOMP_SEEN (i : Nat) : Fld := regFld (0x50 + i / 8) (0x420 + 64 * (i % 8)) 0 32 0
/-- CD_CTRL_ENABLE: R246, access RW. -/
def CD_CTRL_ENABLE (i : Nat) : Fld := regFld (0x30 + i / 8) (0x180 + 256 * (i % 8)) 0 1 0
/-- CD_CTRL_REQUIRE_CAL: R246, access RW. -/
def CD_CTRL_REQUIRE_CAL (i : Nat) : Fld := regFld (0x30 + i / 8) (0x180 + 256 * (i % 8)) 1 1 1
/-- REKEY_TIME_ERROR: R246, access RW. -/
def REKEY_TIME_ERROR (i : Nat) : Fld := regFld (0x30 + i / 8) (0x184 + 256 * (i % 8)) 0 16 100
/-- REKEY_OVERLAP: R246, access RO. -/
def REKEY_OVERLAP (i : Nat) : Fld := regFld (0x30 + i / 8) (0x188 + 256 * (i % 8)) 0 18 0
/-- PLAN_LEAD: R246, access RO. -/
def PLAN_LEAD (i : Nat) : Fld := regFld (0x30 + i / 8) (0x18c + 256 * (i % 8)) 0 8 0
/-- CD_SENT: R246, access RC. -/
def CD_SENT (i : Nat) : Fld := regFld (0x30 + i / 8) (0x190 + 256 * (i % 8)) 0 32 0
/-- CD_MISS_PORT: R246, access RC. -/
def CD_MISS_PORT (i : Nat) : Fld := regFld (0x30 + i / 8) (0x194 + 256 * (i % 8)) 0 32 0
/-- CD_MISS_TIME: R246, access RC. -/
def CD_MISS_TIME (i : Nat) : Fld := regFld (0x30 + i / 8) (0x198 + 256 * (i % 8)) 0 32 0
/-- CD_MISS_CAL: R246, access RC. -/
def CD_MISS_CAL (i : Nat) : Fld := regFld (0x30 + i / 8) (0x19c + 256 * (i % 8)) 0 32 0
/-- CD_MISS_FORMAT: R246, access RC. -/
def CD_MISS_FORMAT (i : Nat) : Fld := regFld (0x30 + i / 8) (0x1a0 + 256 * (i % 8)) 0 32 0
/-- SWITCH_TAKEN: R246, access RC. -/
def SWITCH_TAKEN (i : Nat) : Fld := regFld (0x30 + i / 8) (0x1a4 + 256 * (i % 8)) 0 32 0
/-- SWITCH_CANCELLED: R246, access RC. -/
def SWITCH_CANCELLED (i : Nat) : Fld := regFld (0x30 + i / 8) (0x1a8 + 256 * (i % 8)) 0 32 0
/-- ROOT_VALID: R250, access RO. -/
def ROOT_VALID (i : Nat) : Fld := bcTblFld 0x5 1 i 0 1 0
/-- ROOT_SYSTEM: R250, access RO. -/
def ROOT_SYSTEM (i : Nat) : Fld := tblFld 0x5 1 i 1 1 (if i < 8 then 1 else 0)
/-- ROOT_ORIGIN: R250, access RO. -/
def ROOT_ORIGIN (i : Nat) : Fld := bcTblFld 0x5 1 i 2 2 0
/-- ROOT_GENERATION: R250, access RO. -/
def ROOT_GENERATION (i : Nat) : Fld := bcTblFld 0x5 1 i 32 32 0
/-- SLOT_TYPE: R254, access RO. -/
def SLOT_TYPE (i : Nat) : Fld := tblFld 0x5 0 i 0 4 0
/-- SLOT_LENGTH: R254, access RO. -/
def SLOT_LENGTH (i : Nat) : Fld := tblFld 0x5 0 i 4 2 0
/-- SLOT_EXPIRE_AT_RESET: R254, access RO. -/
def SLOT_EXPIRE_AT_RESET (i : Nat) : Fld := tblFld 0x5 0 i 6 1 0
/-- SLOT_EXPORTABLE_WRAPPED: R254, access RO. -/
def SLOT_EXPORTABLE_WRAPPED (i : Nat) : Fld := tblFld 0x5 0 i 7 1 0
/-- SLOT_PRESENCE_REQUIRED: R254, access RO. -/
def SLOT_PRESENCE_REQUIRED (i : Nat) : Fld := tblFld 0x5 0 i 8 1 0
/-- SLOT_ON_PARENT_LOSS: R254, access RO. -/
def SLOT_ON_PARENT_LOSS (i : Nat) : Fld := tblFld 0x5 0 i 9 2 0
/-- SLOT_OPS: R254, access RO. -/
def SLOT_OPS (i : Nat) : Fld := tblFld 0x5 0 i 16 8 0
/-- SLOT_STATE: R254, access RO. -/
def SLOT_STATE (i : Nat) : Fld := tblFld 0x5 0 i 32 3 0
/-- SLOT_PARENT_LOST: R254, access RO. -/
def SLOT_PARENT_LOST (i : Nat) : Fld := tblFld 0x5 0 i 35 1 0
/-- SLOT_CREATOR: R254, access RO. -/
def SLOT_CREATOR (i : Nat) : Fld := tblFld 0x5 0 i 36 1 0
/-- SLOT_PARENT: R254, access RO. -/
def SLOT_PARENT (i : Nat) : Fld := tblFld 0x5 0 i 40 11 0
/-- SLOT_PARENT_VALID: R254, access RO. -/
def SLOT_PARENT_VALID (i : Nat) : Fld := tblFld 0x5 0 i 51 1 0
/-- SLOT_ERASE_AT_WP: R254, access RO. -/
def SLOT_ERASE_AT_WP (i : Nat) : Fld := tblFld 0x5 0 i 52 12 0
/-- SLOT_USE_LIMIT: R254, access RO. -/
def SLOT_USE_LIMIT (i : Nat) : Fld := tblFld 0x5 0 i 64 32 0
/-- SLOT_LABEL: R254, access RO. -/
def SLOT_LABEL (i : Nat) : Fld := tblFld 0x5 0 i 96 32 0
/-- VAULT_STATUS_SLOTS_USED: R281, access RO. -/
def VAULT_STATUS_SLOTS_USED : Fld := regFld 0x5 0x100 0 11 0
/-- VAULT_STATUS_DRBG_STATE: R281, access RO. -/
def VAULT_STATUS_DRBG_STATE : Fld := regFld 0x5 0x100 16 2 0
/-- VAULT_STATUS_SELFTEST_PASS: R281, access RO. -/
def VAULT_STATUS_SELFTEST_PASS : Fld := regFld 0x5 0x100 20 1 0
/-- VAULT_STATUS_ENGINE_GRANTED: R281, access RO. -/
def VAULT_STATUS_ENGINE_GRANTED : Fld := regFld 0x5 0x100 21 1 0
/-- VAULT_STATUS_CASCADE_ACTIVE: R281, access RO. -/
def VAULT_STATUS_CASCADE_ACTIVE : Fld := regFld 0x5 0x100 22 1 0
/-- RIGHTS_HOST_CLASSES: R281, access RWA, anchor group 9. -/
def RIGHTS_HOST_CLASSES : Fld := regFld 0x5 0x104 0 8 0
/-- RIGHTS_HOST_RANGE_FIRST: R281, access RWA, anchor group 9. -/
def RIGHTS_HOST_RANGE_FIRST : Fld := regFld 0x5 0x108 0 10 1023
/-- RIGHTS_HOST_RANGE_LAST: R281, access RWA, anchor group 9. -/
def RIGHTS_HOST_RANGE_LAST : Fld := regFld 0x5 0x108 16 10 0
/-- RIGHTS_MGMT_CLASSES: R281, access RWA, anchor group 9. -/
def RIGHTS_MGMT_CLASSES : Fld := regFld 0x5 0x10c 0 8 0
/-- RIGHTS_MGMT_RANGE_FIRST: R281, access RWA, anchor group 9. -/
def RIGHTS_MGMT_RANGE_FIRST : Fld := regFld 0x5 0x110 0 10 1023
/-- RIGHTS_MGMT_RANGE_LAST: R281, access RWA, anchor group 9. -/
def RIGHTS_MGMT_RANGE_LAST : Fld := regFld 0x5 0x110 16 10 0
/-- CEIL_HOST_CLASSES: R281, access RO. -/
def CEIL_HOST_CLASSES : Fld := regFld 0x5 0x114 0 8 0
/-- CEIL_HOST_RANGE_FIRST: R281, access RO. -/
def CEIL_HOST_RANGE_FIRST : Fld := regFld 0x5 0x118 0 10 1023
/-- CEIL_HOST_RANGE_LAST: R281, access RO. -/
def CEIL_HOST_RANGE_LAST : Fld := regFld 0x5 0x118 16 10 0
/-- CEIL_MGMT_CLASSES: R281, access RO. -/
def CEIL_MGMT_CLASSES : Fld := regFld 0x5 0x11c 0 8 0x7F
/-- CEIL_MGMT_RANGE_FIRST: R281, access RO. -/
def CEIL_MGMT_RANGE_FIRST : Fld := regFld 0x5 0x120 0 10 0
/-- CEIL_MGMT_RANGE_LAST: R281, access RO. -/
def CEIL_MGMT_RANGE_LAST : Fld := regFld 0x5 0x120 16 10 1023
/-- ERASE_COUNT: R281, access RC. -/
def ERASE_COUNT : Fld := regFld 0x5 0x124 0 32 0
/-- KEY_GONE_COUNT: R281, access RC. -/
def KEY_GONE_COUNT : Fld := regFld 0x5 0x128 0 32 0
/-- ALARM_ABORT_COUNT: R281, access RC. -/
def ALARM_ABORT_COUNT : Fld := regFld 0x5 0x12c 0 32 0
/-- INTEGRITY_FAIL_COUNT: R281, access RC. -/
def INTEGRITY_FAIL_COUNT : Fld := regFld 0x5 0x130 0 32 0
/-- USE_EXHAUSTED_COUNT: R281, access RC. -/
def USE_EXHAUSTED_COUNT : Fld := regFld 0x5 0x134 0 32 0
/-- DIRECT_SAK_COUNT: R281, access RC. -/
def DIRECT_SAK_COUNT : Fld := regFld 0x5 0x138 0 32 0
/-- DRBG_HEALTH_FAILS: R281, access RC. -/
def DRBG_HEALTH_FAILS : Fld := regFld 0x5 0x13c 0 32 0
/-- DRBG_REQUESTS: R281, access RO. -/
def DRBG_REQUESTS : Fld := regFld 0x5 0x140 0 21 0
/-- BLOB_BUF: R281, access RW. -/
def BLOB_BUF (s j : Nat) : Fld := regFld 0x5 (0x2000 + 128 * s + 4 * j) 0 32 0
/-- CLSKEY_INGRESS_PORT: R285, access RW. -/
def CLSKEY_INGRESS_PORT (i : Nat) : Fld := tblFld 0x71 0 i 0 8 0
/-- CLSMASK_INGRESS_PORT: R285, access RW. -/
def CLSMASK_INGRESS_PORT (i : Nat) : Fld := tblFld 0x71 1 i 0 8 0
/-- CLSKEY_SRC_IS_RING: R285, access RW. -/
def CLSKEY_SRC_IS_RING (i : Nat) : Fld := tblFld 0x71 0 i 8 1 0
/-- CLSMASK_SRC_IS_RING: R285, access RW. -/
def CLSMASK_SRC_IS_RING (i : Nat) : Fld := tblFld 0x71 1 i 8 1 0
/-- CLSKEY_SEC_STATUS: R285, access RW. -/
def CLSKEY_SEC_STATUS (i : Nat) : Fld := tblFld 0x71 0 i 9 2 0
/-- CLSMASK_SEC_STATUS: R285, access RW. -/
def CLSMASK_SEC_STATUS (i : Nat) : Fld := tblFld 0x71 1 i 9 2 0
/-- CLSKEY_BYPASS_CLASS: R285, access RW. -/
def CLSKEY_BYPASS_CLASS (i : Nat) : Fld := tblFld 0x71 0 i 11 4 0
/-- CLSMASK_BYPASS_CLASS: R285, access RW. -/
def CLSMASK_BYPASS_CLASS (i : Nat) : Fld := tblFld 0x71 1 i 11 4 0
/-- CLSKEY_INGRESS_SECY: R285, access RW. -/
def CLSKEY_INGRESS_SECY (i : Nat) : Fld := tblFld 0x71 0 i 15 12 0
/-- CLSMASK_INGRESS_SECY: R285, access RW. -/
def CLSMASK_INGRESS_SECY (i : Nat) : Fld := tblFld 0x71 1 i 15 12 0
/-- CLSKEY_TAGGED: R285, access RW. -/
def CLSKEY_TAGGED (i : Nat) : Fld := tblFld 0x71 0 i 27 1 0
/-- CLSMASK_TAGGED: R285, access RW. -/
def CLSMASK_TAGGED (i : Nat) : Fld := tblFld 0x71 1 i 27 1 0
/-- CLSKEY_DOUBLE_TAGGED: R285, access RW. -/
def CLSKEY_DOUBLE_TAGGED (i : Nat) : Fld := tblFld 0x71 0 i 28 1 0
/-- CLSMASK_DOUBLE_TAGGED: R285, access RW. -/
def CLSMASK_DOUBLE_TAGGED (i : Nat) : Fld := tblFld 0x71 1 i 28 1 0
/-- CLSKEY_OUTER_VID: R285, access RW. -/
def CLSKEY_OUTER_VID (i : Nat) : Fld := tblFld 0x71 0 i 29 12 0
/-- CLSMASK_OUTER_VID: R285, access RW. -/
def CLSMASK_OUTER_VID (i : Nat) : Fld := tblFld 0x71 1 i 29 12 0
/-- CLSKEY_OUTER_PCP: R285, access RW. -/
def CLSKEY_OUTER_PCP (i : Nat) : Fld := tblFld 0x71 0 i 41 3 0
/-- CLSMASK_OUTER_PCP: R285, access RW. -/
def CLSMASK_OUTER_PCP (i : Nat) : Fld := tblFld 0x71 1 i 41 3 0
/-- CLSKEY_OUTER_DEI: R285, access RW. -/
def CLSKEY_OUTER_DEI (i : Nat) : Fld := tblFld 0x71 0 i 44 1 0
/-- CLSMASK_OUTER_DEI: R285, access RW. -/
def CLSMASK_OUTER_DEI (i : Nat) : Fld := tblFld 0x71 1 i 44 1 0
/-- CLSKEY_INNER_VID: R285, access RW. -/
def CLSKEY_INNER_VID (i : Nat) : Fld := tblFld 0x71 0 i 45 12 0
/-- CLSMASK_INNER_VID: R285, access RW. -/
def CLSMASK_INNER_VID (i : Nat) : Fld := tblFld 0x71 1 i 45 12 0
/-- CLSKEY_ETHERTYPE: R285, access RW. -/
def CLSKEY_ETHERTYPE (i : Nat) : Fld := tblFld 0x71 0 i 64 16 0
/-- CLSMASK_ETHERTYPE: R285, access RW. -/
def CLSMASK_ETHERTYPE (i : Nat) : Fld := tblFld 0x71 1 i 64 16 0
/-- CLSKEY_DA: R285, access RW. -/
def CLSKEY_DA (i : Nat) : Fld := tblFld 0x71 0 i 80 48 0
/-- CLSMASK_DA: R285, access RW. -/
def CLSMASK_DA (i : Nat) : Fld := tblFld 0x71 1 i 80 48 0
/-- CLSKEY_SA: R285, access RW. -/
def CLSKEY_SA (i : Nat) : Fld := tblFld 0x71 0 i 128 48 0
/-- CLSMASK_SA: R285, access RW. -/
def CLSMASK_SA (i : Nat) : Fld := tblFld 0x71 1 i 128 48 0
/-- CLSKEY_L3_TYPE: R285, access RW. -/
def CLSKEY_L3_TYPE (i : Nat) : Fld := tblFld 0x71 0 i 176 2 0
/-- CLSMASK_L3_TYPE: R285, access RW. -/
def CLSMASK_L3_TYPE (i : Nat) : Fld := tblFld 0x71 1 i 176 2 0
/-- CLSKEY_DSCP: R285, access RW. -/
def CLSKEY_DSCP (i : Nat) : Fld := tblFld 0x71 0 i 178 6 0
/-- CLSMASK_DSCP: R285, access RW. -/
def CLSMASK_DSCP (i : Nat) : Fld := tblFld 0x71 1 i 178 6 0
/-- CLSKEY_IP_PROTO: R285, access RW. -/
def CLSKEY_IP_PROTO (i : Nat) : Fld := tblFld 0x71 0 i 184 8 0
/-- CLSMASK_IP_PROTO: R285, access RW. -/
def CLSMASK_IP_PROTO (i : Nat) : Fld := tblFld 0x71 1 i 184 8 0
/-- CLSKEY_FRAGMENT: R285, access RW. -/
def CLSKEY_FRAGMENT (i : Nat) : Fld := tblFld 0x71 0 i 192 1 0
/-- CLSMASK_FRAGMENT: R285, access RW. -/
def CLSMASK_FRAGMENT (i : Nat) : Fld := tblFld 0x71 1 i 192 1 0
/-- CLSKEY_ADDR_SEL: R285, access RW. -/
def CLSKEY_ADDR_SEL (i : Nat) : Fld := tblFld 0x71 0 i 193 3 0
/-- CLSMASK_ADDR_SEL: R285, access RW. -/
def CLSMASK_ADDR_SEL (i : Nat) : Fld := tblFld 0x71 1 i 193 3 0
/-- CLSKEY_L4_SRC: R285, access RW. -/
def CLSKEY_L4_SRC (i : Nat) : Fld := tblFld 0x71 0 i 196 16 0
/-- CLSMASK_L4_SRC: R285, access RW. -/
def CLSMASK_L4_SRC (i : Nat) : Fld := tblFld 0x71 1 i 196 16 0
/-- CLSKEY_TCP_FLAGS: R285, access RW. -/
def CLSKEY_TCP_FLAGS (i : Nat) : Fld := tblFld 0x71 0 i 212 8 0
/-- CLSMASK_TCP_FLAGS: R285, access RW. -/
def CLSMASK_TCP_FLAGS (i : Nat) : Fld := tblFld 0x71 1 i 212 8 0
/-- CLSKEY_IP_ADDR: R285, access RW. -/
def CLSKEY_IP_ADDR (i : Nat) : Fld := tblFld 0x71 0 i 224 128 0
/-- CLSMASK_IP_ADDR: R285, access RW. -/
def CLSMASK_IP_ADDR (i : Nat) : Fld := tblFld 0x71 1 i 224 128 0
/-- CLSKEY_L4_DST: R285, access RW. -/
def CLSKEY_L4_DST (i : Nat) : Fld := tblFld 0x71 0 i 352 16 0
/-- CLSMASK_L4_DST: R285, access RW. -/
def CLSMASK_L4_DST (i : Nat) : Fld := tblFld 0x71 1 i 352 16 0
/-- CLSACT_VALID: R285, access RW. -/
def CLSACT_VALID (i : Nat) : Fld := tblFld 0x71 2 i 0 1 0
/-- CLSACT_FWD: R285, access RW. -/
def CLSACT_FWD (i : Nat) : Fld := tblFld 0x71 2 i 1 2 0
/-- CLSACT_PUNT: R285, access RW. -/
def CLSACT_PUNT (i : Nat) : Fld := tblFld 0x71 2 i 3 1 0
/-- CLSACT_PUNT_RING: R285, access RW. -/
def CLSACT_PUNT_RING (i : Nat) : Fld := tblFld 0x71 2 i 4 7 0
/-- CLSACT_QUEUE_SET: R285, access RW. -/
def CLSACT_QUEUE_SET (i : Nat) : Fld := tblFld 0x71 2 i 11 1 0
/-- CLSACT_QUEUE: R285, access RW. -/
def CLSACT_QUEUE (i : Nat) : Fld := tblFld 0x71 2 i 12 4 0
/-- CLSACT_FWD_TARGET: R285, access RW. -/
def CLSACT_FWD_TARGET (i : Nat) : Fld := tblFld 0x71 2 i 16 14 0
/-- CLSACT_POLICER_SET: R285, access RW. -/
def CLSACT_POLICER_SET (i : Nat) : Fld := tblFld 0x71 2 i 30 1 0
/-- CLSACT_NOTIFY: R285, access RW. -/
def CLSACT_NOTIFY (i : Nat) : Fld := tblFld 0x71 2 i 31 1 0
/-- CLSACT_POLICER: R285, access RW. -/
def CLSACT_POLICER (i : Nat) : Fld := tblFld 0x71 2 i 32 12 0
/-- CLSACT_COLOUR: R285, access RW. -/
def CLSACT_COLOUR (i : Nat) : Fld := tblFld 0x71 2 i 44 2 0
/-- CLSACT_NO_LEARN: R285, access RW. -/
def CLSACT_NO_LEARN (i : Nat) : Fld := tblFld 0x71 2 i 46 1 0
/-- CLSACT_VID_SET: R285, access RW. -/
def CLSACT_VID_SET (i : Nat) : Fld := tblFld 0x71 2 i 47 1 0
/-- CLSACT_NEW_VID: R285, access RW. -/
def CLSACT_NEW_VID (i : Nat) : Fld := tblFld 0x71 2 i 48 12 0
/-- CLSACT_PCP_SET: R285, access RW. -/
def CLSACT_PCP_SET (i : Nat) : Fld := tblFld 0x71 2 i 60 1 0
/-- CLSACT_NEW_PCP: R285, access RW. -/
def CLSACT_NEW_PCP (i : Nat) : Fld := tblFld 0x71 2 i 61 3 0
/-- CLSACT_CD_OP: R285, access RW. -/
def CLSACT_CD_OP (i : Nat) : Fld := tblFld 0x71 2 i 64 3 0
/-- CLSACT_FLOW_CLASS: R285, access RW. -/
def CLSACT_FLOW_CLASS (i : Nat) : Fld := tblFld 0x71 2 i 68 4 0
/-- CT_CLASS_EN: R306, access RW. -/
def CT_CLASS_EN : Fld := regFld 0x71 0x100 0 16 0
/-- CLS_NO_MATCH: R306, access RC. -/
def CLS_NO_MATCH : Fld := regFld 0x71 0x104 0 32 0
/-- PCP_QUEUE_MAP: R306, access RW. -/
def PCP_QUEUE_MAP (j : Nat) : Fld := regFld 0x71 (0x400 + 4 * j) 0 32 3970458656
/-- VLAN_VALID: R307, access RW. -/
def VLAN_VALID (i : Nat) : Fld := tblFld 0x72 0 i 0 1 0
/-- VLAN_LEARN_EN: R307, access RW. -/
def VLAN_LEARN_EN (i : Nat) : Fld := tblFld 0x72 0 i 1 1 0
/-- VLAN_FLOOD_UNKNOWN_UC: R307, access RW. -/
def VLAN_FLOOD_UNKNOWN_UC (i : Nat) : Fld := tblFld 0x72 0 i 2 1 0
/-- VLAN_FID: R307, access RW. -/
def VLAN_FID (i : Nat) : Fld := tblFld 0x72 0 i 16 12 0
/-- VLAN_MEMBER_MEMBERS: R307, access RW. -/
def VLAN_MEMBER_MEMBERS (i : Nat) : Fld := tblFld 0x72 1 i 0 256 0
/-- VLAN_UNTAG_UNTAG: R307, access RW. -/
def VLAN_UNTAG_UNTAG (i : Nat) : Fld := tblFld 0x72 2 i 0 256 0
/-- FDB_MAC: R307, access RO. -/
def FDB_MAC (i : Nat) : Fld := tblFld 0x72 3 i 0 48 0
/-- FDB_FID: R307, access RO. -/
def FDB_FID (i : Nat) : Fld := tblFld 0x72 3 i 48 12 0
/-- FDB_VALID: R307, access RO. -/
def FDB_VALID (i : Nat) : Fld := tblFld 0x72 3 i 60 1 0
/-- FDB_STATIC: R307, access RO. -/
def FDB_STATIC (i : Nat) : Fld := tblFld 0x72 3 i 61 1 0
/-- FDB_HIT: R307, access RO. -/
def FDB_HIT (i : Nat) : Fld := tblFld 0x72 3 i 62 1 0
/-- FDB_DEST_TYPE: R307, access RO. -/
def FDB_DEST_TYPE (i : Nat) : Fld := tblFld 0x72 3 i 64 2 0
/-- FDB_DEST: R307, access RO. -/
def FDB_DEST (i : Nat) : Fld := tblFld 0x72 3 i 66 14 0
/-- MCG_PORTS: R307, access RW. -/
def MCG_PORTS (i : Nat) : Fld := tblFld 0x72 4 i 0 256 0
/-- PORT_FWD_STATS: R307, access CNT. -/
def PORT_FWD_STATS (i j : Nat) : Fld := tblFld 0x72 5 i (64 * j) 64 0
/-- FWDPORT_PVID: R307, access RW. -/
def FWDPORT_PVID (i : Nat) : Fld := tblFld 0x72 6 i 0 12 1
/-- FWDPORT_INGRESS_FILTER: R307, access RW. -/
def FWDPORT_INGRESS_FILTER (i : Nat) : Fld := tblFld 0x72 6 i 12 1 1
/-- FWDPORT_LEARN_EN: R307, access RW. -/
def FWDPORT_LEARN_EN (i : Nat) : Fld := tblFld 0x72 6 i 13 1 1
/-- FWDPORT_DROP_UNTAGGED: R307, access RW. -/
def FWDPORT_DROP_UNTAGGED (i : Nat) : Fld := tblFld 0x72 6 i 14 1 0
/-- FWDPORT_DEFAULT_PCP: R307, access RW. -/
def FWDPORT_DEFAULT_PCP (i : Nat) : Fld := tblFld 0x72 6 i 16 3 0
/-- FDB_KEY_MAC_LO: R308, access RW. -/
def FDB_KEY_MAC_LO : Fld := regFld 0x72 0x100 0 32 0
/-- FDB_KEY_MAC_HI: R308, access RW. -/
def FDB_KEY_MAC_HI : Fld := regFld 0x72 0x104 0 16 0
/-- FDB_KEY_FID: R308, access RW. -/
def FDB_KEY_FID : Fld := regFld 0x72 0x104 16 12 0
/-- FDB_OP_DATA_DEST: R308, access RW. -/
def FDB_OP_DATA_DEST : Fld := regFld 0x72 0x108 0 14 0
/-- FDB_OP_DATA_DEST_TYPE: R308, access RW. -/
def FDB_OP_DATA_DEST_TYPE : Fld := regFld 0x72 0x108 16 2 0
/-- FDB_OP_DATA_STATIC: R308, access RW. -/
def FDB_OP_DATA_STATIC : Fld := regFld 0x72 0x108 18 1 0
/-- FDB_OP_OP: R308, access WO. -/
def FDB_OP_OP : Fld := regFld 0x72 0x10c 0 2 0
/-- FDB_OP_STATUS_CODE: R308, access RO. -/
def FDB_OP_STATUS_CODE : Fld := regFld 0x72 0x110 0 8 0
/-- FDB_OP_STATUS_HIT: R308, access RO. -/
def FDB_OP_STATUS_HIT : Fld := regFld 0x72 0x110 8 1 0
/-- FDB_OP_STATUS_FULL: R308, access RO. -/
def FDB_OP_STATUS_FULL : Fld := regFld 0x72 0x110 9 1 0
/-- FDB_OP_STATUS_BUSY: R308, access RO. -/
def FDB_OP_STATUS_BUSY : Fld := regFld 0x72 0x110 10 1 0
/-- FDB_OP_STATUS_INDEX: R308, access RO. -/
def FDB_OP_STATUS_INDEX : Fld := regFld 0x72 0x110 12 18 0
/-- AGE_PERIOD: R308, access RW. -/
def AGE_PERIOD : Fld := regFld 0x72 0x114 0 16 300
/-- FDB_COUNT: R308, access RO. -/
def FDB_COUNT : Fld := regFld 0x72 0x118 0 19 0
/-- LEARNED: R308, access RC. -/
def LEARNED : Fld := regFld 0x72 0x11c 0 32 0
/-- LEARN_FAILS: R308, access RC. -/
def LEARN_FAILS : Fld := regFld 0x72 0x120 0 32 0
/-- MOVES: R308, access RC. -/
def MOVES : Fld := regFld 0x72 0x124 0 32 0
/-- AGED: R308, access RC. -/
def AGED : Fld := regFld 0x72 0x128 0 32 0
/-- QCFG_POOL: R309, access RW. -/
def QCFG_POOL (i : Nat) : Fld := tblFld 0x74 0 i 0 3 0
/-- QCFG_MIN_CELLS: R309, access RW. -/
def QCFG_MIN_CELLS (i : Nat) : Fld := tblFld 0x74 0 i 4 17 0
/-- QCFG_DT_EXP: R309, access RW. -/
def QCFG_DT_EXP (i : Nat) : Fld := tblFld 0x74 0 i 24 4 7
/-- QCFG_WRED_PROFILE: R309, access RW. -/
def QCFG_WRED_PROFILE (i : Nat) : Fld := tblFld 0x74 0 i 32 6 0
/-- QCFG_WRED_EN: R309, access RW. -/
def QCFG_WRED_EN (i : Nat) : Fld := tblFld 0x74 0 i 38 1 0
/-- QCFG_PUSH_CLASS: R309, access RW. -/
def QCFG_PUSH_CLASS (i : Nat) : Fld := tblFld 0x74 0 i 40 3 0
/-- WRED_MIN_TH: R309, access RW. -/
def WRED_MIN_TH (i j : Nat) : Fld := tblFld 0x74 1 i (96 * j) 19 0
/-- WRED_MAX_TH: R309, access RW. -/
def WRED_MAX_TH (i j : Nat) : Fld := tblFld 0x74 1 i (32 + 96 * j) 19 0
/-- WRED_MAX_P: R309, access RW. -/
def WRED_MAX_P (i j : Nat) : Fld := tblFld 0x74 1 i (64 + 96 * j) 8 0
/-- WRED_ENABLE: R309, access RW. -/
def WRED_ENABLE (i j : Nat) : Fld := tblFld 0x74 1 i (72 + 96 * j) 1 0
/-- WRED_AVG_WEIGHT: R309, access RW. -/
def WRED_AVG_WEIGHT (i : Nat) : Fld := tblFld 0x74 1 i 288 4 0
/-- QSTAT_CHARGE: R309, access RO. -/
def QSTAT_CHARGE (i : Nat) : Fld := tblFld 0x74 2 i 0 19 0
/-- QSTAT_AVERAGE: R309, access RO. -/
def QSTAT_AVERAGE (i : Nat) : Fld := tblFld 0x74 2 i 32 19 0
/-- QSTAT_ADMITTED: R309, access CNT. -/
def QSTAT_ADMITTED (i : Nat) : Fld := tblFld 0x74 2 i 64 64 0
/-- QSTAT_WRED_DROPS: R309, access CNT. -/
def QSTAT_WRED_DROPS (i : Nat) : Fld := tblFld 0x74 2 i 128 64 0
/-- QSTAT_THRESHOLD_DROPS: R309, access CNT. -/
def QSTAT_THRESHOLD_DROPS (i : Nat) : Fld := tblFld 0x74 2 i 192 64 0
/-- QSTAT_PUSHED_OUT: R309, access CNT. -/
def QSTAT_PUSHED_OUT (i : Nat) : Fld := tblFld 0x74 2 i 256 64 0
/-- PORT_BUF_STATS: R309, access CNT. -/
def PORT_BUF_STATS (i j : Nat) : Fld := tblFld 0x74 3 i (64 * j) 64 0
/-- POOL_SIZE: R310, access RW. -/
def POOL_SIZE (j : Nat) : Fld := regFld 0x74 (0x100 + 4 * j) 0 19 (if j = 0 then 377088 else 0)
/-- POOL_CHARGE: R310, access RO. -/
def POOL_CHARGE (j : Nat) : Fld := regFld 0x74 (0x120 + 4 * j) 0 20 0
/-- RESERVE_TOTAL: R310, access RO. -/
def RESERVE_TOTAL : Fld := regFld 0x74 0x140 0 19 0
/-- CELLS_FREE: R310, access RO. -/
def CELLS_FREE : Fld := regFld 0x74 0x144 0 19 393216
/-- ARRIVAL_MARGIN: R310, access RO. -/
def ARRIVAL_MARGIN : Fld := regFld 0x74 0x148 0 14 16128
/-- BUF_STATUS_CFG_REFUSED: R310, access RO. -/
def BUF_STATUS_CFG_REFUSED : Fld := regFld 0x74 0x14c 0 1 0
/-- BUF_STATUS_ZERO_FILL: R310, access RO. -/
def BUF_STATUS_ZERO_FILL : Fld := regFld 0x74 0x14c 1 1 0
/-- QSCHED_TIER: R334, access RW. -/
def QSCHED_TIER (i : Nat) : Fld := tblFld (0x78 + i / 512) 0 (i % 512) 0 2 0
/-- QSCHED_CBS_EN: R334, access RW. -/
def QSCHED_CBS_EN (i : Nat) : Fld := tblFld (0x78 + i / 512) 0 (i % 512) 2 1 0
/-- QSCHED_PREEMPTABLE: R334, access RW. -/
def QSCHED_PREEMPTABLE (i : Nat) : Fld := tblFld (0x78 + i / 512) 0 (i % 512) 3 1 0
/-- QSCHED_QUANTUM: R334, access RW. -/
def QSCHED_QUANTUM (i : Nat) : Fld := tblFld (0x78 + i / 512) 0 (i % 512) 4 21 1536
/-- QSCHED_IDLE_SLOPE: R334, access RW. -/
def QSCHED_IDLE_SLOPE (i : Nat) : Fld := tblFld (0x78 + i / 512) 0 (i % 512) 32 32 0
/-- PSCHED_SHAPER_RATE: R334, access RW. -/
def PSCHED_SHAPER_RATE (i : Nat) : Fld := tblFld (0x78 + i / 32) 1 (i % 32) 0 20 0
/-- PSCHED_SHAPER_BURST: R334, access RW. -/
def PSCHED_SHAPER_BURST (i : Nat) : Fld := tblFld (0x78 + i / 32) 1 (i % 32) 32 24 16052
/-- PSCHED_PREEMPT_EN: R334, access RW. -/
def PSCHED_PREEMPT_EN (i : Nat) : Fld := tblFld (0x78 + i / 32) 1 (i % 32) 64 1 0
/-- PSCHED_VERIFY_EN: R334, access RW. -/
def PSCHED_VERIFY_EN (i : Nat) : Fld := tblFld (0x78 + i / 32) 1 (i % 32) 65 1 1
/-- PSCHED_ADD_FRAG_SIZE: R334, access RW. -/
def PSCHED_ADD_FRAG_SIZE (i : Nat) : Fld := tblFld (0x78 + i / 32) 1 (i % 32) 66 2 0
/-- PSCHED_VERIFY_TIME: R334, access RW. -/
def PSCHED_VERIFY_TIME (i : Nat) : Fld := tblFld (0x78 + i / 32) 1 (i % 32) 68 8 10
/-- PSCHED_VERIFY_STATUS: R334, access RO. -/
def PSCHED_VERIFY_STATUS (i : Nat) : Fld := tblFld (0x78 + i / 32) 1 (i % 32) 80 3 0
/-- PSCHED_PREEMPT_ACTIVE: R334, access RO. -/
def PSCHED_PREEMPT_ACTIVE (i : Nat) : Fld := tblFld (0x78 + i / 32) 1 (i % 32) 83 1 0
/-- PSCHED_SHAPER_TOKENS: R334, access RO. -/
def PSCHED_SHAPER_TOKENS (i : Nat) : Fld := tblFld (0x78 + i / 32) 1 (i % 32) 96 32 16052
/-- QSTATE_DEFICIT: R334, access RO. -/
def QSTATE_DEFICIT (i : Nat) : Fld := tblFld (0x78 + i / 512) 2 (i % 512) 0 21 0
/-- QSTATE_CREDIT: R334, access RO. -/
def QSTATE_CREDIT (i : Nat) : Fld := tblFld (0x78 + i / 512) 2 (i % 512) 32 32 0
/-- QSTATE_TX_COPIES: R334, access CNT. -/
def QSTATE_TX_COPIES (i : Nat) : Fld := tblFld (0x78 + i / 512) 2 (i % 512) 64 64 0
/-- QSTATE_TX_LINE_BYTES: R334, access CNT. -/
def QSTATE_TX_LINE_BYTES (i : Nat) : Fld := tblFld (0x78 + i / 512) 2 (i % 512) 128 64 0
/-- QSTATE_GATE_OVERSIZE_DROPS: R334, access CNT. -/
def QSTATE_GATE_OVERSIZE_DROPS (i : Nat) : Fld := tblFld (0x78 + i / 512) 2 (i % 512) 192 64 0
/-- POL_CIR: R334, access RW. -/
def POL_CIR (i : Nat) : Fld := tblFld (0x78 + i / 512) 3 (i % 512) 0 32 0
/-- POL_PIR: R334, access RW. -/
def POL_PIR (i : Nat) : Fld := tblFld (0x78 + i / 512) 3 (i % 512) 32 32 0
/-- POL_CBS: R334, access RW. -/
def POL_CBS (i : Nat) : Fld := tblFld (0x78 + i / 512) 3 (i % 512) 64 24 0
/-- POL_PBS: R334, access RW. -/
def POL_PBS (i : Nat) : Fld := tblFld (0x78 + i / 512) 3 (i % 512) 96 24 0
/-- POL_COLOUR_AWARE: R334, access RW. -/
def POL_COLOUR_AWARE (i : Nat) : Fld := tblFld (0x78 + i / 512) 3 (i % 512) 128 1 0
/-- POL_RED_DROP: R334, access RW. -/
def POL_RED_DROP (i : Nat) : Fld := tblFld (0x78 + i / 512) 3 (i % 512) 129 1 0
/-- POL_MARK_DEI: R334, access RW. -/
def POL_MARK_DEI (i : Nat) : Fld := tblFld (0x78 + i / 512) 3 (i % 512) 130 1 0
/-- POL_TC: R334, access RO. -/
def POL_TC (i : Nat) : Fld := tblFld (0x78 + i / 512) 3 (i % 512) 160 32 0
/-- POL_TP: R334, access RO. -/
def POL_TP (i : Nat) : Fld := tblFld (0x78 + i / 512) 3 (i % 512) 192 32 0
/-- POLICER_STATS: R334, access CNT. -/
def POLICER_STATS (i j : Nat) : Fld := tblFld (0x78 + i / 512) 4 (i % 512) (64 * j) 64 0
/-- PORT_MM_STATS: R334, access CNT. -/
def PORT_MM_STATS (i j : Nat) : Fld := tblFld (0x78 + i / 32) 5 (i % 32) (64 * j) 64 0
/-- ADMIN_GATE_STATES: R336, access RW. -/
def ADMIN_GATE_STATES (i : Nat) : Fld := tblFld (0x80 + i / 8192) 0 (i % 8192) 0 16 0
/-- ADMIN_OP: R336, access RW. -/
def ADMIN_OP (i : Nat) : Fld := tblFld (0x80 + i / 8192) 0 (i % 8192) 16 2 0
/-- ADMIN_INTERVAL: R336, access RW. -/
def ADMIN_INTERVAL (i : Nat) : Fld := tblFld (0x80 + i / 8192) 0 (i % 8192) 32 32 0
/-- GATE_GATE_ENABLE: R336, access RW. -/
def GATE_GATE_ENABLE (i : Nat) : Fld := tblFld (0x80 + i / 32) 1 (i % 32) 0 1 0
/-- GATE_ADMIN_GATE_STATES: R336, access RW. -/
def GATE_ADMIN_GATE_STATES (i : Nat) : Fld := tblFld (0x80 + i / 32) 1 (i % 32) 16 16 65535
/-- GATE_ADMIN_BASE_SEC: R336, access RW. -/
def GATE_ADMIN_BASE_SEC (i : Nat) : Fld := tblFld (0x80 + i / 32) 1 (i % 32) 32 48 0
/-- GATE_ADMIN_BASE_NS: R336, access RW. -/
def GATE_ADMIN_BASE_NS (i : Nat) : Fld := tblFld (0x80 + i / 32) 1 (i % 32) 80 30 0
/-- GATE_ADMIN_CYCLE_NS: R336, access RW. -/
def GATE_ADMIN_CYCLE_NS (i : Nat) : Fld := tblFld (0x80 + i / 32) 1 (i % 32) 112 30 0
/-- GATE_ADMIN_CYCLE_FRAC: R336, access RW. -/
def GATE_ADMIN_CYCLE_FRAC (i : Nat) : Fld := tblFld (0x80 + i / 32) 1 (i % 32) 144 16 0
/-- GATE_ADMIN_LIST_LENGTH: R336, access RW. -/
def GATE_ADMIN_LIST_LENGTH (i : Nat) : Fld := tblFld (0x80 + i / 32) 1 (i % 32) 160 9 0
/-- GATE_CONFIG_PENDING: R336, access RO. -/
def GATE_CONFIG_PENDING (i : Nat) : Fld := tblFld (0x80 + i / 32) 1 (i % 32) 176 1 0
/-- GATE_PAST_BASE: R336, access RO. -/
def GATE_PAST_BASE (i : Nat) : Fld := tblFld (0x80 + i / 32) 1 (i % 32) 177 1 0
/-- GATE_CONFIG_ERROR: R336, access RO. -/
def GATE_CONFIG_ERROR (i : Nat) : Fld := tblFld (0x80 + i / 32) 1 (i % 32) 178 1 0
/-- GATE_OPER_LIST_LENGTH: R336, access RO. -/
def GATE_OPER_LIST_LENGTH (i : Nat) : Fld := tblFld (0x80 + i / 32) 1 (i % 32) 180 9 0
/-- GATE_OPER_GATE_STATES: R336, access RO. -/
def GATE_OPER_GATE_STATES (i : Nat) : Fld := tblFld (0x80 + i / 32) 1 (i % 32) 192 16 65535
/-- GATE_CONFIG_CHANGE_SEC: R336, access RO. -/
def GATE_CONFIG_CHANGE_SEC (i : Nat) : Fld := tblFld (0x80 + i / 32) 1 (i % 32) 208 48 0
/-- GATE_CONFIG_CHANGE_NS: R336, access RO. -/
def GATE_CONFIG_CHANGE_NS (i : Nat) : Fld := tblFld (0x80 + i / 32) 1 (i % 32) 256 30 0
/-- GATE_OPER_CYCLE_NS: R336, access RO. -/
def GATE_OPER_CYCLE_NS (i : Nat) : Fld := tblFld (0x80 + i / 32) 1 (i % 32) 288 30 0
/-- GATE_OPER_CYCLE_FRAC: R336, access RO. -/
def GATE_OPER_CYCLE_FRAC (i : Nat) : Fld := tblFld (0x80 + i / 32) 1 (i % 32) 320 16 0
/-- OPER_GATE_STATES: R336, access RO. -/
def OPER_GATE_STATES (i : Nat) : Fld := tblFld (0x80 + i / 8192) 2 (i % 8192) 0 16 0
/-- OPER_OP: R336, access RO. -/
def OPER_OP (i : Nat) : Fld := tblFld (0x80 + i / 8192) 2 (i % 8192) 16 2 0
/-- OPER_INTERVAL: R336, access RO. -/
def OPER_INTERVAL (i : Nat) : Fld := tblFld (0x80 + i / 8192) 2 (i % 8192) 32 32 0
/-- GATE_STATS: R336, access CNT. -/
def GATE_STATS (i j : Nat) : Fld := tblFld (0x80 + i / 32) 3 (i % 32) (64 * j) 64 0
/-- GATE_CMD_PORT: R337, access WO. -/
def GATE_CMD_PORT (i : Nat) : Fld := regFld (0x80 + i) 0x100 0 5 0
/-- GATE_CMD_OP: R337, access WO. -/
def GATE_CMD_OP (i : Nat) : Fld := regFld (0x80 + i) 0x100 8 2 0
/-- GATE_CMD_STATUS_CODE: R337, access RO. -/
def GATE_CMD_STATUS_CODE (i : Nat) : Fld := regFld (0x80 + i) 0x104 0 8 0
/-- GATE_CMD_STATUS_BUSY: R337, access RO. -/
def GATE_CMD_STATUS_BUSY (i : Nat) : Fld := regFld (0x80 + i) 0x104 8 1 0
/-- GATE_CMD_STATUS_PORT: R337, access RO. -/
def GATE_CMD_STATUS_PORT (i : Nat) : Fld := regFld (0x80 + i) 0x104 16 5 0
/-- MGMT_STATUS_CORE_RUN: R364, access RO. -/
def MGMT_STATUS_CORE_RUN : Fld := regFld 0x8 0x100 0 4 0
/-- MGMT_STATUS_RESTARTING: R364, access RO. -/
def MGMT_STATUS_RESTARTING : Fld := regFld 0x8 0x100 8 1 0
/-- MGMT_STATUS_DRAM_GIB: R364, access RO. -/
def MGMT_STATUS_DRAM_GIB : Fld := regFld 0x8 0x100 16 6 0
/-- MGMT_CTRL_RESTART: R364, access WO. -/
def MGMT_CTRL_RESTART : Fld := regFld 0x8 0x104 0 1 0
/-- MGMT_CTRL_KEY: R364, access WO. -/
def MGMT_CTRL_KEY : Fld := regFld 0x8 0x104 16 16 0
/-- RESTART_COUNT: R364, access RC. -/
def RESTART_COUNT : Fld := regFld 0x8 0x108 0 32 0
/-- WD_CTRL_ENABLE: R364, access W1S. -/
def WD_CTRL_ENABLE : Fld := regFld 0x8 0x110 0 1 0
/-- WD_CTRL_ACTION: R364, access RW. -/
def WD_CTRL_ACTION : Fld := regFld 0x8 0x110 8 3 1
/-- WD_TIMEOUT: R364, access RW. -/
def WD_TIMEOUT : Fld := regFld 0x8 0x114 0 16 1000
/-- WD_GRACE: R364, access RW. -/
def WD_GRACE : Fld := regFld 0x8 0x118 0 16 100
/-- WD_SERVICE: R364, access WO. -/
def WD_SERVICE : Fld := regFld 0x8 0x11c 0 16 0
/-- WD_STATUS_STAGE: R364, access RO. -/
def WD_STATUS_STAGE : Fld := regFld 0x8 0x120 0 2 0
/-- WD_STATUS_LAST_ACTION: R364, access RO. -/
def WD_STATUS_LAST_ACTION : Fld := regFld 0x8 0x120 16 3 0
/-- WD_LIMIT: R364, access RWA, anchor group 8. -/
def WD_LIMIT : Fld := regFld 0x8 0x124 0 3 1
/-- WD_EXPIRIES: R364, access RC. -/
def WD_EXPIRIES : Fld := regFld 0x8 0x128 0 32 0
/-- PUNT_CEILING_RATE: R364, access RWA, anchor group 5. -/
def PUNT_CEILING_RATE : Fld := regFld 0x8 0x130 0 27 100000
/-- PUNT_CEILING_BURST: R364, access RWA, anchor group 5. -/
def PUNT_CEILING_BURST : Fld := regFld 0x8 0x134 0 21 16384
/-- PUNT_STATUS_RESERVE_REFUSED: R364, access RO. -/
def PUNT_STATUS_RESERVE_REFUSED : Fld := regFld 0x8 0x138 0 1 0
/-- CEILING_DEFERRED: R364, access RC. -/
def CEILING_DEFERRED : Fld := regFld 0x8 0x13c 0 32 0
/-- CLASS_RATE: R364, access RW. -/
def CLASS_RATE (j : Nat) : Fld := regFld 0x8 (0x200 + 16 * j) 0 32 0
/-- CLASS_BURST: R364, access RW. -/
def CLASS_BURST (j : Nat) : Fld := regFld 0x8 (0x204 + 16 * j) 0 32 16384
/-- CLASS_RESERVE: R364, access RW. -/
def CLASS_RESERVE (j : Nat) : Fld := regFld 0x8 (0x208 + 16 * j) 0 32 (if j < 2 then 10 else 0)
/-- CLASS_POLICED: R364, access RC. -/
def CLASS_POLICED (j : Nat) : Fld := regFld 0x8 (0x20c + 16 * j) 0 32 0
/-- MGMT0_CTRL_ENABLE: R364, access RW. -/
def MGMT0_CTRL_ENABLE : Fld := regFld 0x8 0x400 0 1 0
/-- MGMT0_CTRL_MODE: R364, access RW. -/
def MGMT0_CTRL_MODE : Fld := regFld 0x8 0x400 1 1 0
/-- MGMT0_CTRL_AN_EN: R364, access RW. -/
def MGMT0_CTRL_AN_EN : Fld := regFld 0x8 0x400 2 1 1
/-- MGMT0_CTRL_FILLER_EN: R364, access RW. -/
def MGMT0_CTRL_FILLER_EN : Fld := regFld 0x8 0x400 3 1 0
/-- MGMT0_STATUS_LINK: R364, access RO. -/
def MGMT0_STATUS_LINK : Fld := regFld 0x8 0x404 0 1 0
/-- MGMT0_STATUS_AN_DONE: R364, access RO. -/
def MGMT0_STATUS_AN_DONE : Fld := regFld 0x8 0x404 1 1 0
/-- MGMT0_STATUS_ADAPT_FROZEN: R364, access RO. -/
def MGMT0_STATUS_ADAPT_FROZEN : Fld := regFld 0x8 0x404 2 1 0
/-- MGMT0_STATUS_LOW_RUN: R364, access RO. -/
def MGMT0_STATUS_LOW_RUN : Fld := regFld 0x8 0x404 8 8 0
/-- MGMT0_CODE_VIOL: R364, access RC. -/
def MGMT0_CODE_VIOL : Fld := regFld 0x8 0x408 0 32 0
/-- MGMT0_DOORBELL_RX: R364, access WO. -/
def MGMT0_DOORBELL_RX : Fld := regFld 0x8 0x40c 0 16 0
/-- MGMT0_DOORBELL_TX: R364, access WO. -/
def MGMT0_DOORBELL_TX : Fld := regFld 0x8 0x410 0 16 0
/-- MGMT0_ACK_RX: R364, access RW. -/
def MGMT0_ACK_RX : Fld := regFld 0x8 0x414 0 16 0
/-- MGMT0_ACK_TX: R364, access RW. -/
def MGMT0_ACK_TX : Fld := regFld 0x8 0x418 0 16 0
/-- MGMT_DOORBELL: R364, access WO. -/
def MGMT_DOORBELL (j : Nat) : Fld := regFld 0x8 (0x800 + 4 * j) 0 16 0
/-- ACCESS_FAULTS: R364, access RC. -/
def ACCESS_FAULTS : Fld := regFld 0x8 0xb00 0 32 0
/-- ACCESS_FAULT_ADDR: R364, access RO. -/
def ACCESS_FAULT_ADDR : Fld := regFld 0x8 0xb04 0 64 0
/-- ACCESS_FAULT_INFO_CORE: R364, access RO. -/
def ACCESS_FAULT_INFO_CORE : Fld := regFld 0x8 0xb0c 0 2 0
/-- ACCESS_FAULT_INFO_VALID: R364, access W1C. -/
def ACCESS_FAULT_INFO_VALID : Fld := regFld 0x8 0xb0c 8 1 0
/-- RING_ENABLE: R366, access RW. -/
def RING_ENABLE (i : Nat) : Fld := tblFld 0xb 0 i 0 1 0
/-- RING_DIR: R366, access RW. -/
def RING_DIR (i : Nat) : Fld := tblFld 0xb 0 i 1 1 0
/-- RING_OWNER: R366, access RW. -/
def RING_OWNER (i : Nat) : Fld := tblFld 0xb 0 i 2 1 0
/-- RING_SIZE_LOG: R366, access RW. -/
def RING_SIZE_LOG (i : Nat) : Fld := tblFld 0xb 0 i 3 5 0
/-- RING_TRAP_CLASS: R366, access RW. -/
def RING_TRAP_CLASS (i : Nat) : Fld := tblFld 0xb 0 i 8 4 0
/-- RING_BUF_SIZE: R366, access RW. -/
def RING_BUF_SIZE (i : Nat) : Fld := tblFld 0xb 0 i 16 14 0
/-- RING_BASE_ADDR: R366, access RW. -/
def RING_BASE_ADDR (i : Nat) : Fld := tblFld 0xb 0 i 32 64 0
/-- RING_QUANTUM: R366, access RW. -/
def RING_QUANTUM (i : Nat) : Fld := tblFld 0xb 0 i 96 20 1536
/-- RINGST_HEAD: R366, access RO. -/
def RINGST_HEAD (i : Nat) : Fld := tblFld 0xb 1 i 0 16 0
/-- RINGST_TAIL: R366, access RO. -/
def RINGST_TAIL (i : Nat) : Fld := tblFld 0xb 1 i 32 16 0
/-- RINGST_ERROR: R366, access RO. -/
def RINGST_ERROR (i : Nat) : Fld := tblFld 0xb 1 i 48 1 0
/-- RING_STATS: R366, access CNT. -/
def RING_STATS (i j : Nat) : Fld := tblFld 0xb 2 i (64 * j) 64 0
/-- RING_ACK: R366, access RW. -/
def RING_ACK (j : Nat) : Fld := regFld 0xb (0x100 + 4 * j) 0 16 0
/-- DOORBELL_REFUSED: R366, access RC. -/
def DOORBELL_REFUSED : Fld := regFld 0xb 0x300 0 32 0
/-- BOOT_STATUS_STAGE: R382, access RO. -/
def BOOT_STATUS_STAGE : Fld := regFld 0xd 0x100 0 2 0
/-- BOOT_STATUS_FAIL_PRIMARY: R382, access RO. -/
def BOOT_STATUS_FAIL_PRIMARY : Fld := regFld 0xd 0x100 4 4 0
/-- BOOT_STATUS_FAIL_SECONDARY: R382, access RO. -/
def BOOT_STATUS_FAIL_SECONDARY : Fld := regFld 0xd 0x100 8 4 0
/-- BOOT_STATUS_ALT_IMAGE: R382, access RO. -/
def BOOT_STATUS_ALT_IMAGE : Fld := regFld 0xd 0x100 16 1 0
/-- BOOT_STATUS_TRANSITION_RESUMED: R382, access RO. -/
def BOOT_STATUS_TRANSITION_RESUMED : Fld := regFld 0xd 0x100 17 1 0
/-- BOOT_STATUS_EVIDENCE_COMMITTED: R382, access RO. -/
def BOOT_STATUS_EVIDENCE_COMMITTED : Fld := regFld 0xd 0x100 18 1 0
/-- BOOT_STATUS_ROLLBACK_ADVANCED: R382, access RO. -/
def BOOT_STATUS_ROLLBACK_ADVANCED : Fld := regFld 0xd 0x100 19 1 0
/-- BOOT_COUNT: R382, access RO. -/
def BOOT_COUNT : Fld := bcRegFld 0xd 0x104 0 64 0
/-- EXTEND_COUNT: R382, access RO. -/
def EXTEND_COUNT : Fld := regFld 0xd 0x10c 0 7 0
/-- ASCENT_LOG: R382, access RO. -/
def ASCENT_LOG (j : Nat) : Fld := regFld 0xd (0x110 + 4 * j) 0 32 0
/-- ROLLBACK_COUNT: R382, access RO. -/
def ROLLBACK_COUNT : Fld := regFld 0xd 0x140 0 8 0
/-- IMAGE_INFO_SVN: R382, access RO. -/
def IMAGE_INFO_SVN : Fld := regFld 0xd 0x144 0 8 0
/-- IMAGE_INFO_KEY_SLOT: R382, access RO. -/
def IMAGE_INFO_KEY_SLOT : Fld := regFld 0xd 0x144 8 2 0
/-- RECORDS_HELD: R382, access RO. -/
def RECORDS_HELD : Fld := bcRegFld 0xd 0x148 0 7 0
/-- RECORD_FIRST: R382, access RO. -/
def RECORD_FIRST : Fld := bcRegFld 0xd 0x14c 0 64 0
/-- BOOT_ATTEMPTS: R382, access RO. -/
def BOOT_ATTEMPTS : Fld := bcRegFld 0xd 0x154 0 16 0
/-- ASCENT_TYPE: R382, access RO. -/
def ASCENT_TYPE (j : Nat) : Fld := regFld 0xd (0x400 + 4 * j) 0 8 0
/-- RECORD_BUF: R382, access RO. -/
def RECORD_BUF (s j : Nat) : Fld := regFld 0xd (0x2000 + 256 * s + 4 * j) 0 32 0
/-- ALOG_SOURCE: R402, access RO. -/
def ALOG_SOURCE (i : Nat) : Fld := bcTblFld 0x7 0 i 0 6 0
/-- ALOG_KIND: R402, access RO. -/
def ALOG_KIND (i : Nat) : Fld := bcTblFld 0x7 0 i 6 2 0
/-- ALOG_SEVERITY: R402, access RO. -/
def ALOG_SEVERITY (i : Nat) : Fld := bcTblFld 0x7 0 i 8 3 0
/-- ALOG_RESPONSE: R402, access RO. -/
def ALOG_RESPONSE (i : Nat) : Fld := bcTblFld 0x7 0 i 12 3 0
/-- ALOG_BATTERY: R402, access RO. -/
def ALOG_BATTERY (i : Nat) : Fld := bcTblFld 0x7 0 i 15 1 0
/-- ALOG_VALID: R402, access RO. -/
def ALOG_VALID (i : Nat) : Fld := bcTblFld 0x7 0 i 16 1 0
/-- ALOG_TIME_NS: R402, access RO. -/
def ALOG_TIME_NS (i : Nat) : Fld := bcTblFld 0x7 0 i 64 30 0
/-- ALOG_TIME_SEC: R402, access RO. -/
def ALOG_TIME_SEC (i : Nat) : Fld := bcTblFld 0x7 0 i 96 32 0
/-- ALOG_BC_COUNT: R402, access RO. -/
def ALOG_BC_COUNT (i : Nat) : Fld := bcTblFld 0x7 0 i 128 48 0
/-- ALOG_SEQ: R402, access RO. -/
def ALOG_SEQ (i : Nat) : Fld := bcTblFld 0x7 0 i 192 64 0
/-- ALARM_ACTIVE: R404, access RO. -/
def ALARM_ACTIVE : Fld := regFld 0x7 0x100 0 64 0
/-- ALARM_LATCH: R404, access W1C. -/
def ALARM_LATCH : Fld := regFld 0x7 0x108 0 64 0
/-- STICKY: R404, access RO. -/
def STICKY : Fld := bcRegFld 0x7 0x110 0 64 0
/-- STICKY_CLEAR: R404, access WO. -/
def STICKY_CLEAR : Fld := regFld 0x7 0x118 0 64 0
/-- CONTAIN_RELEASE: R404, access WO. -/
def CONTAIN_RELEASE : Fld := regFld 0x7 0x120 0 16 0
/-- RELEASE_STATUS_CODE: R404, access RO. -/
def RELEASE_STATUS_CODE : Fld := regFld 0x7 0x124 0 8 0
/-- ZEROIZE_REQUEST: R404, access WO. -/
def ZEROIZE_REQUEST : Fld := regFld 0x7 0x128 0 16 0
/-- ZEROIZE_STATUS_ACTIVE: R404, access RO. -/
def ZEROIZE_STATUS_ACTIVE : Fld := regFld 0x7 0x12c 0 1 0
/-- ZEROIZE_STATUS_KEYS_CLEAR: R404, access RO. -/
def ZEROIZE_STATUS_KEYS_CLEAR : Fld := regFld 0x7 0x12c 1 1 0
/-- ZEROIZE_STATUS_MEMORY_CLEAR: R404, access RO. -/
def ZEROIZE_STATUS_MEMORY_CLEAR : Fld := regFld 0x7 0x12c 2 1 0
/-- TAMPER_COUNT: R404, access RO. -/
def TAMPER_COUNT : Fld := regFld 0x7 0x130 0 32 0
/-- PENDING_EVIDENCE: R404, access RO. -/
def PENDING_EVIDENCE : Fld := bcRegFld 0x7 0x134 0 32 0
/-- SUPPLY_MODE: R404, access RWA, anchor group 4. -/
def SUPPLY_MODE : Fld := regFld 0x7 0x138 0 8 255
/-- BC_CFG_MESH_EN: R404, access RW391. -/
def BC_CFG_MESH_EN : Fld := bcRegFld 0x7 0x13c 0 4 15
/-- BC_CFG_CASE_EN: R404, access RW391. -/
def BC_CFG_CASE_EN : Fld := bcRegFld 0x7 0x13c 4 8 255
/-- BC_CFG_CASE_LEVEL: R404, access RW391. -/
def BC_CFG_CASE_LEVEL : Fld := bcRegFld 0x7 0x13c 12 8 0
/-- BC_BATT_ZEROIZE: R404, access RW391. -/
def BC_BATT_ZEROIZE : Fld := bcRegFld 0x7 0x140 0 19 0x5EFFF
/-- BC_CFG_REFUSED: R404, access RC. -/
def BC_CFG_REFUSED : Fld := regFld 0x7 0x144 0 32 0
/-- STICKY_CLEAR_REFUSED: R404, access RC. -/
def STICKY_CLEAR_REFUSED : Fld := regFld 0x7 0x148 0 32 0
/-- BC_COUNT: R404, access RO. -/
def BC_COUNT : Fld := bcRegFld 0x7 0x150 0 48 0
/-- BC_TIME_REF_REF_COUNT: R404, access RO. -/
def BC_TIME_REF_REF_COUNT : Fld := bcRegFld 0x7 0x158 0 48 0
/-- BC_TIME_REF_REF_SEC: R404, access RO. -/
def BC_TIME_REF_REF_SEC : Fld := bcRegFld 0x7 0x160 0 48 0
/-- BC_TIME_REF_TIME_SET: R404, access RO. -/
def BC_TIME_REF_TIME_SET : Fld := bcRegFld 0x7 0x164 16 1 0
/-- POWERUP_COUNT: R404, access RO. -/
def POWERUP_COUNT : Fld := bcRegFld 0x7 0x168 0 48 0
/-- LOG_SEQ_NEWEST: R404, access RO. -/
def LOG_SEQ_NEWEST : Fld := bcRegFld 0x7 0x170 0 64 0
/-- FSM_FAULT_MACHINE: R404, access RO. -/
def FSM_FAULT_MACHINE : Fld := regFld 0x7 0x178 0 5 0
/-- FSM_FAULT_VALID: R404, access W1C. -/
def FSM_FAULT_VALID : Fld := regFld 0x7 0x178 8 1 0
/-- ALARM_CFG_SEVERITY: R404, access RW. -/
def ALARM_CFG_SEVERITY (j : Nat) : Fld := regFld 0x7 (0x200 + 4 * j) 0 3 (alarmDefault j)
/-- ALARM_CFG_FLOOR: R404, access RWA, anchor group 4. -/
def ALARM_CFG_FLOOR (j : Nat) : Fld := regFld 0x7 (0x200 + 4 * j) 4 3 (alarmDefault j)
/-- ALARM_CFG_EFFECTIVE: R404, access RO. -/
def ALARM_CFG_EFFECTIVE (j : Nat) : Fld := regFld 0x7 (0x200 + 4 * j) 8 3 (alarmDefault j)
/-- ALARM_CFG_LOWEST: R404, access RO. -/
def ALARM_CFG_LOWEST (j : Nat) : Fld := regFld 0x7 (0x200 + 4 * j) 12 3 (alarmLowest j)
/-- ALARM_CFG_HIGHEST: R404, access RO. -/
def ALARM_CFG_HIGHEST (j : Nat) : Fld := regFld 0x7 (0x200 + 4 * j) 16 3 (alarmHighest j)
/-- LC_STATE: R431, access RO. -/
def LC_STATE : Fld := regFld 0x6 0x100 0 3 1
/-- LC_TRANSITION_TARGET: R431, access WO. -/
def LC_TRANSITION_TARGET : Fld := regFld 0x6 0x104 0 3 0
/-- LC_TRANSITION_KEY: R431, access WO. -/
def LC_TRANSITION_KEY : Fld := regFld 0x6 0x104 16 16 0
/-- LC_STATUS_CODE: R431, access RO. -/
def LC_STATUS_CODE : Fld := regFld 0x6 0x108 0 8 0
/-- LC_STATUS_DETAIL: R431, access RO. -/
def LC_STATUS_DETAIL : Fld := regFld 0x6 0x108 8 4 0
/-- LC_STATUS_PHASE: R431, access RO. -/
def LC_STATUS_PHASE : Fld := regFld 0x6 0x108 12 3 0
/-- LC_STATUS_ENROLL_STAGED: R431, access RO. -/
def LC_STATUS_ENROLL_STAGED : Fld := bcRegFld 0x6 0x108 16 1 0
/-- LC_LAST_FROM: R431, access RO. -/
def LC_LAST_FROM : Fld := bcRegFld 0x6 0x10c 0 3 0
/-- LC_LAST_TO: R431, access RO. -/
def LC_LAST_TO : Fld := bcRegFld 0x6 0x10c 4 3 0
/-- LC_LAST_CODE: R431, access RO. -/
def LC_LAST_CODE : Fld := bcRegFld 0x6 0x10c 8 8 0
/-- LC_LAST_ENROLL_LOST: R431, access RO. -/
def LC_LAST_ENROLL_LOST : Fld := bcRegFld 0x6 0x10c 16 1 0
/-- PRESENCE_STATUS_ASSERTED: R431, access RO. -/
def PRESENCE_STATUS_ASSERTED : Fld := regFld 0x6 0x110 0 1 0
/-- PRESENCE_STATUS_RAW_LOW: R431, access RO. -/
def PRESENCE_STATUS_RAW_LOW : Fld := regFld 0x6 0x110 1 1 0
/-- DEBUG_CTRL_LANE_EN: R431, access RWA, anchor group 6. -/
def DEBUG_CTRL_LANE_EN : Fld := regFld 0x6 0x114 0 1 0
/-- DEBUG_CTRL_FULL_EN: R431, access RWA, anchor group 6. -/
def DEBUG_CTRL_FULL_EN : Fld := regFld 0x6 0x114 1 1 0
/-- DEBUG_STATUS_LANE_OPEN: R431, access RO. -/
def DEBUG_STATUS_LANE_OPEN : Fld := regFld 0x6 0x118 0 1 0
/-- DEBUG_STATUS_FULL_OPEN: R431, access RO. -/
def DEBUG_STATUS_FULL_OPEN : Fld := regFld 0x6 0x118 1 1 1
/-- DEBUG_STATUS_CHALLENGE_OUT: R431, access RO. -/
def DEBUG_STATUS_CHALLENGE_OUT : Fld := regFld 0x6 0x118 2 1 0
/-- DEBUG_STATUS_FAILS: R431, access RO. -/
def DEBUG_STATUS_FAILS : Fld := regFld 0x6 0x118 8 4 0
/-- DEVICE_ID: R431, access RO. -/
def DEVICE_ID : Fld := regFld 0x6 0x11c 0 64 0
/-- OWNER_ID: R431, access RO. -/
def OWNER_ID : Fld := regFld 0x6 0x124 0 64 0
/-- KEYHASH_STATE_PROGRAMMED: R431, access RO. -/
def KEYHASH_STATE_PROGRAMMED : Fld := regFld 0x6 0x12c 0 4 0
/-- KEYHASH_STATE_REVOKED: R431, access RO. -/
def KEYHASH_STATE_REVOKED : Fld := regFld 0x6 0x12c 4 4 0
/-- KEYHASH_STATE_PERMITTED: R431, access RO. -/
def KEYHASH_STATE_PERMITTED : Fld := regFld 0x6 0x12c 8 4 0
/-- KEYHASH_STATE_SECRET_SET: R431, access RO. -/
def KEYHASH_STATE_SECRET_SET : Fld := regFld 0x6 0x12c 16 1 0
/-- ATTEST_KEY_ID: R431, access RO. -/
def ATTEST_KEY_ID : Fld := bcRegFld 0x6 0x130 0 32 0
/-- DEBUG_FAILS: R431, access RC. -/
def DEBUG_FAILS : Fld := regFld 0x6 0x134 0 32 0
/-- OTP_FAULTS: R431, access RC. -/
def OTP_FAULTS : Fld := regFld 0x6 0x138 0 32 0
/-- LC_BUF: R431, access RW. -/
def LC_BUF (s j : Nat) : Fld := regFld 0x6 (0x2000 + 1024 * s + 4 * j) 0 32 0
/-- RANGE_CTRL_ENABLE: R453, access W1S. -/
def RANGE_CTRL_ENABLE (i : Nat) : Fld := regFld 0x9 (0x100 + 64 * i) 0 1 0
/-- RANGE_CTRL_MODE: R453, access RW. -/
def RANGE_CTRL_MODE (i : Nat) : Fld := regFld 0x9 (0x100 + 64 * i) 1 2 0
/-- RANGE_BASE: R453, access RW. -/
def RANGE_BASE (i : Nat) : Fld := regFld 0x9 (0x104 + 64 * i) 0 64 0
/-- RANGE_LIMIT: R453, access RW. -/
def RANGE_LIMIT (i : Nat) : Fld := regFld 0x9 (0x10c + 64 * i) 0 64 0
/-- META_BASE: R453, access RW. -/
def META_BASE (i : Nat) : Fld := regFld 0x9 (0x114 + 64 * i) 0 64 0
/-- RIGHTS: R453, access RWA, anchor group 7. -/
def RIGHTS (i : Nat) : Fld := regFld 0x9 (0x11c + 64 * i) 0 12 0
/-- RANGE_STATUS_STATE: R453, access RO. -/
def RANGE_STATUS_STATE (i : Nat) : Fld := regFld 0x9 (0x120 + 64 * i) 0 2 0
/-- RANGE_STATUS_REENCRYPTING: R453, access RO. -/
def RANGE_STATUS_REENCRYPTING (i : Nat) : Fld := regFld 0x9 (0x120 + 64 * i) 2 1 0
/-- RANGE_STATUS_CFG_REFUSED: R453, access RO. -/
def RANGE_STATUS_CFG_REFUSED (i : Nat) : Fld := regFld 0x9 (0x120 + 64 * i) 3 1 0
/-- RANGE_STATUS_ENABLE_CODE: R453, access RO. -/
def RANGE_STATUS_ENABLE_CODE (i : Nat) : Fld := regFld 0x9 (0x120 + 64 * i) 8 8 0
/-- META_PAGES: R453, access RO. -/
def META_PAGES (i : Nat) : Fld := regFld 0x9 (0x124 + 64 * i) 0 18 0
/-- TREE_LEVELS: R453, access RO. -/
def TREE_LEVELS (i : Nat) : Fld := regFld 0x9 (0x128 + 64 * i) 0 3 0
/-- REENCRYPTIONS: R453, access RC. -/
def REENCRYPTIONS (i : Nat) : Fld := regFld 0x9 (0x12c + 64 * i) 0 32 0
/-- MG_CTRL_SCRUB_EN: R454, access RW. -/
def MG_CTRL_SCRUB_EN : Fld := regFld 0x9 0x300 0 1 0
/-- MG_CTRL_SCRUB_PERIOD: R454, access RW. -/
def MG_CTRL_SCRUB_PERIOD : Fld := regFld 0x9 0x300 8 8 24
/-- MG_STATUS_ENGINE_GRANTED: R454, access RO. -/
def MG_STATUS_ENGINE_GRANTED : Fld := regFld 0x9 0x304 0 1 0
/-- MG_STATUS_SCRUB_ACTIVE: R454, access RO. -/
def MG_STATUS_SCRUB_ACTIVE : Fld := regFld 0x9 0x304 1 1 0
/-- MG_STATUS_CACHE_DIRTY: R454, access RO. -/
def MG_STATUS_CACHE_DIRTY : Fld := regFld 0x9 0x304 16 13 0
/-- MG_REFUSED: R454, access RC. -/
def MG_REFUSED : Fld := regFld 0x9 0x308 0 32 0
/-- CE_DATA: R454, access RC. -/
def CE_DATA : Fld := regFld 0x9 0x30c 0 32 0
/-- CE_META: R454, access RC. -/
def CE_META : Fld := regFld 0x9 0x310 0 32 0
/-- UE_DATA: R454, access RC. -/
def UE_DATA : Fld := regFld 0x9 0x314 0 32 0
/-- CACHE_HITS: R454, access RC. -/
def CACHE_HITS : Fld := regFld 0x9 0x320 0 64 0
/-- CACHE_MISSES: R454, access RC. -/
def CACHE_MISSES : Fld := regFld 0x9 0x328 0 64 0
/-- REFUSE_ADDR: R454, access RO. -/
def REFUSE_ADDR : Fld := regFld 0x9 0x330 0 64 0
/-- REFUSE_INFO_MASTER: R454, access RO. -/
def REFUSE_INFO_MASTER : Fld := regFld 0x9 0x338 0 3 0
/-- REFUSE_INFO_WRITE: R454, access RO. -/
def REFUSE_INFO_WRITE : Fld := regFld 0x9 0x338 4 1 0
/-- REFUSE_INFO_VALID: R454, access W1C. -/
def REFUSE_INFO_VALID : Fld := regFld 0x9 0x338 8 1 0
/-- HALT_RECORD_CAUSE: R454, access RO. -/
def HALT_RECORD_CAUSE : Fld := bcRegFld 0x9 0x340 0 4 0
/-- HALT_RECORD_LEVEL: R454, access RO. -/
def HALT_RECORD_LEVEL : Fld := bcRegFld 0x9 0x340 4 4 0
/-- HALT_RECORD_RANGE: R454, access RO. -/
def HALT_RECORD_RANGE : Fld := bcRegFld 0x9 0x340 8 3 0
/-- HALT_RECORD_VALID: R454, access W1C. -/
def HALT_RECORD_VALID : Fld := bcRegFld 0x9 0x340 16 1 0
/-- HALT_ADDR: R454, access RO. -/
def HALT_ADDR : Fld := bcRegFld 0x9 0x344 0 64 0
/-- HALT_TIME_NS: R454, access RO. -/
def HALT_TIME_NS : Fld := bcRegFld 0x9 0x34c 0 30 0
/-- HALT_TIME_SEC: R454, access RO. -/
def HALT_TIME_SEC : Fld := bcRegFld 0x9 0x350 0 32 0
/-- ROPE_CFG_ROLE: R484, access RW. -/
def ROPE_CFG_ROLE : Fld := regFld 0xa 0x100 0 2 0
/-- ROPE_CFG_POSITION: R484, access RW. -/
def ROPE_CFG_POSITION : Fld := regFld 0xa 0x100 4 3 0
/-- ROPE_CFG_TOPOLOGY: R484, access RW. -/
def ROPE_CFG_TOPOLOGY : Fld := regFld 0xa 0x100 8 1 0
/-- ROPE_CFG_EXPECTED_MASK: R484, access RW. -/
def ROPE_CFG_EXPECTED_MASK : Fld := regFld 0xa 0x100 16 8 0
/-- ROPE_CFG_REMOTE_ALLOW: R484, access RW. -/
def ROPE_CFG_REMOTE_ALLOW : Fld := regFld 0xa 0x100 24 1 0
/-- ROPE_CFG2_ALARM_SEND_MIN: R484, access RW. -/
def ROPE_CFG2_ALARM_SEND_MIN : Fld := regFld 0xa 0x104 0 3 2
/-- ROPE_CFG2_LEAD_TIMEOUT: R484, access RW. -/
def ROPE_CFG2_LEAD_TIMEOUT : Fld := regFld 0xa 0x104 8 8 5
/-- ROPE_CFG2_MEMBER_TIMEOUT: R484, access RW. -/
def ROPE_CFG2_MEMBER_TIMEOUT : Fld := regFld 0xa 0x104 16 8 5
/-- ROPE_CMD_OP: R484, access WO. -/
def ROPE_CMD_OP : Fld := regFld 0xa 0x108 0 2 0
/-- ROPE_STATUS_STATE: R484, access RO. -/
def ROPE_STATUS_STATE : Fld := regFld 0xa 0x10c 0 3 0
/-- ROPE_STATUS_MEMBERS: R484, access RO. -/
def ROPE_STATUS_MEMBERS : Fld := regFld 0xa 0x10c 8 8 0
/-- ROPE_STATUS_KEY_PRESENT: R484, access RO. -/
def ROPE_STATUS_KEY_PRESENT : Fld := regFld 0xa 0x10c 16 1 0
/-- ROPE_STATUS_CFG_REFUSED: R484, access RO. -/
def ROPE_STATUS_CFG_REFUSED : Fld := regFld 0xa 0x10c 17 1 0
/-- ROPE_STATUS_TIME_LOCKED: R484, access RO. -/
def ROPE_STATUS_TIME_LOCKED : Fld := regFld 0xa 0x10c 18 1 0
/-- ROPE_STATUS_UPSTREAM: R484, access RO. -/
def ROPE_STATUS_UPSTREAM : Fld := regFld 0xa 0x10c 20 2 0
/-- ROPE_STATUS_HOPS_FROM_LEAD: R484, access RO. -/
def ROPE_STATUS_HOPS_FROM_LEAD : Fld := regFld 0xa 0x10c 24 8 255
/-- TIME_OFFSET: R484, access RO. -/
def TIME_OFFSET : Fld := regFld 0xa 0x110 0 32 0
/-- REMOTE_EXECUTED: R484, access RC. -/
def REMOTE_EXECUTED : Fld := regFld 0xa 0x114 0 32 0
/-- REMOTE_REFUSED: R484, access RC. -/
def REMOTE_REFUSED : Fld := regFld 0xa 0x118 0 32 0
/-- WP_DISTRIBUTED: R484, access RC. -/
def WP_DISTRIBUTED : Fld := regFld 0xa 0x11c 0 32 0
/-- ROPE_ALARM_LAST_ORIGIN: R484, access RO. -/
def ROPE_ALARM_LAST_ORIGIN : Fld := regFld 0xa 0x120 0 3 0
/-- ROPE_ALARM_LAST_SOURCE: R484, access RO. -/
def ROPE_ALARM_LAST_SOURCE : Fld := regFld 0xa 0x120 8 6 0
/-- ROPE_ALARM_LAST_SEVERITY: R484, access RO. -/
def ROPE_ALARM_LAST_SEVERITY : Fld := regFld 0xa 0x120 16 3 0
/-- ROPE_ALARM_LAST_VALID: R484, access W1C. -/
def ROPE_ALARM_LAST_VALID : Fld := regFld 0xa 0x120 24 1 0
/-- ROPE_ALARM_LAST_TIME_NS: R484, access RO. -/
def ROPE_ALARM_LAST_TIME_NS : Fld := regFld 0xa 0x124 0 30 0
/-- ROPE_ALARM_LAST_TIME_SEC: R484, access RO. -/
def ROPE_ALARM_LAST_TIME_SEC : Fld := regFld 0xa 0x128 0 32 0
/-- ROPE_ALARMS_RX: R484, access RC. -/
def ROPE_ALARMS_RX : Fld := regFld 0xa 0x12c 0 32 0
/-- ROPE_ALARMS_TX: R484, access RC. -/
def ROPE_ALARMS_TX : Fld := regFld 0xa 0x130 0 32 0
/-- BELAY_CTRL_ENABLE: R484, access RW. -/
def BELAY_CTRL_ENABLE (i : Nat) : Fld := regFld 0xa (0x200 + 128 * i) 0 1 0
/-- BELAY_CTRL_TX_INV: R484, access RW. -/
def BELAY_CTRL_TX_INV (i : Nat) : Fld := regFld 0xa (0x200 + 128 * i) 1 1 0
/-- BELAY_CTRL_RX_INV: R484, access RW. -/
def BELAY_CTRL_RX_INV (i : Nat) : Fld := regFld 0xa (0x200 + 128 * i) 2 1 0
/-- BELAY_STATUS_LINK: R484, access RO. -/
def BELAY_STATUS_LINK (i : Nat) : Fld := regFld 0xa (0x204 + 128 * i) 0 3 0
/-- BELAY_STATUS_PEER_POSITION: R484, access RO. -/
def BELAY_STATUS_PEER_POSITION (i : Nat) : Fld := regFld 0xa (0x204 + 128 * i) 4 3 0
/-- BELAY_STATUS_PEER_ROLE: R484, access RO. -/
def BELAY_STATUS_PEER_ROLE (i : Nat) : Fld := regFld 0xa (0x204 + 128 * i) 8 2 0
/-- BELAY_STATUS_CONFLICT: R484, access RO. -/
def BELAY_STATUS_CONFLICT (i : Nat) : Fld := regFld 0xa (0x204 + 128 * i) 12 1 0
/-- BELAY_STATUS_ADAPT_FROZEN: R484, access RO. -/
def BELAY_STATUS_ADAPT_FROZEN (i : Nat) : Fld := regFld 0xa (0x204 + 128 * i) 13 1 0
/-- BELAY_STATUS_LOW_RUN: R484, access RO. -/
def BELAY_STATUS_LOW_RUN (i : Nat) : Fld := regFld 0xa (0x204 + 128 * i) 16 8 0
/-- PEER_DEVICE_ID: R484, access RO. -/
def PEER_DEVICE_ID (i : Nat) : Fld := regFld 0xa (0x208 + 128 * i) 0 64 0
/-- BELAY_ASYM: R484, access RW. -/
def BELAY_ASYM (i : Nat) : Fld := regFld 0xa (0x210 + 128 * i) 0 32 0
/-- LINK_DELAY: R484, access RO. -/
def LINK_DELAY (i : Nat) : Fld := regFld 0xa (0x214 + 128 * i) 0 32 0
/-- TX_COUNTER: R484, access RO. -/
def TX_COUNTER (i : Nat) : Fld := regFld 0xa (0x218 + 128 * i) 0 64 0
/-- BELAY_AUTH_FAILS: R484, access RC. -/
def BELAY_AUTH_FAILS (i : Nat) : Fld := regFld 0xa (0x220 + 128 * i) 0 32 0
/-- BELAY_REPLAY_DROPS: R484, access RC. -/
def BELAY_REPLAY_DROPS (i : Nat) : Fld := regFld 0xa (0x224 + 128 * i) 0 32 0
/-- BELAY_CODE_VIOL: R484, access RC. -/
def BELAY_CODE_VIOL (i : Nat) : Fld := regFld 0xa (0x228 + 128 * i) 0 32 0
/-- BELAY_FRAMES_DISCARDED: R484, access RC. -/
def BELAY_FRAMES_DISCARDED (i : Nat) : Fld := regFld 0xa (0x22c + 128 * i) 0 32 0
/-- BELAY_LINK_DOWNS: R484, access RC. -/
def BELAY_LINK_DOWNS (i : Nat) : Fld := regFld 0xa (0x230 + 128 * i) 0 32 0
/-- BELAY_FRAMES_RX: R484, access RC. -/
def BELAY_FRAMES_RX (i : Nat) : Fld := regFld 0xa (0x238 + 128 * i) 0 64 0
/-- BELAY_FRAMES_TX: R484, access RC. -/
def BELAY_FRAMES_TX (i : Nat) : Fld := regFld 0xa (0x240 + 128 * i) 0 64 0
/-- MEMBER_VALID: R485, access RO. -/
def MEMBER_VALID (i : Nat) : Fld := tblFld 0xa 0 i 0 1 0
/-- MEMBER_STATE: R485, access RO. -/
def MEMBER_STATE (i : Nat) : Fld := tblFld 0xa 0 i 1 3 0
/-- MEMBER_RUN_STATE: R485, access RO. -/
def MEMBER_RUN_STATE (i : Nat) : Fld := tblFld 0xa 0 i 4 3 0
/-- MEMBER_HOLDOVER: R485, access RO. -/
def MEMBER_HOLDOVER (i : Nat) : Fld := tblFld 0xa 0 i 7 1 0
/-- MEMBER_TIME_LOCKED: R485, access RO. -/
def MEMBER_TIME_LOCKED (i : Nat) : Fld := tblFld 0xa 0 i 8 1 0
/-- MEMBER_DEVICE_ID: R485, access RO. -/
def MEMBER_DEVICE_ID (i : Nat) : Fld := tblFld 0xa 0 i 32 64 0
/-- MEMBER_STICKY: R485, access RO. -/
def MEMBER_STICKY (i : Nat) : Fld := tblFld 0xa 0 i 96 64 0
/-- MEMBER_EVENT_SUMMARY: R485, access RO. -/
def MEMBER_EVENT_SUMMARY (i : Nat) : Fld := tblFld 0xa 0 i 160 16 0
/-- MEMBER_OFFSET: R485, access RO. -/
def MEMBER_OFFSET (i : Nat) : Fld := tblFld 0xa 0 i 176 32 0
/-- MEMBER_LAST_SEEN_NS: R485, access RO. -/
def MEMBER_LAST_SEEN_NS (i : Nat) : Fld := tblFld 0xa 0 i 208 30 0
/-- MEMBER_LAST_SEEN_SEC: R485, access RO. -/
def MEMBER_LAST_SEEN_SEC (i : Nat) : Fld := tblFld 0xa 0 i 240 32 0
/-- REQ_FLOOR: R503, access RW. -/
def REQ_FLOOR (i : Nat) : Fld := tblFld 0x4 0 i 0 12 (reqFloorReset i)
/-- REQ_CEILING: R503, access RW. -/
def REQ_CEILING (i : Nat) : Fld := tblFld 0x4 0 i 16 12 (reqCeilingReset i)
/-- REQ_GRANTED: R503, access RO. -/
def REQ_GRANTED (i : Nat) : Fld := tblFld 0x4 0 i 32 12 0
/-- REQ_PENDING_UNITS: R503, access RO. -/
def REQ_PENDING_UNITS (i : Nat) : Fld := tblFld 0x4 0 i 48 12 0
/-- REQ_WAITING: R503, access RO. -/
def REQ_WAITING (i : Nat) : Fld := tblFld 0x4 0 i 60 1 0
/-- REQ_HEAD_CLASS: R503, access RO. -/
def REQ_HEAD_CLASS (i : Nat) : Fld := tblFld 0x4 0 i 61 3 0
/-- BUDGET_CEILING: R504, access RWA, anchor group 3. -/
def BUDGET_CEILING : Fld := regFld 0x4 0x100 0 12 64
/-- SLEW_LIMIT: R504, access RWA, anchor group 3. -/
def SLEW_LIMIT : Fld := regFld 0x4 0x104 0 9 4
/-- ARB_TOTAL_FIXED_LOAD: R504, access RO. -/
def ARB_TOTAL_FIXED_LOAD : Fld := regFld 0x4 0x108 0 12 40
/-- ARB_TOTAL_ACCOUNTED: R504, access RO. -/
def ARB_TOTAL_ACCOUNTED : Fld := regFld 0x4 0x108 16 12 40
/-- ARB_STATUS_FREE: R504, access RO. -/
def ARB_STATUS_FREE : Fld := regFld 0x4 0x10c 0 12 20
/-- ARB_STATUS_CEILING_REFUSED: R504, access RO. -/
def ARB_STATUS_CEILING_REFUSED : Fld := regFld 0x4 0x10c 16 1 0
/-- ARB_STATUS_FLOOR_REFUSED: R504, access RO. -/
def ARB_STATUS_FLOOR_REFUSED : Fld := regFld 0x4 0x10c 17 1 0
/-- ARB_QUEUE_PENDING_COUNT: R504, access RO. -/
def ARB_QUEUE_PENDING_COUNT : Fld := regFld 0x4 0x110 0 7 0
/-- ARB_QUEUE_HEAD: R504, access RO. -/
def ARB_QUEUE_HEAD : Fld := regFld 0x4 0x110 16 7 0
/-- PWR_STATUS_TRANSITION: R504, access RO. -/
def PWR_STATUS_TRANSITION : Fld := regFld 0x4 0x114 0 2 0
/-- GRANTS: R504, access RC. -/
def GRANTS : Fld := regFld 0x4 0x118 0 32 0
/-- WAITS: R504, access RC. -/
def WAITS : Fld := regFld 0x4 0x11c 0 32 0
/-- POWER_ERRORS: R504, access RC. -/
def POWER_ERRORS : Fld := regFld 0x4 0x120 0 32 0
/-- MAX_WAIT_US: R504, access RC. -/
def MAX_WAIT_US : Fld := regFld 0x4 0x124 0 32 0
/-- AVS_CTRL_ENABLE: R504, access RW. -/
def AVS_CTRL_ENABLE : Fld := regFld 0x4 0x200 0 1 0
/-- AVS_CTRL_MANUAL: R504, access RW. -/
def AVS_CTRL_MANUAL : Fld := regFld 0x4 0x200 1 1 0
/-- AVS_MANUAL_MV: R504, access RW. -/
def AVS_MANUAL_MV : Fld := regFld 0x4 0x204 0 10 750
/-- AVS_TARGET_MV: R504, access RO. -/
def AVS_TARGET_MV : Fld := regFld 0x4 0x208 0 10 750
/-- AVS_READ_VOUT_MV: R504, access RO. -/
def AVS_READ_VOUT_MV : Fld := regFld 0x4 0x20c 0 10 0
/-- AVS_READ_IOUT: R504, access RO. -/
def AVS_READ_IOUT : Fld := regFld 0x4 0x20c 16 16 0
/-- AVS_CODE: R504, access RO. -/
def AVS_CODE : Fld := regFld 0x4 0x210 0 6 0
/-- AVS_FAULTS: R504, access RC. -/
def AVS_FAULTS : Fld := regFld 0x4 0x214 0 32 0
/-- SAMPLE_CTRL_ENABLE: R524, access RW. -/
def SAMPLE_CTRL_ENABLE : Fld := regFld 0xc 0x100 0 1 0
/-- SAMPLE_CTRL_PERIOD_LOG: R524, access RW. -/
def SAMPLE_CTRL_PERIOD_LOG : Fld := regFld 0xc 0x100 8 5 10
/-- SAMPLE_CTRL_TRING: R524, access RW. -/
def SAMPLE_CTRL_TRING : Fld := regFld 0xc 0x100 16 2 0
/-- SAMPLE_SWEEPS: R524, access RC. -/
def SAMPLE_SWEEPS : Fld := regFld 0xc 0x104 0 32 0
/-- WINDOWS_SKIPPED: R524, access RC. -/
def WINDOWS_SKIPPED : Fld := regFld 0xc 0x108 0 32 0
/-- THRESH_ABOVE: R524, access RO. -/
def THRESH_ABOVE : Fld := regFld 0xc 0x110 0 64 0
/-- TRING_CFG_ENABLE: R524, access RW. -/
def TRING_CFG_ENABLE (i : Nat) : Fld := regFld 0xc (0x400 + 32 * i) 0 1 0
/-- TRING_CFG_OWNER: R524, access RW. -/
def TRING_CFG_OWNER (i : Nat) : Fld := regFld 0xc (0x400 + 32 * i) 1 1 0
/-- TRING_CFG_SIZE_LOG: R524, access RW. -/
def TRING_CFG_SIZE_LOG (i : Nat) : Fld := regFld 0xc (0x400 + 32 * i) 4 5 6
/-- TRING_CFG_ERROR: R524, access RO. -/
def TRING_CFG_ERROR (i : Nat) : Fld := regFld 0xc (0x400 + 32 * i) 12 1 0
/-- TRING_BASE: R524, access RW. -/
def TRING_BASE (i : Nat) : Fld := regFld 0xc (0x404 + 32 * i) 0 64 0
/-- PRODUCER: R524, access RO. -/
def PRODUCER (i : Nat) : Fld := regFld 0xc (0x40c + 32 * i) 0 15 0
/-- CONSUMER: R524, access RW. -/
def CONSUMER (i : Nat) : Fld := regFld 0xc (0x410 + 32 * i) 0 15 0
/-- TRING_LOST: R524, access RC. -/
def TRING_LOST (i : Nat) : Fld := regFld 0xc (0x414 + 32 * i) 0 32 0
/-- TRING_RECORDS: R524, access RC. -/
def TRING_RECORDS (i : Nat) : Fld := regFld 0xc (0x418 + 32 * i) 0 32 0
/-- QTEL_TO_RING: R525, access RW. -/
def QTEL_TO_RING (i : Nat) : Fld := tblFld 0xc 0 i 0 1 0
/-- QTEL_FORCE_HWM: R525, access RW. -/
def QTEL_FORCE_HWM (i : Nat) : Fld := tblFld 0xc 0 i 1 1 0
/-- QTEL_HWM_MODE: R525, access RO. -/
def QTEL_HWM_MODE (i : Nat) : Fld := tblFld 0xc 0 i 2 1 0
/-- QTEL_DEPTH: R525, access RO. -/
def QTEL_DEPTH (i : Nat) : Fld := tblFld 0xc 0 i 32 19 0
/-- QTEL_HEAD_AGE: R525, access RO. -/
def QTEL_HEAD_AGE (i : Nat) : Fld := tblFld 0xc 0 i 64 32 0
/-- QTEL_MAX_DEPTH: R525, access RO. -/
def QTEL_MAX_DEPTH (i : Nat) : Fld := tblFld 0xc 0 i 96 19 0
/-- QTEL_MAX_SOJOURN: R525, access RO. -/
def QTEL_MAX_SOJOURN (i : Nat) : Fld := tblFld 0xc 0 i 128 32 0
/-- QTEL_SAMPLE_NS: R525, access RO. -/
def QTEL_SAMPLE_NS (i : Nat) : Fld := tblFld 0xc 0 i 160 30 0
/-- QTEL_SAMPLE_SEC: R525, access RO. -/
def QTEL_SAMPLE_SEC (i : Nat) : Fld := tblFld 0xc 0 i 192 32 0
/-- PTEL_WINDOW_GROUP: R525, access RW. -/
def PTEL_WINDOW_GROUP (i : Nat) : Fld := tblFld 0xc 1 i 0 6 0
/-- PTEL_WINDOW_EN: R525, access RW. -/
def PTEL_WINDOW_EN (i : Nat) : Fld := tblFld 0xc 1 i 6 1 0
/-- PTEL_TRING: R525, access RW. -/
def PTEL_TRING (i : Nat) : Fld := tblFld 0xc 1 i 8 2 0
/-- PTEL_TO_RING: R525, access RW. -/
def PTEL_TO_RING (i : Nat) : Fld := tblFld 0xc 1 i 10 1 0
/-- PTEL_LAST_END_NS: R525, access RO. -/
def PTEL_LAST_END_NS (i : Nat) : Fld := tblFld 0xc 1 i 32 30 0
/-- PTEL_LAST_END_SEC: R525, access RO. -/
def PTEL_LAST_END_SEC (i : Nat) : Fld := tblFld 0xc 1 i 64 32 0
/-- PTEL_LAST_SPAN: R525, access RO. -/
def PTEL_LAST_SPAN (i : Nat) : Fld := tblFld 0xc 1 i 96 16 0
/-- PTEL_LAST_RX_BYTES: R525, access RO. -/
def PTEL_LAST_RX_BYTES (i : Nat) : Fld := tblFld 0xc 1 i 128 64 0
/-- PTEL_LAST_RX_FRAMES: R525, access RO. -/
def PTEL_LAST_RX_FRAMES (i : Nat) : Fld := tblFld 0xc 1 i 192 32 0
/-- PTEL_LAST_TX_FRAMES: R525, access RO. -/
def PTEL_LAST_TX_FRAMES (i : Nat) : Fld := tblFld 0xc 1 i 224 32 0
/-- PTEL_LAST_TX_BYTES: R525, access RO. -/
def PTEL_LAST_TX_BYTES (i : Nat) : Fld := tblFld 0xc 1 i 256 64 0
/-- PTEL_LAST_RX_ERRORED: R525, access RO. -/
def PTEL_LAST_RX_ERRORED (i : Nat) : Fld := tblFld 0xc 1 i 320 32 0
/-- PTEL_LAST_TX_POISONED: R525, access RO. -/
def PTEL_LAST_TX_POISONED (i : Nat) : Fld := tblFld 0xc 1 i 352 32 0
/-- THR_KIND: R525, access RW. -/
def THR_KIND (i : Nat) : Fld := tblFld 0xc 2 i 0 3 0
/-- THR_TO_RING: R525, access RW. -/
def THR_TO_RING (i : Nat) : Fld := tblFld 0xc 2 i 3 1 0
/-- THR_ABOVE: R525, access RO. -/
def THR_ABOVE (i : Nat) : Fld := tblFld 0xc 2 i 4 1 0
/-- THR_INDEX: R525, access RW. -/
def THR_INDEX (i : Nat) : Fld := tblFld 0xc 2 i 16 13 0
/-- THR_N: R525, access RW. -/
def THR_N (i : Nat) : Fld := tblFld 0xc 2 i 32 32 0
/-- THR_COUNT: R525, access RO. -/
def THR_COUNT (i : Nat) : Fld := tblFld 0xc 2 i 64 64 0
/-- THR_CROSSINGS: R525, access RO. -/
def THR_CROSSINGS (i : Nat) : Fld := tblFld 0xc 2 i 128 32 0

end R

/-! State without a register of its own. -/

namespace L

/-- Tick serial, plus one, of the page's EVT_FIRST capture (R43): bits that latch in that tick count as simultaneous. -/
def EVT_TICK (i : Nat) : Fld := latFld 1 i 64 0
/-- Tick serial, plus one, of the EV_FIRST capture (R58). -/
def EV_TICK : Fld := latFld 2 0 64 0
/-- TBL_SELECT.TABLE of master i on page j (R35, R45). -/
def WIN_TABLE (i j : Nat) : Fld := latFld 3 (256 * i + j) 8 0
/-- TBL_INDEX.INDEX of master i on page j (R45). -/
def WIN_INDEX (i j : Nat) : Fld := latFld 4 (256 * i + j) 24 0
/-- TBL_STATUS.BUSY of master i on page j (R45). -/
def WIN_BUSY (i j : Nat) : Fld := latFld 5 (256 * i + j) 1 0
/-- TBL_STATUS.COLLIDE of master i on page j (R46). -/
def WIN_COLLIDE (i j : Nat) : Fld := latFld 6 (256 * i + j) 1 0
/-- TBL_STATUS.CODE of master i on page j (R45). -/
def WIN_CODE (i j : Nat) : Fld := latFld 7 (256 * i + j) 8 0
/-- Operation that the window of master i on page j is executing: TBL_CMD.OP (R45). -/
def WIN_OP (i j : Nat) : Fld := latFld 8 (256 * i + j) 2 0
/-- TBL_DATA0 to TBL_DATA11 of master i on page j, entry bit n at bit n (R47). -/
def WIN_DATA (i j : Nat) : Fld := latFld 9 (256 * i + j) 384 0
/-- The 64-bit latch of master i on page j (R37). -/
def LATCH_HI (i j : Nat) : Fld := latFld 10 (256 * i + j) 32 0
/-- Offset plus one of the register whose low word master i read last on page j (R37). -/
def LATCH_REG (i j : Nat) : Fld := latFld 11 (256 * i + j) 17 0
/-- Held low word of master i on page j (R38). -/
def HELD_LO (i j : Nat) : Fld := latFld 12 (256 * i + j) 32 0
/-- Offset plus one of the register whose low word is held (R38); 0 when none is. -/
def HELD_REG (i j : Nat) : Fld := latFld 13 (256 * i + j) 17 0
/-- Latched nanoseconds of master i, group j (0 TIME_NOW, 1 PPS_IN0, 2 PPS_IN1) (R68). -/
def TLATCH_NS (i j : Nat) : Fld := latFld 14 (4 * i + j) 30 0
/-- Latched low seconds, as TLATCH_NS (R68). -/
def TLATCH_SEC_LO (i j : Nat) : Fld := latFld 15 (4 * i + j) 32 0
/-- Latched high seconds, as TLATCH_NS (R68). -/
def TLATCH_SEC_HI (i j : Nat) : Fld := latFld 16 (4 * i + j) 16 0
/-- Group plus one of master i's last read of page 0x02 when that was a word of the group's latch (R68); 0 otherwise. -/
def TLATCH_LAST (i : Nat) : Fld := latFld 17 i 2 0
/-- ARG register j of command slot i (R50); slots are numbered by Slot.id. -/
def SLOT_ARG (i j : Nat) : Fld := latFld 18 (16 * i + j) 32 0
/-- ARG j captured at the CMD write of slot i (R51). -/
def SLOT_CAP (i j : Nat) : Fld := latFld 19 (16 * i + j) 32 0
/-- STATUS.CODE of slot i (R50). -/
def SLOT_CODE (i : Nat) : Fld := latFld 20 i 8 0
/-- STATUS.SEQ of slot i (R50). -/
def SLOT_STATUS_SEQ (i : Nat) : Fld := latFld 21 i 16 0
/-- SEQ of slot i (R51). -/
def SLOT_SEQ (i : Nat) : Fld := latFld 22 i 16 0
/-- Opcode of the command that slot i holds (R51); CMD itself reads zero. -/
def SLOT_OPCODE (i : Nat) : Fld := latFld 23 i 16 0
/-- RESULT j of slot i (R50). -/
def SLOT_RESULT (i j : Nat) : Fld := latFld 24 (16 * i + j) 32 0
/-- Number of result words when the result is read-once (R54); 0 otherwise. -/
def SLOT_READ_ONCE (i : Nat) : Fld := latFld 25 i 5 0
/-- Message address of MSI-X table entry i (R32). -/
def MSIX_ADDR (i : Nat) : Fld := latFld 26 i 64 0
/-- Message data of MSI-X table entry i (R32). -/
def MSIX_DATA (i : Nat) : Fld := latFld 27 i 32 0
/-- Vector mask bit of MSI-X table entry i (R59; PCIe MSI-X rules). -/
def MSIX_MASK (i : Nat) : Fld := latFld 28 i 1 1
/-- Pending bit array (R32, R59). -/
def MSIX_PENDING : Fld := latFld 29 0 64 0
/-- Tick serial, plus one, in which VEC_SENT bit i was last acknowledged (R59). -/
def VEC_ACK_TICK (i : Nat) : Fld := latFld 30 i 64 0
/-- MSI-X function mask (R59). -/
def MSIX_FMASK : Fld := latFld 31 0 1 0
/-- Bus Master Enable has been cleared (R31). -/
def PCI_BM_OFF : Fld := latFld 32 0 1 0
/-- Function in D3hot (R31). -/
def PCI_D3HOT : Fld := latFld 33 0 1 0
/-- Strap balls of the board: bit 0 TREF_SEL, bit 1 LEAD_SEL, bits 3:2 SMB_ADDR (R532); board ties, so they outlive every reset. -/
def STRAPS : Fld := bcLatFld 34 0 4 0
/-- PAGE_CTRL.ENABLE of page i (R42), for pages whose bit is not fixed at 1. -/
def PAGE_ENABLE (i : Nat) : Fld := latFld 35 i 1 0
/-- PAGE_CTRL.FREEZE_COUNTERS of page i (R42). -/
def PAGE_FREEZE (i : Nat) : Fld := latFld 36 i 1 0
/-- PAGE_STATUS.FAULT of page i (R42). -/
def PAGE_FAULT (i : Nat) : Fld := latFld 37 i 1 0
/-- EVT_LATCH of page i (R43). -/
def EVT_LATCH (i : Nat) : Fld := latFld 38 i 32 0
/-- EVT_ENABLE of page i (R42). -/
def EVT_ENABLE (i : Nat) : Fld := latFld 39 i 32 0
/-- EVT_FIRST.BIT of page i (R43). -/
def EVT_FIRST_BIT (i : Nat) : Fld := latFld 40 i 5 0
/-- EVT_FIRST.VALID of page i (R43). -/
def EVT_FIRST_VALID (i : Nat) : Fld := latFld 41 i 1 0
/-- EVT_FIRST.SIMULTANEOUS of page i (R43). -/
def EVT_FIRST_SIM (i : Nat) : Fld := latFld 42 i 1 0
/-- EVT_FIRST_TIME seconds of page i (R43). -/
def EVT_FIRST_SEC (i : Nat) : Fld := latFld 43 i 32 0
/-- EVT_FIRST_TIME nanoseconds of page i (R43). -/
def EVT_FIRST_NS (i : Nat) : Fld := latFld 44 i 30 0
/-- Event conditions of page i that rose in the tick of EVT_LIVE_TICK, bit n for event bit n (R42). -/
def EVT_LIVE (i : Nat) : Fld := latFld 45 i 32 0
/-- Tick serial, plus one, of EVT_LIVE of page i. -/
def EVT_LIVE_TICK (i : Nat) : Fld := latFld 46 i 64 0
/-- Tick serial, plus one, in which bit j of EVT_LATCH of page i last rose (R43). -/
def EVT_RISE_TICK (i j : Nat) : Fld := latFld 47 (32 * i + j) 64 0
/-- Levels of the ring sources EV496 to EV511 as last evaluated (R44). -/
def RING_ACTIVE : Fld := latFld 48 0 16 0
/-- Main-domain alarm conditions that hold (R384), bit n for ALn. -/
def AL_LEVEL : Fld := latFld 49 0 64 0
/-- The current tick has sampled an alarm source that is newly active, and the collector has not yet recorded it: its response comes before the waypoints of the tick (R83, R394). -/
def AL_NEW : Fld := latFld 50 0 1 0
/-- Alarm conditions reported since the last sample (R393), bit n for ALn. -/
def AL_PULSE : Fld := latFld 51 0 64 0
/-- Slew remainder in units of 2^-48 ns, two's complement (R71); ADJ_REMAIN shows its whole nanoseconds. -/
def ADJ_FINE : Fld := latFld 52 0 128 0
/-- The firmware cause of holdover holds (R73). -/
def HO_FW : Fld := latFld 53 0 1 0
/-- Timebase cycle of the last accepted rate commit or ADJ_CMD, or of the start of the HOLDOVER_TIMEOUT count (R73). -/
def HO_SINCE : Fld := latFld 54 0 64 0
/-- Timebase cycle, plus one, of the last captured edge of PPS input i (R75). -/
def PPS_LAST (i : Nat) : Fld := latFld 55 i 64 0
/-- Seconds at which the first start bit of the time-of-day burst being sent lies (R76). -/
def TOD_START_SEC : Fld := latFld 56 0 48 0
/-- Nanoseconds of that instant (R76). -/
def TOD_START_NS : Fld := latFld 57 0 30 0
/-- Fraction of that instant (R76). -/
def TOD_START_FRAC : Fld := latFld 58 0 16 0
/-- The time-of-day transmitter is sending (R97). -/
def TOD_TX_BUSY : Fld := latFld 59 0 1 0
/-- Bytes of the time-of-day burst being sent whose start bit has not begun; they stand at the head of the queue (R76). -/
def TOD_LEFT : Fld := latFld 60 0 7 0
/-- Bytes of that burst whose start bit has begun. -/
def TOD_SENT : Fld := latFld 61 0 32 0
/-- Timebase cycle in which the burst began. -/
def TOD_AT : Fld := latFld 62 0 64 0
/-- Tick number plus 1 in which waypoint i was found late under EXECUTE_NOW; it executes on a later tick (R93). 0 for none. -/
def WP_DUE (i : Nat) : Fld := latFld 63 i 64 0
/-- Tick number plus 1 in which REG_WRITE waypoint i was due beyond the eighth; it executes later with DELAYED (R91). 0 for none. -/
def WP_CARRY (i : Nat) : Fld := latFld 64 i 64 0
/-- Tick serial, plus one, of the last REG_WRITE executed (R91). -/
def WP_TICK : Fld := latFld 65 0 64 0
/-- REG_WRITE actions executed in that tick (R91). -/
def WP_TICK_COUNT : Fld := latFld 66 0 4 0
/-- Edges of window group i skipped so far; a window whose start saw a smaller count has SKIPPED set (R513). -/
def WG_SKIPS (i : Nat) : Fld := latFld 67 i 64 0
/-- Steps of device time so far; a window whose start saw a smaller count has STEPPED set (R512). -/
def STEP_SERIAL : Fld := latFld 68 0 64 0
/-- Bring-up burst of lane i: 0 none, 1 requested, 2 held (R104). -/
def LANE_BURST (i : Nat) : Fld := latFld 69 i 2 0
/-- Adaptation burst of lane i: 0 none, 1 requested, 2 running, 3 held until the freeze of the lane ends (R111). -/
def LANE_ADAPT (i : Nat) : Fld := latFld 70 i 2 0
/-- Lane i is on the path back after a loss of lock in ACTIVE (R105). -/
def LANE_RELOCK (i : Nat) : Fld := latFld 71 i 1 0
/-- Steady units held for lane i as a test lane (R104); 0 for a lane of a port. -/
def LANE_STEADY (i : Nat) : Fld := latFld 72 i 3 0
/-- Consecutive rich windows of lane i (R113). -/
def LANE_RICH_RUN (i : Nat) : Fld := latFld 73 i 8 0
/-- Waypoint plus one whose eye scan of lane i waits or runs (R91, R117). -/
def LANE_SCAN_WP (i : Nat) : Fld := latFld 74 i 13 0
/-- Ordinal of the scan point being measured on lane i (R115). -/
def LANE_SCAN_POINT (i : Nat) : Fld := latFld 75 i 14 0
/-- Single-bit inversions fired on lane i (R123). -/
def LANE_INJ_SINGLE (i : Nat) : Fld := latFld 76 i 32 0
/-- Bits inverted by bursts on lane i (R123). -/
def LANE_INJ_BURST (i : Nat) : Fld := latFld 77 i 32 0
/-- Bits inverted in mode RATE on lane i (R123). -/
def LANE_INJ_RATE (i : Nat) : Fld := latFld 78 i 32 0
/-- The 2 units of PLL j (0 A, 1 B) of octet i are reserved (R104). -/
def PLL_RESV (i j : Nat) : Fld := latFld 79 (2 * i + j) 1 0
/-- The selected reference of octet i is absent (R101). -/
def OCT_REF_ABSENT (i : Nat) : Fld := latFld 80 i 1 0
/-- Port i has an open window (j 0), or a window past its END that is not yet closed (j 1) (R510, R512). -/
def WIN_OPEN (i j : Nat) : Fld := latFld 81 (2 * i + j) 1 0
/-- START of the window, in units of 2^-48 ns. -/
def WIN_START (i j : Nat) : Fld := latFld 82 (2 * i + j) 128 0
/-- END of the window (j 1). -/
def WIN_END (i j : Nat) : Fld := latFld 83 (2 * i + j) 128 0
/-- k of the closing edge (j 1). -/
def WIN_K (i j : Nat) : Fld := latFld 84 (2 * i + j) 5 0
/-- WG_SKIPS of the group when the window opened; for j 1 its growth over the window. -/
def WIN_SKIPS (i j : Nat) : Fld := latFld 85 (2 * i + j) 64 0
/-- STEP_SERIAL when the window opened; for j 1 its growth over the window. -/
def WIN_STEPS (i j : Nat) : Fld := latFld 86 (2 * i + j) 64 0
/-- TB_STATUS.HOLDOVER at END (j 1). -/
def WIN_HOLD (i j : Nat) : Fld := latFld 87 (2 * i + j) 1 0
/-- Window group of the window (j 1). -/
def WIN_GROUP (i j : Nat) : Fld := latFld 88 (2 * i + j) 6 0
/-- RX_FRAMES of the window (R511). -/
def WIN_RX_FRAMES (i j : Nat) : Fld := latFld 89 (2 * i + j) 32 0
/-- RX_BYTES of the window. -/
def WIN_RX_BYTES (i j : Nat) : Fld := latFld 90 (2 * i + j) 64 0
/-- RX_ERRORED of the window. -/
def WIN_RX_ERRORED (i j : Nat) : Fld := latFld 91 (2 * i + j) 32 0
/-- TX_FRAMES of the window. -/
def WIN_TX_FRAMES (i j : Nat) : Fld := latFld 92 (2 * i + j) 32 0
/-- TX_BYTES of the window. -/
def WIN_TX_BYTES (i j : Nat) : Fld := latFld 93 (2 * i + j) 64 0
/-- TX_POISONED of the window. -/
def WIN_TX_POISONED (i j : Nat) : Fld := latFld 94 (2 * i + j) 32 0
/-- Timebase cycle up to which COUNT of threshold counter i has been counted (R518). -/
def THR_SINCE (i : Nat) : Fld := latFld 95 i 64 0
/-- Records written to telemetry ring i since reset, wrapping (R523). -/
def TRING_SEQ (i : Nat) : Fld := latFld 96 i 32 0
/-- Multiple of the sweep period that the last sweep belonged to, plus one (R516). -/
def SWEEP_LAST : Fld := latFld 97 0 128 0
/-- K_ENC or K1 of range i (R437). -/
def MG_KEY1 (i : Nat) : Fld := latFld 98 i 256 0
/-- K_MAC or K2 of range i (R437). -/
def MG_KEY2 (i : Nat) : Fld := latFld 99 i 256 0
/-- Lines read so far in the scrub pass (R451). -/
def MG_SCRUB_LINE : Fld := latFld 100 0 32 0
/-- SAK of an SA (R176, R178): transmit SA i at i, receive SA j at 16,384 + j; a 128-bit key in the low bits. -/
def SA_KEY (i : Nat) : Fld := latFld 101 i 256 0
/-- Salt of an SA, as SA_KEY. -/
def SA_SALT (i : Nat) : Fld := latFld 102 i 96 0
/-- Copies that have taken a PN from transmit SA i since its key load (R240). -/
def SA_FRAMES (i : Nat) : Fld := latFld 103 i 32 0
/-- Receive SA i serves only frames stamped at or after RXSA_FROM (R231). -/
def RXSA_FROM_V (i : Nat) : Fld := latFld 104 i 1 0
/-- T of the SA_ENABLE waypoint of receive SA i, in units of 2^-48 ns. -/
def RXSA_FROM (i : Nat) : Fld := latFld 105 i 128 0
/-- Receive SA i is retired for frames stamped at or after RXSA_UNTIL (R231). -/
def RXSA_UNTIL_V (i : Nat) : Fld := latFld 106 i 1 0
/-- T of the SA_RETIRE waypoint of receive SA i, in units of 2^-48 ns. -/
def RXSA_UNTIL (i : Nat) : Fld := latFld 107 i 128 0
/-- A soft reset of page 0x70 waits for draining SAs to reach EMPTY (R165). -/
def SECY_RST : Fld := latFld 108 0 1 0
/-- The pending switch of SecY i has a switch instant (R226); without one it takes effect at the next copy (R228, R235). -/
def SW_AT_V (i : Nat) : Fld := latFld 109 i 1 0
/-- Switch instant of SecY i, in units of 2^-48 ns. -/
def SW_AT (i : Nat) : Fld := latFld 110 i 128 0
/-- The key-load engine's two expansions or products will disagree at the next key load (R203). -/
def SA_LOAD_FAULT : Fld := latFld 111 0 1 0
/-- How far TC of policer i is below full, in bytes / (8,000,000 × 2^48) (R319). -/
def POL_TC_DEF (i : Nat) : Fld := latFld 112 i 128 0
/-- How far TP of policer i is below full, as POL_TC_DEF. -/
def POL_TP_DEF (i : Nat) : Fld := latFld 113 i 128 0
/-- Device time up to which policer i has been filled. -/
def POL_SINCE (i : Nat) : Fld := latFld 114 i 128 0
/-- How far the bucket of trap class i is below full, as POL_TC_DEF (R351). -/
def CLS_DEF (i : Nat) : Fld := latFld 115 i 128 0
/-- Device time up to which it has been filled. -/
def CLS_SINCE (i : Nat) : Fld := latFld 116 i 128 0
/-- How far the punt ceiling bucket is below full, as POL_TC_DEF (R352). -/
def CEIL_DEF : Fld := latFld 117 0 128 0
/-- Device time up to which it has been filled. -/
def CEIL_SINCE : Fld := latFld 118 0 128 0
/-- How far the reserve bucket of class i is below full, in hundredths of the unit of POL_TC_DEF (R352). -/
def RES_DEF (i : Nat) : Fld := latFld 119 i 128 0
/-- Device time up to which it has been filled. -/
def RES_SINCE (i : Nat) : Fld := latFld 120 i 128 0
/-- How far the shaper tokens of port i are below SHAPER_BURST, as POL_TC_DEF (R317). -/
def SHP_DEF (i : Nat) : Fld := latFld 121 i 128 0
/-- Device time up to which they have been filled. -/
def SHP_SINCE (i : Nat) : Fld := latFld 122 i 128 0
/-- Credit of queue i in bits / (1,000,000 × 2^48), two's complement (R315). -/
def CBS_FINE (i : Nat) : Fld := latFld 123 i 160 0
/-- Device time up to which the credit has been moved. -/
def CBS_SINCE (i : Nat) : Fld := latFld 124 i 128 0
/-- A of R299 of queue i in units of 2^-32 cells. -/
def Q_AVG (i : Nat) : Fld := latFld 125 i 64 0
/-- Position of port i in the cycle of tier j: queue plus one, 0 before the first (R314). -/
def DRR_POS (i j : Nat) : Fld := latFld 126 (4 * i + j) 5 0
/-- The queue at the position has gained its quantum for this visit (R314). -/
def DRR_VISIT (i j : Nat) : Fld := latFld 127 (4 * i + j) 1 0
/-- Position of the punt scheduler in tier i: ring plus one (R352). -/
def RING_POS (i : Nat) : Fld := latFld 128 i 8 0
/-- The ring at the position has gained its quantum for this visit (R352). -/
def RING_VISIT (i : Nat) : Fld := latFld 129 i 1 0
/-- DEFICIT of ring i in tier j of the punt scheduler (R352). -/
def RING_DEFICIT (i j : Nat) : Fld := latFld 130 (2 * i + j) 32 0
/-- HEAD of MGMT0 ring i: 0 receive, 1 transmit (R363). -/
def M0_HEAD (i : Nat) : Fld := latFld 131 i 16 0
/-- TAIL of MGMT0 ring i. -/
def M0_TAIL (i : Nat) : Fld := latFld 132 i 16 0
/-- MGMT0 ring i has stopped under R347. -/
def M0_ERROR (i : Nat) : Fld := latFld 133 i 1 0
/-- Ring i has been disabled and has not reached its descriptor boundary (R345). -/
def RING_STOPPING (i : Nat) : Fld := latFld 134 i 1 0
/-- Sum of the changes of the rate of device time so far, in units of 2^-48 (R244). -/
def RATE_MOVED : Fld := latFld 135 0 64 0
/-- Port i has an operational list running (R321). -/
def GATE_RUN (i : Nat) : Fld := latFld 136 i 1 0
/-- ConfigChangeTime of the operational list of port i, in units of 2^-48 ns (R324). -/
def GATE_BASE (i : Nat) : Fld := latFld 137 i 128 0
/-- ConfigChangeTime of the pending ConfigChange of port i (R323). -/
def GATE_AT (i : Nat) : Fld := latFld 138 i 128 0
/-- Index of the operational entry in force on port i. -/
def GATE_ENTRY (i : Nat) : Fld := latFld 139 i 9 0
/-- W_q of port i, queue j, in units of 2^-48 ns; 2^100 stands for a gate that never closes (R327). -/
def GATE_W (i j : Nat) : Fld := latFld 140 (16 * i + j) 128 0
/-- The preemptable MAC of port i is held (R332). -/
def GATE_HOLD (i : Nat) : Fld := latFld 141 i 1 0
/-- PREEMPT_EN of port i was written 0 while a preemptable copy is suspended (R329). -/
def PREEMPT_WANT (i : Nat) : Fld := latFld 142 i 1 0
/-- Verification of port i has succeeded (R329). -/
def MM_VERIFIED (i : Nat) : Fld := latFld 143 i 1 0
/-- Instant from which the line of port i is free for a start, counted as timebase cycles in units of 2^-48 ns (R225). -/
def TX_FREE (i : Nat) : Fld := latFld 144 i 128 0
/-- Verify attempts of port i without a response (R329). -/
def MM_TRIES (i : Nat) : Fld := latFld 145 i 8 0
/-- State of a pipe set of cluster i: j is the set, 5 more on transmit; 0 SLEEP, 1 WAKING, 2 AWAKE, 3 FENCED (R215). -/
def PS_STATE (i j : Nat) : Fld := latFld 146 (10 * i + j) 2 0
/-- Cipher units of the reservation of cluster i that are still held (R215, R217). -/
def CC_UNITS (i : Nat) : Fld := latFld 147 i 6 0
/-- The 2 common units of cluster i are held (R215). -/
def CC_COMMON (i : Nat) : Fld := latFld 148 i 1 0
/-- Units held for replacement sets of cluster i, direction j (R218). -/
def CC_EXTRA (i j : Nat) : Fld := latFld 149 (2 * i + j) 4 0
/-- Timebase cycle at which port i entered HOLDOFF (R148). -/
def HOLDOFF_AT (i : Nat) : Fld := latFld 150 i 64 0
/-- Hold-off length in force, in µs (R148, R160). -/
def HOLDOFF_LEN (i : Nat) : Fld := latFld 151 i 10 0
/-- Steady and port-engine units held for port i (R142). -/
def PORT_STEADY (i : Nat) : Fld := latFld 152 i 6 0
/-- The grant of entry to ACTIVE is complete (R487). -/
def PWR_GRANTED : Fld := latFld 153 0 1 0
/-- Command slot of page 0x04 that waits for the transition, plus one; 0 none (R487). -/
def PWR_SLOT : Fld := latFld 154 0 3 0
/-- Key of vault slot i, in the low bits (R247). -/
def VKEY (i : Nat) : Fld := latFld 155 i 512 0
/-- Key of Base Camp root i (R247). -/
def ROOT_KEY (i : Nat) : Fld := bcLatFld 156 i 256 0
/-- Blob buffer captured at the CMD write of vault command slot i (R261). -/
def V_BUF (i : Nat) : Fld := latFld 157 i 1024 0
/-- Steps done of the command in vault command slot i (R265). -/
def V_STEP (i : Nat) : Fld := latFld 158 i 3 0
/-- Vault slot held as source j by command slot i, plus one (R255). -/
def V_SRC (i j : Nat) : Fld := latFld 159 (2 * i + j) 11 0
/-- Vault slot reserved as destination j by command slot i, plus one (R255). -/
def V_DST (i j : Nat) : Fld := latFld 160 (2 * i + j) 11 0
/-- Presence has been asserted since the CMD write of command slot i (R258). -/
def V_PRES (i : Nat) : Fld := latFld 161 i 1 0
/-- The running command of command slot i needs presence (R258). -/
def V_NEEDS (i : Nat) : Fld := latFld 162 i 1 0
/-- The command of command slot i waits for entropy (R276). -/
def V_COLLECT (i : Nat) : Fld := latFld 163 i 1 0
/-- The entropy that the command of command slot i waited for has been taken (R276). -/
def V_FRESH (i : Nat) : Fld := latFld 164 i 1 0
/-- Timebase cycle in which the last vault command ended (R266). -/
def V_IDLE_AT : Fld := latFld 165 0 64 0
/-- The vault self-tests have completed since the last reset (R279). -/
def VAULT_TESTED : Fld := latFld 166 0 1 0
/-- Command slot i holds a CMAC context (R275). -/
def CMAC_ON (i : Nat) : Fld := latFld 167 i 1 0
/-- Vault slot of the ICK of the context. -/
def CMAC_ICK (i : Nat) : Fld := latFld 168 i 10 0
/-- The ICK that the context holds. -/
def CMAC_KEY (i : Nat) : Fld := latFld 169 i 256 0
/-- Its length in bytes. -/
def CMAC_KLEN (i : Nat) : Fld := latFld 170 i 6 0
/-- The ICK needs presence (R258). -/
def CMAC_PRES (i : Nat) : Fld := latFld 171 i 1 0
/-- Chain value of the context. -/
def CMAC_X (i : Nat) : Fld := latFld 172 i 128 0
/-- Bytes appended and not yet in the chain, as a number. -/
def CMAC_LAST (i : Nat) : Fld := latFld 173 i 128 0
/-- How many they are. -/
def CMAC_N (i : Nat) : Fld := latFld 174 i 5 0
/-- Key of DRBG instance i: 0 key generation, 1 output (R276). -/
def DRBG_KEY (i : Nat) : Fld := latFld 175 i 256 0
/-- V of DRBG instance i. -/
def DRBG_VAL (i : Nat) : Fld := latFld 176 i 128 0
/-- Generate requests of instance i since its last reseed. -/
def DRBG_GEN (i : Nat) : Fld := latFld 177 i 21 0
/-- Tick serial of the memory guard's halt record (R449), plus one. -/
def MG_HALT_TICK : Fld := latFld 178 0 64 0
/-- MSIP of core i (R342). -/
def MSIP (i : Nat) : Fld := latFld 179 i 1 0
/-- Cores 1 to 3 that wait for a software interrupt since they were started, bit c (R339). -/
def CORE_WAIT : Fld := latFld 180 0 4 0
/-- MTIMECMP of core i (R342). -/
def MTIMECMP (i : Nat) : Fld := latFld 181 i 64 18446744073709551615
/-- Core i has taken its machine timer interrupt, and MTIME has not fallen below MTIMECMP since (R342). -/
def MTIP (i : Nat) : Fld := latFld 182 i 1 0
/-- Priority of interrupt source i (R343). -/
def PLIC_PRIO (i : Nat) : Fld := latFld 183 i 3 0
/-- Enable bits of context i, bit n for source n (R343). -/
def PLIC_EN (i : Nat) : Fld := latFld 184 i 516 0
/-- Priority threshold of context i (R343). -/
def PLIC_THR (i : Nat) : Fld := latFld 185 i 3 0
/-- Pending bits of the interrupt sources (R343). -/
def PLIC_PEND : Fld := latFld 186 0 516 0
/-- Sources claimed and not completed (R343). -/
def PLIC_BUSY : Fld := latFld 187 0 516 0
/-- The boot ROM has handed over (R340). -/
def ROM_CLOSED : Fld := latFld 188 0 1 0
/-- Timebase cycle from which the watchdog's present count runs (R358). -/
def WD_SINCE : Fld := latFld 189 0 64 0
/-- Timebase cycle in which the management restart started (R361). -/
def RESTART_AT : Fld := latFld 190 0 64 0
/-- Timebase cycle up to which CEILING_DEFERRED has been counted (R352). -/
def CEIL_SEEN : Fld := latFld 191 0 64 0
/-- Base Camp alarm conditions that hold, bit n for ALn (R384). -/
def BCA_LEVEL : Fld := bcLatFld 192 0 19 0
/-- Base Camp conditions reported since the last sample (R393, R398). -/
def BCA_PULSE : Fld := bcLatFld 193 0 19 0
/-- Base Camp sources sampled active at the last tick or Base Camp cycle (R393, R398). -/
def BCA_ACTIVE : Fld := bcLatFld 194 0 19 0
/-- Fraction of a Base Camp cycle that has passed since the last one, in 10^-9 (R403). -/
def BC_PHASE : Fld := bcLatFld 195 0 40 0
/-- The first tick after a power-on reset has not come yet (R403). -/
def PU_WANT : Fld := latFld 196 0 1 1
/-- A CONTAIN response came while the run state was BOOTING (R27, R376). -/
def CONTAIN_AT_BOOT : Fld := latFld 197 0 1 0
/-- The key stores are to be cleared (R397). -/
def ZERO_KEYS : Fld := latFld 198 0 1 0
/-- The memories are to be cleared (R397). -/
def ZERO_MEM : Fld := latFld 199 0 1 0
/-- Target stored for evidence class i (R371). -/
def EV_TARGET (i : Nat) : Fld := bcLatFld 200 i 7 0
/-- Sealed record held at place i, BOOT_COUNT modulo 64, first byte most significant (R376, R379). -/
def RECORD (i : Nat) : Fld := bcLatFld 201 i 2048 0
/-- MAC of the last sealed record (R378). -/
def LAST_MAC : Fld := bcLatFld 202 0 384 0
/-- A debug class has been opened since the last seal (R376, R427). -/
def DEBUG_SINCE : Fld := bcLatFld 203 0 1 0
/-- Decrypted bytes of the staged owner package, first byte most significant (R420). -/
def STAGED : Fld := bcLatFld 204 0 6176 0
/-- Their number. -/
def STAGED_LEN : Fld := bcLatFld 205 0 10 0
/-- RESET_CAUSE of the boot in progress (R376). -/
def RESET_CAUSE : Fld := latFld 206 0 3 0
/-- FLAGS.COMMIT_SVN of the stage-1 header that ran (R369, R374). -/
def COMMIT_SVN : Fld := latFld 207 0 1 0
/-- Digest of extension i of the ascent log (R372, R381). -/
def ASCENT_DIGEST (i : Nat) : Fld := latFld 208 i 384 0
/-- Management restarts since the seal (R380). -/
def RESTARTS : Fld := latFld 209 0 16 0
/-- The boot ROM has not yet run its steps since the last reset or restart (R339, R367). -/
def ROM_RUN : Fld := latFld 210 0 1 1
/-- Target of the transition in progress (R411). -/
def LC_TARGET : Fld := latFld 211 0 3 0
/-- Bytes of the outstanding debug challenge (R425). -/
def CHAL : Fld := latFld 212 0 512 0
/-- Device time of its issue. -/
def CHAL_AT : Fld := latFld 213 0 128 0
/-- Command slot of page 0x06 whose full-debug response has passed and whose wipe is running, plus one (R427). -/
def FULL_WIPE : Fld := latFld 214 0 3 0
/-- The rope key (R467). -/
def ROPE_KEY : Fld := latFld 215 0 256 0
/-- Own ORIGIN_EPOCH (R462). -/
def ORIGIN_EPOCH : Fld := latFld 216 0 32 0
/-- ORIGIN_SEQ of the last rope frame sent. -/
def ORIGIN_SEQ : Fld := latFld 217 0 64 0
/-- ORIGIN_EPOCH held for origin i (R464). -/
def O_EPOCH (i : Nat) : Fld := latFld 218 i 32 0
/-- ORIGIN_SEQ held for origin i. -/
def O_SEQ (i : Nat) : Fld := latFld 219 i 64 0
/-- LINK_EPOCH of Belay port i (R460). -/
def LINK_EPOCH (i : Nat) : Fld := latFld 220 i 64 0
/-- HELLO payload that port i last sent. -/
def B_HELLO (i : Nat) : Fld := latFld 221 i 192 0
/-- HELLO payload that port i last received. -/
def B_PEER (i : Nat) : Fld := latFld 222 i 192 0
/-- Port i has received a HELLO since it entered HELLO. -/
def B_PEER_V (i : Nat) : Fld := latFld 223 i 1 0
/-- Key of the frames that port i sends (R461). -/
def B_TXKEY (i : Nat) : Fld := latFld 224 i 256 0
/-- Key of the frames that port i receives. -/
def B_RXKEY (i : Nat) : Fld := latFld 225 i 256 0
/-- LINK_COUNTER last accepted on port i (R463). -/
def B_RXCTR (i : Nat) : Fld := latFld 226 i 64 0
/-- Frames in a row on port i that failed their tags (R478). -/
def B_TAGFAILS (i : Nat) : Fld := latFld 227 i 2 0
/-- Timebase cycle in which port i entered its link state. -/
def B_AT (i : Nat) : Fld := latFld 228 i 64 0
/-- MSEQ of the next marker of port i (R471). -/
def TM_MSEQ (i : Nat) : Fld := latFld 229 i 8 0
/-- Departure time of marker j of port i in units of 2^-16 ns, plus one (R471). -/
def TM_TXT (i j : Nat) : Fld := latFld 230 (256 * i + j) 128 0
/-- MSEQ of the latest marker received on port i. -/
def TM_RXSEQ (i : Nat) : Fld := latFld 231 i 8 0
/-- Its arrival time in units of 2^-16 ns. -/
def TM_RXT (i : Nat) : Fld := latFld 232 i 128 0
/-- A marker has been stamped on port i since it entered UP. -/
def TM_RXV (i : Nat) : Fld := latFld 233 i 1 0
/-- Timebase cycle of the last marker received on port i, or of its entry to UP. -/
def TM_LAST (i : Nat) : Fld := latFld 234 i 64 0
/-- HOPS_FROM_LEAD of the latest TIME frame on port i (R473). -/
def B_HOPS (i : Nat) : Fld := latFld 235 i 8 255
/-- Sum of the delays of the pairs averaged next on port i, two's complement (R472). -/
def B_DSUM (i : Nat) : Fld := latFld 236 i 160 0
/-- Their number. -/
def B_DN (i : Nat) : Fld := latFld 237 i 7 0
/-- Consecutive corrections with an offset below 1 ns (R473). -/
def LOCK_RUN : Fld := latFld 238 0 7 0
/-- Timebase cycle of the last rope frame from position 0 (R479). -/
def LEAD_SEEN : Fld := latFld 239 0 64 0
/-- Timebase cycle of the last STATUS of position i (R478). -/
def MEMBER_SEEN (i : Nat) : Fld := latFld 240 i 64 0
/-- DEVICE_ID of the lead, from its FORMED frame (R470, R479). -/
def LEAD_ID : Fld := latFld 241 0 64 0
/-- TAG of the last remote request (R465). -/
def REM_TAG : Fld := latFld 242 0 32 0
/-- TAG of the remote command in slot i of page 0x0A. -/
def REM_SLOT_TAG (i : Nat) : Fld := latFld 243 i 32 0
/-- Timebase cycle in which it was sent (R476). -/
def REM_AT (i : Nat) : Fld := latFld 244 i 64 0
/-- Tick serial, plus one, of the last accepted ALARM frame (R481). -/
def ROPE_TICK : Fld := latFld 245 0 64 0
/-- The Belay ports send and accept nothing until a device reset (R482). -/
def ROPE_SILENT : Fld := latFld 246 0 1 0
/-- Voltage the rail has been stepped to, in mV (R500). -/
def AVS_NOW : Fld := latFld 247 0 10 750
/-- Consecutive readbacks that differ by more than 15 mV (R501). -/
def AVS_BAD : Fld := latFld 248 0 4 0
/-- AVS has stopped after a fault (R501). -/
def AVS_STOP : Fld := latFld 249 0 1 0
/-- Timebase cycle of the last Vout step (R500). -/
def AVS_AT : Fld := latFld 250 0 64 0
/-- Hottest junction sensor, signed, in 1/16 degree C (R500, R539). -/
def TEMP_HOT : Fld := latFld 251 0 16 0
/-- Performance counter j of core i: mcycle, minstret, mhpmcounter3 to mhpmcounter10 (R520). -/
def PERF_CTR (i j : Nat) : Fld := latFld 252 (10 * i + j) 64 0
/-- ROPE_STATUS.CONFLICT of R470, which the register table does not list. -/
def ROPE_CONFLICT : Fld := latFld 253 0 1 0
/-- Rate of a slew of the rope discipline in units of 2^-40, at most 100 ppm (R473). -/
def ROPE_SLEW : Fld := latFld 254 0 40 0
/-- Multiple of 10,000 ns, plus one, of the last marker that port i sent (R471). -/
def TM_TXN (i : Nat) : Fld := latFld 255 i 96 0
/-- Consecutive rich windows of receiver i: 0 and 1 Belay, 2 MGMT0 (R114). -/
def RICH_RUN (i : Nat) : Fld := latFld 256 i 8 0
/-- An alarm response has stopped the life-cycle controller after its intent was committed (R416). -/
def LC_STOP : Fld := latFld 257 0 1 0
/-- mhpmevent3 to mhpmevent10 of core i, with OF in bit 63 (R520, R521). -/
def PERF_EVT (i j : Nat) : Fld := latFld 258 (8 * i + j) 64 0
/-- Custom CSR 0x7C0 of core i (R521). -/
def MHPMSAMPLE (i : Nat) : Fld := latFld 259 i 64 0
/-- The local counter-overflow interrupt of core i is pending (R521). -/
def LCOFI (i : Nat) : Fld := latFld 260 i 1 0
/-- Timebase cycle of the last response of the regulator, or of the enable (R501). -/
def AVS_FROM : Fld := latFld 261 0 64 0
/-- Timebase cycle in which the transition in progress was accepted (R412). -/
def LC_AT : Fld := latFld 262 0 64 0
/-- REMOTE_REQ payload just delivered, plus one, until the same step serves it (R476). -/
def REM_RX : Fld := latFld 263 0 129 0
/-- The timebase PLL has locked since reset, so that device time runs (R66, R74). -/
def TB_RUN : Fld := latFld 264 0 1 0
/-- Timebase cycles at the tick before the present one (R150). -/
def TICK_FROM : Fld := latFld 265 0 64 0
/-- Symbol of lane i at which its generator started (R121). -/
def LANE_GEN_FROM (i : Nat) : Fld := latFld 266 i 80 0
/-- First symbol of lane i that the last SINGLE or BURST inverts (R123). -/
def LANE_INJ_AT (i : Nat) : Fld := latFld 267 i 80 0
/-- Symbols of lane i that the last SINGLE or BURST inverts (R123). -/
def LANE_INJ_LEN (i : Nat) : Fld := latFld 268 i 7 0
/-- Symbol of lane i from which the periods of mode RATE count (R123). -/
def LANE_INJ_FROM (i : Nat) : Fld := latFld 269 i 80 0
/-- Highest severity of the last sample with records (R393, R411). -/
def AL_RESP : Fld := latFld 270 0 3 0
/-- Tick serial, plus one, of that sample. -/
def AL_RESP_TICK : Fld := latFld 271 0 64 0
/-- Bank from which the cells of the next frame are taken (R296). -/
def BANK_NEXT : Fld := latFld 272 0 6 0
/-- Phase of the start boundaries of port i against the timebase, in units of 2^-48 ns (R223). -/
def LINE_PHASE (i : Nat) : Fld := latFld 273 i 64 0
/-- Key loads of the SA at place i of the key store (R191). -/
def SA_LOADS (i : Nat) : Fld := latFld 274 i 64 0
/-- The whole-buffer zero-fill of a reset has not begun (R305). -/
def FILL_DUE : Fld := latFld 275 0 1 1
/-- End of the last transmission of queue i whose bytes have all been handed over, as device time (R315). -/
def CBS_HOLD (i : Nat) : Fld := latFld 276 i 128 0
/-- Sources, by place, of which the command of command slot i took the last use (R256). -/
def V_LAST (i : Nat) : Fld := latFld 277 i 2 0
/-- Slot that the running KEY_GENERATE of command slot i records as the parent (R264). -/
def V_PAR (i : Nat) : Fld := latFld 278 i 10 0
/-- The running command of command slot i is a KEY_GENERATE with a parent (R264). -/
def V_PAR_ON (i : Nat) : Fld := latFld 279 i 1 0
/-- A step of the command in command slot i ends in the present tick: 1, or 2 when its two computations disagree (R265). -/
def V_DUE (i : Nat) : Fld := latFld 280 i 2 0
/-- Command slots that the engine has served since the last step of the command in command slot i (R265). -/
def V_SERVED (i : Nat) : Fld := latFld 281 i 8 0

end L

end Sys2Proof.Machine
end

