-- ==== Sys2Proof/Machine/Ops.lean ====
section
/-! DEFINITION. Operations shared by every family: the ticks and times of device time, free values, counters that hold
under FREEZE_COUNTERS and saturate, the event latch with its first-event captures, the event controller's capture,
raising an alarm condition, and the 32-bit forms of reading fields. -/

namespace Sys2Proof.Machine

/-! ## Time -/

/-- The first multiple of 4 ns at or after a time (R82). -/
def tickCeil (t : Nat) : Nat := (t + 4 * fineNs - 1) / (4 * fineNs) * (4 * fineNs)

/-- Whole seconds of a time. -/
def secOf (t : Nat) : Nat := t / fineSec
/-- Whole nanoseconds within the second. -/
def nsOf (t : Nat) : Nat := t % fineSec / fineNs
/-- Fraction in units of 2^-16 ns: the upper 16 bits of the kept fraction (R67). -/
def fracOf (t : Nat) : Nat := t % fineNs / 2 ^ 32
/-- A time from seconds, nanoseconds and fraction (R65). -/
def timeOf (sec ns frac : Nat) : Nat := sec * fineSec + ns * fineNs + frac * 2 ^ 32

/-! ## Values the spec leaves open -/

/-- The next free value, cut to `w` bits: no proof can see it. -/
def Dev.freeVal (d : Dev) (w : Nat) : Nat := Config.free d.freeCtr % 2 ^ w
/-- Move on to the next free value. -/
def Dev.tookFree (d : Dev) : Dev := { d with freeCtr := d.freeCtr + 1 }

/-- Record something the part drives out. -/
def Dev.emit (d : Dev) (o : Out) : Dev := { d with out := d.out ++ [o] }

/-- A write arrives that acts in the next tick (R83). -/
def Dev.post (d : Dev) (x : Posted) : Dev := { d with posted := d.posted ++ [(d.tick, x)] }

/-! ## Counters (R42, R506) -/

/-- Add to a counter that saturates at its width, whatever the freeze bit says. -/
def Dev.satAdd (d : Dev) (f : Fld) (n : Nat) : Dev := d.set f (min (d.get f + n) (2 ^ f.w - 1))

/-- Add to a counter of page `pg`: it holds while FREEZE_COUNTERS is 1 and saturates at its width. -/
def Dev.count (d : Dev) (pg : Nat) (f : Fld) (n : Nat := 1) : Dev :=
  if d.on (L.PAGE_FREEZE pg) then d else d.satAdd f n

/-! ## Event sources (R44, R58) -/

/-- Mask of the EVT_LATCH bits that feed group `g` of a page with `n` sources: groups of 32/n bits. -/
def evGroupMask (n g : Nat) : Nat := (2 ^ (32 / n) - 1) * 2 ^ (32 / n * g)

/-- Level of the g-th source of page `pg`: any bit of its group set and enabled (R44). -/
def Dev.evLevel (d : Dev) (pg n g : Nat) : Bool :=
  (d.get (L.EVT_LATCH pg) &&& d.get (L.EVT_ENABLE pg) &&& evGroupMask n g) != 0

/-- Record in EV_FIRST that source `src` became active in this tick: the lowest source of the capture tick, and
SIMULTANEOUS when there is more than one (R58); a source that falls and rises again within the tick is one source. -/
def Dev.evRise (d : Dev) (src : Nat) : Dev :=
  if d.on R.EV_FIRST_VALID then
    if d.get L.EV_TICK = d.tick + 1 then
      if d.get R.EV_FIRST_SOURCE = src then d
      else d.setAll [(R.EV_FIRST_SIMULTANEOUS, 1), (R.EV_FIRST_SOURCE, min src (d.get R.EV_FIRST_SOURCE))]
    else d
  else
    d.setAll [(R.EV_FIRST_VALID, 1), (R.EV_FIRST_SIMULTANEOUS, 0), (R.EV_FIRST_SOURCE, src),
      (R.EV_FIRST_TIME_SEC, secOf d.tickTime), (R.EV_FIRST_TIME_NS, nsOf d.tickTime), (R.EV_FIRST_TIME_FRAC, 0),
      (L.EV_TICK, d.tick + 1)]

/-- The sources of page `pg` that are active now and were not before, recorded lowest first. -/
def evRises (before : Dev) (pg first n : Nat) : Nat → Dev → Dev
  | 0, d => d
  | k + 1, d =>
    let g := n - (k + 1)
    let d := if d.evLevel pg n g && !before.evLevel pg n g then d.evRise (first + g) else d
    evRises before pg first n k d

/-- Evaluate the sources of page `pg` after its latch or enable bits changed from what they were in `before`. -/
def Dev.evEval (d before : Dev) (pg : Nat) : Dev :=
  match pageInfo pg with
  | some p => if p.nEv = 0 then d else evRises before pg p.firstEv p.nEv p.nEv d
  | none => d

/-! ## Slots that serve a port (R132, R134) -/

/-- Width in lanes of the port of slot `j` under an octet mode; 0 when the slot serves none (R132). -/
def modeWidth (mode j : Nat) : Nat :=
  let lower := if mode = 1 ∨ mode = 5 then 1 else if mode = 2 ∨ mode = 7 then 2 else if mode = 3 ∨ mode = 6 ∨ mode = 8 then 4
    else if mode = 4 then 8 else 0
  let upper := if mode = 1 ∨ mode = 6 then 1 else if mode = 2 ∨ mode = 8 then 2 else if mode = 3 ∨ mode = 5 ∨ mode = 7 then 4 else 0
  let w := if j < 4 then lower else upper
  if w = 0 then 0 else if w = 8 then (if j = 0 then 8 else 0) else if j % 4 % w = 0 then w else 0

/-- Mode of the octet of port `p`. -/
def octMode (d : Dev) (p : Nat) : Nat := d.get (R.OCT_PORT_MODE_MODE (p / 8))
/-- Width of port `p`; 0 when its slot serves no port. -/
def portWidth (d : Dev) (p : Nat) : Nat := modeWidth (octMode d p) (p % 8)
/-- Does the slot of port `p` serve a port? -/
def served (d : Dev) (p : Nat) : Bool := portWidth d p != 0
/-! ## The event latch (R43) -/

/-- First-event capture of page `pg` for bit `b` set in this tick. -/
def Dev.evtCapture (d : Dev) (pg b : Nat) : Dev :=
  if d.on (L.EVT_FIRST_VALID pg) then
    if d.get (L.EVT_TICK pg) = d.tick + 1 then
      if d.get (L.EVT_FIRST_BIT pg) = b then d
      else d.setAll [(L.EVT_FIRST_SIM pg, 1), (L.EVT_FIRST_BIT pg, min b (d.get (L.EVT_FIRST_BIT pg)))]
    else d
  else
    d.setAll [(L.EVT_FIRST_VALID pg, 1), (L.EVT_FIRST_SIM pg, 0), (L.EVT_FIRST_BIT pg, b),
      (L.EVT_FIRST_SEC pg, secOf d.tickTime), (L.EVT_FIRST_NS pg, nsOf d.tickTime), (L.EVT_TICK pg, d.tick + 1)]

/-- The page has event bit `b` now: the bits of a port slot that serves no port read zero (R134, R162). -/
def evtBitServed (d : Dev) (pg b : Nat) : Bool := !(decide (0x30 ≤ pg) && decide (pg ≤ 0x4F)) || served d (8 * (pg - 0x30) + b / 4)

/-- Event conditions of page `pg` that have risen in the current tick, a mask of its event bits (R42). -/
def evtLive (d : Dev) (pg : Nat) : Nat := if d.get (L.EVT_LIVE_TICK pg) = d.tick + 1 then d.get (L.EVT_LIVE pg) else 0

/-- Event bit `b` of page `pg` latches in this tick: the page and the event controller make their first-event captures, and the
rise is remembered so that a clear in the same tick leaves the bit set (R43). -/
def Dev.latchBit (d : Dev) (pg b : Nat) : Dev :=
  if evtBitServed d pg b then
    let d1 := (d.set (L.EVT_LATCH pg) (d.get (L.EVT_LATCH pg) ||| 2 ^ b)).set (L.EVT_RISE_TICK pg b) (d.tick + 1)
    (d1.evtCapture pg b).evEval d pg
  else d

/-- The condition of event bit `b` of page `pg` is sampled rising in this tick: EVT_RAW shows it and the bit latches (R42, R43). -/
def Dev.latch (d : Dev) (pg b : Nat) : Dev :=
  (d.setAll [(L.EVT_LIVE pg, evtLive d pg ||| 2 ^ b), (L.EVT_LIVE_TICK pg, d.tick + 1)]).latchBit pg b

/-- Latch when a condition holds. -/
def Dev.latchIf (d : Dev) (c : Bool) (pg b : Nat) : Dev := if c then d.latch pg b else d

/-- Latch every bit of a mask, lowest first, with no condition behind it. -/
def Dev.latchMask (d : Dev) (pg mask : Nat) : Nat → Dev
  | 0 => d
  | k + 1 => let e := Dev.latchMask d pg mask k; if bitAt mask k then e.latchBit pg k else e

/-! ## Alarms -/

/-- A detector or a block reports the condition of ALn: it is sampled at the next tick (R386, R393). -/
def Dev.alarm (d : Dev) (n : Nat) : Dev := d.set L.AL_PULSE (d.get L.AL_PULSE ||| 2 ^ n)

/-- The condition of ALn holds, or no longer holds, as a level. -/
def Dev.alarmLevel (d : Dev) (n : Nat) (b : Bool) : Dev :=
  let v := d.get L.AL_LEVEL
  d.set L.AL_LEVEL (if b then v ||| 2 ^ n else if bitAt v n then v - 2 ^ n else v)

/-! ## Status codes (R57) -/

def codeIdle : Nat := 0x00
def codeQueued : Nat := 0x01
def codeRunning : Nat := 0x02
def codeOk : Nat := 0x10
def codeConsumed : Nat := 0x11
def codeArg : Nat := 0x20
def codeState : Nat := 0x21
def codePresence : Nat := 0x22
def codeSlotBusy : Nat := 0x23
def codeKeyGone : Nat := 0x24
def codeUseExhausted : Nat := 0x25
def codeAttr : Nat := 0x26
def codeSaInService : Nat := 0x27
def codePower : Nat := 0x28
def codeAbortedAlarm : Nat := 0x29
def codeIntegrity : Nat := 0x2A

/-- A code that ends a command (R57). -/
def terminal (c : Nat) : Bool := decide (0x10 ≤ c)

/-! ## Lists -/

/-- Apply an indexed change for 0, 1, …, n - 1 in turn. -/
def Dev.each (d : Dev) (n : Nat) (f : Nat → Dev → Dev) : Dev :=
  match n with
  | 0 => d
  | k + 1 => f k (Dev.each d k f)

/-- Number of indices below `n` for which a test holds. -/
def countBelow (p : Nat → Bool) : Nat → Nat
  | 0 => 0
  | k + 1 => countBelow p k + b2n (p k)

/-- Sum of `g` over the indices below `n`. -/
def sumBelow (g : Nat → Nat) : Nat → Nat
  | 0 => 0
  | k + 1 => sumBelow g k + g k

/-- Least index below `n` for which a test holds. -/
def findBelow (p : Nat → Bool) (n : Nat) : Option Nat := (List.range n).find? p

/-- Does the test hold at every index below `n`? -/
def allBelow (p : Nat → Bool) : Nat → Bool
  | 0 => true
  | k + 1 => allBelow p k && p k

end Sys2Proof.Machine
end

