-- ==== Sys2Proof/Machine/Events.lean ====
section
/-! DEFINITION. Which pages respond, the event registers of the page header (R42 to R44), the event controller with its
MSI-X vectors (R58, R59), the anchors (R61, R62), and the host events that touch only these. -/

namespace Sys2Proof.Machine

/-! ## Which pages respond (R34, R36, R488) -/

/-- The run states in which only five pages respond (R36). -/
def RunState.stopped : RunState → Bool
  | .halted => true
  | .zeroized => true
  | .alarmHold => true
  | .booting => false
  | .active => false
  | .contained => false

/-- Does page `pg` respond to reads and writes? It is implemented, the run state lets it respond (R36), the switch island
is on for pages 0x70 to 0x87 (R488), and the main domain is powered (R39). -/
def pageResponds (run : RunState) (power : PowerState) (pg : Nat) : Bool :=
  (pageInfo pg).isSome &&
  (!run.stopped || pg == 0x00 || pg == 0x01 || pg == 0x06 || pg == 0x07 || pg == 0x0D) &&
  (match power with
   | .baseCampOnly => false
   | .standby => !(decide (0x70 ≤ pg) && decide (pg ≤ 0x87))
   | .active => true)

/-- The page responds in this state. -/
def State.live (s : State) (pg : Nat) : Bool := pageResponds s.run s.power pg

/-- A write reaches a page that responds. -/
def State.page (s : State) (pg : Nat) (f : Dev → Dev) : Host.Outcome State Fault Refusal :=
  .next (if s.live pg then s.setDev (f s.d) else s)
/-- Something happens in the main domain, which has power outside BASE_CAMP_ONLY. -/
def State.inPower (s : State) (f : Dev → Dev) : Host.Outcome State Fault Refusal :=
  .next (if s.power = .baseCampOnly then s else s.setDev (f s.d))

/-! ## What moves in the main domain -/

/-- Nothing of the main domain moves: a stopped run state (R22, R107), a zeroization during BOOTING (R395), or no main power. -/
def State.frozen (s : State) : Bool :=
  s.run.stopped || s.power == .baseCampOnly || s.d.on L.ZERO_KEYS || s.d.on L.ZERO_MEM
/-- An event of the main domain happens, unless nothing moves there. -/
def State.lanes (s : State) (f : Dev → Dev) : Host.Outcome State Fault Refusal :=
  .next (if s.frozen then s else s.setDev (f s.d))

/-! ## Page event registers -/

/-- Bits of EVT_LATCH of page `pg` that rose in the current tick, among the low `k` (R43). -/
def risenNow (d : Dev) (pg : Nat) : Nat → Nat
  | 0 => 0
  | k + 1 => risenNow d pg k + (if d.get (L.EVT_RISE_TICK pg k) = d.tick + 1 then 2 ^ k else 0)

/-- A write of ones to EVT_LATCH: a bit that rose in this tick stays set (R43). -/
def evtLatchClear (d : Dev) (pg bits : Nat) : Dev :=
  let keep := risenNow d pg 32
  let v := d.get (L.EVT_LATCH pg)
  let gone := v &&& bits &&& (v ^^^ (v &&& keep))
  (d.set (L.EVT_LATCH pg) (v ^^^ gone)).evEval d pg

/-- Ones written to EVT_FORCE act: they set the latch bits that the page uses (R42, R43). -/
def evtForce (d : Dev) (pg bits : Nat) : Dev := d.latchMask pg (bits &&& evtMask pg) 32

/-- A write of 1 to EVT_FIRST.VALID rearms the page's capture (R43); SIMULTANEOUS clears with it. -/
def evtFirstRearm (d : Dev) (pg : Nat) : Dev := d.setAll [(L.EVT_FIRST_VALID pg, 0), (L.EVT_FIRST_SIM pg, 0)]

/-- A write of EVT_ENABLE: the sources follow at once (R44). -/
def evtEnableWrite (d : Dev) (pg v : Nat) : Dev := (d.set (L.EVT_ENABLE pg) v).evEval d pg

/-- A write of 1 to EV_FIRST.VALID rearms the controller's capture (R58). -/
def evFirstRearm (d : Dev) : Dev := d.setAll [(R.EV_FIRST_VALID, 0), (R.EV_FIRST_SIMULTANEOUS, 0)]

/-! ## Sources and vectors -/

/-- RINGn has a pending completion while HEAD differs from ACK (R347). -/
def ringPending (d : Dev) (n : Nat) : Bool := d.get (R.RINGST_HEAD n) != d.get (R.RING_ACK n)

/-- Level of source EVn (R44). -/
def sourceLevel (d : Dev) (n : Nat) : Bool :=
  match sourcePage n with
  | some (pg, g) =>
    match pageInfo pg with
    | some p => d.evLevel pg p.nEv g
    | none => false
  | none => decide (496 ≤ n) && decide (n < 512) && (List.range 8).any fun j => ringPending d (8 * (n - 496) + j)

/-- EV_ACTIVE(w): the levels of 32 sources (R57 table). -/
def evActiveWord (d : Dev) (w : Nat) : Nat := sumBelow (fun b => if sourceLevel d (32 * w + b) then 2 ^ b else 0) 32

/-- Evaluate ring source of ring `n` after its HEAD or ACK changed from what they were in `before` (R44, R58). -/
def ringEval (d before : Dev) (n : Nat) : Dev :=
  let src := 496 + n / 8
  if sourceLevel d src && !sourceLevel before src then d.evRise src else d

/-- Sources with TO_HOST set; the store lists them, because the bit resets to 0. -/
def toHostSources (d : Dev) : List Nat :=
  let k0 := (R.EV_CFG_TO_HOST 0).key
  d.cells.filterMap fun p =>
    if k0 ≤ p.1 ∧ p.1 ≤ (R.EV_CFG_TO_HOST 511).key ∧ (p.1 - k0) % 256 = 0 then some ((p.1 - k0) / 256) else none

/-- A source with TO_HOST and VECTOR = v is active (R59). -/
def vectorActive (d : Dev) (v : Nat) : Bool :=
  (toHostSources d).any fun n => d.on (R.EV_CFG_TO_HOST n) && d.get (R.EV_CFG_VECTOR n) == v && sourceLevel d n

/-- The masks withhold vector `v` (R59; PCIe MSI-X rules). -/
def vectorMasked (d : Dev) (v : Nat) : Bool := d.on L.MSIX_FMASK || d.on (L.MSIX_MASK v)

/-- Set or clear bit `v` of a field. -/
def Dev.setBit (d : Dev) (f : Fld) (v : Nat) (b : Bool) : Dev :=
  let x := d.get f
  d.set f (if b then x ||| 2 ^ v else if bitAt x v then x - 2 ^ v else x)

/-- Send the message of vector `v`. -/
def msixMessage (d : Dev) (v : Nat) : Dev := d.emit (.msix v (d.get (L.MSIX_ADDR v)) (d.get (L.MSIX_DATA v)))

/-- Vector `v` was acknowledged in this tick, so its next message waits for the following one (R59). -/
def ackedNow (d : Dev) (v : Nat) : Bool := d.get (L.VEC_ACK_TICK v) == d.tick + 1

/-- One tick's evaluation of vector `v` (R59). -/
def msixEval (d : Dev) (v : Nat) : Dev :=
  if bitAt (d.get L.MSIX_PENDING) v then
    if !vectorMasked d v then ((msixMessage d v).setBit L.MSIX_PENDING v false).setBit R.VEC_SENT v true
    else if vectorActive d v then d
    else (d.setBit L.MSIX_PENDING v false).setBit R.VEC_SENT v false
  else if !bitAt (d.get R.VEC_SENT) v && !ackedNow d v && vectorActive d v then
    let d := d.setBit R.VEC_SENT v true
    if vectorMasked d v then d.setBit L.MSIX_PENDING v true else msixMessage d v
  else d

/-- Evaluate the vectors whose pending bit is set, after a mask changed. -/
def msixPendingEval (d : Dev) : Dev := d.each 64 fun v d => if bitAt (d.get L.MSIX_PENDING) v then msixEval d v else d

/-- The evaluation of every vector that a tick makes (R59). -/
def msixTick (d : Dev) : Dev := d.each 64 fun v d => msixEval d v

/-- A write of ones to VEC_SENT (one of its two words): the vectors are acknowledged (R59). -/
def vecSentAck (d : Dev) (half bits : Nat) : Dev :=
  let m := (bits * 2 ^ (32 * half)) &&& d.get R.VEC_SENT
  (d.set R.VEC_SENT (d.get R.VEC_SENT ^^^ m)).each 32 fun j d =>
    if bitAt m (32 * half + j) then d.set (L.VEC_ACK_TICK (32 * half + j)) (d.tick + 1) else d

/-! ## Anchors (R61, R62) -/

/-- Anchor group `g` is anchored. -/
def anchored (anchors : BitVec 10) (g : Nat) : Bool := anchors.toNat.testBit g

/-- The anchors after ones are written to ANCHOR_STATUS of page `pg`, bits below `k` (R61). -/
def anchorSet (a : BitVec 10) (pg bits : Nat) : Nat → BitVec 10
  | 0 => a
  | k + 1 =>
    let a := anchorSet a pg bits k
    match anchorGroup pg k with
    | some g => if bitAt bits k then a ||| (1#10 <<< g.val) else a
    | none => a

/-- ANCHOR_STATUS as read on page `pg` (R42). -/
def anchorStatusWord (a : BitVec 10) (pg : Nat) : Nat :=
  let bit (k : Nat) : Nat := match anchorGroup pg k with
    | some g => if anchored a g then 2 ^ k else 0
    | none => 0
  let all := allBelow (fun k => match anchorGroup pg k with
    | some g => anchored a g
    | none => true) 8
  match pageInfo pg with
  | some p => if p.anchor then sumBelow bit 8 + (if all then 2 ^ 31 else 0) else 0
  | none => 0

/-- A write that would have changed an anchored field: counted, and event bit 0 of page 0x00 (R62). -/
def anchoredWrite (d : Dev) : Dev := (d.count 0 R.ANCHORED_WRITES).latch 0 0

/-- Write an RWA field: when its group is anchored the field keeps its value, and a difference counts (R62). -/
def rwaWrite (a : BitVec 10) (g : Nat) (f : Fld) (v : Nat) (d : Dev) : Dev :=
  if anchored a g then (if v % 2 ^ f.w = d.get f then d else anchoredWrite d) else d.set f v

/-! ## The commands -/

/-- ANCHOR_WRITE (R61). -/
def execAnchorWrite (pg : Fin 256) (bits : BitVec 8) (s : State) : Host.Outcome State Fault Refusal :=
  .next (if s.live pg then { s with anchors := anchorSet s.anchors pg bits.toNat 8 } else s)
/-- EVT_LATCH_CLEAR (R43). -/
def execEvtLatchClear (pg : Fin 256) (bits : Word) (s : State) : Host.Outcome State Fault Refusal :=
  .next (s.setDev (if s.live pg then evtLatchClear s.d pg bits.toNat else s.d))
/-- EVT_FORCE (R42, R43): the bits set on the next tick. -/
def execEvtForce (pg : Fin 256) (bits : Word) (s : State) : Host.Outcome State Fault Refusal :=
  .next (s.setDev (if s.live pg then s.d.post (.evtForce pg bits.toNat) else s.d))
/-- EVT_FIRST_REARM (R43). -/
def execEvtFirstRearm (pg : Fin 256) (s : State) : Host.Outcome State Fault Refusal :=
  .next (s.setDev (if s.live pg then evtFirstRearm s.d pg else s.d))
/-- EV_FIRST_REARM (R58). -/
def execEvFirstRearm (s : State) : Host.Outcome State Fault Refusal :=
  .next (s.setDev (if s.live 1 then evFirstRearm s.d else s.d))
/-- MSIX_SEND (R59). -/
def execMsixSend (v : Fin 64) (s : State) : Host.Outcome State Fault Refusal := s.inPower fun d => msixEval d v
/-- VEC_SENT_ACK (R59). -/
def execVecSentAck (half : Fin 2) (bits : Word) (s : State) : Host.Outcome State Fault Refusal :=
  .next (s.setDev (if s.live 1 then vecSentAck s.d half bits.toNat else s.d))
/-- MSIX_MASK_WRITE (R59): `none` writes the function mask. -/
def execMsixMaskWrite (vector : Option (Fin 64)) (mask : Bool) (s : State) : Host.Outcome State Fault Refusal :=
  s.inPower fun d => match vector with
    | some v => msixPendingEval (d.setB (L.MSIX_MASK v) mask)
    | none => msixPendingEval (d.setB L.MSIX_FMASK mask)
/-- BUS_MASTER_DISABLE (R31). -/
def execBusMasterDisable (s : State) : Host.Outcome State Fault Refusal := s.inPower fun d => d.set L.PCI_BM_OFF 1
/-- D3HOT_ENTRY (R31). -/
def execD3hotEntry (s : State) : Host.Outcome State Fault Refusal := s.inPower fun d => d.set L.PCI_D3HOT 1

end Sys2Proof.Machine
end

