-- ==== Sys2Proof/Machine/Crypto.lean ====
section
/-! DEFINITION. The cryptographic functions the spec names by their standards: AES (FIPS 197), GCM (SP 800-38D), CMAC
(SP 800-38B), the AES key wrap (RFC 3394), SHA-384 and HMAC (FIPS 180-4, FIPS 198-1), the counter-mode KDF (SP 800-108),
CTR_DRBG (SP 800-90A), XTS (IEEE 1619), ECDSA over P-384 (FIPS 186-5), and the CRC-32 of IEEE 802.3. Blocks are natural
numbers whose most significant byte is the first byte of the string. -/

namespace Sys2Proof.Machine.Crypto

/-! ## Strings and numbers -/

/-- Bytes of a string as naturals. -/
def bytesOf (bs : List Byte) : List Nat := bs.map BitVec.toNat

/-- A number of `n` bytes as a byte string, first byte most significant. -/
def be (n v : Nat) : List Byte := beBytes n v

/-- Cut a string into chunks of `n` bytes, the last one possibly shorter; `fuel` bounds the number of chunks. -/
def chunks (n : Nat) : Nat → List Byte → List (List Byte)
  | 0, _ => []
  | fuel + 1, bs => if bs.isEmpty then [] else bs.take n :: chunks n fuel (bs.drop n)

/-- Chunks of `n` bytes of a whole string. -/
def chunked (n : Nat) (bs : List Byte) : List (List Byte) := chunks n (bs.length + 1) bs

/-- A string padded with zeros to `n` bytes. -/
def padTo (n : Nat) (bs : List Byte) : List Byte := bs ++ List.replicate (n - bs.length) 0

/-! ## AES (FIPS 197) -/

/-- The S-box as one number, byte 0 lowest. -/
def sboxWord : Nat :=
  0x16bb54b00f2d99416842e6bf0d89a18cdf2855cee9871e9b948ed9691198f8e19e1dc186b95735610ef6034866b53e708a8bbd4b1f74dde8c6b4a61c2e2578ba08ae7a65eaf4566ca94ed58d6d37c8e779e4959162acd3c25c2406490a3a32e0db0b5ede14b8ee4688902a22dc4f816073195d643d7ea7c41744975fec130ccdd2f3ff1021dab6bcf5389d928f40a351a89f3c507f02f94585334d43fbaaefd0cf584c4a39becb6a5bb1fc20ed00d153842fe329b3d63b52a05a6e1b1a2c830975b227ebe28012079a059618c323c7041531d871f1e5a534ccf73f362693fdb7c072a49cafa2d4adf04759fa7dc982ca76abd7fe2b670130c56f6bf27b777c63

/-- The inverse S-box as one number, byte 0 lowest. -/
def invSboxWord : Nat :=
  0x7d0c2155631469e126d677ba7e042b17619953833cbbebc8b0f52aae4d3be0a0ef9cc9939f7ae52d0d4ab519a97f51605fec8027591012b131c7078833a8dd1ff45acd78fec0db9a2079d2c64b3e56fc1bbe18aa0e62b76f89c5291d711af1476edf751ce837f9e28535ade72274ac9673e6b4f0cecff297eadc674f4111913a6b8a130103bdafc1020f3fca8f1e2cd00645b3b80558e4f70ad3bc8c00abd890849d8da75746155edab9edfd5048706c92b6655dcc5ca4d41698688664f6f87225d18b6d49a25b76b224d92866a12e084ec3fa420b954cee3d23c2a632947b54cbe9dec444438e3487ff2f9b8239e37cfbd7f3819ea340bf38a53630d56a0952

def sub (b : Nat) : Nat := sboxWord / 2 ^ (8 * b) % 256
def invSub (b : Nat) : Nat := invSboxWord / 2 ^ (8 * b) % 256

/-- Multiplication by x in GF(2^8). -/
def xtime (b : Nat) : Nat := if b < 128 then 2 * b else (2 * b) % 256 ^^^ 0x1B

/-- Multiplication in GF(2^8), `k` bits of the second factor. -/
def gmul : Nat → Nat → Nat → Nat
  | 0, _, _ => 0
  | k + 1, a, b => (if b % 2 = 1 then a else 0) ^^^ gmul k (xtime a) (b / 2)

/-- Byte `i` of a block, counted from the first. -/
def byteAt (x i : Nat) : Nat := x / 2 ^ (8 * (15 - i)) % 256

/-- A block from its 16 bytes. -/
def blockOf (f : Nat → Nat) : Nat := (List.range 16).foldl (fun a i => a * 256 + f i) 0

def subBytes (x : Nat) : Nat := blockOf fun i => sub (byteAt x i)
def invSubBytes (x : Nat) : Nat := blockOf fun i => invSub (byteAt x i)
def shiftRows (x : Nat) : Nat := blockOf fun i => byteAt x ((i + 4 * (i % 4)) % 16)
def invShiftRows (x : Nat) : Nat := blockOf fun i => byteAt x ((i + 12 * (i % 4)) % 16)
/-- One byte of a column under MixColumns with the coefficients `k`, of `n` bits each. -/
def mixByte (x i n : Nat) (k : Nat → Nat) : Nat :=
  let c := 4 * (i / 4)
  let r := i % 4
  (List.range 4).foldl (fun a j => a ^^^ gmul n (byteAt x (c + (r + j) % 4)) (k j)) 0
def mixColumns (x : Nat) : Nat := blockOf fun i => mixByte x i 2 fun j => if j = 0 then 2 else if j = 1 then 3 else 1
def invMixColumns (x : Nat) : Nat :=
  blockOf fun i => mixByte x i 4 fun j => if j = 0 then 14 else if j = 1 then 11 else if j = 2 then 13 else 9

/-- SubWord and RotWord of the key schedule. -/
def subWord (w : Nat) : Nat :=
  sub (w / 2 ^ 24 % 256) * 2 ^ 24 + sub (w / 2 ^ 16 % 256) * 2 ^ 16 + sub (w / 2 ^ 8 % 256) * 2 ^ 8 + sub (w % 256)
def rotWord (w : Nat) : Nat := (w % 2 ^ 24) * 256 + w / 2 ^ 24

/-- Words of the key schedule, newest first: `nk` key words, `i` the index of the next word. -/
def expandFrom (nk : Nat) : Nat → Nat → Nat → List Nat → List Nat
  | 0, _, _, ws => ws
  | fuel + 1, i, rcon, ws =>
    let prev := ws.headD 0
    let back := ws.getD (nk - 1) 0
    let t := if i % nk = 0 then subWord (rotWord prev) ^^^ (rcon * 2 ^ 24)
      else if 6 < nk ∧ i % nk = 4 then subWord prev else prev
    expandFrom nk fuel (i + 1) (if i % nk = 0 then xtime rcon else rcon) ((back ^^^ t) :: ws)

/-- Round keys of an AES key of `klen` bytes (16 or 32), in order. -/
def roundKeys (klen key : Nat) : List Nat :=
  let nk := klen / 4
  let total := 4 * (nk + 7)
  let w0 := ((List.range nk).map fun i => key / 2 ^ (32 * (nk - 1 - i)) % 2 ^ 32).reverse
  let ws := (expandFrom nk (total - nk) nk 1 w0).reverse
  (List.range (nk + 7)).map fun r =>
    (List.range 4).foldl (fun a j => a * 2 ^ 32 + ws.getD (4 * r + j) 0) 0

/-- The middle and last rounds of the cipher. -/
def encRounds : List Nat → Nat → Nat
  | [], x => x
  | [k], x => shiftRows (subBytes x) ^^^ k
  | k :: r, x => encRounds r (mixColumns (shiftRows (subBytes x)) ^^^ k)

/-- The rounds of the inverse cipher; the keys run backwards. -/
def decRounds : List Nat → Nat → Nat
  | [], x => x
  | [k], x => invSubBytes (invShiftRows x) ^^^ k
  | k :: r, x => decRounds r (invMixColumns (invSubBytes (invShiftRows x) ^^^ k))

/-- AES encryption of a block with round keys. -/
def encBlock (rk : List Nat) (x : Nat) : Nat :=
  match rk with
  | [] => x
  | k :: r => encRounds r (x ^^^ k)

/-- AES decryption of a block with round keys. -/
def decBlock (rk : List Nat) (x : Nat) : Nat :=
  match rk.reverse with
  | [] => x
  | k :: r => decRounds r (x ^^^ k)

/-- AES of one block with a key of `klen` bytes. -/
def aes (klen key x : Nat) : Nat := encBlock (roundKeys klen key) x

/-! ## GCM (SP 800-38D) -/

/-- Multiplication in GF(2^128) with the bit order of GCM; `k` bits of `x` remain, most significant first. -/
def ghashMulFrom : Nat → Nat → Nat → Nat → Nat
  | 0, _, _, z => z
  | k + 1, x, v, z =>
    let z := if x / 2 ^ k % 2 = 1 then z ^^^ v else z
    ghashMulFrom k x (if v % 2 = 1 then (v / 2) ^^^ (0xE1 * 2 ^ 120) else v / 2) z

/-- The product of two elements. -/
def ghashMul (x y : Nat) : Nat := ghashMulFrom 128 x y 0

/-- GHASH of a sequence of blocks. -/
def ghash (h : Nat) (xs : List Nat) : Nat := xs.foldl (fun y x => ghashMul (y ^^^ x) h) 0

/-- Blocks of a string, the last padded with zeros. -/
def blocks (bs : List Byte) : List Nat := (chunked 16 bs).map fun c => beVal (padTo 16 c)

/-- The counter block after `x`: the low 32 bits count. -/
def inc32 (x : Nat) : Nat := x / 2 ^ 32 * 2 ^ 32 + (x + 1) % 2 ^ 32

/-- Counter-mode transform of a string, from counter block `c`. -/
def ctrFrom (rk : List Nat) : Nat → List (List Byte) → List Byte
  | _, [] => []
  | c, b :: r => List.zipWith (fun x y => x ^^^ y) b (be 16 (encBlock rk c)) ++ ctrFrom rk (inc32 c) r

/-- Counter-mode transform with the counter after `j0`. -/
def gctr (rk : List Nat) (j0 : Nat) (bs : List Byte) : List Byte := ctrFrom rk (inc32 j0) (chunked 16 bs)

/-- The GCM tag over associated data and ciphertext, for a 96-bit IV. -/
def gcmTag (rk : List Nat) (iv : Nat) (aad ct : List Byte) : Nat :=
  let h := encBlock rk 0
  let j0 := iv * 2 ^ 32 + 1
  ghash h (blocks aad ++ blocks ct ++ [aad.length * 8 * 2 ^ 64 + ct.length * 8]) ^^^ encBlock rk j0

/-- Authenticated encryption: ciphertext and tag. -/
def gcmSeal (klen key iv : Nat) (aad pt : List Byte) : List Byte × Nat :=
  let rk := roundKeys klen key
  let ct := gctr rk (iv * 2 ^ 32 + 1) pt
  (ct, gcmTag rk iv aad ct)

/-- Authenticated decryption: plaintext and whether the tag agrees. -/
def gcmOpen (klen key iv : Nat) (aad ct : List Byte) (tag : Nat) : List Byte × Bool :=
  let rk := roundKeys klen key
  (gctr rk (iv * 2 ^ 32 + 1) ct, gcmTag rk iv aad ct == tag)

/-! ## CMAC (SP 800-38B) -/

/-- Doubling in GF(2^128) with the bit order of CMAC. -/
def dbl (x : Nat) : Nat := if x / 2 ^ 127 % 2 = 1 then (2 * x) % 2 ^ 128 ^^^ 0x87 else (2 * x) % 2 ^ 128

/-- CMAC of a message. -/
def cmac (klen key : Nat) (m : List Byte) : Nat :=
  let rk := roundKeys klen key
  let k1 := dbl (encBlock rk 0)
  let k2 := dbl k1
  let cs := chunked 16 m
  let init := cs.dropLast
  let last := cs.getLastD []
  let x := init.foldl (fun c b => encBlock rk (c ^^^ beVal b)) 0
  let m := if last.length = 16 then beVal last ^^^ k1 else beVal (padTo 16 (last ++ [0x80])) ^^^ k2
  encBlock rk (x ^^^ m)

/-- One full block that is not the last of a CMAC message enters the chain. -/
def cmacAbsorb (klen key x b : Nat) : Nat := encBlock (roundKeys klen key) (x ^^^ b)

/-- The CMAC from the chain value and the last 0 to 16 bytes. -/
def cmacFinish (klen key x : Nat) (last : List Byte) : Nat :=
  let rk := roundKeys klen key
  let k1 := dbl (encBlock rk 0)
  encBlock rk (x ^^^ (if last.length = 16 then beVal last ^^^ k1 else beVal (padTo 16 (last ++ [0x80])) ^^^ dbl k1))

/-- Key derivation in counter mode (SP 800-108): `n` blocks of the PRF over a counter of `r` bytes and the fixed input. -/
def kdfBlocks (prf : List Byte → List Byte) (r : Nat) (fixed : List Byte) (n : Nat) : List Byte :=
  ((List.range n).map fun i => prf (be r (i + 1) ++ fixed)).flatten

/-- SP 800-108 with CMAC: `bits` of output. -/
def kdfCmac (klen key r lenBytes : Nat) (label context : List Byte) (bits : Nat) : List Byte :=
  (kdfBlocks (fun m => be 16 (cmac klen key m)) r (label ++ [0] ++ context ++ be lenBytes bits) ((bits + 127) / 128)).take (bits / 8)

/-! ## Key wrap (RFC 3394) -/

def wrapIv : Nat := 0xA6A6A6A6A6A6A6A6

/-- One pass of the wrap over the semiblocks. -/
def wrapPass (rk : List Nat) (n j : Nat) : Nat → Nat → List Nat → List Nat → Nat × List Nat
  | _, a, [], acc => (a, acc.reverse)
  | i, a, r :: rest, acc =>
    let b := encBlock rk (a * 2 ^ 64 + r)
    wrapPass rk n j (i + 1) (b / 2 ^ 64 ^^^ (n * j + i)) rest (b % 2 ^ 64 :: acc)

/-- The six passes. -/
def wrapPasses (rk : List Nat) (n : Nat) : Nat → Nat → Nat → List Nat → Nat × List Nat
  | 0, _, a, rs => (a, rs)
  | k + 1, j, a, rs => let p := wrapPass rk n j 1 a rs []; wrapPasses rk n k (j + 1) p.1 p.2

/-- Wrap key data, a whole number of 8-byte semiblocks. -/
def keyWrap (klen kek : Nat) (data : List Byte) : List Byte :=
  let rs := (chunked 8 data).map beVal
  let p := wrapPasses (roundKeys klen kek) rs.length 6 0 wrapIv rs
  be 8 p.1 ++ (p.2.map (be 8)).flatten

/-- One pass of the unwrap; the semiblocks run backwards. -/
def unwrapPass (rk : List Nat) (n j : Nat) : Nat → Nat → List Nat → List Nat → Nat × List Nat
  | _, a, [], acc => (a, acc)
  | i, a, r :: rest, acc =>
    let b := decBlock rk ((a ^^^ (n * j + i)) * 2 ^ 64 + r)
    unwrapPass rk n j (i - 1) (b / 2 ^ 64) rest (b % 2 ^ 64 :: acc)

/-- The six passes, last first. -/
def unwrapPasses (rk : List Nat) (n : Nat) : Nat → Nat → List Nat → Nat × List Nat
  | 0, a, rs => (a, rs)
  | k + 1, a, rs => let p := unwrapPass rk n k n a rs.reverse []; unwrapPasses rk n k p.1 p.2

/-- Unwrap; `none` when the integrity check value does not agree. -/
def keyUnwrap (klen kek : Nat) (data : List Byte) : Option (List Byte) :=
  match (chunked 8 data).map beVal with
  | [] => none
  | a :: rs =>
    let p := unwrapPasses (roundKeys klen kek) rs.length 6 a rs
    if p.1 = wrapIv then some ((p.2.map (be 8)).flatten) else none

/-! ## SHA-384, HMAC and the KDF -/

/-- Integer square and cube roots by bisection over `k` bits, for the constants of SHA-2. -/
def rootBits (pw n : Nat) : Nat → Nat → Nat
  | 0, r => r
  | k + 1, r => let t := r + 2 ^ k; rootBits pw n k (if t ^ pw ≤ n then t else r)

/-- No divisor of `n` in 2 … k + 1. -/
def noDivisor (n : Nat) : Nat → Bool
  | 0 => true
  | k + 1 => noDivisor n k && (n ≤ k + 2 || n % (k + 2) != 0)

/-- The first `n` primes, taken from the numbers below 420. -/
def primes (n : Nat) : List Nat := ((List.range 420).filter fun p => decide (2 ≤ p) && noDivisor p 20).take n

/-- The first 64 fraction bits of the cube root of a prime. -/
def shaK : List Nat := (primes 80).map fun p => rootBits 3 (p * 2 ^ 192) 68 0 % 2 ^ 64
/-- The initial hash value of SHA-384: fraction bits of the square roots of the ninth to sixteenth primes. -/
def sha384Init : List Nat := ((primes 16).drop 8).map fun p => rootBits 2 (p * 2 ^ 128) 70 0 % 2 ^ 64

def rotr64 (x n : Nat) : Nat := x / 2 ^ n + x % 2 ^ n * 2 ^ (64 - n)
def add64 (a b : Nat) : Nat := (a + b) % 2 ^ 64
def not64 (a : Nat) : Nat := 2 ^ 64 - 1 - a

/-- The message schedule, newest word first. -/
def shaSchedule : Nat → List Nat → List Nat
  | 0, ws => ws
  | k + 1, ws =>
    let w2 := ws.getD 1 0; let w15 := ws.getD 14 0
    let s0 := rotr64 w15 1 ^^^ rotr64 w15 8 ^^^ (w15 / 2 ^ 7)
    let s1 := rotr64 w2 19 ^^^ rotr64 w2 61 ^^^ (w2 / 2 ^ 6)
    shaSchedule k ((add64 (add64 (ws.getD 15 0) s0) (add64 (ws.getD 6 0) s1)) :: ws)

/-- One round on the working variables a … h. -/
def shaRound (v : List Nat) (kw : Nat) : List Nat :=
  match v with
  | [a, b, c, d, e, f, g, h] =>
    let t1 := add64 (add64 h (rotr64 e 14 ^^^ rotr64 e 18 ^^^ rotr64 e 41)) (add64 ((e &&& f) ^^^ (not64 e &&& g)) kw)
    let t2 := add64 (rotr64 a 28 ^^^ rotr64 a 34 ^^^ rotr64 a 39) ((a &&& b) ^^^ (a &&& c) ^^^ (b &&& c))
    [add64 t1 t2, a, b, c, add64 d t1, e, f, g]
  | _ => v

/-- Hash of one 128-byte block. -/
def shaBlock (ks : List Nat) (hs : List Nat) (b : List Byte) : List Nat :=
  let ws := (shaSchedule 64 (((chunked 8 b).map beVal).reverse)).reverse
  List.zipWith add64 hs ((List.zipWith add64 ks ws).foldl shaRound hs)

/-- SHA-384 of a message. -/
def sha384 (m : List Byte) : List Byte :=
  let z := (128 - (m.length + 17) % 128) % 128
  let padded := m ++ (0x80 :: List.replicate z 0) ++ be 16 (m.length * 8)
  let hs := (chunked 128 padded).foldl (shaBlock shaK) sha384Init
  ((hs.map (be 8)).flatten).take 48

/-- HMAC with SHA-384. -/
def hmac384 (key m : List Byte) : List Byte :=
  let k := padTo 128 (if 128 < key.length then sha384 key else key)
  sha384 ((k.map fun b => b ^^^ 0x5C) ++ sha384 ((k.map fun b => b ^^^ 0x36) ++ m))

/-- SP 800-108 with HMAC-SHA-384: `bits` of output. -/
def kdfHmac (key label context : List Byte) (bits : Nat) : List Byte :=
  (kdfBlocks (hmac384 key) 4 (label ++ [0] ++ context ++ be 4 bits) ((bits + 383) / 384)).take (bits / 8)

/-! ## CTR_DRBG with AES-256 (SP 800-90A)

The derivation function turns entropy into 384 bits of seed material; the entropy is open, so the seed material is taken as
the open value. -/

/-- State of an instance: key and V. -/
structure Drbg where
  key : Nat
  v : Nat
  deriving DecidableEq, Repr

/-- Blocks that follow V. -/
def drbgBlocks (rk : List Nat) : Nat → Nat → List Nat
  | 0, _ => []
  | n + 1, v => encBlock rk ((v + 1) % 2 ^ 128) :: drbgBlocks rk n ((v + 1) % 2 ^ 128)

/-- CTR_DRBG_Update with 384 bits of provided data. -/
def Drbg.update (g : Drbg) (data : Nat) : Drbg :=
  let t := (drbgBlocks (roundKeys 32 g.key) 3 g.v).foldl (fun a b => a * 2 ^ 128 + b) 0 ^^^ (data % 2 ^ 384)
  ⟨t / 2 ^ 128, t % 2 ^ 128⟩

/-- The chain of the derivation function over whole blocks (SP 800-90A, BCC). -/
def dfChain (rk : List Nat) (bs : List Byte) : Nat := (chunked 16 bs).foldl (fun c b => encBlock rk (c ^^^ beVal b)) 0

/-- The derivation function with AES-256 for 384 bits of output (SP 800-90A, Block_Cipher_df). -/
def blockCipherDf (input : List Byte) : Nat :=
  let s := be 4 input.length ++ be 4 48 ++ input ++ [0x80]
  let s := padTo ((s.length + 15) / 16 * 16) s
  let rk := roundKeys 32 (beVal ((List.range 32).map fun i => (BitVec.ofNat 8 i : Byte)))
  let t (i : Nat) : Nat := dfChain rk (padTo 16 (be 4 i) ++ s)
  let rk := roundKeys 32 (t 0 * 2 ^ 128 + t 1)
  let x := encBlock rk (t 2)
  let y := encBlock rk x
  x * 2 ^ 256 + y * 2 ^ 128 + encBlock rk y

/-- Instantiate from entropy and nonce, through the derivation function. -/
def Drbg.instantiate (input : List Byte) : Drbg := Drbg.update ⟨0, 0⟩ (blockCipherDf input)
/-- Reseed from fresh entropy, through the derivation function. -/
def Drbg.reseed (g : Drbg) (input : List Byte) : Drbg := g.update (blockCipherDf input)
/-- Generate `n` bytes. -/
def Drbg.generate (g : Drbg) (n : Nat) : List Byte × Drbg :=
  let k := (n + 15) / 16
  let out := ((drbgBlocks (roundKeys 32 g.key) k g.v).map (be 16)).flatten
  (out.take n, Drbg.update ⟨g.key, (g.v + k) % 2 ^ 128⟩ 0)

/-! ## XTS-AES-256 (IEEE 1619), whole blocks -/

/-- Multiplication by x of the little-endian tweak. -/
def xtsDbl (t : Nat) : Nat := if t / 2 ^ 127 % 2 = 1 then (2 * t) % 2 ^ 128 ^^^ 0x87 else (2 * t) % 2 ^ 128

/-- Transform the blocks of a data unit; `f` is the block cipher in the direction wanted. -/
def xtsFrom (f : Nat → Nat) : Nat → List (List Byte) → List Byte
  | _, [] => []
  | t, b :: r =>
    let tw := beVal (leBytes 16 t)
    be 16 (f (beVal b ^^^ tw) ^^^ tw) ++ xtsFrom f (xtsDbl t) r

/-- The first tweak of data unit `unit`. -/
def xtsTweak (key2 unit : Nat) : Nat := leVal (be 16 (encBlock (roundKeys 32 key2) (beVal (leBytes 16 unit))))
/-- Encrypt a data unit. -/
def xtsEnc (key1 key2 unit : Nat) (bs : List Byte) : List Byte :=
  xtsFrom (encBlock (roundKeys 32 key1)) (xtsTweak key2 unit) (chunked 16 bs)
/-- Decrypt a data unit. -/
def xtsDec (key1 key2 unit : Nat) (bs : List Byte) : List Byte :=
  xtsFrom (decBlock (roundKeys 32 key1)) (xtsTweak key2 unit) (chunked 16 bs)

/-! ## ECDSA over P-384 (FIPS 186-5) -/

def p384p : Nat := 2 ^ 384 - 2 ^ 128 - 2 ^ 96 + 2 ^ 32 - 1
def p384n : Nat := 0xffffffffffffffffffffffffffffffffffffffffffffffffc7634d81f4372ddf581a0db248b0a77aecec196accc52973
def p384b : Nat := 0xb3312fa7e23ee7e4988e056be3f82d19181d9c6efe8141120314088f5013875ac656398d8a2ed19d2a85c8edd3ec2aef
def p384gx : Nat := 0xaa87ca22be8b05378eb1c71ef320ad746e1d3b628ba79b9859f741e082542a385502f25dbf55296c3a545e3872760ab7
def p384gy : Nat := 0x3617de4a96262c6f5d9e98bf9292dc29f8f41dbd289a147ce9da3113b5f0b8c00a60b1ce1d7e819d7a431d7c90ea0e5f

/-- Power modulo `m` over `k` exponent bits, least significant first. -/
def powMod (m : Nat) : Nat → Nat → Nat → Nat → Nat
  | 0, _, _, acc => acc
  | k + 1, b, e, acc => powMod m k (b * b % m) (e / 2) (if e % 2 = 1 then acc * b % m else acc)

/-- Inverse modulo a prime. -/
def invMod (m a : Nat) : Nat := powMod m 384 (a % m) (m - 2) 1

/-- A point of the curve in Jacobian coordinates; Z = 0 is the point at infinity. -/
structure Pt where
  x : Nat
  y : Nat
  z : Nat

def subP (a b : Nat) : Nat := (a + p384p - b % p384p) % p384p

/-- Doubling. -/
def Pt.dbl (p : Pt) : Pt :=
  if p.z = 0 ∨ p.y = 0 then ⟨1, 1, 0⟩ else
  let d := p.z * p.z % p384p
  let g := p.y * p.y % p384p
  let b := p.x * g % p384p
  let a := 3 * subP p.x d * ((p.x + d) % p384p) % p384p
  let x := subP (a * a) (8 * b)
  ⟨x, subP (a * subP (4 * b) x) (8 * (g * g % p384p)), 2 * p.y * p.z % p384p⟩

/-- Addition. -/
def Pt.add (p q : Pt) : Pt :=
  if p.z = 0 then q else if q.z = 0 then p else
  let z1 := p.z * p.z % p384p
  let z2 := q.z * q.z % p384p
  let u1 := p.x * z2 % p384p
  let u2 := q.x * z1 % p384p
  let s1 := p.y * q.z * z2 % p384p
  let s2 := q.y * p.z * z1 % p384p
  if u1 = u2 then (if s1 = s2 then p.dbl else ⟨1, 1, 0⟩) else
  let h := subP u2 u1
  let r := subP s2 s1
  let h2 := h * h % p384p
  let h3 := h2 * h % p384p
  let v := u1 * h2 % p384p
  let x := subP (r * r) (h3 + 2 * v)
  ⟨x, subP (r * subP v x) (s1 * h3), h * p.z * q.z % p384p⟩

/-- Multiple of a point over `k` bits, most significant first. -/
def Pt.mul (p : Pt) (n : Nat) : Nat → Pt → Pt
  | 0, acc => acc
  | k + 1, acc => let a := acc.dbl; Pt.mul p n k (if n / 2 ^ k % 2 = 1 then a.add p else a)

/-- Is (x, y) a point of the curve? -/
def onCurve (x y : Nat) : Bool :=
  decide (x < p384p) && decide (y < p384p) && y * y % p384p == subP (x * x % p384p * x + p384b) (3 * x)

/-- Verify a signature (r, s) over a 384-bit digest. -/
def ecdsaVerify (qx qy : Nat) (digest : Nat) (r s : Nat) : Bool :=
  onCurve qx qy && decide (0 < r) && decide (r < p384n) && decide (0 < s) && decide (s < p384n) &&
  (let w := invMod p384n s
   let pt := (Pt.mul ⟨p384gx, p384gy, 1⟩ (digest * w % p384n) 384 ⟨1, 1, 0⟩).add
     (Pt.mul ⟨qx, qy, 1⟩ (r * w % p384n) 384 ⟨1, 1, 0⟩)
   pt.z != 0 && (pt.x * powMod p384p 384 (invMod p384p pt.z) 2 1 % p384p) % p384n == r % p384n)

/-! ## CRC-32 of IEEE 802.3 -/

/-- The CRC register after `k` shifts. -/
def crcShift : Nat → Nat → Nat
  | 0, c => c
  | k + 1, c => crcShift k (if c % 2 = 1 then (c / 2) ^^^ 0xEDB88320 else c / 2)

/-- The FCS of a frame as its four bytes in the order sent. -/
def fcs (bs : List Byte) : List Byte :=
  leBytes 4 (bs.foldl (fun c b => crcShift 8 (c ^^^ b.toNat)) 0xFFFFFFFF ^^^ 0xFFFFFFFF)

/-- The bitwise complement of a string. -/
def complement (bs : List Byte) : List Byte := bs.map fun b => ~~~b

end Sys2Proof.Machine.Crypto
end

