-- ==== Sys2Proof/Machine/MgCore.lean ====
section
/-! DEFINITION. The memory guard's lines: which range and right an address meets, the counters and the tree, the counter
cache, what a line looks like in DRAM, and reading and writing one line (R433 to R449). The rows are in MemGuard.lean. -/

namespace Sys2Proof.Machine

/-- Core address of DRAM offset 0 (R433). -/
def dramBase : Nat := 0x800000000
/-- Fitted DRAM in bytes. -/
def dramSize (d : Dev) : Nat := d.get R.MGMT_STATUS_DRAM_GIB * 2 ^ 30

/-- RANGE_STATUS.STATE codes (R453). -/
def rangeOff : Nat := 0
def rangePending : Nat := 1
def rangeInit : Nat := 2
def rangeActive : Nat := 3

/-- Does core address `a` lie in the span of range `r`? -/
def inSpan (d : Dev) (r a : Nat) : Bool := decide (d.get (R.RANGE_BASE r) ≤ a) && decide (a < d.get (R.RANGE_LIMIT r))

/-- The ACTIVE range that holds an address (R434). -/
def rangeOf (d : Dev) (a : Nat) : Option Nat :=
  findBelow (fun r => d.get (R.RANGE_STATUS_STATE r) == rangeActive && inSpan d r a) 8

/-- Master `u` may read or write address `a` (R446). -/
def mgMay (d : Dev) (u : Nat) (write : Bool) (a : Nat) : Bool :=
  match rangeOf d a with
  | some r => bitAt (d.get (R.RIGHTS r)) (2 * u + b2n write)
  | none => false

/-- A refused access: counted, captured, event bit 8 (R447). -/
def mgRefuse (d : Dev) (u : Nat) (write : Bool) (a : Nat) : Dev :=
  let d := d.count 9 R.MG_REFUSED
  let d := if d.on R.REFUSE_INFO_VALID then d
    else d.setAll [(R.REFUSE_ADDR, a), (R.REFUSE_INFO_MASTER, u), (R.REFUSE_INFO_WRITE, b2n write), (R.REFUSE_INFO_VALID, 1)]
  d.latch 9 8

/-! ## Tree geometry (R442) -/

/-- Counter blocks of a range. -/
def mgPages (d : Dev) (r : Nat) : Nat := (d.get (R.RANGE_LIMIT r) - d.get (R.RANGE_BASE r)) / 4096

/-- Nodes of each level from 1 up to the first with at most 8, from the number of lines of the level below. -/
def treeLevelsFrom : Nat → Nat → List Nat
  | 0, _ => []
  | fuel + 1, n => if n ≤ 8 then [] else ((n + 7) / 8) :: treeLevelsFrom fuel ((n + 7) / 8)

/-- N_1, …, N_L of a range. -/
def mgLevels (d : Dev) (r : Nat) : List Nat := treeLevelsFrom 12 (mgPages d r)
/-- L of a range: TREE_LEVELS. -/
def mgTop (d : Dev) (r : Nat) : Nat := (mgLevels d r).length
/-- META_PAGES. -/
def mgMetaPages (d : Dev) (r : Nat) : Nat :=
  if d.get (R.RANGE_LIMIT r) ≤ d.get (R.RANGE_BASE r) then 0
  else ((mgPages d r + (mgLevels d r).sum) * 64 + 4095) / 4096
/-- DRAM offset of a metadata line: counter blocks first, then level 1, and so on. -/
def metaOffset (d : Dev) (r level n : Nat) : Nat :=
  let before := if level = 0 then 0 else mgPages d r + ((mgLevels d r).take (level - 1)).sum
  d.get (R.META_BASE r) - dramBase + 64 * (before + n)

/-! ## Counters (R441, R443) -/

def majorKey (r page : Nat) : Nat := r * 2 ^ 24 + page
def treeKey (r level n : Nat) : Nat := (r * 16 + level) * 2 ^ 24 + n
def mgGetMajor (d : Dev) (r page : Nat) : Nat := Cells.find d.mgMajor (majorKey r page)
def mgGetMinor (d : Dev) (line : Nat) : Nat := Cells.find d.mgMinor line
/-- Counter that its parent, or the root, holds for a line of the tree. -/
def mgGetTree (d : Dev) (r level n : Nat) : Nat := Cells.find d.mgTree (treeKey r level n)

/-! ## Lines as stored (R438 to R440) -/

/-- A line's 64 bytes from its value, first byte most significant. -/
def lineBytes (v : Nat) : List Byte := beBytes 64 v

/-- The MAC of a line (R440). -/
def mgMac (d : Dev) (r offset ver minor type : Nat) (line : List Byte) : Nat :=
  Crypto.cmac 32 (d.get (L.MG_KEY2 r))
    (beBytes 8 offset ++ beBytes 8 ver ++ beBytes 1 minor ++ beBytes 1 type ++ beBytes 6 0 ++ line) / 2 ^ 64

/-- Counter-mode pad of a data line (R440). -/
def mgPad (d : Dev) (r offset major minor : Nat) : Nat :=
  let rk := Crypto.roundKeys 32 (d.get (L.MG_KEY1 r))
  (List.range 4).foldl (fun a b =>
    a * 2 ^ 128 + Crypto.encBlock rk (major % 2 ^ 64 * 2 ^ 64 + offset / 64 % 2 ^ 32 * 2 ^ 32 + minor * 2 ^ 24 + b)) 0

/-- The data line `v` of range `r` at DRAM offset `x`, as it stands in DRAM. -/
def storedLine (d : Dev) (r x v : Nat) : Out :=
  let mode := d.get (R.RANGE_CTRL_MODE r)
  if mode = 0 then .dram x (lineBytes v) none
  else if mode = 1 then .dram x (Crypto.xtsEnc (d.get (L.MG_KEY1 r)) (d.get (L.MG_KEY2 r)) (x / 64) (lineBytes v)) none
  else
    let page := (x + dramBase - d.get (R.RANGE_BASE r)) / 4096
    let mj := mgGetMajor d r page
    let mn := mgGetMinor d (x / 64)
    let ct := lineBytes (v ^^^ mgPad d r x mj mn)
    .dram x ct (some (mgMac d r x mj mn 0 ct))

/-- The contents of a metadata line: a counter block, or a node (R441, R442). -/
def metaContents (d : Dev) (r level n : Nat) : List Byte :=
  if level = 0 then
    let line0 := (d.get (R.RANGE_BASE r) - dramBase) / 64 + 64 * n
    leBytes 64 (mgGetMajor d r n + sumBelow (fun i => mgGetMinor d (line0 + i) * 2 ^ (64 + 7 * i)) 64)
  else ((List.range 8).map fun c => leBytes 8 (mgGetTree d r (level - 1) (8 * n + c))).flatten

/-- A metadata line as it stands in DRAM. -/
def storedMeta (d : Dev) (r level n : Nat) : Out :=
  let x := metaOffset d r level n
  let b := metaContents d r level n
  .dram x b (some (mgMac d r x (mgGetTree d r level n) 0 (if level = 0 then 1 else 2) b))

/-! ## The counter cache (R443) -/

/-- Lines the counter cache holds at most. -/
def mgCacheSize : Nat := 4096

def MetaLine.is (m : MetaLine) (r level n : Nat) : Bool := m.range == r && m.level == level && m.n == n

def mgCached (d : Dev) (r level n : Nat) : Bool := d.mgCache.any fun m => m.is r level n

/-- Mark a cached line dirty. -/
def mgDirty (d : Dev) (r level n : Nat) : Dev :=
  { d with mgCache := d.mgCache.map fun m => if m.is r level n then { m with dirty := true } else m }

/-- Cached lines that no other cached line has as parent: those that can leave. -/
def mgLeaves (d : Dev) : List MetaLine :=
  d.mgCache.filter fun m => !d.mgCache.any fun c => c.range == m.range && c.level + 1 == m.level && c.n / 8 == m.n

/-- A line leaves the cache; a dirty one first has the counter held for it incremented, and is written (R443). -/
def mgEvict (d : Dev) (m : MetaLine) : Dev :=
  let d := { d with mgCache := d.mgCache.filter fun c => !c.is m.range m.level m.n }
  if m.dirty then
    let k := treeKey m.range m.level m.n
    let d := { d with mgTree := Cells.put d.mgTree k (Cells.find d.mgTree k + 1) }
    (mgDirty d m.range (m.level + 1) (m.n / 8)).emit (storedMeta d m.range m.level m.n)
  else d

/-- Bring a line into the cache. Which line makes room is open: a free choice among those that can leave. -/
def mgInsert (d : Dev) (r level n : Nat) : Dev :=
  let d :=
    if d.mgCache.length < mgCacheSize then d
    else
      let ls := mgLeaves d
      match ls[d.freeVal 64 % ls.length]? with
      | some m => mgEvict d.tookFree m
      | none => d
  { d with mgCache := ⟨r, level, n, false⟩ :: d.mgCache }

/-- Fetch the path of a line from the top down: `levels` counts the levels from this line to the root. Each line not in
the cache is a miss; the first one found is a hit. -/
def mgWalk (d : Dev) (r level n : Nat) : Nat → Dev
  | 0 => d
  | up + 1 =>
    if mgCached d r level n then d.count 9 R.CACHE_HITS
    else
      let d := mgWalk d r (level + 1) (n / 8) up
      mgInsert (d.count 9 R.CACHE_MISSES) r level n

/-- Make the counter block of a data line trusted (R443). -/
def mgTrust (d : Dev) (r page : Nat) : Dev := mgWalk d r 0 page (mgTop d r + 1)

/-- Number of dirty cache lines. -/
def mgDirtyCount (d : Dev) : Nat := (d.mgCache.filter (·.dirty)).length

/-! ## One line -/

/-- The page number of a DRAM line within its range. -/
def linePage (d : Dev) (r line : Nat) : Nat := (line * 64 + dramBase - d.get (R.RANGE_BASE r)) / 4096

/-- A page is being re-encrypted. -/
def mgBusy (d : Dev) (r page : Nat) : Bool := d.mgReenc.any fun e => e.range == r && e.page == page

/-- Store the plaintext of a line. -/
def dramPut (d : Dev) (line v : Nat) : Dev := { d with dram := Cells.put d.dram line v }

/-- RANGE_STATUS.REENCRYPTING follows the pages in progress. -/
def mgReencFlag (d : Dev) (r : Nat) : Dev := d.setB (R.RANGE_STATUS_REENCRYPTING r) (d.mgReenc.any (·.range == r))

/-- Put bytes at an offset of a line (R433). -/
def mergeLine (v off : Nat) (bs : List Byte) : Nat :=
  let l := lineBytes v
  beVal ((l.take off ++ bs ++ l.drop (off + bs.length)).take 64)

/-- Write bytes into a data line of range `r` (R444): a write that finds the minor at 127 starts the page's re-encryption and
waits for it, as does a write to a page in re-encryption. -/
def mgWriteLine (d : Dev) (r line off : Nat) (bs : List Byte) : Dev :=
  let v := mergeLine (Cells.find d.dram line) off bs
  if d.get (R.RANGE_CTRL_MODE r) = 2 then
    let page := linePage d r line
    let d := mgTrust d r page
    if mgBusy d r page then { d with mgPending := d.mgPending ++ [.write line off bs] }
    else if mgGetMinor d line = 127 then
      mgReencFlag { d with mgPending := d.mgPending ++ [.write line off bs], mgReenc := d.mgReenc ++ [⟨r, page, 0⟩] } r
    else
      let d := dramPut { d with mgMinor := Cells.put d.mgMinor line (mgGetMinor d line + 1) } line v
      (mgDirty d r 0 page).emit (storedLine d r (line * 64) v)
  else (dramPut d line v).emit (storedLine d r (line * 64) v)

/-- The parts of a transfer line by line: line number, offset in the line, number of bytes. -/
def linesOf : Nat → Nat → Nat → List (Nat × Nat × Nat)
  | 0, _, _ => []
  | fuel + 1, x, n =>
    if n = 0 then [] else
      let k := min n (64 - x % 64)
      (x / 64, x % 64, k) :: linesOf fuel (x + k) (n - k)

/-- All parts of a transfer of `n` bytes at DRAM offset `x`. -/
def transferLines (x n : Nat) : List (Nat × Nat × Nat) := linesOf (n / 64 + 2) x n

/-- Write bytes that every check has passed. -/
def mgWriteParts (d : Dev) : List (Nat × Nat × Nat) → List Byte → Dev
  | [], _ => d
  | (line, off, k) :: rest, bs =>
    let d := match rangeOf d (dramBase + line * 64) with
      | some r => mgWriteLine d r line off (bs.take k)
      | none => d
    mgWriteParts d rest (bs.drop k)

/-! ## DMA by the part's own masters (R344, R446, R522) -/

/-- Write bytes to management memory as the DMA master: on-die SRAM, or DRAM under the range rights. `none` when the
access is refused (R434, R447) or no memory lies there (R340). -/
def dmaWrite (d : Dev) (a : Nat) (bs : List Byte) : Dev × Bool :=
  if 0x30000000 ≤ a ∧ a + bs.length ≤ 0x30100000 then
    ({ d with sram := (List.zip (List.range bs.length) bs).foldl (fun c p => Cells.put c (a + p.1) p.2.toNat) d.sram }, true)
  else if dramBase ≤ a ∧ a + bs.length ≤ dramBase + dramSize d then
    let ps := transferLines (a - dramBase) bs.length
    match ps.find? fun p => !mgMay d 4 true (dramBase + p.1 * 64) with
    | some p => (mgRefuse d 4 true (dramBase + p.1 * 64 + p.2.1), false)
    | none => ((mgWriteParts d ps bs).emit (.dma true a bs), true)
  else (d, false)

/-- May the DMA master read these bytes of management memory? A refusal is counted. -/
def dmaRead (d : Dev) (a n : Nat) : Dev × Bool :=
  if 0x30000000 ≤ a ∧ a + n ≤ 0x30100000 then (d, true)
  else if dramBase ≤ a ∧ a + n ≤ dramBase + dramSize d then
    match (transferLines (a - dramBase) n).find? fun p => !mgMay d 4 false (dramBase + p.1 * 64) with
    | some p => (mgRefuse d 4 false (dramBase + p.1 * 64 + p.2.1), false)
    | none => (d, true)
  else (d, false)

/-- Bytes of on-die SRAM, or of DRAM as the guard delivers them. -/
def memBytes (d : Dev) (a n : Nat) : List Byte :=
  if a < dramBase then (List.range n).map fun i => BitVec.ofNat 8 (Cells.find d.sram (a + i))
  else ((transferLines (a - dramBase) n).map fun p => ((lineBytes (Cells.find d.dram p.1)).drop p.2.1).take p.2.2).flatten

/-- The host's DMA is stopped: Bus Master Enable is clear, or the function is in D3hot (R31). -/
def hostDmaOff (d : Dev) : Bool := d.on L.PCI_BM_OFF || d.on L.PCI_D3HOT

/-- Write bytes for an owner: the host through PCIe, or management memory. -/
def ownerWrite (d : Dev) (mgmt : Bool) (a : Nat) (bs : List Byte) : Dev × Bool :=
  if mgmt then dmaWrite d a bs
  else if hostDmaOff d then (d, false) else (d.emit (.dma false a bs), true)

end Sys2Proof.Machine
end

