-- ==== Sys2Proof/Machine/PortInfo.lean ====
section
/-! DEFINITION. Ports by number: rate, interface and lanes
(R132 to R135), the planning lead (R223) and the cipher share (R201). -/

namespace Sys2Proof.Machine

/-- Lanes of port `p`. -/
def portLanes (d : Dev) (p : Nat) : List Nat := (List.range (portWidth d p)).map (p + ·)
/-- The port that lane `l` belongs to in the octet's mode. -/
def lanePort (d : Dev) (l : Nat) : Option Nat :=
  (List.range 8).findSome? fun j =>
    let p := l / 8 * 8 + j
    if p ≤ l ∧ l < p + portWidth d p then some p else none

/-- Interface of a port: 0 10G-1L, 1 25G-1L, 2 50G-1L, 3 100G-1L, 4 200G-2L, 5 400G-4L, 6 800G-8L (R134). -/
def iface (d : Dev) (p : Nat) : Nat :=
  let w := portWidth d p
  if w ≤ 1 then d.get (R.PORT_CTRL_RATE p) % 4 else if w = 2 then 4 else if w = 4 then 5 else 6

/-- Rate of an interface in Gb/s. -/
def ifaceGbps (i : Nat) : Nat :=
  if i = 0 then 10 else if i = 1 then 25 else if i = 2 then 50 else if i = 3 then 100 else if i = 4 then 200
  else if i = 5 then 400 else 800
/-- Rate of port `p` in Gb/s. -/
def portGbps (d : Dev) (p : Nat) : Nat := ifaceGbps (iface d p)
/-- Lane rate code of an interface: 0 10.3125, 1 25.78125, 2 53.125, 3 106.25 Gb/s (R135). -/
def ifaceLaneRate (i : Nat) : Nat := min i 3

/-- Guaranteed cipher share in units of 0.1 G blocks/s (R201). -/
def ifaceShare (i : Nat) : Nat :=
  if i = 0 then 1 else if i = 1 then 2 else if i = 2 then 4 else if i = 3 then 8 else if i = 4 then 16
  else if i = 5 then 32 else 64
/-- Port-engine units (R142). -/
def ifaceEngine (i : Nat) : Nat := if i ≤ 3 then 1 else if i = 4 then 2 else if i = 5 then 4 else 8

/-- PLAN_LEAD in ns (R223). -/
def planLead (d : Dev) (p : Nat) : Nat :=
  let i := iface d p
  if i = 0 then 200 else if i = 1 then (if d.on (R.PORT_CTRL_FEC_MODE p) then 175 else 150)
  else if i = 2 then 175 else if i = 3 then 150 else if i = 4 then 150 else if i = 5 then 160 else 175

/-- Time of `n` bytes at the rate of port `p`, in units of 2^-48 ns, rounded up. -/
def lineTime (d : Dev) (p n : Nat) : Nat := (n * 8 * fineNs + portGbps d p - 1) / portGbps d p

/-- RS-FEC is in use on a port, so that alignment or codeword markers take line time (R135, R146). -/
def fecOn (d : Dev) (p : Nat) : Bool := d.on (R.PORT_STATUS_FEC_ACTIVE p)

/-- Line time of `n` bytes from `start` on, counted as `TxCopy.phys`, with the alignment markers that fall within it (R326). The spec does
not give their places: they are free (log 5). -/
def lineSpan (d : Dev) (p start n : Nat) : Nat := lineTime d p n + (if fecOn d p then Config.markerTime p start n else 0)

/-- Bits between start boundaries: half a block up to 25 Gb/s, eight bytes above (R223). -/
def startBits (d : Dev) (p : Nat) : Nat := if iface d p ≤ 1 then 32 else 64

/-- A port that comes up finds its start boundaries at a free phase, less than one boundary apart (R223; log 5). -/
def drawPhase (d : Dev) (p : Nat) : Dev :=
  (d.set (L.LINE_PHASE p) (d.freeVal 64 % (startBits d p * fineNs / portGbps d p + 1))).tookFree

/-- The first start boundary of port `p` at or after `phys` (R223). The phase of the boundaries is free, and so is what codeword boundaries
and alignment markers of a port with RS-FEC delay a start by (log 5). -/
def startBoundary (d : Dev) (p phys : Nat) : Nat :=
  let x := phys + (if fecOn d p then Config.startDelay p phys else 0)
  let unit := startBits d p * fineNs
  let ph := d.get (L.LINE_PHASE p)
  let k := ((x - ph) * portGbps d p + unit - 1) / unit
  ph + (k * unit + portGbps d p - 1) / portGbps d p

/-- Port states (R140). -/
def psDisabled : Nat := 0
def psPowerPending : Nat := 1
def psBringup : Nat := 2
def psUp : Nat := 3
def psHoldoff : Nat := 4
def portState (d : Dev) (p : Nat) : Nat := d.get (R.PORT_STATUS_STATE p)
/-- UP or HOLDOFF: the port transmits. -/
def portUp (d : Dev) (p : Nat) : Bool := portState d p == psUp || portState d p == psHoldoff
/-- Port page of a port. -/
def portPage (p : Nat) : Nat := 0x30 + p / 8
/-- Add to a counter of a port's slot; a slot that serves no port counts nothing (R134). -/
def portCount (d : Dev) (p : Nat) (f : Fld) (n : Nat := 1) : Dev := if served d p then d.count (portPage p) f n else d
/-- Latch event bit 4 j + `b` of a port's slot (R162). -/
def portEvent (d : Dev) (p b : Nat) : Dev := if served d p then d.latch (portPage p) (4 * (p % 8) + b) else d

/-- Ports whose ENABLE is 1, among the octet `k`. -/
def octEnabled (d : Dev) (k : Nat) : List Nat :=
  ((List.range 8).map (8 * k + ·)).filter fun p => served d p && d.on (R.PORT_CTRL_ENABLE p)

/-- Signed reading of a field. -/
def Dev.getS (d : Dev) (f : Fld) : Int := toSigned f.w (d.get f)
/-- Signed writing of a field. -/
def Dev.setS (d : Dev) (f : Fld) (z : Int) : Dev := d.set f (ofSigned f.w z)

end Sys2Proof.Machine
end

