-- ==== Sys2Proof/Machine/WpCore.lean ====
section
/-! DEFINITION. The waypoint table: the time of an entry, its cycle, and what finding an occurrence late does to it
(R85 to R93). The actions themselves are in Waypoints.lean. -/

namespace Sys2Proof.Machine

/-- Indices of the entries of a table whose field at entry bit `lo` is listed in the store, so differs from its reset
value. The store lists every entry that is not at its reset values, so no other entry can be armed. -/
def Dev.listedEntries (d : Dev) (page table lo : Nat) : List Nat :=
  d.cells.filterMap fun p =>
    let k := p.1
    let lo0 := tblKey page table 0
    if lo0 ≤ k ∧ k < tblKey page (table + 1) 0 ∧ (k - lo0) % 512 = lo then some ((k - lo0) / 512) else none

/-- Action codes of R88. -/
def wpTxSaSwitch : Nat := 0x01
def wpSaEnable : Nat := 0x02
def wpSaRetire : Nat := 0x03
def wpGateListSwap : Nat := 0x04
def wpWindowEdge : Nat := 0x05
def wpPpsEdge : Nat := 0x06
def wpEyeScanStart : Nat := 0x07
def wpTodSend : Nat := 0x08
def wpTimeStep : Nat := 0x09
def wpRegWrite : Nat := 0x0A
def wpMark : Nat := 0x0B

/-- STATE codes of R85. -/
def wpEmpty : Nat := 0
def wpArmed : Nat := 1
def wpDone : Nat := 2

/-- Two microseconds: the commit margin of R86 and R87. -/
def wpMargin : Nat := 2000 * fineNs

/-- T of entry `n` (R85). -/
def wpT (d : Dev) (n : Nat) : Nat :=
  timeOf (d.get (R.WP_TIME_SEC_LO n) + d.get (R.WP_TIME_SEC_HI n) * 2 ^ 32) (d.get (R.WP_TIME_NS n)) (d.get (R.WP_TIME_FRAC n))

/-- Write T of entry `n`. -/
def wpSetT (d : Dev) (n t : Nat) : Dev :=
  d.setAll [(R.WP_TIME_SEC_LO n, secOf t % 2 ^ 32), (R.WP_TIME_SEC_HI n, secOf t / 2 ^ 32), (R.WP_TIME_NS n, nsOf t),
    (R.WP_TIME_FRAC n, fracOf t)]

/-- Period of entry `n`; 0 for a one-shot entry. -/
def wpPeriod (d : Dev) (n : Nat) : Nat := d.get (R.WP_PERIOD_NS n) * fineNs + d.get (R.WP_PERIOD_FRAC n) * 2 ^ 32

/-- Operational gate cycle of port `p` (R336). -/
def gateOperCycle (d : Dev) (p : Nat) : Nat := d.get (R.GATE_OPER_CYCLE_NS p) * fineNs + d.get (R.GATE_OPER_CYCLE_FRAC p) * 2 ^ 32
/-- ADMIN_CYCLE_TIME of port `p` (R336). -/
def gateAdminCycle (d : Dev) (p : Nat) : Nat := d.get (R.GATE_ADMIN_CYCLE_NS p) * fineNs + d.get (R.GATE_ADMIN_CYCLE_FRAC p) * 2 ^ 32
/-- Cycle by which NEXT_CYCLE moves a swap: the operational one, or the admin one when no list is in operation (R323). -/
def gateSwapCycle (d : Dev) (p : Nat) : Nat := if d.on (L.GATE_RUN p) then gateOperCycle d p else gateAdminCycle d p

/-- Cycle C of an action (R88); 0 when the entry has none. -/
def wpCycle (d : Dev) (n : Nat) : Nat :=
  let a := d.get (R.WP_ACTION n)
  if a = wpGateListSwap then gateSwapCycle d (d.get (R.WP_TARGET n))
  else if a = wpWindowEdge then 2 ^ (d.get (R.WP_ARG0 n) % 32) * 1000 * fineNs
  else if a = wpPpsEdge ∨ a = wpTodSend then fineSec
  else if a = wpEyeScanStart ∨ a = wpRegWrite ∨ a = wpMark then wpPeriod d n
  else 0

/-- Late policies: 1 EXECUTE_NOW, 2 SKIP, 3 NEXT_CYCLE. -/
def wpDefaultPolicy (a : Nat) : Nat :=
  if a = wpGateListSwap then 3
  else if a = wpWindowEdge ∨ a = wpPpsEdge ∨ a = wpEyeScanStart ∨ a = wpTodSend ∨ a = wpTimeStep then 2
  else 1

/-- The policy in force: LATE_POLICY, or the action default when it is 0 (R93). -/
def wpPolicy (d : Dev) (n : Nat) : Nat :=
  if d.get (R.WP_LATE_POLICY n) = 0 then wpDefaultPolicy (d.get (R.WP_ACTION n)) else d.get (R.WP_LATE_POLICY n)

/-- Number of occurrences T, T + P, … that lie before `limit`. -/
def wpOccurrencesBefore (t period limit : Nat) : Nat := if t < limit then (limit - t + period - 1) / period else 0

/-- Occurrences of entry `n` that are not executed: MISSED grows, each latches event bit 3, and a window edge that is
skipped counts in WINDOWS_SKIPPED, latches event bit 8 of page 0x0C and marks its group (R93, R513). -/
def wpMissed (d : Dev) (n c : Nat) : Dev :=
  if c = 0 then d else
  let d := (d.count 3 (R.WP_MISSED n) c).latch 3 3
  if d.get (R.WP_ACTION n) = wpWindowEdge then
    let d := (d.count 0xC R.WINDOWS_SKIPPED c).latch 0xC 8
    d.satAdd (L.WG_SKIPS (d.get (R.WP_TARGET n))) c
  else d

/-- An occurrence of entry `n` is found late at time `t`: LATE, event bit 1, and the policy (R93). A one-shot entry with
no cycle to move by takes a free T, because the spec gives none. -/
def wpFoundLate (d : Dev) (n t : Nat) : Dev :=
  let T := wpT d n
  let P := wpPeriod d n
  let c := wpCycle d n
  let pol := wpPolicy d n
  let limit := t + wpMargin
  let d := ((((d.set (R.WP_LATE n) 1).set (L.WP_CARRY n) 0).latch 3 1).count 3 R.WP_LATE_COUNT).set R.WP_LAST_LATE n
  if P = 0 then
    if pol = 1 then d.set (L.WP_DUE n) (d.tick + 1)
    else if pol = 2 then (wpMissed d n 1).set (R.WP_STATE n) wpDone
    else
      let d := wpMissed d n 1
      if c = 0 then (wpSetT d n (d.freeVal 96 * 2 ^ 32)).tookFree
      else wpSetT d n (T + max 1 ((limit - T + c - 1) / c) * c)
  else
    let k := wpOccurrencesBefore T P limit
    let d := if pol = 1 then (wpMissed d n (k - 1)).set (L.WP_DUE n) (d.tick + 1) else wpMissed d n k
    wpSetT d n (T + k * P)

/-- The armed entries, lowest first. -/
def wpArmedList (d : Dev) : List Nat := (d.listedEntries 3 0 288).filter fun n => d.get (R.WP_STATE n) = wpArmed

/-- Entries that a forward step from `t0` to `t1` passes over are found late at `t1` (R93). -/
def wpStepOver (d : Dev) (t0 t1 : Nat) : Dev :=
  ((wpArmedList d).filter fun n => decide (t0 < wpT d n) && decide (wpT d n < t1) && !d.on (L.WP_DUE n)).foldl
    (fun d n => wpFoundLate d n t1) d

/-- A commit of entry `n` at time `t`: the occurrence is late when its T is before `t` plus 2 µs (R87). -/
def wpCommit (d : Dev) (n t : Nat) : Dev := if wpT d n < t + wpMargin then wpFoundLate d n t else d

/-! ## Which entry executes next (R83, R87, R91) -/

/-- One microsecond: a switch and a gate-list swap execute this much before T (R226, R323). -/
def wpLead : Nat := 1000 * fineNs
/-- Entry `n` admits or retires a transmit SA. -/
def wpTxSa (d : Dev) (n : Nat) : Bool :=
  (d.get (R.WP_ACTION n) == wpSaEnable || d.get (R.WP_ACTION n) == wpSaRetire) && !bitAt (d.get (R.WP_ARG0 n)) 0
/-- How long before T entry `n` executes. DESIGN CHOICE: an entry that admits or retires a transmit SA executes as early as a switch, so
that copies issued before T for a start at or after T obey it (R18); the spec does not say when (log 30). -/
def wpLeadOf (d : Dev) (n : Nat) : Nat :=
  if d.get (R.WP_ACTION n) = wpTxSaSwitch ∨ d.get (R.WP_ACTION n) = wpGateListSwap ∨ wpTxSa d n then wpLead else 0

/-- The running engine has an armed entry `n` with action `a`. -/
def wpArmedFor (d : Dev) (n a : Nat) : Bool :=
  d.on (L.PAGE_ENABLE 3) && d.get (R.WP_STATE n) == wpArmed && d.get (R.WP_ACTION n) == a

/-- The entry executes late, under EXECUTE_NOW, in a tick after the one that found it late (R93). -/
def wpLateNow (d : Dev) (n : Nat) : Bool := d.on (L.WP_DUE n) && d.get (L.WP_DUE n) != d.tick + 1

/-- Entry `n` is due in this tick: it is late, or the tick lies at or after T less its action's lead. -/
def wpDueNow (d : Dev) (n : Nat) : Bool := wpLateNow d n || (!d.on (L.WP_DUE n) && decide (wpT d n ≤ d.tickTime + wpLeadOf d n))

/-- REG_WRITE actions that have executed in this tick (R91). -/
def wpWrites (d : Dev) : Nat := if d.get L.WP_TICK = d.tick + 1 then d.get L.WP_TICK_COUNT else 0

/-- An armed entry that the running engine still has to execute in this tick. A REG_WRITE beyond the eighth is left to the next. -/
def wpExecutes (d : Dev) (n : Nat) : Bool :=
  let a := d.get (R.WP_ACTION n)
  d.on (L.PAGE_ENABLE 3) &&
    (if d.on (L.WP_CARRY n) then d.get (L.WP_CARRY n) != d.tick + 1 && decide (wpWrites d < 8)
     else wpDueNow d n && (a != wpRegWrite || decide (wpWrites d < 8)))

/-- Place of an entry in the order of a tick: register writes carried over come first, a TIME_STEP last (R88, R91). -/
def wpRank (d : Dev) (n : Nat) : Nat := if d.on (L.WP_CARRY n) then 0 else if d.get (R.WP_ACTION n) = wpTimeStep then 2 else 1

/-- Entry `m` executes before entry `n` when both are due in one tick: by rank, then by index (R83). -/
def wpBefore (d : Dev) (m n : Nat) : Bool :=
  decide (wpRank d m < wpRank d n) || (wpRank d m == wpRank d n && decide (m < n))

/-- Entry `n` is the next of its tick: the tick's alarm responses have acted, and no entry that comes before it is still to execute. -/
def wpFirst (d : Dev) (n : Nat) : Bool :=
  !d.on L.AL_NEW && (wpArmedList d).all fun m => !(wpExecutes d m && wpBefore d m n)

/-- Some entry is still to execute in this tick. -/
def wpAnyDue (d : Dev) : Bool := (wpArmedList d).any (wpExecutes d)

/-- Entry `n` with action `a` executes now: it is armed, due, and the next of its tick. -/
def wpReady (d : Dev) (n a : Nat) : Bool := wpArmedFor d n a && wpDueNow d n && wpFirst d n

/-- At the end of a tick the register writes that were due and found eight executed are carried over (R91). -/
def wpCarryRest (d : Dev) : Dev :=
  if wpWrites d < 8 then d
  else ((wpArmedList d).filter fun n => wpArmedFor d n wpRegWrite && wpDueNow d n && !d.on (L.WP_CARRY n)).foldl
    (fun d n => d.set (L.WP_CARRY n) (d.tick + 1)) d

/-- Step device time to `t1`: the cycle keeps its tick and that tick's time, and the next tick carries the first multiple at or after the
new time (R82); a forward step finds the occurrences it passes over late, a backward step none (R93, R94). -/
def stepTime (d : Dev) (t1 : Nat) : Dev :=
  let t0 := d.time
  let d := { d with time := t1, nextTick := tickCeil t1 }
  let d := (d.satAdd L.STEP_SERIAL 1).clearGroup (L.CBS_HOLD 0)
  if d.on (L.PAGE_ENABLE 3) && decide (t0 < t1) then wpStepOver d t0 t1 else d

end Sys2Proof.Machine
end

