-- ==== Sys2Proof/Machine/Telemetry.lean ====
section
/-! DEFINITION. Telemetry: the rings and their records (R522, R523), bandwidth windows (R510 to R513), queue telemetry
(R514 to R517) and threshold counters (R518, R519), with the three rows that belong to them. -/

namespace Sys2Proof.Machine

/-- Page 0x0C acts (R524). -/
def telOn (d : Dev) : Bool := d.on (L.PAGE_ENABLE 0xC)

/-- Little-endian bytes of a record of words. -/
def wordBytes (ws : List Nat) : List Byte := (ws.map fun w => leBytes 4 w).flatten

/-- Size of ring `r` in records. -/
def tringSize (d : Dev) (r : Nat) : Nat := 2 ^ min 15 (max 6 (d.get (R.TRING_CFG_SIZE_LOG r)))

/-- Write a record of sixteen words, the last one RSEQ, to ring `r` (R523). -/
def telRecord (d : Dev) (r : Nat) (ws : List Nat) : Dev :=
  if !telOn d || !d.on (R.TRING_CFG_ENABLE r) || d.on (R.TRING_CFG_ERROR r) then d else
  let prod := d.get (R.PRODUCER r)
  let cons := d.get (R.CONSUMER r)
  if (prod + 1) % tringSize d r = cons then (d.count 0xC (R.TRING_LOST r)).latch 0xC (2 * r + 1) else
  let row := (ws ++ List.replicate (15 - ws.length) 0).take 15 ++ [d.get (L.TRING_SEQ r)]
  let w := ownerWrite d (d.on (R.TRING_CFG_OWNER r)) (d.get (R.TRING_BASE r) + 64 * prod) (wordBytes row)
  if w.2 then
    let d := (w.1.set (L.TRING_SEQ r) (w.1.get (L.TRING_SEQ r) + 1)).set (R.PRODUCER r) ((prod + 1) % tringSize w.1 r)
    (d.count 0xC (R.TRING_RECORDS r)).latchIf (prod == cons) 0xC (2 * r)
  else (w.1.set (R.TRING_CFG_ERROR r) 1).latch 0xC 14

/-- The three time words of a record, with the upper half of the third. -/
def timeWords (t hi : Nat) : List Nat := [nsOf t, secOf t % 2 ^ 32, secOf t / 2 ^ 32 % 2 ^ 16 + hi * 2 ^ 16]

/-! ## Bandwidth windows (R510 to R513) -/

/-- Zero the accumulators of window `j` of port `p`. -/
def winZero (d : Dev) (p j : Nat) : Dev :=
  d.setAll [(L.WIN_RX_FRAMES p j, 0), (L.WIN_RX_BYTES p j, 0), (L.WIN_RX_ERRORED p j, 0), (L.WIN_TX_FRAMES p j, 0),
    (L.WIN_TX_BYTES p j, 0), (L.WIN_TX_POISONED p j, 0)]

/-- Discard the open window (R513). -/
def winDiscard (d : Dev) (p : Nat) : Dev := (winZero d p 0).set (L.WIN_OPEN p 0) 0

/-- The window that an instant of port `p` counts in: 1 before the END of a window not yet closed, else 0; none without
an open window (R511, R512). -/
def winOf (d : Dev) (p t : Nat) : Option Nat :=
  if !telOn d then none
  else if d.on (L.WIN_OPEN p 1) && decide (t < d.get (L.WIN_END p 1)) then some 1
  else if d.on (L.WIN_OPEN p 0) then some 0 else none

/-- A received frame counts: receive timestamp, bytes as on the wire, and whether it is errored (R511). -/
def winRx (d : Dev) (p stamp bytes : Nat) (errored : Bool) : Dev :=
  match winOf d p stamp with
  | some j => ((d.count 0xC (L.WIN_RX_FRAMES p j)).count 0xC (L.WIN_RX_BYTES p j) bytes).count 0xC (L.WIN_RX_ERRORED p j)
      (b2n errored)
  | none => d

/-- A transmitted copy counts: planned start and bytes sent, and whether it was poisoned (R511). -/
def winTx (d : Dev) (p start bytes : Nat) (poisoned : Bool) : Dev :=
  match winOf d p start with
  | some j => ((d.count 0xC (L.WIN_TX_FRAMES p j)).count 0xC (L.WIN_TX_BYTES p j) bytes).count 0xC (L.WIN_TX_POISONED p j)
      (b2n poisoned)
  | none => d

/-- Copy the totals of the window past its END into PORT_TELEM and write its record (R512). -/
def winClose (d : Dev) (p : Nat) : Dev :=
  if !d.on (L.WIN_OPEN p 1) then d else
  let e := d.get (L.WIN_END p 1)
  let s := d.get (L.WIN_START p 1)
  let k := d.get (L.WIN_K p 1)
  let span := (e - s) / (2 ^ k * 1000 * fineNs)
  let stepped := d.get (L.WIN_STEPS p 1) != 0
  let w0 := 1 + p * 2 ^ 8 + d.get (L.WIN_GROUP p 1) * 2 ^ 16 + k * 2 ^ 22 + b2n (d.get (L.WIN_SKIPS p 1) != 0) * 2 ^ 27 +
    b2n stepped * 2 ^ 28 + d.get (L.WIN_HOLD p 1) * 2 ^ 29
  let rxb := d.get (L.WIN_RX_BYTES p 1)
  let txb := d.get (L.WIN_TX_BYTES p 1)
  let d := d.setAll [(R.PTEL_LAST_END_NS p, nsOf e), (R.PTEL_LAST_END_SEC p, secOf e % 2 ^ 32), (R.PTEL_LAST_SPAN p, span),
    (R.PTEL_LAST_RX_BYTES p, rxb), (R.PTEL_LAST_RX_FRAMES p, d.get (L.WIN_RX_FRAMES p 1)),
    (R.PTEL_LAST_TX_FRAMES p, d.get (L.WIN_TX_FRAMES p 1)), (R.PTEL_LAST_TX_BYTES p, txb),
    (R.PTEL_LAST_RX_ERRORED p, d.get (L.WIN_RX_ERRORED p 1)), (R.PTEL_LAST_TX_POISONED p, d.get (L.WIN_TX_POISONED p 1))]
  let d :=
    if d.on (R.PTEL_TO_RING p) then
      telRecord (d.latchIf stepped 0xC 9) (d.get (R.PTEL_TRING p))
        ([w0] ++ timeWords e (span % 2 ^ 16) ++ [rxb % 2 ^ 32, rxb / 2 ^ 32, d.get (L.WIN_RX_FRAMES p 1), d.get (L.WIN_TX_FRAMES p 1),
          txb % 2 ^ 32, txb / 2 ^ 32, d.get (L.WIN_RX_ERRORED p 1), d.get (L.WIN_TX_POISONED p 1)])
    else d
  (winZero d p 1).set (L.WIN_OPEN p 1) 0

/-- An edge of group `g` at time `t` with exponent `k` for port `p` (R510): the open window closes and the next opens. -/
def winEdge (d : Dev) (g k t p : Nat) : Dev :=
  if !d.on (R.PTEL_WINDOW_EN p) || d.get (R.PTEL_WINDOW_GROUP p) != g then d else
  let d := winClose d p
  let d :=
    if d.on (L.WIN_OPEN p 0) then
      d.setAll [(L.WIN_OPEN p 1, 1), (L.WIN_START p 1, d.get (L.WIN_START p 0)), (L.WIN_END p 1, t), (L.WIN_K p 1, k),
        (L.WIN_SKIPS p 1, d.get (L.WG_SKIPS g) - d.get (L.WIN_SKIPS p 0)), (L.WIN_STEPS p 1, d.get L.STEP_SERIAL - d.get (L.WIN_STEPS p 0)),
        (L.WIN_HOLD p 1, d.get R.TB_STATUS_HOLDOVER), (L.WIN_GROUP p 1, g),
        (L.WIN_RX_FRAMES p 1, d.get (L.WIN_RX_FRAMES p 0)), (L.WIN_RX_BYTES p 1, d.get (L.WIN_RX_BYTES p 0)),
        (L.WIN_RX_ERRORED p 1, d.get (L.WIN_RX_ERRORED p 0)), (L.WIN_TX_FRAMES p 1, d.get (L.WIN_TX_FRAMES p 0)),
        (L.WIN_TX_BYTES p 1, d.get (L.WIN_TX_BYTES p 0)), (L.WIN_TX_POISONED p 1, d.get (L.WIN_TX_POISONED p 0))]
    else d
  (winZero d p 0).setAll [(L.WIN_OPEN p 0, 1), (L.WIN_START p 0, t), (L.WIN_SKIPS p 0, d.get (L.WG_SKIPS g)),
    (L.WIN_STEPS p 0, d.get L.STEP_SERIAL)]

/-- An edge of a group for every port (R510). -/
def winGroupEdge (d : Dev) (g k t : Nat) : Dev :=
  if telOn d then d.each 256 (fun p d => winEdge d g k t p) else d

/-! ## Queues (R514 to R517) -/

/-- Port queues come first; ring `n` is queue 4,096 + n (R514). -/
def numQueues : Nat := 4224

/-- Cycle count as a time in ns that saturates at 32 bits (R515). -/
def sat32 (n : Nat) : Nat := min n (2 ^ 32 - 1)

/-- Head copy of a queue. -/
def queueHead (d : Dev) (g : Nat) : Option Copy := d.copies.find? (·.queue == g)

/-- Head age of a queue in ns; one timebase cycle is 1 ns (R515). -/
def headAge (d : Dev) (g : Nat) : Nat :=
  match queueHead d g with
  | some c => sat32 (d.cyc - c.joined)
  | none => 0

/-- High-water mode of a queue (R514). -/
def hwmMode (run : RunState) (d : Dev) (g : Nat) : Bool :=
  run == .booting || run == .contained || d.on (R.QTEL_FORCE_HWM g) ||
  (decide (g < 4096) &&
    (let p := g / 16
     portState d p == psBringup || portState d p == psHoldoff || d.on (R.PORT_CTRL_LOOPBACK p) || d.get (R.PORT_CTRL_TX_FORCE p) != 0))

/-- Write a queue record (R523). -/
def queueRecord (d : Dev) (ring g : Nat) (hwm : Bool) (t : Nat) : Dev :=
  telRecord d ring ([2 + b2n hwm * 2 ^ 8 + g * 2 ^ 16] ++ timeWords t 0 ++ [d.get (R.QSTAT_CHARGE g), headAge d g] ++
    (if hwm then [d.get (R.QTEL_MAX_DEPTH g), d.get (R.QTEL_MAX_SOJOURN g)] else []))

/-- The mode of queue `g` after a change from what it was (R517): entry zeroes the MAX fields, the return writes one
record and latches event bit 13. -/
def hwmChange (d : Dev) (g : Nat) (was now : Bool) : Dev :=
  if was == now then d
  else if now then d.setAll [(R.QTEL_MAX_DEPTH g, 0), (R.QTEL_MAX_SOJOURN g, 0)]
  else if telOn d then
    (if d.on (R.QTEL_TO_RING g) then queueRecord d (d.get R.SAMPLE_CTRL_TRING) g true d.tickTime else d).latch 0xC 13
  else d

/-- Every queue's mode after the run state changed (R517), as `hwmChange` states for each queue in turn: a queue whose
entry is at its reset values has nothing to zero and writes no record. -/
def hwmAll (d before : Dev) (was now : RunState) : Dev :=
  let enters (g : Nat) : Bool := !hwmMode was before g && hwmMode now d g
  let leaves (g : Nat) : Bool := hwmMode was before g && !hwmMode now d g
  let listed (f : Nat → Fld) : List Nat := d.listedEntries 0xC 0 ((f 0).key % 512)
  let d1 := ((listed R.QTEL_MAX_DEPTH).filter enters).foldl (fun d g => d.set (R.QTEL_MAX_DEPTH g) 0) d
  let d1 := ((listed R.QTEL_MAX_SOJOURN).filter enters).foldl (fun d g => d.set (R.QTEL_MAX_SOJOURN g) 0) d1
  if telOn d1 && (findBelow leaves numQueues).isSome then
    (((listed R.QTEL_TO_RING).filter leaves).foldl
      (fun d g => queueRecord d (d.get R.SAMPLE_CTRL_TRING) g true d.tickTime) d1).latch 0xC 13
  else d1

/-- The modes of one port's queues after its state changed from `before`. -/
def hwmPort (run : RunState) (before d : Dev) (p : Nat) : Dev :=
  d.each 16 fun q d => hwmChange d (16 * p + q) (hwmMode run before (16 * p + q)) (hwmMode run d (16 * p + q))

/-- MAX_DEPTH follows the highest charge in high-water mode (R517). -/
def hwmDepth (run : RunState) (d : Dev) (g : Nat) : Dev :=
  if hwmMode run d g then d.set (R.QTEL_MAX_DEPTH g) (max (d.get (R.QTEL_MAX_DEPTH g)) (d.get (R.QSTAT_CHARGE g))) else d

/-- MAX_SOJOURN follows the longest sojourn of an issued copy (R517). -/
def hwmSojourn (run : RunState) (d : Dev) (g joined : Nat) : Dev :=
  if hwmMode run d g then d.set (R.QTEL_MAX_SOJOURN g) (max (d.get (R.QTEL_MAX_SOJOURN g)) (sat32 (d.cyc - joined))) else d

/-- One queue of a sweep (R516). -/
def sweepQueue (run : RunState) (t g : Nat) (d : Dev) : Dev :=
  if hwmMode run d g then d else
  let d := d.setAll [(R.QTEL_DEPTH g, d.get (R.QSTAT_CHARGE g)), (R.QTEL_HEAD_AGE g, headAge d g), (R.QTEL_SAMPLE_NS g, nsOf t),
    (R.QTEL_SAMPLE_SEC g, secOf t % 2 ^ 32)]
  if d.on (R.QTEL_TO_RING g) then queueRecord d (d.get R.SAMPLE_CTRL_TRING) g false t else d

/-- Sample period in units of 2^-48 ns (R524). -/
def samplePeriod (d : Dev) : Nat := 2 ^ min 20 (max 3 (d.get R.SAMPLE_CTRL_PERIOD_LOG)) * 1000 * fineNs

/-- Time at which queue `g` is sampled: the sweep's start plus ⌊g/2⌋ fabric cycles of 0.625 ns (R516). -/
def sampleTime (t g : Nat) : Nat := t + g / 2 * 5 * fineNs / 8

/-- A sweep at the tick (R516). It begins at the tick at which device time first reaches or passes a multiple; a multiple
that already had its sweep has no second one. -/
def sweep (run : RunState) (d : Dev) : Dev :=
  let n := d.tickTime / samplePeriod d
  if telOn d && d.on R.SAMPLE_CTRL_ENABLE && decide (d.tickTime - n * samplePeriod d < 4 * fineNs) && d.get L.SWEEP_LAST != n + 1 then
    let t := d.tickTime
    let d := d.each numQueues fun g d => sweepQueue run (sampleTime t g) g d
    ((d.set L.SWEEP_LAST (n + 1)).count 0xC R.SAMPLE_SWEEPS).latch 0xC 12
  else d

/-! ## Threshold counters (R518, R519) -/

/-- Sum of the charges of a port's 16 queues. -/
def portCharge (d : Dev) (p : Nat) : Nat := sumBelow (fun q => d.get (R.QSTAT_CHARGE (16 * p + q))) 16

/-- Occupancy of threshold counter `i` (R518). -/
def thrOccupancy (d : Dev) (i : Nat) : Nat :=
  let k := d.get (R.THR_KIND i)
  let x := d.get (R.THR_INDEX i)
  if k = 1 then d.get (R.QSTAT_CHARGE x) else if k = 2 then d.get (R.POOL_CHARGE x) else if k = 3 then portCharge d x
  else if k = 4 then 393216 - d.get R.CELLS_FREE else if k = 5 then headAge d x else 0

/-- Fabric cycles (0.625 ns) between two timebase cycles. -/
def fabricCycles (a b : Nat) : Nat := b * 8 / 5 - a * 8 / 5

/-- Cycles since THR_SINCE in which the occupancy exceeded N, as the occupancy has stood since then. -/
def thrAboveCycles (d : Dev) (i : Nat) : Nat :=
  let s := d.get (L.THR_SINCE i)
  if d.get (R.THR_KIND i) = 5 then
    match queueHead d (d.get (R.THR_INDEX i)) with
    | some c => let a := max s (c.joined + d.get (R.THR_N i) + 1); if a < d.cyc then fabricCycles a d.cyc else 0
    | none => 0
  else if d.get (R.THR_N i) < thrOccupancy d i then fabricCycles s d.cyc else 0

/-- Bring COUNT of every armed threshold counter up to the present cycle; done before an occupancy changes (R518). -/
def thrSync (d : Dev) : Dev :=
  if !telOn d then d else
  (d.listedEntries 0xC 2 0).foldl (fun d i => (d.count 0xC (R.THR_COUNT i) (thrAboveCycles d i)).set (L.THR_SINCE i) d.cyc) d

/-- Evaluate ABOVE of one threshold counter at a tick (R519). -/
def thrEval (d : Dev) (i : Nat) : Dev :=
  let now := d.get (R.THR_KIND i) != 0 && decide (d.get (R.THR_N i) < thrOccupancy d i)
  if now == d.on (R.THR_ABOVE i) then d else
  let d := thrSync d
  let d := ((d.setB (R.THR_ABOVE i) now).set R.THRESH_ABOVE (d.get R.THRESH_ABOVE ^^^ 2 ^ i))
  let d := if now then (d.count 0xC (R.THR_CROSSINGS i)).latch 0xC 10 else d.latch 0xC 11
  if d.on (R.THR_TO_RING i) then
    let c := d.get (R.THR_COUNT i)
    telRecord d 0 ([3 + b2n now * 2 ^ 8 + i * 2 ^ 16] ++ timeWords d.tickTime 0 ++
      [c % 2 ^ 32, c / 2 ^ 32, d.get (R.THR_CROSSINGS i), d.get (R.THR_N i)])
  else d

/-! ## The rows -/

/-- WINDOW_CLOSE (R512). -/
def execWindowClose (p : Fin 256) (s : State) : Host.Outcome State Fault Refusal :=
  .next (s.setDev (if telOn s.d && !s.run.stopped then winClose s.d p else s.d))
/-- QUEUE_SAMPLE_SWEEP (R516). -/
def execQueueSampleSweep (s : State) : Host.Outcome State Fault Refusal :=
  .next (s.setDev (if s.run.stopped then s.d else sweep s.run s.d))
/-- THRESHOLD_CROSSING (R519): the tick's evaluation of one threshold counter. -/
def execThresholdCrossing (i : Fin 64) (s : State) : Host.Outcome State Fault Refusal :=
  .next (s.setDev (if telOn s.d && !s.run.stopped then thrEval s.d i else s.d))

end Sys2Proof.Machine
end

