-- ==== Sys2Proof/Machine/RingCore.lean ====
section
/-! DEFINITION. Token buckets, and descriptor rings: their registers, taking and completing descriptors (R344 to R348,
R350, R363). The rows are in Rings.lean. Rings 128 and 129 stand for the receive and transmit rings of MGMT0. -/

namespace Sys2Proof.Machine

/-! ## Token buckets -/

/-- The unit of a bucket's shortfall: bytes / (8,000,000 × 2^48), so that 1,000 bit/s fill one unit in 2^-48 ns. -/
def tokUnit : Nat := 8000000 * 2 ^ 48

/-- Elapsed device time; none passes when time has stepped back. -/
def elapsed (d : Dev) (since : Fld) : Nat := d.time - d.get since

/-- Fill a bucket at `rate` units per 2^-48 ns: the shortfall falls, and not below zero. -/
def fillBucket (d : Dev) (short since : Fld) (rate : Nat) : Dev :=
  d.setAll [(short, d.get short - rate * elapsed d since), (since, d.time)]

/-- Take bytes from a bucket. -/
def takeBucket (d : Dev) (short : Fld) (bytes : Nat) : Dev := d.set short (d.get short + bytes * tokUnit)

/-- The bucket holds less than zero. -/
def bucketNegative (d : Dev) (short : Fld) (cap : Nat) : Bool := decide (cap * tokUnit < d.get short)

/-- Whole bytes in a bucket, signed. -/
def bucketBytes (d : Dev) (short : Fld) (cap : Nat) : Int := (cap : Int) - ((d.get short + tokUnit - 1) / tokUnit : Nat)

/-! ## Ring registers -/

/-- A field of RING_CFG, or of table 0 of page 0x08 for the MGMT0 rings (R363). -/
def ringF (f : Nat → Fld) (lo w reset n : Nat) : Fld := if n < 128 then f n else tblFld 8 0 (n - 128) lo w reset

def ringEnableF (n : Nat) : Fld := ringF R.RING_ENABLE 0 1 0 n
def ringEnabled (d : Dev) (n : Nat) : Bool := d.on (ringEnableF n)
/-- 1 for a transmit ring. -/
def ringTx (d : Dev) (n : Nat) : Bool := if n < 128 then d.on (R.RING_DIR n) else n == 129
/-- Owned by management; the MGMT0 rings always are. -/
def ringMgmt (d : Dev) (n : Nat) : Bool := if n < 128 then d.on (R.RING_OWNER n) else true
def ringSize (d : Dev) (n : Nat) : Nat := 2 ^ d.get (ringF R.RING_SIZE_LOG 3 5 0 n)
def ringBufSize (d : Dev) (n : Nat) : Nat := d.get (ringF R.RING_BUF_SIZE 16 14 0 n)
def ringBase (d : Dev) (n : Nat) : Nat := d.get (ringF R.RING_BASE_ADDR 32 64 0 n)
def ringHeadF (n : Nat) : Fld := if n < 128 then R.RINGST_HEAD n else L.M0_HEAD (n - 128)
def ringTailF (n : Nat) : Fld := if n < 128 then R.RINGST_TAIL n else L.M0_TAIL (n - 128)
def ringErrorF (n : Nat) : Fld := if n < 128 then R.RINGST_ERROR n else L.M0_ERROR (n - 128)
def ringAckF (n : Nat) : Fld := if n < 128 then R.RING_ACK n else if n = 128 then R.MGMT0_ACK_RX else R.MGMT0_ACK_TX
/-- A counter of RING_STATS; the MGMT0 rings have none. -/
def ringStat (d : Dev) (n k c : Nat) : Dev := if n < 128 then d.count 0xB (R.RING_STATS n k) c else d

/-- The rings run: page 0x0B enabled for RING0–RING127 (R366), and page 0x08 for delivery to a management ring; for MGMT0, page 0x08 and MGMT0_CTRL.ENABLE (R363), out of
a management restart (R361). -/
def ringsOn (d : Dev) (n : Nat) : Bool :=
  if n < 128 then d.on (L.PAGE_ENABLE 0xB) && (!d.on (R.RING_OWNER n) || d.on (R.RING_DIR n) || d.on (L.PAGE_ENABLE 8))
  else d.on (L.PAGE_ENABLE 8) && d.on R.MGMT0_CTRL_ENABLE && !d.on R.MGMT_STATUS_RESTARTING

/-- The ring can take descriptors now: a host ring stands at its descriptor boundary while Bus Master Enable is clear (R31). -/
def ringRuns (d : Dev) (n : Nat) : Bool :=
  ringsOn d n && ringEnabled d n && !d.on (ringErrorF n) && (ringMgmt d n || !hostDmaOff d)

/-- Write bytes for a ring: to management memory under the range rights, or to the host. -/
def ringWrite (d : Dev) (n a : Nat) (bs : List Byte) : Dev × Bool :=
  if ringMgmt d n then dmaWrite d a bs else (d.emit (.dma false a bs), true)

/-- The ring stops with RING_STATE.ERROR (R347, R447). -/
def ringStop (d : Dev) (n : Nat) : Dev :=
  let d := d.set (ringErrorF n) 1
  if n < 128 then d.latch 0xB 0 else d.latch 8 8

/-- Descriptors of a ring that have been taken and are not complete. -/
def ringTaken (d : Dev) (n : Nat) : List RingDesc := d.descs.filter (·.ring == n)

/-- Index of the next descriptor to take. -/
def ringNext (d : Dev) (n : Nat) : Nat := (d.get (ringHeadF n) + (ringTaken d n).length) % ringSize d n

/-- The device owns a descriptor that it has not taken (R346). -/
def ringHasDesc (d : Dev) (n : Nat) : Bool := ringNext d n != d.get (ringTailF n)

/-- Take the next descriptor with these words; one with OWN 0 stops the ring (R347). -/
def ringTake (d : Dev) (n : Nat) (ws : List Nat) (frame : Option Nat) : Dev × Option Nat :=
  if !bitAt (ws.getD 7 0) 31 then (ringStop d n, none)
  else
    let ix := ringNext d n
    ({ d with descs := d.descs ++ [⟨n, ix, ws, frame, 0, 0, none⟩] }, some ix)

/-! ## Completion (R347) -/

/-- Write a completed descriptor back with OWN 0 and advance HEAD. -/
def ringWriteBack (d : Dev) (x : RingDesc) : Dev :=
  let ws := x.words.set 7 (x.words.getD 7 0 % 2 ^ 31)
  let w := ringWrite d x.ring (ringBase d x.ring + 32 * x.index) (wordBytes ws)
  if w.2 then
    let d1 := w.1.set (ringHeadF x.ring) ((x.index + 1) % ringSize w.1 x.ring)
    if x.ring < 128 then ringEval d1 w.1 x.ring else d1
  else ringStop w.1 x.ring

/-- The first taken descriptor of a ring. -/
def ringFirst (d : Dev) (n : Nat) : Option RingDesc := d.descs.find? (·.ring == n)

/-- Remove one descriptor from the taken ones. -/
def descRemove (d : Dev) (x : RingDesc) : Dev :=
  { d with descs := d.descs.filter fun y => !(y.ring == x.ring && y.index == x.index) }

/-- Write back the completed descriptors of a ring in index order, as far as they are complete. -/
def ringFlush (d : Dev) (n : Nat) : Nat → Dev
  | 0 => d
  | fuel + 1 =>
    if d.on (ringErrorF n) then d else
    match ringFirst d n with
    | some x =>
      match x.done with
      | some _ => ringFlush (ringWriteBack (descRemove d x) x) n fuel
      | none => d
    | none => d

/-- Give a taken descriptor its status and its final words; then complete in order (R347). -/
def descDone (d : Dev) (n ix : Nat) (f : List Nat → List Nat) (status : Nat) : Dev :=
  let d := { d with descs := d.descs.map fun x =>
    if x.ring == n && x.index == ix && x.done.isNone then { x with words := f x.words, done := some status } else x }
  ringFlush d n (d.descs.length)

/-- Replace bits [lo + w − 1 : lo] of a word. -/
def setBits (x lo w v : Nat) : Nat := x % 2 ^ lo + (v % 2 ^ w) * 2 ^ lo + x / 2 ^ (lo + w) * 2 ^ (lo + w)

/-- Words of a transmit descriptor with its STATUS and no timestamp (R350). -/
def txDescStatus (st : Nat) (ws : List Nat) : List Nat := ws.set 3 (setBits (setBits (ws.getD 3 0) 16 4 st) 20 3 0)

/-- Words of a transmit descriptor that reports a transmit timestamp (R349, R350). -/
def txDescStamp (t : Nat) (hold uncal : Bool) (ws : List Nat) : List Nat :=
  let w3 := setBits (setBits (ws.getD 3 0) 16 4 0) 20 3 (1 + 2 * b2n hold + 4 * b2n uncal)
  (((ws.set 3 w3).set 4 (nsOf t)).set 5 (secOf t % 2 ^ 32)).set 6 (secOf t / 2 ^ 32 % 2 ^ 16 + fracOf t * 2 ^ 16)

/-- A transmit descriptor that waits for a copy completes: SENT 0, DROPPED 3 (R350). -/
def txDescFinish (d : Dev) (desc : Option (Nat × Nat)) (st : Nat) (stamp : Option (Nat × Bool × Bool)) : Dev :=
  match desc with
  | some (n, ix) =>
    descDone d n ix (fun ws => match stamp with
      | some (t, h, u) => txDescStamp t h u ws
      | none => txDescStatus st ws) st
  | none => d

/-! ## The punt buckets (R352 to R354) -/

def ceilRate (d : Dev) : Nat := min 100000000 (max 100000 (d.get R.PUNT_CEILING_RATE))
def ceilBurst (d : Dev) : Nat := min 1048576 (max 16384 (d.get R.PUNT_CEILING_BURST))
/-- CLASS_RESERVE in force: TC0 and TC1 have at least 10 (R353). -/
def classReserve (d : Dev) (c : Nat) : Nat := if c < 2 then max 10 (d.get (R.CLASS_RESERVE c)) else d.get (R.CLASS_RESERVE c)

/-- CLASS_BURST in force (R364). -/
def classBurst (d : Dev) (c : Nat) : Nat := max 16384 (d.get (R.CLASS_BURST c))

/-- Fill the ceiling bucket and every reserve bucket. -/
def puntFill (d : Dev) : Dev :=
  let d := fillBucket d L.CEIL_DEF L.CEIL_SINCE (ceilRate d)
  d.each 16 fun c d => if classReserve d c = 0 then d else fillBucket d (L.RES_DEF c) (L.RES_SINCE c) (ceilRate d * classReserve d c)

/-- A class has a reserve bucket, and it is at zero or above. -/
def reserveOk (d : Dev) (c : Nat) : Bool :=
  classReserve d c != 0 && decide (d.get (L.RES_DEF c) ≤ ceilBurst d * classReserve d c * tokUnit)

/-- Charge a delivery of ring `n` in a tier: 1 charges both buckets, 2 the ceiling bucket only (R352). -/
def puntCharge (d : Dev) (n tier bytes : Nat) : Dev :=
  if tier = 0 then d
  else
    let d := takeBucket d L.CEIL_DEF bytes
    let f := L.RING_DEFICIT n (tier - 1)
    let d := d.set f (d.get f - bytes)
    if tier = 1 then takeBucket d (L.RES_DEF (d.get (R.RING_TRAP_CLASS n))) (100 * bytes) else d

/-! ## Receive descriptors (R348) -/

/-- Words W2 to W7 of a receive descriptor for a frame (R344). For MGMT0, `f` carries none of the fabric's fields. -/
def rxDescWords (f : Frame) (len status : Nat) (ws : List Nat) : List Nat :=
  let w2 := len % 2 ^ 14 + f.src % 256 * 2 ^ 16 + b2n f.fromRing * 2 ^ 24 + f.secStatus * 2 ^ 25 + f.bypassClass * 2 ^ 27
  let w3 := f.rule.getD 0 + b2n f.rule.isSome * 2 ^ 13 + status * 2 ^ 16 + b2n f.stamped * 2 ^ 20 +
    b2n (f.stamped && f.tsHold) * 2 ^ 21 + b2n (f.stamped && f.tsUncal) * 2 ^ 22
  let t := if f.stamped then f.stamp else 0
  [ws.getD 0 0, ws.getD 1 0, w2, w3, nsOf t, secOf t % 2 ^ 32, secOf t / 2 ^ 32 % 2 ^ 16 + fracOf t * 2 ^ 16,
    f.secy.getD 0 + b2n f.secy.isSome * 2 ^ 12]

/-- The frame of a receive descriptor has ended: its bytes, or zeros over what was written, go to the buffer, then the
descriptor is completed (R348). STATUS 6 is a frame beyond BUF_SIZE. -/
def rxDescEnd (d : Dev) (x : RingDesc) (f : Frame) : Dev :=
  let n := x.ring
  if d.on (ringErrorF n) then descRemove d x else
  let size := ringBufSize d n
  let status := if f.status ≠ 0 then f.status else if size < f.plain.length then 6 else 0
  let len := if status = 6 then size else f.plain.length
  let data := if status = 0 then f.plain else List.replicate (min size f.plain.length) (0 : Byte)
  let w := ringWrite d n (x.words.getD 0 0 + x.words.getD 1 0 * 2 ^ 32) data
  if w.2 then
    let d := puntCharge (descDone w.1 n x.index (rxDescWords f len status) status) n x.tier (len + 4 - x.charged)
    let d := ringStat d n 0 1
    let d := ringStat d n 1 len
    ringStat d n 2 (b2n (status != 0))
  else ringStop (descRemove w.1 x) n

end Sys2Proof.Machine
end

