-- ==== Sys2Proof/Machine/Credit.lean ====
section
/-! DEFINITION. Gate states in force (R321) and the credit of the credit-based shaper (R315, R316), with the port shaper's
tokens (R317). -/

namespace Sys2Proof.Machine

/-- Gate page of a port. -/
def gatePage (p : Nat) : Nat := 0x80 + p / 32

/-- GATE_ENABLE of port `p` is in force: it is 1, or the write of 0 has not taken effect (R321). -/
def gateEnabled (d : Dev) (p : Nat) : Bool := d.on (R.GATE_GATE_ENABLE p) || d.posted.any fun x => x.2 == .gateOff p

/-- The gates of port `p` follow a list or ADMIN_GATE_STATES: page enabled and GATE_ENABLE in force (R321). -/
def gatesOn (d : Dev) (p : Nat) : Bool := d.on (L.PAGE_ENABLE (gatePage p)) && gateEnabled d p

/-- Gate states in force now (R321). -/
def gateStates (d : Dev) (p : Nat) : Nat :=
  if !gatesOn d p then 0xFFFF else if d.on (L.GATE_RUN p) then d.get (R.GATE_OPER_GATE_STATES p)
  else d.get (R.GATE_ADMIN_GATE_STATES p)

/-! ## Credit (R315) -/

/-- Credit in units of bits / (1,000,000 × 2^48): 1,000 bit/s add one unit in 2^-48 ns. -/
def creditUnit : Nat := 1000000 * 2 ^ 48

/-- idleSlope in units of 1,000 bit/s, at most the port's rate (R316). -/
def idleSlope (d : Dev) (g : Nat) : Nat := min (d.get (R.QSCHED_IDLE_SLOPE g)) (portGbps d (g / 16) * 1000000)

/-- Overlap of two spans. -/
def overlap (a b c e : Nat) : Nat := min b e - max a c

/-- Time between `since` and now in which the queue was transmitting: the fragments on the line, a cut-through copy until now, and the rest
of a copy whose bytes have all been handed over. -/
def cbsBusy (d : Dev) (g since : Nat) : Nat :=
  ((d.txs.filter fun t => t.copy.queue == g && !t.suspended).map fun t =>
    let a := t.start + (t.fragStart - t.phys)
    overlap since d.time a (if t.cut then d.time else a + lineSpan d t.port t.fragStart (t.s - t.sent))).sum +
  overlap since d.time since (d.get (L.CBS_HOLD g))

/-- Bring the credit of queue `g` up to now (R315): it rises while the queue holds copies and is not transmitting, rises to
zero while the queue is empty, and is held while the gate is closed. -/
def cbsSync (d : Dev) (g : Nat) : Dev :=
  if 4096 ≤ g then d else
  let since := d.get (L.CBS_SINCE g)
  let e := d.time - since
  let d' := d.set (L.CBS_SINCE g) d.time
  if !d.on (R.QSCHED_CBS_EN g) || !bitAt (gateStates d (g / 16)) (g % 16) then d' else
  let c := d.getS (L.CBS_FINE g)
  let up : Int := (idleSlope d g * (e - cbsBusy d g since) : Nat)
  if (queueHead d g).isSome then d'.setS (L.CBS_FINE g) (c + up)
  else d'.setS (L.CBS_FINE g) (if c < 0 then min 0 (c + up) else 0)

/-- Bring every queue of a port up to now; done before its gate states change. -/
def cbsSyncPort (d : Dev) (p : Nat) : Dev := d.each 16 fun q d => cbsSync d (16 * p + q)

/-- At the issue of a copy of S line bytes the credit falls by S × 8 × (rate − idleSlope) / rate bits (R315). -/
def cbsTake (d : Dev) (g s : Nat) : Dev :=
  if !d.on (R.QSCHED_CBS_EN g) then d else
  let rate := portGbps d (g / 16) * 1000000
  d.setS (L.CBS_FINE g) (d.getS (L.CBS_FINE g) - (s * 8 * creditUnit * (rate - idleSlope d g) / rate : Nat))

/-- Whole bits of credit (R334). -/
def creditBits (d : Dev) (g : Nat) : Int := d.getS (L.CBS_FINE g) / (creditUnit : Int)

/-! ## Port shaper (R317) -/

/-- SHAPER_BURST in force. -/
def shaperBurst (d : Dev) (p : Nat) : Nat := max 16052 (d.get (R.PSCHED_SHAPER_BURST p))
/-- The shaper of a port acts. -/
def shaperOn (d : Dev) (p : Nat) : Bool :=
  d.get (R.PSCHED_SHAPER_RATE p) != 0 && decide (d.get (R.PSCHED_SHAPER_RATE p) < portGbps d p * 1000)
/-- Fill the bucket up to now. -/
def shaperFill (d : Dev) (p : Nat) : Dev :=
  if shaperOn d p then fillBucket d (L.SHP_DEF p) (L.SHP_SINCE p) (d.get (R.PSCHED_SHAPER_RATE p) * 1000)
  else d.setAll [(L.SHP_DEF p, 0), (L.SHP_SINCE p, d.time)]
/-- Its tokens are zero or above. -/
def shaperOk (d : Dev) (p : Nat) : Bool := !bucketNegative d (L.SHP_DEF p) (shaperBurst d p)

end Sys2Proof.Machine
end

