-- ==== Sys2Proof/Machine/SecY.lean ====
section
/-! DEFINITION. SecYs and security associations: their states (R190 to R193), the event queue (R198), key loading
(R178, R203), switching and rollover on transmit (R183, R226 to R229, R235), and the rows that act on SAs. -/

namespace Sys2Proof.Machine

/-- SA states (R176). -/
def saEmpty : Nat := 0
def saLoaded : Nat := 1
def saInService : Nat := 2
def saDraining : Nat := 3
def saExhausted : Nat := 4

/-- State field of an SA; `rx` names the direction. -/
def saStateF (rx : Bool) (i : Nat) : Fld := if rx then R.RXSA_STATE i else R.TXSA_STATE i
def saState (d : Dev) (rx : Bool) (i : Nat) : Nat := d.get (saStateF rx i)
def saKeyPresentF (rx : Bool) (i : Nat) : Fld := if rx then R.RXSA_KEY_PRESENT i else R.TXSA_KEY_PRESENT i
def saParentF (rx : Bool) (i : Nat) : Fld := if rx then R.RXSA_PARENT i else R.TXSA_PARENT i
def saParentValidF (rx : Bool) (i : Nat) : Fld := if rx then R.RXSA_PARENT_VALID i else R.TXSA_PARENT_VALID i
def saParentLostF (rx : Bool) (i : Nat) : Fld := if rx then R.RXSA_PARENT_LOST i else R.TXSA_PARENT_LOST i
def saOnLossF (rx : Bool) (i : Nat) : Fld := if rx then R.RXSA_ON_PARENT_LOSS i else R.TXSA_ON_PARENT_LOSS i
def saEraseAtF (rx : Bool) (i : Nat) : Fld := if rx then R.RXSA_ERASE_AT_WP i else R.TXSA_ERASE_AT_WP i

/-- Number of SAs of a direction. -/
def numSa (rx : Bool) : Nat := if rx then 65536 else 16384
/-- Place of an SA in the key store (table 7). -/
def saKeyIx (rx : Bool) (i : Nat) : Nat := if rx then 16384 + i else i
/-- Table of an SA's entry. -/
def saTable (rx : Bool) : Nat := if rx then 3 else 1

/-- Counter `k` of entry `i` of one of the tables 8 to 13 of page 0x70 (R195). -/
def secStat (table i k : Nat) : Fld := tblFld 0x70 table i (64 * k) 64 0

/-- SecY of a transmit SA. -/
def txSecy (i : Nat) : Nat := i / 4
/-- SecY of a receive SA: that of its receive SC (R177). -/
def rxSecy (d : Dev) (i : Nat) : Nat := d.get (R.RXSC_SECY (i / 4))
def saSecy (d : Dev) (rx : Bool) (i : Nat) : Nat := if rx then rxSecy d i else txSecy i

/-- The suite is an XPN suite; its key is 32 bytes (R173). -/
def suiteXpn (suite : Nat) : Bool := decide (2 ≤ suite)
def suiteKeyLen (suite : Nat) : Nat := if suite % 2 = 1 then 32 else 16
/-- The last PN of a suite (R238). -/
def lastPn (suite : Nat) : Nat := if suiteXpn suite then 2 ^ 64 - 1 else 2 ^ 32 - 1

/-- A SecY is VALID and the page is enabled (R164). -/
def secyValid (d : Dev) (s : Nat) : Bool := d.on (L.PAGE_ENABLE 0x70) && d.on (R.SECY_VALID s)

/-! ## The event queue (R198) -/

/-- Region of an SA. -/
def saRegion (rx : Bool) (i : Nat) : Nat := if rx then i / 2048 else i / 512

/-- Queue a record: KIND 0 THRESHOLD, 1 EXHAUSTED, 2 ROLLOVER, 3 EMPTIED, 4 PARENT_LOST. -/
def saRecord (d : Dev) (rx : Bool) (i kind : Nat) : Dev :=
  let w := i + b2n rx * 2 ^ 17 + kind * 2 ^ 20 + 2 ^ 31
  let d :=
    if d.saEvents.length < 256 then { d with saEvents := d.saEvents ++ [w] }
    else (d.count 0x70 R.SA_EVT_LOST).set R.SA_EVT_STATUS_OVERFLOW 1
  d.latch 0x70 (saRegion rx i)

/-! ## Keys -/

/-- Zero key, hash subkey and salt of an SA (R191). -/
def saZeroKey (d : Dev) (rx : Bool) (i : Nat) : Dev :=
  d.setAll [(L.SA_KEY (saKeyIx rx i), 0), (L.SA_SALT (saKeyIx rx i), 0), (saKeyPresentF rx i, 0)]

/-- The pending switch of a SecY ends: SWITCH_PENDING clears. -/
def switchClear (d : Dev) (s : Nat) : Dev := d.setAll [(R.SECY_SWITCH_PENDING s, 0), (L.SW_AT_V s, 0), (L.SW_AT s, 0)]

/-- Transmit SA `i` is the one that a pending switch of its SecY names. -/
def switchNames (d : Dev) (i : Nat) : Bool :=
  d.on (R.SECY_SWITCH_PENDING (txSecy i)) && d.get (R.SECY_PENDING_AN (txSecy i)) == i % 4

/-- A named SA leaves LOADED other than into service: the switch is cancelled (R229). -/
def switchCancel (d : Dev) (rx : Bool) (i : Nat) : Dev :=
  if !rx && switchNames d i then
    switchClear (portCount d (d.get (R.SECY_PORT (txSecy i))) (R.SWITCH_CANCELLED (d.get (R.SECY_PORT (txSecy i))))) (txSecy i)
  else d

/-- Scheduled actions on transmit SA `i` go with the SA. -/
def saHeldDrop (d : Dev) (i : Nat) : Dev := { d with txHeld := d.txHeld.filter (·.1 != i) }

/-- An SA reads EMPTY: key and every field of its entry are zero. -/
def saToEmpty (d : Dev) (rx : Bool) (i : Nat) : Dev :=
  let d := if saState d rx i = saLoaded then switchCancel d rx i else d
  let d := if rx then d else saHeldDrop d i
  let d := saZeroKey d rx i
  let d := if rx then d.setAll [(L.RXSA_FROM_V i, 0), (L.RXSA_FROM i, 0), (L.RXSA_UNTIL_V i, 0), (L.RXSA_UNTIL i, 0)] else d.set (L.SA_FRAMES i) 0
  d.clearEntry 0x70 (saTable rx) i

/-- An SA enters DRAINING (R190). -/
def saToDraining (d : Dev) (rx : Bool) (i : Nat) : Dev := d.set (saStateF rx i) saDraining

/-- An SA enters EXHAUSTED: its key is zeroed, its other fields stay, and a record is queued (R191, R198). -/
def saToExhausted (d : Dev) (rx : Bool) (i : Nat) : Dev :=
  saRecord (saZeroKey (d.set (saStateF rx i) saExhausted) rx i) rx i 1

/-- A DRAINING SA is empty now (R191, R198). -/
def saDrained (d : Dev) (rx : Bool) (i : Nat) : Dev :=
  if saState d rx i = saDraining then saRecord (saToEmpty d rx i) rx i 3 else d

/-- CLEAR of table 1 or 3 (R190): the entry is empty at once, or it drains. -/
def saClear (d : Dev) (rx : Bool) (i : Nat) : Dev :=
  let st := saState d rx i
  if st = saInService then saToDraining d rx i
  else if st = saDraining then d
  else if st = saEmpty then d
  else saToEmpty d rx i

/-- The SA's parent is lost under ERASE_NOW, or its ERASE_AT waypoint executes (R190). -/
def saErase (d : Dev) (rx : Bool) (i : Nat) : Dev :=
  let st := saState d rx i
  if st = saInService then saToDraining d rx i
  else if st = saLoaded ∨ st = saExhausted then saToEmpty d rx i
  else d

/-- The SA's parent is lost under KEEP, or under ERASE_AT before its waypoint: PARENT_LOST and a record (R190, R198). -/
def saParentLost (d : Dev) (rx : Bool) (i : Nat) : Dev :=
  if saState d rx i = saEmpty ∨ d.on (saParentLostF rx i) then d
  else saRecord (d.set (saParentLostF rx i) 1) rx i 4

/-- Code of a key load into an SA under the state rules (R190); OK when it may proceed. -/
def saLoadCode (d : Dev) (rx : Bool) (i : Nat) : Nat :=
  let st := saState d rx i
  if st = saEmpty then codeOk else if st = saInService then codeSaInService else codeState

/-- Load a key and salt into an EMPTY SA (R178, R203, R240): a failed check leaves it EMPTY with ERR_INTEGRITY and raises
AL52. A parent is set when the key comes through a vault command. -/
def saLoadKey (d : Dev) (rx : Bool) (i key salt : Nat) (parent : Option Nat) : Dev × Nat :=
  let c := saLoadCode d rx i
  if c ≠ codeOk then (d, c)
  else if d.on L.SA_LOAD_FAULT then ((d.set L.SA_LOAD_FAULT 0).alarm 52, codeIntegrity)
  else
    let d := d.satAdd (L.SA_LOADS (saKeyIx rx i)) 1
    let d := d.setAll [(L.SA_KEY (saKeyIx rx i), key), (L.SA_SALT (saKeyIx rx i), salt), (saKeyPresentF rx i, 1),
      (saStateF rx i, saLoaded), (saParentF rx i, parent.getD 0), (saParentValidF rx i, b2n parent.isSome)]
    (if rx then d else d.set (L.SA_FRAMES i) 0, codeOk)

/-! ## Entering and leaving service -/

/-- A transmit SA of the SecY is IN_SERVICE. -/
def secyInService (d : Dev) (s : Nat) : Bool := (List.range 4).any fun a => saState d false (4 * s + a) == saInService

/-- A named SA has entered service other than by the switch itself: the switch is satisfied (R229). -/
def switchSatisfied (d : Dev) (i : Nat) : Dev := if switchNames d i then switchClear d (txSecy i) else d

/-- SA_ENABLE by waypoint or SA_CMD (R190, R231): `from` is the T of a waypoint on a receive SA. -/
def saEnable (d : Dev) (rx : Bool) (i : Nat) (at? : Option Nat) : Dev × Nat :=
  if saState d rx i ≠ saLoaded then (d, codeState)
  else if rx then
    let d := d.set (saStateF true i) saInService
    (d.setAll [(L.RXSA_FROM_V i, b2n at?.isSome), (L.RXSA_FROM i, at?.getD 0), (L.RXSA_UNTIL_V i, 0), (L.RXSA_UNTIL i, 0)], codeOk)
  else if secyInService d (txSecy i) then (d, codeState)
  else
    ((switchSatisfied (d.set (saStateF false i) saInService) i).set (R.SECY_ENCODING_AN (txSecy i)) (i % 4), codeOk)

/-- SA_RETIRE by waypoint or SA_CMD (R190, R231): a receive SA retired at T drains once every frame stamped before T has
been parsed, and is not retired a second time meanwhile; every other SA drains at once. -/
def saRetire (d : Dev) (rx : Bool) (i : Nat) (at? : Option Nat) : Dev × Nat :=
  if saState d rx i ≠ saInService ∨ (rx ∧ d.on (L.RXSA_UNTIL_V i)) then (d, codeState)
  else if rx then
    match at? with
    | some t => (d.setAll [(L.RXSA_UNTIL_V i, 1), (L.RXSA_UNTIL i, t)], codeOk)
    | none => (saToDraining d true i, codeOk)
  else (saToDraining d false i, codeOk)

/-- Does receive SA `i` serve a frame stamped `stamp`? (R191, R231) -/
def rxSaServes (d : Dev) (i stamp : Nat) : Bool :=
  saState d true i == saInService &&
  (!d.on (L.RXSA_FROM_V i) || decide (d.get (L.RXSA_FROM i) ≤ stamp)) &&
  (!d.on (L.RXSA_UNTIL_V i) || decide (stamp < d.get (L.RXSA_UNTIL i)))

/-- The retired receive SA enters DRAINING (R231). -/
def rxSaDrainStart (d : Dev) (i : Nat) : Dev :=
  if saState d true i = saInService ∧ d.on (L.RXSA_UNTIL_V i) then saToDraining d true i else d

/-! ## Scheduled admission and retirement on transmit (R18, R89) -/

/-- A scheduled action takes effect. -/
def heldAct (d : Dev) (x : Nat × Bool × Nat) : Dev :=
  if x.2.1 then (saEnable d false x.1 none).1 else (saRetire d false x.1 none).1

/-- Those that `due` selects take effect, in order of execution. -/
def heldApply (d : Dev) (due : Nat × Bool × Nat → Bool) : Dev :=
  (d.txHeld.filter due).foldl heldAct { d with txHeld := d.txHeld.filter fun x => !due x }

/-- The scheduled actions of SecY `s` that govern a frame whose transmission starts at `t`. -/
def heldFor (s t : Nat) (x : Nat × Bool × Nat) : Bool := txSecy x.1 == s && decide (x.2.2 ≤ t)

/-- SA_ENABLE or SA_RETIRE of transmit SA `i` is scheduled for `t`: its precondition is judged as it will stand then, and it takes effect on
the first frame whose transmission starts at or after `t`, or at that tick (R18, R89, R190). -/
def saSchedule (d : Dev) (enable : Bool) (i t : Nat) : Dev × Nat :=
  let e := heldApply d (heldFor (txSecy i) t)
  let c := if enable then (saEnable e false i none).2 else (saRetire e false i none).2
  if c = codeOk then ({ d with txHeld := d.txHeld ++ [(i, enable, t)] }, codeOk) else (d, c)

/-- The scheduled actions whose instant this tick has reached. -/
def heldTick (d : Dev) : Dev := heldApply d fun x => decide (x.2.2 ≤ d.tickTime)

/-! ## Transmit selection (R183, R227) -/

/-- The pending switch of SecY `s` is taken by a copy with planned start `t`: it has no instant, or `t` is at or after it. -/
def switchDue (d : Dev) (s t : Nat) : Bool :=
  d.on (R.SECY_SWITCH_PENDING s) && (!d.on (L.SW_AT_V s) || decide (d.get (L.SW_AT s) ≤ t))

/-- The switch is taken (R227, R235). -/
def switchTake (d : Dev) (s : Nat) : Dev :=
  let cur := 4 * s + d.get (R.SECY_ENCODING_AN s)
  let an := d.get (R.SECY_PENDING_AN s)
  let d := if saState d false cur = saInService then saToDraining d false cur else d
  let d := (d.set (saStateF false (4 * s + an)) saInService).set (R.SECY_ENCODING_AN s) an
  let p := d.get (R.SECY_PORT s)
  switchClear (portCount d p (R.SWITCH_TAKEN p)) s

/-- select_tx_sa at the issue of a copy of SecY `s` with planned start `t` (R183, R227). -/
def selectTxSa (d : Dev) (s t : Nat) : Dev × Option Nat :=
  let d := heldApply d (heldFor s t)
  let d := if switchDue d s t then switchTake d s else d
  let an := d.get (R.SECY_ENCODING_AN s)
  let cur := 4 * s + an
  if saState d false cur = saInService then (d, some cur)
  else
    let nxt := 4 * s + (an + 1) % 4
    if (saState d false cur = saExhausted ∨ saState d false cur = saDraining) ∧ saState d false nxt = saLoaded ∧
        d.on (R.TXSA_ROLLOVER nxt) then
      let d := (d.set (saStateF false nxt) saInService).set (R.SECY_ENCODING_AN s) ((an + 1) % 4)
      (saRecord (switchSatisfied d nxt) false nxt 2, some nxt)
    else (d, none)

/-- PN threshold of a transmit SA (R237). -/
def pnThreshold (d : Dev) (i suite : Nat) : Nat :=
  let t := d.get (R.TXSA_PN_THRESHOLD i)
  if t ≠ 0 then t else if suiteXpn suite then 2 ^ 62 else 0xC0000000

/-- A copy takes the next PN of transmit SA `i` (R237, R238, R240): the PN, the threshold, and exhaustion by the last PN
or by FRAME_LIMIT. -/
def takePn (d : Dev) (i : Nat) : Dev × Nat :=
  let s := txSecy i
  let suite := d.get (R.SECY_CIPHER_SUITE s)
  let pn := d.get (R.TXSA_NEXT_PN i)
  let d := if pnThreshold d i suite ≤ pn ∧ ¬ d.on (R.TXSA_THRESHOLD_HIT i) then
      saRecord (d.set (R.TXSA_THRESHOLD_HIT i) 1) false i 0 else d
  let n := min (d.get (L.SA_FRAMES i) + 1) (2 ^ 32 - 1)
  let d := d.set (L.SA_FRAMES i) n
  let limited := d.on (R.SECY_LIMIT_MODE s) && d.get (R.TXSA_FRAME_LIMIT i) != 0 && decide (d.get (R.TXSA_FRAME_LIMIT i) ≤ n)
  let last := decide (lastPn suite ≤ pn)
  let d := if last then d else d.set (R.TXSA_NEXT_PN i) (pn + 1)
  let d := if limited then d.set (R.TXSA_LIMIT_REACHED i) 1 else d
  (if last || limited then saToExhausted d false i else d, pn)

/-! ## SA_CMD (R193, R197) -/

/-- An SA_CMD operation acts, in the tick after its write: ENABLE or RETIRE. -/
def saCmdApply (d : Dev) (enable rx : Bool) (i : Nat) : Dev :=
  let r := if numSa rx ≤ i then (d, codeArg) else if enable then saEnable d rx i none else saRetire d rx i none
  r.1.setAll [(R.SA_CMD_STATUS_CODE, r.2), (R.SA_CMD_STATUS_BUSY, 0)]

/-- SA_CMD is written: the operation waits for the next tick, and a write while one waits is ignored. -/
def saCmd (d : Dev) (enable rx : Bool) (i : Nat) : Dev :=
  if d.on R.SA_CMD_STATUS_BUSY then d
  else (d.setAll [(R.SA_CMD_STATUS_CODE, codeRunning), (R.SA_CMD_STATUS_BUSY, 1)]).post (.saCmd enable rx i)

/-! ## The rows -/

/-- SA_CMD_ENABLE (R193). -/
def execSaCmdEnable (rx : Bool) (index : BitVec 17) (s : State) : Host.Outcome State Fault Refusal :=
  .next (s.setDev (if s.live 0x70 then saCmd s.d true rx index.toNat else s.d))
/-- SA_CMD_RETIRE (R193). -/
def execSaCmdRetire (rx : Bool) (index : BitVec 17) (s : State) : Host.Outcome State Fault Refusal :=
  .next (s.setDev (if s.live 0x70 then saCmd s.d false rx index.toNat else s.d))
/-- SA_DRAIN_COMPLETE (R191). -/
def execSaDrainComplete (rx : Bool) (index : BitVec 17) (s : State) : Host.Outcome State Fault Refusal :=
  s.lanes fun d => if index.toNat < numSa rx then saDrained d rx index.toNat else d
/-- RX_SA_DRAINING (R231). -/
def execRxSaDraining (index : BitVec 16) (s : State) : Host.Outcome State Fault Refusal :=
  s.lanes fun d => rxSaDrainStart d index.toNat

end Sys2Proof.Machine
end

