-- ==== Sys2Proof/Machine/Wire.lean ====
section
/-! DEFINITION. Reading and rewriting the bytes of an Ethernet frame: VLAN tags, EtherType, bypass matching fields, the
fields of the classifier key (R283), the PTP header of R243, and the tag rewriting of R294 and R320. -/

namespace Sys2Proof.Machine

/-- Big-endian value of `n` bytes at `i`; `none` unless they lie wholly in the string. -/
def fieldAt (bs : List Byte) (i n : Nat) : Option Nat :=
  if i + n ≤ bs.length then some (beVal ((bs.drop i).take n)) else none

/-- The same, zero when the bytes do not lie wholly in the string (R283). -/
def fieldZ (bs : List Byte) (i n : Nat) : Nat := (fieldAt bs i n).getD 0

/-- A TPID of a VLAN tag (R166). -/
def isTpid (t : Nat) : Bool := t == 0x8100 || t == 0x88A8

/-- Number of VLAN tags the classifier looks past: zero, one or two (R170). -/
def numTags (bs : List Byte) : Nat :=
  if isTpid (fieldZ bs 12 2) && decide (18 ≤ bs.length) then
    (if isTpid (fieldZ bs 16 2) && decide (22 ≤ bs.length) then 2 else 1)
  else 0

/-- EtherType after zero, one or two tags (R170). -/
def etherType (bs : List Byte) : Nat := fieldZ bs (12 + 4 * numTags bs) 2

/-- The outer tag's control field: PCP, DEI and VID; zero without a tag. -/
def outerTci (bs : List Byte) : Nat := if numTags bs = 0 then 0 else fieldZ bs 14 2
/-- VID of the outer tag, or 0 (R166). -/
def outerVid (bs : List Byte) : Nat := outerTci bs % 4096
def outerPcp (bs : List Byte) : Nat := outerTci bs / 8192
def outerDei (bs : List Byte) : Nat := outerTci bs / 4096 % 2
/-- VID of the second tag, or 0. -/
def innerVid (bs : List Byte) : Nat := if numTags bs = 2 then fieldZ bs 18 2 % 4096 else 0

/-- Destination and source address. -/
def daOf (bs : List Byte) : Nat := fieldZ bs 0 6
def saOf (bs : List Byte) : Nat := fieldZ bs 6 6
/-- Is an address a group address? -/
def isGroup (mac : Nat) : Bool := mac / 2 ^ 40 % 2 == 1

/-! ## Layer 3 and 4 (R283, R286) -/

/-- Offset of the layer-3 header. -/
def l3Off (bs : List Byte) : Nat := 14 + 4 * numTags bs
/-- 0 none, 1 IPv4, 2 IPv6. -/
def l3Type (bs : List Byte) : Nat := if etherType bs = 0x0800 then 1 else if etherType bs = 0x86DD then 2 else 0

/-- IPv6 next headers that are extension headers: L4 fields are then zero (R286). -/
def isV6Ext (n : Nat) : Bool := n == 0 || n == 43 || n == 44 || n == 50 || n == 51 || n == 60 || n == 135 || n == 139 || n == 140

/-- Protocol: that of IPv4, or the first next header of IPv6. -/
def ipProto (bs : List Byte) : Nat :=
  if l3Type bs = 1 then fieldZ bs (l3Off bs + 9) 1 else if l3Type bs = 2 then fieldZ bs (l3Off bs + 6) 1 else 0

/-- IPv4 fragment field: MF and the offset. -/
def v4Frag (bs : List Byte) : Nat := if l3Type bs = 1 then fieldZ bs (l3Off bs + 6) 2 % 0x4000 else 0

/-- FRAGMENT: MF or a nonzero offset, or IPv6 next header 44. -/
def isFragment (bs : List Byte) : Bool := v4Frag bs != 0 || (l3Type bs == 2 && ipProto bs == 44)

/-- DSCP. -/
def dscpOf (bs : List Byte) : Nat :=
  if l3Type bs = 1 then fieldZ bs (l3Off bs + 1) 1 / 4
  else if l3Type bs = 2 then fieldZ bs (l3Off bs) 2 / 64 % 64 else 0

/-- Offset of the layer-4 header, when the frame carries one the classifier reads. -/
def l4Off (bs : List Byte) : Option Nat :=
  if l3Type bs = 1 then
    if v4Frag bs % 0x2000 = 0 then some (l3Off bs + 4 * (fieldZ bs (l3Off bs) 1 % 16)) else none
  else if l3Type bs = 2 then (if isV6Ext (ipProto bs) then none else some (l3Off bs + 40))
  else none

/-- The frame carries TCP or UDP where the classifier reads it. -/
def l4Ports (bs : List Byte) (k : Nat) : Nat :=
  match l4Off bs with
  | some o => if ipProto bs = 6 ∨ ipProto bs = 17 then fieldZ bs (o + k) 2 else 0
  | none => 0

/-- TCP flags. -/
def tcpFlags (bs : List Byte) : Nat :=
  match l4Off bs with
  | some o => if ipProto bs = 6 then fieldZ bs (o + 13) 1 else 0
  | none => 0

/-- IP_ADDR under ADDR_SEL (R283). -/
def ipAddr (bs : List Byte) (sel : Nat) : Nat :=
  if sel = 0 then (if l3Type bs = 1 then fieldZ bs (l3Off bs + 12) 4 * 2 ^ 32 + fieldZ bs (l3Off bs + 16) 4 else 0)
  else if l3Type bs = 2 then (if sel = 1 then fieldZ bs (l3Off bs + 8) 16 else if sel = 2 then fieldZ bs (l3Off bs + 24) 16 else 0)
  else 0

/-! ## PTP (R81, R243) -/

/-- Offset of the PTP header in one of the three carriers of R243, when it lies in the frame. -/
def ptpOff (bs : List Byte) : Option Nat :=
  let o := l3Off bs
  let at? (i : Nat) : Option Nat := if i + 34 ≤ bs.length then some i else none
  if etherType bs = 0x88F7 then at? o
  else if l3Type bs = 1 then
    if ipProto bs = 17 ∧ v4Frag bs % 0x2000 = 0 then
      let u := o + 4 * (fieldZ bs o 1 % 16)
      if fieldZ bs (u + 2) 2 = 319 then at? (u + 8) else none
    else none
  else if l3Type bs = 2 then
    if ipProto bs = 17 ∧ fieldZ bs (o + 42) 2 = 319 then at? (o + 48) else none
  else none

/-- A PTP event message: message type 0 to 3 of IEEE 1588 (R81). -/
def isPtpEvent (bs : List Byte) : Bool :=
  match ptpOff bs with
  | some o => decide (fieldZ bs o 1 % 16 < 4)
  | none => false

/-- Replace the bytes at `i`. -/
def putBytes (bs : List Byte) (i : Nat) (v : List Byte) : List Byte := bs.take i ++ v ++ bs.drop (i + v.length)

/-- Fold a sum into 16 bits of ones' complement. -/
def onesFold (x : Nat) : Nat := let y := x % 65536 + x / 65536; let z := y % 65536 + y / 65536; z % 65536 + z / 65536

/-- Sum of 16-bit words of a string, padded at its end. -/
def wordSum (bs : List Byte) : Nat := ((Crypto.chunked 2 bs).map fun c => beVal (Crypto.padTo 2 c)).sum

/-- Write PTP fields: correctionField, and originTimestamp when given; then the UDP checksum (R243). The incremental method
of RFC 1624 is applied over the changed 16-bit words. -/
def ptpWrite (bs : List Byte) (o : Nat) (corr : List Byte) (origin : Option (List Byte)) : List Byte :=
  let b1 := putBytes bs (o + 8) corr
  let b2 := match origin with
    | some t => putBytes b1 (o + 34) t
    | none => b1
  if l3Type bs = 1 then putBytes b2 (o - 2) [0, 0]
  else if l3Type bs = 2 then
    let old := wordSum ((bs.drop (o - 8)).take 52 |>.drop 8)
    let new := wordSum ((b2.drop (o - 8)).take 52 |>.drop 8)
    let hc := fieldZ bs (o - 2) 2
    let s := onesFold ((65535 - hc) + (65535 - onesFold old) + onesFold new)
    let c := 65535 - s
    putBytes b2 (o - 2) (beBytes 2 (if c = 0 then 65535 else c))
  else b2

/-! ## Tag rewriting (R294, R320) -/

/-- A tag's control field. -/
def tci (pcp dei vid : Nat) : Nat := pcp * 8192 + dei * 4096 + vid

/-- The bytes of a copy as handed to its port, before the padding of R181. -/
def editTags (e : TagEdit) (bs : List Byte) : List Byte :=
  let tagged := numTags bs != 0
  let dei := if e.dei then 1 else outerDei bs
  if e.normal then
    if e.untag then (if tagged then bs.take 12 ++ bs.drop 16 else bs)
    else if tagged then putBytes bs 14 (beBytes 2 (tci e.pcp dei e.vid))
    else bs.take 12 ++ beBytes 2 0x8100 ++ beBytes 2 (tci e.pcp (if e.dei then 1 else 0) e.vid) ++ bs.drop 12
  else if tagged then
    putBytes bs 14 (beBytes 2 (tci (if e.setPcp then e.pcp else outerPcp bs) dei (if e.setVid then e.vid else outerVid bs)))
  else bs

/-- Pad a plaintext copy without FCS so that it has at least 64 bytes with its FCS (R181). -/
def pad64 (bs : List Byte) : List Byte := Crypto.padTo 60 bs

end Sys2Proof.Machine
end

