-- ==== Sys2Proof/Machine/Forward.lean ====
section
/-! DEFINITION. The classifier (R283 to R286), the forwarding database (R289 to R292), the cell buffer with its charges
and admission (R297 to R299), policers (R318 to R320), and the forwarding decision that turns a frame into copies
(R287, R288, R293 to R295, R351). -/

namespace Sys2Proof.Machine

/-! ## The classifier -/

/-- The classifier key of a frame as the bits of a table 0 entry, with ADDR_SEL `sel` (R283). The bytes are the first 128
of the plaintext. -/
def clsKey (f : Frame) (sel : Nat) : Nat :=
  let b := f.plain.take 128
  let t := numTags b
  f.src % 256 + b2n f.fromRing * 2 ^ 8 + f.secStatus * 2 ^ 9 + (if f.secStatus = 3 then f.bypassClass else 0) * 2 ^ 11 +
  f.secy.getD 0 * 2 ^ 15 + b2n (t != 0) * 2 ^ 27 + b2n (t == 2) * 2 ^ 28 + outerVid b * 2 ^ 29 + outerPcp b * 2 ^ 41 +
  outerDei b * 2 ^ 44 + innerVid b * 2 ^ 45 + etherType b * 2 ^ 64 + daOf b * 2 ^ 80 + saOf b * 2 ^ 128 + l3Type b * 2 ^ 176 +
  dscpOf b * 2 ^ 178 + ipProto b * 2 ^ 184 + b2n (isFragment b) * 2 ^ 192 + sel * 2 ^ 193 + l4Ports b 0 * 2 ^ 196 +
  tcpFlags b * 2 ^ 212 + ipAddr b sel * 2 ^ 224 + l4Ports b 2 * 2 ^ 352

/-- The fields of a classifier key entry, with their places (R283). -/
def clsFields (i : Nat) : List (Fld × Fld × Nat) :=
  [(R.CLSKEY_INGRESS_PORT i, R.CLSMASK_INGRESS_PORT i, 0), (R.CLSKEY_SRC_IS_RING i, R.CLSMASK_SRC_IS_RING i, 8),
   (R.CLSKEY_SEC_STATUS i, R.CLSMASK_SEC_STATUS i, 9), (R.CLSKEY_BYPASS_CLASS i, R.CLSMASK_BYPASS_CLASS i, 11),
   (R.CLSKEY_INGRESS_SECY i, R.CLSMASK_INGRESS_SECY i, 15), (R.CLSKEY_TAGGED i, R.CLSMASK_TAGGED i, 27),
   (R.CLSKEY_DOUBLE_TAGGED i, R.CLSMASK_DOUBLE_TAGGED i, 28), (R.CLSKEY_OUTER_VID i, R.CLSMASK_OUTER_VID i, 29),
   (R.CLSKEY_OUTER_PCP i, R.CLSMASK_OUTER_PCP i, 41), (R.CLSKEY_OUTER_DEI i, R.CLSMASK_OUTER_DEI i, 44),
   (R.CLSKEY_INNER_VID i, R.CLSMASK_INNER_VID i, 45), (R.CLSKEY_ETHERTYPE i, R.CLSMASK_ETHERTYPE i, 64),
   (R.CLSKEY_DA i, R.CLSMASK_DA i, 80), (R.CLSKEY_SA i, R.CLSMASK_SA i, 128), (R.CLSKEY_L3_TYPE i, R.CLSMASK_L3_TYPE i, 176),
   (R.CLSKEY_DSCP i, R.CLSMASK_DSCP i, 178), (R.CLSKEY_IP_PROTO i, R.CLSMASK_IP_PROTO i, 184),
   (R.CLSKEY_FRAGMENT i, R.CLSMASK_FRAGMENT i, 192), (R.CLSKEY_L4_SRC i, R.CLSMASK_L4_SRC i, 196),
   (R.CLSKEY_TCP_FLAGS i, R.CLSMASK_TCP_FLAGS i, 212), (R.CLSKEY_IP_ADDR i, R.CLSMASK_IP_ADDR i, 224),
   (R.CLSKEY_L4_DST i, R.CLSMASK_L4_DST i, 352)]

/-- Does the frame match rule `i`? ADDR_SEL of the mask is ignored (R283, R284). -/
def clsMatch (d : Dev) (f : Frame) (i : Nat) : Bool :=
  let key := clsKey f (d.get (R.CLSKEY_ADDR_SEL i))
  (clsFields i).all fun x => (bitsOf key x.2.2 x.1.w &&& d.get x.2.1) == (d.get x.1 &&& d.get x.2.1)

/-- The rule that applies: the lowest VALID one that matches (R284); the store lists every VALID rule, lowest first. -/
def clsRule (d : Dev) (f : Frame) : Option Nat :=
  (d.listedEntries 0x71 2 0).find? fun i => d.on (R.CLSACT_VALID i) && clsMatch d f i

/-- Hit counter of a rule (table 3 of page 0x71). -/
def clsHits (i : Nat) : Fld := tblFld 0x71 3 i 0 64 0

/-- A field of the action that applies; the default action is zero in every field (R284). -/
def act (d : Dev) (rule : Option Nat) (f : Nat → Fld) : Nat :=
  match rule with
  | some i => d.get (f i)
  | none => 0

/-! ## The forwarding database (R289 to R292) -/

/-- Bucket of a key (FID, MAC). -/
def fdbBucket (fid mac : Nat) : Nat := Config.fdbHash (fid * 2 ^ 48 + mac) % 65536

/-- Entry that holds a key. -/
def fdbFind (d : Dev) (fid mac : Nat) : Option Nat :=
  ((List.range 4).map (4 * fdbBucket fid mac + ·)).find? fun i =>
    d.on (R.FDB_VALID i) && d.get (R.FDB_MAC i) == mac && d.get (R.FDB_FID i) == fid

/-- Lowest empty way of a key's bucket. -/
def fdbFree (d : Dev) (fid mac : Nat) : Option Nat :=
  ((List.range 4).map (4 * fdbBucket fid mac + ·)).find? fun i => !d.on (R.FDB_VALID i)

/-- Write an entry. -/
def fdbPut (d : Dev) (i fid mac static type dest : Nat) : Dev :=
  let d := if d.on (R.FDB_VALID i) then d else d.set R.FDB_COUNT (d.get R.FDB_COUNT + 1)
  d.setAll [(R.FDB_MAC i, mac), (R.FDB_FID i, fid), (R.FDB_VALID i, 1), (R.FDB_STATIC i, static), (R.FDB_HIT i, 0),
    (R.FDB_DEST_TYPE i, type), (R.FDB_DEST i, dest)]

/-- Remove an entry. -/
def fdbRemove (d : Dev) (i : Nat) : Dev :=
  if d.on (R.FDB_VALID i) then (d.clearEntry 0x72 3 i).set R.FDB_COUNT (d.get R.FDB_COUNT - 1) else d

/-- A lookup that hits a dynamic entry sets its HIT (R292). -/
def fdbTouch (d : Dev) (i : Option Nat) : Dev :=
  match i with
  | some i => if d.on (R.FDB_STATIC i) then d else d.set (R.FDB_HIT i) 1
  | none => d

/-- A frame that passed every check learns its source address (R291). -/
def fdbLearn (d : Dev) (f : Frame) : Dev :=
  let sa := saOf f.plain
  if f.fromRing || f.noLearn || !d.on (R.VLAN_LEARN_EN f.vid) || !d.on (R.FWDPORT_LEARN_EN f.src) || isGroup sa then d
  else
    let fid := d.get (R.VLAN_FID f.vid)
    match fdbFind d fid sa with
    | some i =>
      if d.on (R.FDB_STATIC i) then d
      else if d.get (R.FDB_DEST_TYPE i) = 0 ∧ d.get (R.FDB_DEST i) = f.src then d
      else ((d.setAll [(R.FDB_DEST_TYPE i, 0), (R.FDB_DEST i, f.src)]).count 0x72 R.MOVES).latch 0x72 2
    | none =>
      match fdbFree d fid sa with
      | some i => ((fdbPut d i fid sa 0 0 f.src).count 0x72 R.LEARNED).latch 0x72 0
      | none => (d.count 0x72 R.LEARN_FAILS).latch 0x72 1

/-! ## Cells and charges (R296, R297) -/

/-- Cells of `n` bytes. -/
def cellsOf (n : Nat) : Nat := (n + 255) / 256

/-- Free count F of a pool; it can be negative. -/
def poolFree (d : Dev) (k : Nat) : Int := (d.get (R.POOL_SIZE k) : Int) - (d.get (R.POOL_CHARGE k) : Int)

/-- Set the charge of a queue: the pool's charge, its exhaustion event and the high-water mark follow. -/
def setCharge (run : RunState) (d : Dev) (g v : Nat) : Dev :=
  let d := thrSync d
  let k := d.get (R.QCFG_POOL g)
  let m := d.get (R.QCFG_MIN_CELLS g)
  let old := d.get (R.QSTAT_CHARGE g)
  let before := poolFree d k
  let d := (d.set (R.QSTAT_CHARGE g) v).set (R.POOL_CHARGE k) (d.get (R.POOL_CHARGE k) + (v - m) - (old - m))
  let d := d.latchIf (decide (0 < before) && decide (poolFree d k ≤ 0)) 0x74 k
  hwmDepth run d g

/-- Frame by number. -/
def getFrame (d : Dev) (id : Nat) : Option Frame := d.frames.find? (·.id == id)
/-- Replace a frame. -/
def putFrame (d : Dev) (f : Frame) : Dev := { d with frames := d.frames.map fun x => if x.id == f.id then f else x }

/-- Cells in use by frames change. -/
def useCells (d : Dev) (old new : Nat) : Dev := let d := thrSync d; d.set R.CELLS_FREE (d.get R.CELLS_FREE + old - new)

/-- Cells of a bank (R296). -/
def bankCells : Nat := 6144

/-- The lowest free cell of bank `b` from its cell number `j` on: cell c lies in bank c mod 64 (R296). -/
def bankFree (d : Dev) (b : Nat) : Nat → Nat → Option Nat
  | 0, _ => none
  | n + 1, j => if Cells.find d.cellMem (64 * j + b) = 1 then bankFree d b n (j + 1) else some (64 * j + b)

/-- The free cell to take next: of bank `b`, or of the first bank after it that has one. -/
def freeCell (d : Dev) : Nat → Nat → Option Nat
  | 0, _ => none
  | n + 1, b =>
    match bankFree d (b % 64) bankCells 0 with
    | some c => some c
    | none => freeCell d n (b + 1)

/-- Take `n` more cells for a frame that holds `held`: from successive banks, the first frame's first cell from the bank after the
last frame's (R296). DESIGN CHOICE: the bank of a frame's first cell and the cell within a bank, which the spec leaves open (log 31). -/
def takeCells (d : Dev) (held : List Nat) : Nat → Dev × List Nat
  | 0 => (d, held)
  | n + 1 =>
    let b := match held.getLast? with
      | some c => (c + 1) % 64
      | none => d.get L.BANK_NEXT
    match freeCell d 64 b with
    | some c =>
      let d := if held.isEmpty then d.set L.BANK_NEXT (c + 1) else d
      takeCells { d with cellMem := Cells.put d.cellMem c 1 } (held ++ [c]) n
    | none => (d, held)

/-- The cells of a frame become `n`, more than it has: they are taken from the free ones. -/
def placeFrame (d : Dev) (f : Frame) (n : Nat) : Dev :=
  let r := takeCells (useCells d f.cells n) f.cellNos (n - f.cells)
  putFrame r.1 { f with cells := n, cellNos := r.2 }

/-- The cells of a frame return to the free pool: zero-filled, or with their last contents (R304). -/
def freeCells (d : Dev) (f : Frame) (wipe : Bool) : Dev :=
  { useCells d f.cells 0 with cellMem := f.cellNos.foldl (fun m c => Cells.put m c (if wipe then 0 else 2)) d.cellMem }

/-- A frame is held while a copy waits or is issued, or a ring buffer is being written. -/
def frameHeld (d : Dev) (id : Nat) : Bool :=
  d.copies.any (·.frame == id) || d.txs.any (·.copy.frame == id) || d.descs.any fun x => x.frame == some id && x.done.isNone

/-- Cells that a frame gives up are zero-filled: it was discarded at or after its tail, or a push-out or a port's discard (`wipe`) released
its last copy and it came from a port with SEC_STATUS 1 (R304). -/
def wiped (f : Frame) (wipe : Bool) : Bool := f.failed || (f.tail && !f.passed) || (wipe && f.secStatus == 1)

/-- A frame that nothing holds gives up its cells; once its tail is in it is gone (R295, R297). -/
def frameRelease (d : Dev) (id : Nat) (wipe : Bool := false) : Dev :=
  match getFrame d id with
  | some f =>
    if frameHeld d id then d
    else
      let d := freeCells d f (wiped f wipe)
      if f.tail then { d with frames := d.frames.filter (·.id != id) } else putFrame d { f with cells := 0, cellNos := [] }
  | none => d

/-- The bytes received so far take this many cells: every copy's queue is charged the rest (R297). A frame of which no copy is left takes
none (R295). -/
def growFrame (run : RunState) (d : Dev) (id cells : Nat) : Dev :=
  match getFrame d id with
  | some f =>
    if !frameHeld d id then d else
    let d := placeFrame d f cells
    let ds := (d.descs.filter fun x => x.frame == some id && x.done.isNone && decide (x.ring < 128)).map fun x => 4096 + x.ring
    (((d.copies ++ d.txs.map (·.copy)).filter (·.frame == id)).map (·.queue) ++ ds).foldl
      (fun d g => setCharge run d g (d.get (R.QSTAT_CHARGE g) + cells - f.cells)) d
  | none => d

/-- A frame that was judged with `n` cells is stored when a copy of it was admitted, and takes none otherwise (R295). -/
def settleFrame (d : Dev) (id n : Nat) : Dev :=
  match getFrame d id with
  | some f => if frameHeld d id then placeFrame d { f with cells := 0 } n else putFrame d { f with cells := 0 }
  | none => d

/-- Port of a queue, for the counters of PORT_BUF_STATS; ring queues have none. -/
def bufStat (d : Dev) (g k : Nat) : Dev := if g < 4096 then d.count 0x74 (R.PORT_BUF_STATS (g / 16) k) else d

/-- A queue with no copy has its DEFICIT set to 0 (R314), and positive credit set to zero (R315). -/
def queueEmptied (d : Dev) (g : Nat) : Dev :=
  if g < 4096 ∧ (queueHead d g).isNone then
    let d := d.set (R.QSTATE_DEFICIT g) 0
    if 0 < d.getS (L.CBS_FINE g) then d.set (L.CBS_FINE g) 0 else d
  else if 4096 ≤ g ∧ (queueHead d g).isNone then d.setAll [(L.RING_DEFICIT (g - 4096) 0, 0), (L.RING_DEFICIT (g - 4096) 1, 0)]
  else d

/-- Cells of a copy's frame. -/
def copyCells (d : Dev) (c : Copy) : Nat :=
  match getFrame d c.frame with
  | some f => f.cells
  | none => 0

/-- A delivery to a receive ring ends: its descriptor completes and the copy leaves the ring queue's charge (R297, R348). -/
def ringDone (run : RunState) (d : Dev) (x : RingDesc) (f : Frame) : Dev :=
  let d := rxDescEnd d x f
  if x.ring < 128 then setCharge run d (4096 + x.ring) (d.get (R.QSTAT_CHARGE (4096 + x.ring)) - f.cells) else d

/-- A copy leaves its queue's charge (R297). -/
def uncharge (run : RunState) (d : Dev) (c : Copy) : Dev :=
  setCharge run d c.queue (d.get (R.QSTAT_CHARGE c.queue) - copyCells d c)

/-- Take a copy out of its queue. -/
def dequeue (run : RunState) (d : Dev) (c : Copy) : Dev :=
  let d := uncharge run (cbsSync d c.queue) c
  queueEmptied { d with copies := d.copies.filter (·.id != c.id) } c.queue

/-- Take a copy out of its queue for good: its descriptor completes DROPPED, and its frame may be freed. `wipe` says that it is a push-out
or a port's discard (R304). -/
def dropCopy (run : RunState) (d : Dev) (c : Copy) (wipe : Bool := false) : Dev :=
  frameRelease (txDescFinish (dequeue run d c) c.desc 3 none) c.frame wipe

/-! ## Admission (R298, R299) -/

/-- Step 3 of R298 with the pool's free count raised by `extra`. -/
def thresholdPasses (d : Dev) (g extra : Nat) : Bool :=
  let f := poolFree d (d.get (R.QCFG_POOL g)) + extra
  decide (0 < f) &&
    decide (((d.get (R.QSTAT_CHARGE g) - d.get (R.QCFG_MIN_CELLS g) : Nat) : Int) * 128 < 2 ^ d.get (R.QCFG_DT_EXP g) * f)

/-- A of a queue after this judgement, in units of 2^-32 cells (R299). -/
def queueAverage (d : Dev) (g : Nat) : Nat :=
  let w := d.get (R.WRED_AVG_WEIGHT (d.get (R.QCFG_WRED_PROFILE g)))
  let c := d.get (R.QSTAT_CHARGE g) * 2 ^ 32
  let a := d.get (L.Q_AVG g)
  if w = 0 then c else ((a : Int) + ((c : Int) - a) / 2 ^ w).toNat

/-- The WRED test (R299): the random value r is free. -/
def wredDrops (d : Dev) (g colour : Nat) : Bool :=
  let p := d.get (R.QCFG_WRED_PROFILE g)
  let a := d.get (L.Q_AVG g)
  let lo := d.get (R.WRED_MIN_TH p colour)
  let hi := d.get (R.WRED_MAX_TH p colour)
  if a < lo * 2 ^ 32 then false else if hi * 2 ^ 32 ≤ a then true
  else decide (d.freeVal 8 * (hi - lo) * 2 ^ 32 < d.get (R.WRED_MAX_P p colour) * (a - lo * 2 ^ 32))

/-- The colour set of the queue's profile is in use. -/
def wredOn (d : Dev) (g colour : Nat) : Bool :=
  d.on (R.QCFG_WRED_EN g) && d.on (R.WRED_ENABLE (d.get (R.QCFG_WRED_PROFILE g)) colour)

/-- The victim queue of push-out (R299): lowest class, then largest charge, then lowest number. -/
def victimQueue (d : Dev) (g : Nat) : Option Nat :=
  let pool := d.get (R.QCFG_POOL g)
  let cls := d.get (R.QCFG_PUSH_CLASS g)
  (List.range numQueues).foldl (fun best q =>
    if d.get (R.QCFG_POOL q) ≠ pool ∨ cls ≤ d.get (R.QCFG_PUSH_CLASS q) then best
    else match best with
      | none => some q
      | some b =>
        let cq := d.get (R.QCFG_PUSH_CLASS q); let cb := d.get (R.QCFG_PUSH_CLASS b)
        if cq < cb ∨ (cq = cb ∧ d.get (R.QSTAT_CHARGE b) < d.get (R.QSTAT_CHARGE q)) then some q else some b) none

/-- A copy can be evicted (R299). -/
def evictable (d : Dev) (c : Copy) : Bool :=
  match getFrame d c.frame with
  | some f => f.tail && f.passed
  | none => false

/-- The fewest of the tail copies whose cells make the test pass, at most `k` more (R299). -/
def pushSet (d : Dev) (g : Nat) : Nat → List Copy → Nat → List Copy → Option (List Copy)
  | 0, _, _, _ => none
  | _, [], _, _ => none
  | k + 1, c :: rest, got, acc =>
    if evictable d c then
      let got := got + copyCells d c
      if thresholdPasses d g got then some (acc ++ [c]) else pushSet d g k rest got (acc ++ [c])
    else none

/-- Evict one copy (R299). -/
def evict (run : RunState) (d : Dev) (c : Copy) : Dev :=
  (bufStat (((dropCopy run d c true).count 0x74 (R.QSTAT_PUSHED_OUT c.queue))) c.queue 3).latch 0x74 12

/-- Push-out for an arriving copy of queue `g`; `none` when it fails. -/
def pushOut (run : RunState) (d : Dev) (g : Nat) : Option Dev :=
  if d.get (R.QCFG_PUSH_CLASS g) = 0 then none
  else match victimQueue d g with
    | some v => (pushSet d g 4 (d.copies.filter (·.queue == v)).reverse 0 []).map fun cs => cs.foldl (evict run) d
    | none => none

/-- The copy joins the tail of its queue. -/
def enqueue (run : RunState) (d : Dev) (c : Copy) : Dev :=
  let d := setCharge run (cbsSync d c.queue) c.queue (d.get (R.QSTAT_CHARGE c.queue) + copyCells d c)
  ({ d with copies := d.copies ++ [c] }).count 0x74 (R.QSTAT_ADMITTED c.queue)

/-- Judge a copy at its frame's head (R298): the device after it, and whether it was admitted. -/
def admitCopy (run : RunState) (d : Dev) (c : Copy) : Dev × Bool :=
  let g := c.queue
  let a := queueAverage d g
  let d := d.setAll [(L.Q_AVG g, a), (R.QSTAT_AVERAGE g, a / 2 ^ 32)]
  if d.get (R.QSTAT_CHARGE g) < d.get (R.QCFG_MIN_CELLS g) then (enqueue run d c, true)
  else if wredOn d g c.colour && wredDrops d g c.colour then
    (bufStat (d.tookFree.count 0x74 (R.QSTAT_WRED_DROPS g)) g 2, false)
  else
    let d := if wredOn d g c.colour then d.tookFree else d
    if thresholdPasses d g 0 then (enqueue run d c, true)
    else match pushOut run d g with
      | some d => (enqueue run d c, true)
      | none => (bufStat (d.count 0x74 (R.QSTAT_THRESHOLD_DROPS g)) g 2, false)

/-! ## Policers (R318 to R320) -/

/-- Fill both buckets of a policer. -/
def policerFill (d : Dev) (i : Nat) : Dev :=
  let e := elapsed d (L.POL_SINCE i)
  d.setAll [(L.POL_TC_DEF i, d.get (L.POL_TC_DEF i) - d.get (R.POL_CIR i) * e),
    (L.POL_TP_DEF i, d.get (L.POL_TP_DEF i) - d.get (R.POL_PIR i) * e), (L.POL_SINCE i, d.time)]

/-- Colour of `b` bytes under RFC 2698, with the input colour in colour-aware mode: 0 green, 1 yellow, 2 red. -/
def policerColour (d : Dev) (i b inColour : Nat) : Nat :=
  let aware := d.on (R.POL_COLOUR_AWARE i)
  let short (f cap : Fld) : Bool := decide (d.get cap * tokUnit < d.get f + b * tokUnit)
  if d.get (R.POL_PIR i) = 0 then 2
  else if (aware && inColour == 2) || short (L.POL_TP_DEF i) (R.POL_PBS i) then 2
  else if (aware && inColour == 1) || short (L.POL_TC_DEF i) (R.POL_CBS i) then 1
  else 0

/-- Charge `b` bytes of a colour (R319): green takes from both buckets, yellow from the peak bucket, red from none. -/
def policerCharge (d : Dev) (i colour b : Nat) : Dev :=
  let d := policerFill d i
  if colour = 0 then takeBucket (takeBucket d (L.POL_TC_DEF i) b) (L.POL_TP_DEF i) b
  else if colour = 1 then takeBucket d (L.POL_TP_DEF i) b else d

/-- Meter a frame at its head (R319): the colour; a frame whose tail has arrived is charged at once. -/
def policerMeter (d : Dev) (i inColour : Nat) (len : Option Nat) : Dev × Nat :=
  let d := policerFill d i
  let c := policerColour d i (len.getD 0) inColour
  let d := d.count (0x78 + i / 512) (R.POLICER_STATS i c)
  match len with
  | some b => (policerCharge d i c b, c)
  | none => (d, c)

/-! ## Trap classes (R351) -/

/-- The trap class's bucket lets a copy pass and is charged, or the copy is dropped. A class with CLASS_RATE 0 has none. A
copy whose frame is complete is tested with its length, as R319 states for one colour. -/
def trapMeter (d : Dev) (ring : Nat) (len : Option Nat) : Dev × Bool :=
  let c := d.get (R.RING_TRAP_CLASS ring)
  let rate := d.get (R.CLASS_RATE c)
  if rate = 0 then (d, true)
  else
    let d := fillBucket d (L.CLS_DEF c) (L.CLS_SINCE c) rate
    let cap := classBurst d c
    let b := len.getD 0
    if cap * tokUnit < d.get (L.CLS_DEF c) + b * tokUnit then ((d.count 8 (R.CLASS_POLICED c)).latch 8 9, false)
    else (takeBucket d (L.CLS_DEF c) b, true)

/-! ## The forwarding decision -/

/-- Ports of a 256-bit set, lowest first. -/
def portsOf (m : Nat) : List Nat := (List.range 256).filter fun p => bitAt m p

/-- Ingress VID of a frame (R287). -/
def ingressVid (d : Dev) (f : Frame) : Nat :=
  let v := outerVid f.plain
  if v ≠ 0 then v else if f.fromRing then 0 else d.get (R.FWDPORT_PVID f.src)

/-- PCP before any rewrite (R287). -/
def ingressPcp (d : Dev) (f : Frame) : Nat :=
  if numTags f.plain ≠ 0 then outerPcp f.plain else if f.fromRing then 0 else d.get (R.FWDPORT_DEFAULT_PCP f.src)

/-- Forwarding VID (R287). -/
def forwardVid (d : Dev) (f : Frame) : Nat :=
  if act d f.rule R.CLSACT_VID_SET ≠ 0 then act d f.rule R.CLSACT_NEW_VID else ingressVid d f

/-- R287 and R288 drop the frame. Frames from rings skip R288. -/
def vlanDrops (d : Dev) (f : Frame) : Bool :=
  let v := outerVid f.plain
  v == 4095 ||
  (!f.fromRing && ((v == 0 && d.on (R.FWDPORT_DROP_UNTAGGED f.src)) || !d.on (R.VLAN_VALID (forwardVid d f)) ||
    (d.on (R.FWDPORT_INGRESS_FILTER f.src) && !bitAt (d.get (R.VLAN_MEMBER_MEMBERS (ingressVid d f))) f.src)))

/-- Destination of a frame: ports, a ring from the database, and whether it is flooded on a miss (R293). -/
structure Dests where
  ports : List Nat
  ring : Option Nat
  flooded : Bool
  deriving DecidableEq, Repr

/-- NORMAL forwarding by the database (R293). -/
def normalDests (d : Dev) (f : Frame) : Dests :=
  let vid := forwardVid d f
  let members := d.get (R.VLAN_MEMBER_MEMBERS vid)
  let da := daOf f.plain
  let keep (m : Nat) : List Nat := (portsOf (m &&& members)).filter fun p => f.fromRing || p != f.src
  match fdbFind d (d.get (R.VLAN_FID vid)) da with
  | some i =>
    let t := d.get (R.FDB_DEST_TYPE i)
    let x := d.get (R.FDB_DEST i)
    if t = 0 then ⟨keep (2 ^ x), none, false⟩
    else if t = 1 then ⟨keep (d.get (R.MCG_PORTS x)), none, false⟩
    else if t = 2 then ⟨[], some x, false⟩
    else ⟨[], none, false⟩
  | none =>
    if isGroup da || d.on (R.VLAN_FLOOD_UNKNOWN_UC vid) then ⟨keep members, none, true⟩ else ⟨[], none, false⟩

/-- Destinations by the action's FWD (R293). -/
def dests (d : Dev) (f : Frame) : Dests :=
  let fwd := act d f.rule R.CLSACT_FWD
  let t := act d f.rule R.CLSACT_FWD_TARGET
  if fwd = 0 then normalDests d f
  else if fwd = 1 then ⟨[t], none, false⟩
  else if fwd = 2 then ⟨portsOf (d.get (R.MCG_PORTS t)), none, false⟩
  else ⟨[], none, false⟩

/-- A new serial. -/
def newSerial (d : Dev) : Dev × Nat := ({ d with serial := d.serial + 1 }, d.serial)

/-- What happens to a copy admitted to a port queue while the run state is CONTAINED (R333), or to its frame later, is
done by the caller; this enters one copy of a frame to a queue. -/
def copyTo (run : RunState) (d : Dev) (f : Frame) (g : Nat) (e : TagEdit) (cdOp cdTime colour : Nat) (desc : Option (Nat × Nat))
    (tsReq : Bool) : Dev × Bool :=
  let (d, n) := newSerial d
  admitCopy run d ⟨n, f.id, g, e, cdOp, cdTime, act d f.rule R.CLSACT_FLOW_CLASS, colour, d.cyc, desc, tsReq⟩

/-- Tag handling of the copies of a frame to port `p` (R294, R320). -/
def copyEdit (d : Dev) (f : Frame) (p : Nat) (markDei : Bool) : TagEdit :=
  let normal := act d f.rule R.CLSACT_FWD = 0
  let vid := forwardVid d f
  let pcp := if act d f.rule R.CLSACT_PCP_SET ≠ 0 then act d f.rule R.CLSACT_NEW_PCP else ingressPcp d f
  ⟨normal, normal && bitAt (d.get (R.VLAN_UNTAG_UNTAG vid)) p, vid, pcp, act d f.rule R.CLSACT_VID_SET != 0,
    act d f.rule R.CLSACT_PCP_SET != 0, markDei⟩

/-- Queue of a port copy (R294). A frame from a ring has no ingress port: DEDUCED, it takes the queue of PCP_QUEUE_MAP's
reset value. -/
def copyQueue (d : Dev) (f : Frame) (p : Nat) : Nat :=
  let pcp := if act d f.rule R.CLSACT_PCP_SET ≠ 0 then act d f.rule R.CLSACT_NEW_PCP else ingressPcp d f
  let map := if f.fromRing then (R.PCP_QUEUE_MAP 0).reset else d.get (R.PCP_QUEUE_MAP f.src)
  16 * p + (if act d f.rule R.CLSACT_QUEUE_SET ≠ 0 then act d f.rule R.CLSACT_QUEUE else bitsOf map (4 * pcp) 4)

/-- Count in PORT_FWD_STATS of the ingress port: 0 VLAN_FILTER_DROPS, 1 RULE_DROPS, 2 NO_DEST_DROPS, 3 FLOODED. -/
def fwdStat (d : Dev) (f : Frame) (k : Nat) : Dev := if f.fromRing then d else d.count 0x72 (R.PORT_FWD_STATS f.src k)

/-- Colour of a frame before policing (R285). -/
def actionColour (d : Dev) (f : Frame) : Nat :=
  let c := act d f.rule R.CLSACT_COLOUR
  if c = 3 then outerDei f.plain else c

/-- The frame remembers the trap class of a ring that metered it before its length was known, for the charge at its tail. -/
def trapNote (d : Dev) (id ring : Nat) : Dev :=
  let c := d.get (R.RING_TRAP_CLASS ring)
  match getFrame d id with
  | some f => if d.get (R.CLASS_RATE c) = 0 then d else putFrame d { f with traps := f.traps ++ [c] }
  | none => d

/-- One ring copy: the trap class's policer, then the ring queue (R293, R351). -/
def ringCopy (run : RunState) (d : Dev) (f : Frame) (len : Option Nat) (ring cdOp colour : Nat) : Dev × Bool :=
  let (d, ok) := trapMeter d ring len
  let d := if ok && len.isNone then trapNote d f.id ring else d
  if ok then copyTo run d f (4096 + ring) ⟨false, false, 0, 0, false, false, false⟩ cdOp 0 colour none false else (d, false)

/-- Admit the copies to a list of queues. -/
def portCopies (run : RunState) (d : Dev) (f : Frame) (cdOp cdTime colour : Nat) (mark : Bool) : List Nat → Dev × Nat
  | [] => (d, 0)
  | p :: rest =>
    let (d, ok) := copyTo run d f (copyQueue d f p) (copyEdit d f p mark) cdOp cdTime colour none false
    let (d, n) := portCopies run d f cdOp cdTime colour mark rest
    (d, n + b2n ok)

/-- Classify a frame and turn it into copies (R283 to R295, R318 to R320, R351): the device after it and the number of
copies admitted. The frame is already listed, with its rule not yet found; `len` is its stored length with FCS when its
tail has arrived at this judgement (R319). -/
def forward (run : RunState) (d : Dev) (id : Nat) (len : Option Nat) (cdOp cdTime : Nat) : Dev × Nat :=
  match getFrame d id with
  | none => (d, 0)
  | some f0 =>
    let rule := clsRule d f0
    let f1 := { f0 with rule := rule }
    let f := { f1 with vid := forwardVid d f1, noLearn := act d rule R.CLSACT_NO_LEARN != 0 }
    let d := match rule with
      | some i => (d.count 0x71 (clsHits i)).latchIf (act d rule R.CLSACT_NOTIFY != 0) 0x71 0
      | none => d.count 0x71 R.CLS_NO_MATCH
    let inCol := actionColour d f
    let pol := act d rule R.CLSACT_POLICER
    let hasPol := act d rule R.CLSACT_POLICER_SET != 0
    let (d, colour) := if hasPol then policerMeter d pol inCol len else (d, inCol)
    let f := { f with meter := if hasPol && len.isNone then some (pol, colour) else none }
    let d := putFrame d f
    let redDrop := hasPol && colour == 2 && d.on (R.POL_RED_DROP pol)
    let mark := hasPol && colour != 0 && d.on (R.POL_MARK_DEI pol)
    let op := if cdOp ≠ 0 then cdOp else act d rule R.CLSACT_CD_OP
    let vdrop := vlanDrops d f
    let fwd := act d rule R.CLSACT_FWD
    let d := if vdrop then fwdStat d f 0 else fdbTouch d (fdbFind d (d.get (R.VLAN_FID f.vid)) (saOf f.plain))
    let ds := if vdrop then ⟨[], none, false⟩ else dests d f
    let d := if vdrop || fwd != 0 then d else fdbTouch d (fdbFind d (d.get (R.VLAN_FID f.vid)) (daOf f.plain))
    let d := if !vdrop && ds.flooded then fwdStat d f 3 else d
    let d := if !vdrop && fwd == 3 then fwdStat d f 1 else d
    let punt := act d rule R.CLSACT_PUNT != 0
    let d := if !vdrop && fwd != 3 && ds.ports.isEmpty && ds.ring.isNone && !punt then fwdStat d f 2 else d
    let d := if redDrop then (d.count (0x78 + pol / 512) (R.POLICER_STATS pol 3)).latch (0x78 + pol / 512) 0 else d
    let (d, n) := portCopies run d f op cdTime colour mark (if redDrop then [] else ds.ports)
    let (d, a) := match ds.ring with
      | some r => ringCopy run d f len (r % 128) op colour
      | none => (d, false)
    let (d, b) := if punt then ringCopy run d f len (act d rule R.CLSACT_PUNT_RING) op colour else (d, false)
    (d, n + b2n a + b2n b)

/-! ## Failing and ending (R302, R304) -/

/-- Stomp causes by their place in R221. -/
def stompIcv : Nat := 0
def stompReplay : Nat := 1
def stompCheck : Nat := 2
def stompFcs : Nat := 3
def stompRunt : Nat := 4
def stompOversize : Nat := 5
def stompRxError : Nat := 6
def stompPolicy : Nat := 7

/-- Place of a stomp cause in the order of R212. -/
def stompRank (c : Nat) : Nat := ([stompRxError, stompFcs, stompRunt, stompOversize, stompCheck, stompReplay, stompIcv, stompPolicy].idxOf c)

/-- The cause of a poisoned copy once `c` applies as well: the first in the order of R212. -/
def stompOf (old : Option Nat) (c : Nat) : Nat :=
  match old with
  | some o => if stompRank c < stompRank o then c else o
  | none => c

/-- Poison the issued copies of a frame with stomp counter `cause`; a copy that is poisoned already keeps the first cause in the order of
R212 (R210, R212). -/
def poisonCopies (d : Dev) (id cause : Nat) : Dev :=
  { d with txs := d.txs.map fun t => if t.copy.frame == id then { t with poison := some (stompOf t.poison cause) } else t }

/-- Copies of a failed frame that have not been issued are removed from their queues (R302). -/
def discardWaiting (run : RunState) (d : Dev) (id : Nat) : Dev :=
  (d.copies.filter (·.frame == id)).foldl
    (fun d c => (bufStat (txDescFinish (dequeue run d c) c.desc 3 none) c.queue 1).latch 0x74 16) d

/-- Cluster of a port. -/
def portCluster (p : Nat) : Nat := p / 8
/-- Page of a port's cluster. -/
def clusterPage (p : Nat) : Nat := 0x50 + p / 8

/-- A frame that has been stored fails with a stomp cause and a receive STATUS (R209, R210, R302): waiting copies go,
issued copies are poisoned, ring buffers being written end with the status, and a frame that its cluster deciphers counts as overwritten
when bytes of it have left the cluster (`left`). A frame that has failed already may only gain a cause that comes before its own. -/
def failFrame (run : RunState) (d : Dev) (id cause status : Nat) (left : Bool := true) : Dev :=
  match getFrame d id with
  | none => d
  | some f =>
    if f.failed then poisonCopies d id cause else
    let f := { f with failed := true, status := status }
    let d := putFrame d f
    let d := poisonCopies d id cause
    let d := discardWaiting run d id
    let d := (d.descs.filter fun x => x.frame == some id && x.done.isNone).foldl (fun d x => ringDone run d x f) d
    if left && f.cells != 0 && f.kind == .controlled then d.count (clusterPage f.src) (R.RX_ZERO_OVERWRITES (portCluster f.src)) else d

end Sys2Proof.Machine
end

