-- ==== Sys2Proof/Machine/PowerCore.lean ====
section
/-! DEFINITION. The accounts of the power arbiter: the accounted total, the free budget, making, cancelling and releasing
a request, and the SLEW_LIMIT window (R489 to R494). Granting is in Arbiter.lean. -/

namespace Sys2Proof.Machine

/-- Number of requesters (R490). -/
def numRequesters : Nat := 67
def reqPorts (k : Nat) : Nat := k
def reqAux (k : Nat) : Nat := 32 + k
def reqVault : Nat := 64
def reqMemGuard : Nat := 65
def reqPowerState : Nat := 66

/-- Request classes. -/
def classA : Nat := 0
def classB : Nat := 1
def classC : Nat := 2
def classD : Nat := 3

/-- The accounted total (R489): the fixed load and every unit granted, releases not yet admitted included. -/
def arbAccounted (d : Dev) : Nat := d.get R.ARB_TOTAL_FIXED_LOAD + sumBelow (fun q => d.get (R.REQ_GRANTED q)) numRequesters

/-- Unused floor of requester `q` (R491). -/
def unusedFloor (d : Dev) (q : Nat) : Nat := d.get (R.REQ_FLOOR q) - d.get (R.REQ_GRANTED q)

/-- Sum of all unused floors. -/
def unusedFloors (d : Dev) : Nat := sumBelow (unusedFloor d) numRequesters

/-- The free budget F (R491). -/
def arbFree (d : Dev) : Nat := d.get R.BUDGET_CEILING - arbAccounted d - unusedFloors d

/-- A request of `u` units from `q` can never be granted (R492). -/
def arbExceeds (d : Dev) (q u : Nat) : Bool := decide (d.get (R.REQ_CEILING q) < u + d.get (R.REQ_GRANTED q))

/-- A request ended with ERR_POWER is counted (R504). -/
def arbError (d : Dev) : Dev := d.count 4 R.POWER_ERRORS

/-- Make a request; the arbiter considers it in the next tick (R493). -/
def arbRequest (d : Dev) (q u cls : Nat) (a : PowerAction) : Dev :=
  { d with waiting := d.waiting ++ [⟨q, u, cls, a, d.cyc, false⟩] }

/-- Release `u` units of requester `q`: they stay accounted until the release is admitted (R494). -/
def arbRelease (d : Dev) (q u : Nat) : Dev := if u = 0 then d else { d with releasing := d.releasing ++ [(q, u)] }

/-- Is the action requested or being issued? -/
def arbPending (d : Dev) (a : PowerAction) : Bool := d.waiting.any (·.action == a) || d.issuing.any (·.action == a)

/-- Take units out of a requester's account at once. -/
def arbDrop (d : Dev) (q u : Nat) : Dev := d.set (R.REQ_GRANTED q) (d.get (R.REQ_GRANTED q) - u)

/-- Cancel an action: a waiting request is withdrawn; of a grant being issued, the portions not yet issued leave the
accounted total at once and those issued are released (R492, R494). -/
def arbCancel (d : Dev) (a : PowerAction) : Dev :=
  let gs := d.issuing.filter (·.action == a)
  let d := { d with waiting := d.waiting.filter (fun r => !(r.action == a)), issuing := d.issuing.filter (fun g => !(g.action == a)) }
  gs.foldl (fun d g => arbRelease (arbDrop d g.requester g.left) g.requester g.issued) d

/-- SLEW_LIMIT in force: 4 to 400 (R494). -/
def slewLimit (d : Dev) : Nat := min 400 (max 4 (d.get R.SLEW_LIMIT))

/-- Entries of a window log that lie within the last 250 ticks. -/
def inWindow (d : Dev) (log : List (Nat × Nat)) : List (Nat × Nat) := log.filter fun e => decide (d.tick < e.1 + 250)

/-- Room left in a window of R494. -/
def slewRoom (d : Dev) (log : List (Nat × Nat)) : Nat := slewLimit d - ((inWindow d log).map (·.2)).sum

/-- The page that shows POWER_PENDING for an action (R492). -/
def powerActionPage : PowerAction → Nat
  | .port p => 0x30 + p / 8
  | .testLane l => 0x10 + l / 8
  | .laneBurst l => 0x10 + l / 8
  | .adaptBurst l => 0x10 + l / 8
  | .eyeScan l _ _ => 0x10 + l / 8
  | .pipeSet k _ _ => 0x50 + k
  | .vault => 0x05
  | .memGuard => 0x09
  | .powerState => 0x04

/-- PAGE_STATUS.POWER_PENDING of a page: a request of the block waits, or its grant is still being issued (R42, R140, R492). -/
def powerPending (d : Dev) (pg : Nat) : Bool :=
  (d.waiting.any fun r => powerActionPage r.action == pg) || d.issuing.any fun g => powerActionPage g.action == pg

/-! ## Settings (R491) -/

/-- BUDGET_CEILING is written: ignored outside 64 to 4,095 or below the accounted total plus the unused floors. -/
def budgetWrite (d : Dev) (v : Nat) : Dev :=
  if 64 ≤ v ∧ v ≤ 4095 ∧ arbAccounted d + unusedFloors d ≤ v then
    d.setAll [(R.BUDGET_CEILING, v), (R.ARB_STATUS_CEILING_REFUSED, 0)]
  else (d.set R.ARB_STATUS_CEILING_REFUSED 1).latch 4 9

/-- Table 0 entry `q` is written: CEILING takes any value; a FLOOR above it is stored as the CEILING; a FLOOR that the
budget cannot bear is ignored (R491). -/
def requesterWrite (d : Dev) (q floor ceiling : Nat) : Dev :=
  let d0 := d.set (R.REQ_CEILING q) ceiling
  let f := min floor (d0.get (R.REQ_CEILING q))
  let d1 := d0.set (R.REQ_FLOOR q) f
  let floors := sumBelow (fun i => d1.get (R.REQ_FLOOR i)) numRequesters
  if floors + d.get R.ARB_TOTAL_FIXED_LOAD ≤ d.get R.BUDGET_CEILING ∧
      arbAccounted d1 + unusedFloors d1 ≤ d.get R.BUDGET_CEILING then
    d1.set R.ARB_STATUS_FLOOR_REFUSED 0
  else (d0.set R.ARB_STATUS_FLOOR_REFUSED 1).latch 4 9

end Sys2Proof.Machine
end

