-- ==== Sys2Proof/Machine/Gates.lean ====
section
/-! DEFINITION. Gate control lists (R321 to R328), their commands and ConfigChanges, the MAC hold (R332), the interruption
of a preemptable transmission (R331), and the verify procedure of the MAC merge sublayer (R329). -/

namespace Sys2Proof.Machine

/-! ## A list against time (R322) -/

/-- A gate list: its base, its cycle, and its entries as gate states and interval, in units of 2^-48 ns. -/
structure GateList where
  base : Nat
  cycle : Nat
  entries : List (Nat × Nat)
  deriving DecidableEq, Repr

/-- The entry in force at offset `o` of a cycle: its index, its gate states, and the offset at which it ends. The last
entry's state holds until the cycle ends, and an entry in progress at the cycle's end is cut there. -/
def entryAt (cycle o : Nat) : Nat → Nat → List (Nat × Nat) → Nat × Nat × Nat
  | i, _, [] => (i, 0xFFFF, cycle)
  | i, _, [e] => (i, e.1, cycle)
  | i, acc, e :: r => if o < acc + e.2 then (i, e.1, min cycle (acc + e.2)) else entryAt cycle o (i + 1) (acc + e.2) r

/-- Entry of a list at time `t`: index, gate states, and the time at which the entry ends. -/
def GateList.at (l : GateList) (t : Nat) : Nat × Nat × Nat :=
  if l.cycle = 0 then (0, 0xFFFF, t + 2 ^ 100) else
  let o := (t - l.base) % l.cycle
  let e := entryAt l.cycle o 0 0 l.entries
  (e.1, e.2.1, t - o + e.2.2)

/-- The operational list of a port. -/
def operList (d : Dev) (p : Nat) : GateList :=
  ⟨d.get (L.GATE_BASE p), gateOperCycle d p,
    (List.range (d.get (R.GATE_OPER_LIST_LENGTH p))).map fun e =>
      (d.get (R.OPER_GATE_STATES (256 * p + e)), d.get (R.OPER_INTERVAL (256 * p + e)) * fineNs)⟩

/-- The admin list of a port, as it would run from `base`. -/
def adminList (d : Dev) (p base : Nat) : GateList :=
  ⟨base, gateAdminCycle d p,
    (List.range (d.get (R.GATE_ADMIN_LIST_LENGTH p))).map fun e =>
      (d.get (R.ADMIN_GATE_STATES (256 * p + e)), d.get (R.ADMIN_INTERVAL (256 * p + e)) * fineNs)⟩

/-- Gate states at time `t` and the time until which they hold, by the schedule in force with a pending ConfigChange
(R326). -/
def gateAt (d : Dev) (p t : Nat) : Nat × Nat :=
  if !gatesOn d p then (0xFFFF, t + 2 ^ 100) else
  let pend := d.on (R.GATE_CONFIG_PENDING p)
  let c := d.get (L.GATE_AT p)
  if pend && decide (c ≤ t) then let e := (adminList d p c).at t; (e.2.1, e.2.2)
  else
    let e := if d.on (L.GATE_RUN p) then let e := (operList d p).at t; (e.2.1, e.2.2)
      else (d.get (R.GATE_ADMIN_GATE_STATES p), t + 2 ^ 100)
    (e.1, if pend then min e.2 c else e.2)

/-- Gate `q` is open throughout [t, tEnd) (R326). An entry lasts at least 16 ns and a copy at most 13 µs, which bounds the
entries to look at. -/
def gateThrough (d : Dev) (p q tEnd : Nat) : Nat → Nat → Bool
  | 0, _ => false
  | fuel + 1, t =>
    if tEnd ≤ t then true
    else
      let e := gateAt d p t
      if bitAt e.1 q then gateThrough d p q tEnd fuel e.2 else false

/-- Gate `q` is open from `t` for `span`. -/
def gateFits (d : Dev) (p q t span : Nat) : Bool := gateThrough d p q (t + span) 4096 t

/-! ## W_q (R327) -/

/-- Entries of one cycle as they run: gate states and length. -/
def cycleSpans (cycle : Nat) : Nat → List (Nat × Nat) → List (Nat × Nat)
  | _, [] => []
  | acc, [e] => [(e.1, cycle - acc)]
  | acc, e :: r => (e.1, min e.2 (cycle - acc)) :: cycleSpans cycle (acc + e.2) r

/-- Longest run of open spans. -/
def longestRun (q : Nat) : List (Nat × Nat) → Nat → Nat → Nat
  | [], _, best => best
  | e :: r, run, best => if bitAt e.1 q then longestRun q r (run + e.2) (max best (run + e.2)) else longestRun q r 0 best

/-- W_q of a list; a gate that never closes has no bound. -/
def gateW (l : GateList) (q : Nat) : Nat :=
  let sp := (cycleSpans l.cycle 0 l.entries).filter fun e => e.2 != 0
  if sp.all fun e => bitAt e.1 q then 2 ^ 100 else longestRun q (sp ++ sp) 0 0

/-! ## ConfigChange (R323 to R325) -/

/-- Two microseconds. -/
def gateMargin : Nat := 2000 * fineNs

/-- Event bit of a port on its gate page. -/
def gateEvent (d : Dev) (p : Nat) : Dev := d.latch (gatePage p) (p % 32)

/-- The checks of a trigger (R323). -/
def gateCheck (d : Dev) (p : Nat) : Nat :=
  let n := d.get (R.GATE_ADMIN_LIST_LENGTH p)
  let c := gateAdminCycle d p
  if !d.on (L.PAGE_ENABLE (gatePage p)) || !d.on (R.GATE_GATE_ENABLE p) || d.on (R.GATE_CONFIG_PENDING p) then codeState
  else if n = 0 ∨ 256 < n ∨ c < 1000 * fineNs ∨ fineSec < c ∨
      !(List.range n).all (fun e => decide (16 ≤ d.get (R.ADMIN_INTERVAL (256 * p + e)))) then codeArg
  else codeOk

/-- A refused trigger (R325). -/
def gateRefuse (d : Dev) (p : Nat) : Dev :=
  gateEvent ((d.set (R.GATE_CONFIG_ERROR p) 1).count (gatePage p) (R.GATE_STATS p 1)) p

/-- An accepted trigger with its ConfigChangeTime (R323). -/
def gateAccept (d : Dev) (p t : Nat) (past : Bool) : Dev :=
  d.setAll [(R.GATE_CONFIG_PENDING p, 1), (R.GATE_CONFIG_ERROR p, 0), (R.GATE_PAST_BASE p, b2n past), (L.GATE_AT p, t),
    (R.GATE_CONFIG_CHANGE_SEC p, secOf t), (R.GATE_CONFIG_CHANGE_NS p, nsOf t)]

/-- ADMIN_BASE_TIME. -/
def gateAdminBase (d : Dev) (p : Nat) : Nat := timeOf (d.get (R.GATE_ADMIN_BASE_SEC p)) (d.get (R.GATE_ADMIN_BASE_NS p)) 0

/-- ConfigChangeTime of a command that acts at `e` (R323), and PAST_BASE. -/
def configTime (d : Dev) (p e : Nat) : Nat × Bool :=
  let b := gateAdminBase d p
  let c := gateAdminCycle d p
  let lim := e + gateMargin
  if lim ≤ b then (b, false) else (b + (lim - b + c - 1) / c * c, true)

/-- A trigger of either kind: the device and the code. -/
def gateTrigger (d : Dev) (p : Nat) (at? : Option Nat) : Dev × Nat :=
  let c := gateCheck d p
  if c ≠ codeOk then (gateRefuse d p, c)
  else match at? with
    | some t => (gateAccept d p t false, codeOk)
    | none => let x := configTime d p d.tickTime; (gateAccept d p x.1 x.2, codeOk)

/-- Status of a GATE_CMD. -/
def gateStatus (d : Dev) (p code : Nat) : Dev :=
  d.setAll [(R.GATE_CMD_STATUS_CODE (p / 32), code), (R.GATE_CMD_STATUS_BUSY (p / 32), 0), (R.GATE_CMD_STATUS_PORT (p / 32), p % 32)]

/-- GATE_CMD CONFIG_CHANGE acts. -/
def gateConfigChange (d : Dev) (p : Nat) : Dev := let x := gateTrigger d p none; gateStatus x.1 p x.2

/-- GATE_CMD CANCEL acts (R325). DEDUCED: with no change pending there is nothing to withdraw and the command ends DONE_OK (log 17). -/
def gateCancel (d : Dev) (p : Nat) : Dev :=
  if d.on (R.GATE_CONFIG_PENDING p) && decide (d.get (L.GATE_AT p) ≤ d.tickTime + gateMargin) then gateStatus d p codeState
  else gateStatus (d.set (R.GATE_CONFIG_PENDING p) 0) p codeOk

/-- GATE_CMD is written: the command waits for the next tick, and a write while one waits is ignored (R323, R325). -/
def gateCmd (d : Dev) (p : Nat) (cancel : Bool) : Dev :=
  if d.on (R.GATE_CMD_STATUS_BUSY (p / 32)) then d
  else (d.setAll [(R.GATE_CMD_STATUS_CODE (p / 32), codeRunning), (R.GATE_CMD_STATUS_BUSY (p / 32), 1), (R.GATE_CMD_STATUS_PORT (p / 32), p % 32)]).post
    (.gateCmd p cancel)

/-- A write of 0 to GATE_ENABLE takes effect (R321): the operational list stops, a pending change is cancelled, every gate opens. -/
def gateDisable (d : Dev) (p : Nat) : Dev :=
  (cbsSyncPort d p).setAll [(L.GATE_RUN p, 0), (R.GATE_CONFIG_PENDING p, 0), (L.GATE_HOLD p, 0), (R.GATE_OPER_GATE_STATES p, 0xFFFF)]

/-! ## Interruption (R331) -/

/-- Preemption is active on a port (R329). -/
def preemptActive (d : Dev) (p : Nat) : Bool := d.on (R.PSCHED_PREEMPT_ACTIVE p)
/-- Shortest fragment in bytes, its mCRC included. -/
def fragMin (d : Dev) (p : Nat) : Nat := 64 * (1 + d.get (R.PSCHED_ADD_FRAG_SIZE p))
/-- Now, counted as `TxCopy.phys`. -/
def physNow (d : Dev) : Nat := d.cyc * fineNs

/-- The preemptable copy whose fragment is on the line of a port. -/
def preTx (d : Dev) (p : Nat) : Option TxCopy := d.txs.find? fun t => t.port == p && t.pre && t.started && !t.suspended
/-- The suspended copy of a port. -/
def suspendedTx (d : Dev) (p : Nat) : Option TxCopy := d.txs.find? fun t => t.port == p && t.suspended

/-- Replace an issued copy. -/
def putTx (d : Dev) (t : TxCopy) : Dev := { d with txs := d.txs.map fun x => if x.copy.id == t.copy.id then t else x }

/-- Bytes of the fragment's copy that have been sent by the instant `x`. -/
def fragBytes (d : Dev) (t : TxCopy) (x : Nat) : Nat := (x - t.fragStart) * portGbps d t.port / (8 * fineNs) - 8

/-- The line bytes of an issued copy as known now (R225): a cut-through copy, which carries no committed departure (R300), grows with its
frame. -/
def txS (d : Dev) (t : TxCopy) : Nat :=
  match getFrame d t.copy.frame with
  | some f => if t.cut then (editTags t.copy.edit f.plain).length + 24 + (if t.sa.isSome then t.tag.length + 16 else 0) else t.s
  | none => t.s

/-- The fragment length at which a transmission is interrupted when `x` asks for it; none when it runs to its end. -/
def cutLength (d : Dev) (t : TxCopy) (x : Nat) : Option Nat :=
  let n := max (fragBytes d t x) (fragMin d t.port - 4)
  if t.sent + n + 64 ≤ txS d t - 20 then some n else none

/-- Interrupt a transmission after `n` more bytes: the fragment is closed with its mCRC. -/
def suspendTx (d : Dev) (t : TxCopy) (n : Nat) : Dev :=
  let free := t.fragStart + lineTime d t.port (8 + n + 4 + 12)
  let d := putTx (cbsSync d t.copy.queue) { t with suspended := true, sent := t.sent + n }
  (d.setAll [(L.TX_FREE t.port, free), (L.CBS_HOLD t.copy.queue, t.start + (free - t.phys))]).emit (.fragment t.port (t.sent + n))

/-- Interrupt the preemptable transmission of port `p` now. The preemption counts when a gate close asks for it. -/
def interrupt (d : Dev) (p : Nat) (close : Bool) : Dev :=
  match preTx d p with
  | some t =>
    match cutLength d t (physNow d) with
    | some n => (if close then d.count (gatePage p) (R.GATE_STATS p 2) else d) |> fun d => suspendTx d t n
    | none => d
  | none => d

/-- The gate states of a port change: a preemptable transmission whose gate closes is interrupted. -/
def gateStatesSet (d : Dev) (p st : Nat) : Dev :=
  let d := (cbsSyncPort d p).set (R.GATE_OPER_GATE_STATES p) st
  match preTx d p with
  | some t => if preemptActive d p && !bitAt (gateStates d p) (t.copy.queue % 16) then interrupt d p true else d
  | none => d

/-- The MAC hold of an entry (R332): operation 1 holds, 0 and 2 release. -/
def gateHoldOp (d : Dev) (p op : Nat) : Dev :=
  if op = 1 && preemptActive d p then
    if d.on (L.GATE_HOLD p) then d
    else interrupt ((d.set (L.GATE_HOLD p) 1).count (0x78 + p / 32) (R.PORT_MM_STATS p 5)) p false
  else d.set (L.GATE_HOLD p) 0

/-- Apply the entry of the operational list that is in force now (R322). -/
def gateApply (d : Dev) (p : Nat) : Dev :=
  let e := (operList d p).at d.time
  let d := d.set (L.GATE_ENTRY p) e.1
  gateHoldOp (gateStatesSet d p e.2.1) p (d.get (R.OPER_OP (256 * p + e.1)))

/-- ConfigChangeTime has come (R324, R327). -/
def configChange (d : Dev) (p : Nat) : Dev :=
  if d.on (R.GATE_CONFIG_PENDING p) && decide (d.get (L.GATE_AT p) ≤ d.time) then
    let d := cbsSyncPort d p
    let n := d.get (R.GATE_ADMIN_LIST_LENGTH p)
    let d := d.each 256 fun e d =>
      if e < n then
        d.setAll [(R.OPER_GATE_STATES (256 * p + e), d.get (R.ADMIN_GATE_STATES (256 * p + e))),
          (R.OPER_OP (256 * p + e), d.get (R.ADMIN_OP (256 * p + e))),
          (R.OPER_INTERVAL (256 * p + e), d.get (R.ADMIN_INTERVAL (256 * p + e)))]
      else d.clearEntry (gatePage p) 2 (256 * (p % 32) + e)
    let d := d.setAll [(R.GATE_CONFIG_PENDING p, 0), (L.GATE_RUN p, 1), (L.GATE_BASE p, d.get (L.GATE_AT p)),
      (R.GATE_OPER_LIST_LENGTH p, n), (R.GATE_OPER_CYCLE_NS p, d.get (R.GATE_ADMIN_CYCLE_NS p)),
      (R.GATE_OPER_CYCLE_FRAC p, d.get (R.GATE_ADMIN_CYCLE_FRAC p))]
    let l := operList d p
    let d := d.each 16 fun q d => d.set (L.GATE_W p q) (gateW l q)
    gateApply (gateEvent (d.count (gatePage p) (R.GATE_STATS p 0)) p) p
  else d

/-- An entry boundary or cycle start of the operational list (R322). -/
def gateBoundary (d : Dev) (p : Nat) : Dev := if gatesOn d p && d.on (L.GATE_RUN p) then gateApply d p else d

/-! ## Verification (R329) -/

/-- VERIFY_STATUS takes a value; a change latches event bit 2. -/
def verifyStatus (d : Dev) (p v : Nat) : Dev :=
  if d.get (R.PSCHED_VERIFY_STATUS p) = v then d else (d.set (R.PSCHED_VERIFY_STATUS p) v).latch (0x78 + p / 32) 2

/-- PREEMPT_ACTIVE follows PREEMPT_EN, VERIFY_EN and the verification; it stays 1 while a copy is suspended. -/
def preemptFollow (d : Dev) (p : Nat) : Dev :=
  let en := d.on (R.PSCHED_PREEMPT_EN p) && decide (iface d p ≤ 3)
  if en then
    let on := !d.on (R.PSCHED_VERIFY_EN p) || d.on (L.MM_VERIFIED p)
    let d := d.setB (R.PSCHED_PREEMPT_ACTIVE p) on
    if on then d else d.set (L.GATE_HOLD p) 0
  else if (suspendedTx d p).isSome then d.set (L.PREEMPT_WANT p) 1
  else d.setAll [(R.PSCHED_PREEMPT_ACTIVE p, 0), (L.PREEMPT_WANT p, 0), (L.GATE_HOLD p, 0)]

/-- PREEMPT_EN or VERIFY_EN changed (R329): verification starts over. Status codes: 0 DISABLED, 1 INITIAL. -/
def preemptConfig (d : Dev) (p : Nat) : Dev :=
  let d := d.setAll [(L.MM_VERIFIED p, 0), (L.MM_TRIES p, 0), (L.PREEMPT_WANT p, 0)]
  preemptFollow (verifyStatus d p (if d.on (R.PSCHED_PREEMPT_EN p) && d.on (R.PSCHED_VERIFY_EN p) then 1 else 0)) p

/-- A verify attempt (R329). PRESUMED from Clause 99: three attempts without a response fail the verification. -/
def mmVerify (d : Dev) (p : Nat) (responded : Bool) : Dev :=
  let st := d.get (R.PSCHED_VERIFY_STATUS p)
  if !d.on (R.PSCHED_PREEMPT_EN p) || !d.on (R.PSCHED_VERIFY_EN p) || !(st == 1 || st == 2) then d
  else if responded then preemptFollow (verifyStatus (d.set (L.MM_VERIFIED p) 1) p 3) p
  else
    let n := d.get (L.MM_TRIES p) + 1
    verifyStatus (d.set (L.MM_TRIES p) n) p (if 3 ≤ n then 4 else 2)

/-- A delayed write of 0 to PREEMPT_EN takes effect (R329). -/
def preemptDisableDone (d : Dev) (p : Nat) : Dev :=
  if d.on (L.PREEMPT_WANT p) && (suspendedTx d p).isNone then preemptFollow d p else d

/-! ## The rows -/

/-- GATE_CMD_CONFIG_CHANGE (R323): gate page `m`, local port `n`. -/
def execGateCmdConfigChange (m : Fin 8) (n : Fin 32) (s : State) : Host.Outcome State Fault Refusal :=
  .next (s.setDev (if s.live (0x80 + m) then gateCmd s.d (32 * m + n) false else s.d))
/-- GATE_CMD_CANCEL (R325). -/
def execGateCmdCancel (m : Fin 8) (n : Fin 32) (s : State) : Host.Outcome State Fault Refusal :=
  .next (s.setDev (if s.live (0x80 + m) then gateCmd s.d (32 * m + n) true else s.d))
/-- CONFIG_CHANGE (R324). -/
def execConfigChange (p : Fin 256) (s : State) : Host.Outcome State Fault Refusal :=
  s.lanes fun d => configChange d p
/-- GATE_ENTRY_BOUNDARY (R322). -/
def execGateEntryBoundary (p : Fin 256) (s : State) : Host.Outcome State Fault Refusal :=
  s.lanes fun d => gateBoundary d p
/-- MM_VERIFY_ATTEMPT (R329). -/
def execMmVerifyAttempt (p : Fin 256) (responded : Bool) (s : State) : Host.Outcome State Fault Refusal :=
  s.lanes fun d => mmVerify d p responded
/-- PREEMPT_DISABLE_DONE (R329). -/
def execPreemptDisableDone (p : Fin 256) (s : State) : Host.Outcome State Fault Refusal :=
  s.lanes fun d => preemptDisableDone d p

end Sys2Proof.Machine
end

