-- ==== Sys2Proof/Machine/RxPath.lean ====
section
/-! DEFINITION. Receiving a frame: the SecTAG parse and the receive procedure (R163 to R189), what the head does
(R283 and the forwarding decision), what the tail does (R155, R156, R187, R205, R209), and the rows RX_FRAME_HEAD,
RX_FRAME_TAIL and FEC_UNCORRECTABLE. -/

namespace Sys2Proof.Machine

/-! ## Classes, policies and bypass (R166 to R171) -/

/-- VLAN class of a frame by its bytes (R166). -/
def vlanClass (d : Dev) (bs : List Byte) : Nat := d.get (R.VID_CLASS_CLASS (outerVid bs))
/-- Policy of class `c` on port `p`: 0 MUST_PROTECT, 1 MAY_BYPASS, 2 CLEAR (R167). -/
def classPolicy (d : Dev) (p c : Nat) : Nat := d.get (R.PORT_CLASS_POLICY (16 * p + c))
/-- A port is protected when a class has a policy other than CLEAR (R167). -/
def portProtected (d : Dev) (p : Nat) : Bool := (List.range 16).any fun c => classPolicy d p c != 2

/-- Does a frame match bypass class `b`? (R170) -/
def bypassMatch (d : Dev) (b : Nat) (bs : List Byte) : Bool :=
  let et := etherType bs
  d.on (R.BYPASS_VALID b) && et != 0x88E5 &&
  (!d.on (R.BYPASS_ETHERTYPE_EN b) || et == d.get (R.BYPASS_ETHERTYPE b)) &&
  (!d.on (R.BYPASS_DA_EN b) || (daOf bs &&& d.get (R.BYPASS_DA_MASK b)) == (d.get (R.BYPASS_DA b) &&& d.get (R.BYPASS_DA_MASK b)))

/-- The lowest bypass class of a mask that a frame matches. -/
def bypassOf (d : Dev) (mask : Nat) (bs : List Byte) : Option Nat :=
  findBelow (fun b => bitAt mask b && bypassMatch d b bs) 16

/-- The port's default SecY (R167). -/
def defaultSecy (d : Dev) (p : Nat) : Option Nat :=
  let s := d.get (R.PORT_CLASS_SECY (16 * p))
  if d.on (R.PORT_CLASS_SECY_VALID (16 * p)) && secyValid d s then some s else none

/-! ## The SecTAG (R182, R185) -/

/-- The parts of a received SecTAG. -/
structure SecTag where
  tci : Nat
  sl : Nat
  pn : Nat
  sci : Option Nat
  len : Nat
  deriving DecidableEq, Repr

def SecTag.es (t : SecTag) : Bool := bitAt t.tci 6
def SecTag.scBit (t : SecTag) : Bool := bitAt t.tci 5
def SecTag.scb (t : SecTag) : Bool := bitAt t.tci 4
def SecTag.e (t : SecTag) : Bool := bitAt t.tci 3
def SecTag.c (t : SecTag) : Bool := bitAt t.tci 2
def SecTag.an (t : SecTag) : Nat := t.tci % 4

/-- Read the SecTAG after the addresses. -/
def secTag (bs : List Byte) : SecTag :=
  let tci := fieldZ bs 14 1
  let sc := bitAt tci 5
  ⟨tci, fieldZ bs 15 1 % 256, fieldZ bs 16 4, if sc then some (fieldZ bs 20 8) else none, if sc then 16 else 8⟩

/-- Secure data of a received frame: what follows the SecTAG, without ICV and FCS once the frame is whole. -/
def secureData (bs : List Byte) (t : SecTag) (whole : Bool) : List Byte :=
  let b := bs.drop (12 + t.len)
  if whole then b.take (b.length - 20) else b

/-- Does parse_sectag fail? (R185) Before the tail only what has arrived can be judged; by then at least 128 bytes of
plaintext have arrived, so every case below is decided. -/
def tagFails (bs : List Byte) (t : SecTag) (whole : Bool) : Bool :=
  let n := (secureData bs t whole).length
  bitAt t.tci 7 || (t.es && t.scBit) || (t.scb && t.scBit) || (!t.e && t.c) || decide (48 ≤ t.sl) ||
  (whole && decide (bs.length < 12 + t.len + 16 + 4)) ||
  (t.sl != 0 && (if whole then n != t.sl else decide (t.sl < n))) ||
  (t.sl == 0 && whole && decide (n < 48))

/-- The SCI lookup (R179, R180): receive SCs listed as VALID are searched. -/
def sciLookup (d : Dev) (p sci : Nat) : Option Nat :=
  (d.listedEntries 0x70 2 0).find? fun i =>
    d.on (R.RXSC_VALID i) && d.get (R.RXSC_SCI i) == sci && secyValid d (d.get (R.RXSC_SECY i)) &&
      d.get (R.SECY_PORT (d.get (R.RXSC_SECY i))) == p

/-- The receive SC of a frame (R179). -/
def rxScOf (d : Dev) (p : Nat) (bs : List Byte) (t : SecTag) : Option Nat :=
  match t.sci with
  | some sci => sciLookup d p sci
  | none =>
    if t.es then sciLookup d p (saOf bs * 2 ^ 16 + 1)
    else match defaultSecy d p with
      | some s =>
        let c := d.get (R.SECY_DEFAULT_RXSC s)
        if d.on (R.SECY_DEFAULT_RXSC_VALID s) && d.on (R.RXSC_VALID c) && d.get (R.RXSC_SECY c) == s then some c else none
      | none => none

/-- REPLAY_WINDOW in force (R173). -/
def replayWindow (d : Dev) (s : Nat) : Nat := min 1073741824 (d.get (R.SECY_REPLAY_WINDOW s))
/-- NEXT_PN and LOWEST_PN of a receive SA; 0 acts as 1 (R176). -/
def rxNextPn (d : Dev) (i : Nat) : Nat := max 1 (d.get (R.RXSA_NEXT_PN i))
def rxLowestPn (d : Dev) (i : Nat) : Nat := max 1 (d.get (R.RXSA_LOWEST_PN i))

/-- recover_pn (R186). PRESUMED from IEEE 802.1AE-2018: the upper half is that of the lowest PN the window still accepts,
one more when that PN's low half has its top bit set and the received low half has not. -/
def recoverPn (d : Dev) (s i low : Nat) : Nat :=
  if suiteXpn (d.get (R.SECY_CIPHER_SUITE s)) then
    let ll := max 1 (rxNextPn d i - replayWindow d s)
    let up := ll / 2 ^ 32
    let up := if bitAt ll 31 && !bitAt low 31 then up + 1 else up
    (up % 2 ^ 32) * 2 ^ 32 + low
  else low

/-! ## The receive procedure at the parse -/

/-- What the parse of a frame found. -/
structure RxParse where
  kind : RxKind
  charges : List (Nat × Nat × Nat)
  secy : Option Nat
  sc : Nat
  sa : Option Nat
  pn : Nat
  /-- Length of the SecTAG to strip. -/
  strip : Nat
  bypassClass : Nat
  deriving DecidableEq, Repr

/-- A frame without its SecTAG, ICV and FCS. -/
def stripFrame (bs : List Byte) (taglen : Nat) (whole : Bool) : List Byte :=
  if taglen = 0 then (if whole then bs.take (bs.length - 4) else bs)
  else bs.take 12 ++ secureData bs ⟨0, 0, 0, none, taglen⟩ whole

/-- deliver_unvalidated at the parse (R188): dropped when the policy of the frame's own class is MUST_PROTECT. -/
def unvalidated (d : Dev) (p : Nat) (bs : List Byte) (whole : Bool) (charges : List (Nat × Nat × Nat)) (secy : Option Nat)
    (sc taglen : Nat) : RxParse :=
  if classPolicy d p (vlanClass d (stripFrame bs taglen whole)) = 0 then
    ⟨.dropped, charges ++ [(13, p, 3)], secy, sc, none, 0, taglen, 0⟩
  else ⟨.unvalidated, charges, secy, sc, none, 0, taglen, 0⟩

/-- Drop at the parse with counters. -/
def rxDrop (charges : List (Nat × Nat × Nat)) : RxParse := ⟨.dropped, charges, none, 0, none, 0, 0, 0⟩

/-- A counter of a SecY when there is one. -/
def secyCharge (s : Option Nat) (table k : Nat) : List (Nat × Nat × Nat) :=
  match s with
  | some i => [(table, i, k)]
  | none => []

/-- VALIDATE_FRAMES of a SecY: 0 Strict, 1 Check, 2 Disabled. -/
def validateMode (d : Dev) (s : Nat) : Nat := d.get (R.SECY_VALIDATE_FRAMES s)

/-- The receive procedure up to the cipher cluster (R184 listing, R185 to R188). -/
def rxParse (d : Dev) (p : Nat) (bs : List Byte) (whole : Bool) (stamp : Nat) : RxParse :=
  let dflt := defaultSecy d p
  let strict := match dflt with
    | some s => validateMode d s == 0
    | none => false
  if fieldZ bs 12 2 = 0x8808 then ⟨.macControl, [], none, 0, none, 0, 0, 0⟩
  else if !portProtected d p then ⟨.plain, [], dflt, 0, none, 0, 0, 0⟩
  else if fieldZ bs 12 2 ≠ 0x88E5 then
    match dflt with
    | none => unvalidated d p bs whole [] none 0 0
    | some s =>
      match bypassOf d (d.get (R.SECY_BYPASS_MASK s)) bs with
      | some b => ⟨.bypass, [(13, p, 5)], some s, 0, none, 0, 0, b⟩
      | none =>
        if strict then rxDrop [(11, s, 1)] else unvalidated d p bs whole [(11, s, 0)] (some s) 0 0
  else
    let t := secTag bs
    if tagFails bs t whole then rxDrop (secyCharge dflt 11 2)
    else match rxScOf d p bs t with
      | none =>
        if dflt.isNone || strict || t.c then rxDrop (secyCharge dflt 11 3)
        else unvalidated d p bs whole (secyCharge dflt 11 4) dflt 0 t.len
      | some sc =>
        let s := d.get (R.RXSC_SECY sc)
        let suite := d.get (R.SECY_CIPHER_SUITE s)
        let sa := 4 * sc + t.an
        if t.pn = 0 ∧ ¬ suiteXpn suite then rxDrop [(11, s, 2)]
        else if !rxSaServes d sa stamp then
          if validateMode d s == 0 || t.c then rxDrop [(9, sa, 3)]
          else unvalidated d p bs whole [(9, sa, 4)] (some s) sc t.len
        else
          let pn := recoverPn d s sa t.pn
          if d.on (R.SECY_REPLAY_PROTECT s) && decide (pn < rxLowestPn d sa) then rxDrop [(10, sc, 2)]
          else if validateMode d s == 2 && !t.c then unvalidated d p bs whole [(10, sc, 0)] (some s) sc t.len
          else ⟨.controlled, [], some s, sc, some sa, pn, t.len, 0⟩

/-! ## Deciphering and verifying -/

/-- CONF_OFFSET in bytes (R173). -/
def confOffset (code : Nat) : Nat := if code = 1 then 30 else if code = 2 then 50 else 0

/-- The IV of a frame: SCI and PN, or for XPN suites SSCI and PN with the salt (R199, IEEE 802.1AE-2018). -/
def frameIv (suite sci ssci pn salt : Nat) : Nat :=
  if suiteXpn suite then (ssci * 2 ^ 64 + pn) ^^^ salt else sci * 2 ^ 32 + pn % 2 ^ 32

/-- Associated data and enciphered data of a frame: `head` is DA to SecTAG. With no confidentiality all is associated data. -/
def splitData (head data : List Byte) (conf : Bool) (off : Nat) : List Byte × List Byte :=
  if conf then (head ++ data.take off, data.drop off) else (head ++ data, [])

/-- Expanded key and IV of a controlled frame, from its own context (R191, R200). -/
def frameKeys (f : Frame) := Crypto.roundKeys (suiteKeyLen f.suite) f.key
def frameIvOf (f : Frame) : Nat := frameIv f.suite f.sci f.ssci f.pn f.salt

/-- Plaintext of a controlled frame from its bytes as received (R182). -/
def rxPlain (f : Frame) (whole : Bool) : List Byte :=
  let t := secTag f.wire
  let data := secureData f.wire t whole
  let sp := splitData (f.wire.take (12 + t.len)) data t.c f.off
  f.wire.take 12 ++ (if t.c then data.take f.off ++ Crypto.gctr (frameKeys f) (frameIvOf f * 2 ^ 32 + 1) sp.2 else data)

/-- The ICV check of a whole controlled frame (R205). -/
def rxVerify (f : Frame) : Bool :=
  let t := secTag f.wire
  let sp := splitData (f.wire.take (12 + t.len)) (secureData f.wire t true) t.c f.off
  Crypto.gcmTag (frameKeys f) (frameIvOf f) sp.1 sp.2 == fieldZ f.wire (f.wire.length - 20) 16

/-- AES blocks of a frame: its enciphered data and the tag mask (R201). -/
def frameBlocks (data : Nat) (conf : Bool) (off : Nat) : Nat := (if conf then (data - off + 15) / 16 else 0) + 1

/-! ## The head -/

/-- What a port's transmitter sends (R153). -/
inductive LineSend where
  | nothing
  | idle
  | localFault
  | remoteFault
  | frames
  deriving DecidableEq, Repr

/-- A fault row of R153 keeps frames from being sent on a port: TX_FORCE, or local or remote fault received. -/
def txFaulted (d : Dev) (p : Nat) : Bool :=
  d.get (R.PORT_CTRL_TX_FORCE p) != 0 || d.on (R.PORT_STATUS_LOCAL_FAULT p) || d.on (R.PORT_STATUS_RF_RECEIVED p)

/-- The transmit column of the fault table, the row nearest the top first (R153); every transmitter is in electrical idle while the run state
is stopped (R107), and a port whose lanes are OFF sends nothing. -/
def portSends (run : RunState) (d : Dev) (p : Nat) : LineSend :=
  if run.stopped || !served d p || decide (portState d p ≤ psPowerPending) then .nothing
  else if run == .contained then .idle
  else match d.get (R.PORT_CTRL_TX_FORCE p) with
    | 1 => .localFault
    | 2 => .remoteFault
    | 3 => .idle
    | _ =>
      if portState d p = psBringup ∨ d.on (R.PORT_STATUS_LOCAL_FAULT p) then .remoteFault
      else if d.on (R.PORT_STATUS_RF_RECEIVED p) then .idle
      else if d.on (R.PORT_CTRL_LOOPBACK p) then .idle else .frames

/-- The port receives frames now: UP, no local fault received, run state ACTIVE (R145, R149, R153). -/
def rxOpen (run : RunState) (d : Dev) (p : Nat) : Bool :=
  run == .active && served d p && portState d p == psUp && !d.on (R.PORT_STATUS_LOCAL_FAULT p)

/-- The frame in progress on a MAC of a port. -/
def rxInProgress (d : Dev) (p : Nat) (pmac : Bool) : Option Frame :=
  d.frames.find? fun f => !f.fromRing && f.src == p && f.pmac == pmac && !f.tail

/-- The port carries the MAC merge sublayer and PREEMPT_EN is 1 (R329). -/
def mergeOn (d : Dev) (p : Nat) : Bool := decide (iface d p ≤ 3) && d.on (R.PSCHED_PREEMPT_EN p)

/-- Receive timestamp of a frame whose timestamp point crossed the ball `ago` before now, in units of 2^-16 ns (R77). -/
def rxStamp (d : Dev) (p ago : Nat) : Int := (d.time : Int) - (ago * 2 ^ 32 : Nat) - d.getS (R.TS_RX_DELAY p) * (2 ^ 32 : Nat)

/-- SEC_STATUS of a kind (R283). -/
def secStatusOf : RxKind → Nat
  | .plain => 0
  | .controlled => 1
  | .unvalidated => 2
  | .bypass => 3
  | .macControl => 0
  | .dropped => 0

/-- A frame of this kind is stored and forwarded. -/
def RxKind.stored : RxKind → Bool
  | .plain => true
  | .bypass => true
  | .unvalidated => true
  | .controlled => true
  | .macControl => false
  | .dropped => false

/-- The frame takes its context: the key, salt and SSCI of receive SA `i` of receive SC `sc` and SecY `y`, with the SCI, the suite and the
confidentiality offset (R191, R200). -/
def withContext (d : Dev) (f : Frame) (y sc i : Nat) : Frame :=
  let k := saKeyIx true i
  { f with key := d.get (L.SA_KEY k), salt := d.get (L.SA_SALT k), ssci := d.get (R.RXSA_SSCI i), sci := d.get (R.RXSC_SCI sc),
           suite := d.get (R.SECY_CIPHER_SUITE y), off := confOffset (d.get (R.SECY_CONF_OFFSET y)), load := d.get (L.SA_LOADS k) }

/-- The frame's context is zeroed (R207). -/
def Frame.withoutContext (f : Frame) : Frame := { f with key := 0, salt := 0, ssci := 0, sci := 0, suite := 0, off := 0 }

/-- A frame whose parse gave `r`, with its context when it has latched an SA. -/
def frameOf (d : Dev) (p : Nat) (pmac : Bool) (stamp id : Nat) (bs : List Byte) (looped : Bool) (r : RxParse) : Frame :=
  let f : Frame :=
    { id := id, fromRing := false, src := p, pmac := pmac, stamp := stamp, stamped := false, tsHold := d.on R.TB_STATUS_HOLDOVER,
      tsUncal := !d.on (R.TS_CAL_STATUS_CALIBRATED p), wire := bs, plain := [], errored := false, tail := false, passed := false,
      failed := false, kind := r.kind, charges := r.charges, secy := r.secy, sc := r.sc, sa := r.sa, pn := r.pn, key := 0, salt := 0,
      ssci := 0, sci := 0, suite := 0, off := 0, load := 0, secStatus := secStatusOf r.kind, bypassClass := r.bypassClass, rule := none,
      vid := 0, noLearn := false, meter := none, traps := [], cells := 0, cellNos := [], looped := looped, status := 0 }
  match r.sa with
  | some i => withContext d f (r.secy.getD 0) r.sc i
  | none => f

/-- The stored plaintext of a frame from its bytes so far: deciphered, or without its SecTAG of `strip` bytes. -/
def framePlain (f : Frame) (strip : Nat) (whole : Bool) : List Byte :=
  if f.kind = .controlled then rxPlain f whole else if f.kind.stored then stripFrame f.wire strip whole else []

/-- A frame is judged for its copies, and stored when one of them is admitted (R295, R298). `n` is the number of its cells so far. -/
def storeFrame (run : RunState) (d : Dev) (f : Frame) (n : Nat) (len : Option Nat) : Dev :=
  let d := settleFrame (forward run { d with frames := d.frames ++ [{ f with cells := n }] } f.id len 0 0).1 f.id n
  match getFrame d f.id with
  | none => d
  | some g =>
    let punted := d.copies.any fun c => c.frame == f.id && decide (4096 ≤ c.queue)
    putFrame d { g with
      stamped := (d.on (R.TS_CTRL_ENABLE f.src) && isPtpEvent f.plain) || (d.on (R.TS_CTRL_STAMP_ALL f.src) && punted) }

/-- The transmit stream of port `p` that LOOPBACK returns and that its receiver takes next (R153). -/
def loopNext (d : Dev) (p : Nat) : Option (List Byte) := (d.looped.find? (·.1 == p)).map (·.2)

/-- What LOOPBACK has returned to a port and its receiver has not taken goes. -/
def loopClear (d : Dev) (p : Nat) : Dev := { d with looped := d.looped.filter (·.1 != p) }

/-- Under LOOPBACK the receiver takes the port's own stream and nothing else (R153). DESIGN CHOICE: a head that the oldest returned frame
does not begin with comes from the line, and has no effect (log 32). -/
def loopAccepts (d : Dev) (p : Nat) (bs : List Byte) : Bool :=
  !d.on (R.PORT_CTRL_LOOPBACK p) || (match loopNext d p with
    | some x => bs.isPrefixOf x
    | none => false)

/-- The head of a received frame (R185, R191, R283). `whole` says that its tail has arrived too. -/
def rxHead (run : RunState) (d : Dev) (p : Nat) (pmac : Bool) (ago : Nat) (bs : List Byte) (whole : Bool) : Dev :=
  if !rxOpen run d p || (rxInProgress d p pmac).isSome || (pmac && !mergeOn d p) || !loopAccepts d p bs then d else
  let z := rxStamp d p ago
  let stamp := if 0 ≤ z then z.toNat else d.freeVal 128
  let d := if 0 ≤ z then d else d.tookFree
  let r := rxParse d p bs whole stamp
  let (d, id) := newSerial d
  let f0 := frameOf d p pmac stamp id bs (d.on (R.PORT_CTRL_LOOPBACK p)) r
  let f := { f0 with plain := framePlain f0 r.strip whole }
  if r.kind.stored then
    let len := if whole then some (f.plain.length + 4) else none
    storeFrame run d f (cellsOf (len.getD f.plain.length)) len
  else { d with frames := d.frames ++ [f] }

/-! ## The tail -/

/-- MAX_LEN in force (R160). -/
def maxLen (d : Dev) (p : Nat) : Nat := min 16000 (max 64 (d.get (R.PORT_CFG_MAX_LEN p)))
/-- Length limit of a received frame (R155). -/
def rxLimit (d : Dev) (p : Nat) (bs : List Byte) : Nat := maxLen d p + (if fieldZ bs 12 2 = 0x88E5 then 32 else 0)

/-- The line fault of a whole frame, by the order of R212 and R155. -/
def lineFault (d : Dev) (p : Nat) (wire : List Byte) (ended : Bool) : Option Nat :=
  if ended then some stompRxError
  else if wire.length < 4 ∨ Crypto.fcs (wire.take (wire.length - 4)) ≠ wire.drop (wire.length - 4) then some stompFcs
  else if wire.length < 64 then some stompRunt
  else if rxLimit d p wire < wire.length then some stompOversize
  else none

/-- Count a line fault at the port (R155, R213). -/
def countLineFault (d : Dev) (p : Nat) (wire : List Byte) (c : Nat) : Dev :=
  if c = stompRxError then portCount d p (R.RX_ENDED_ERROR p)
  else if c = stompFcs then
    let d := portCount d p (R.RX_FCS_ERR p)
    if 4 ≤ wire.length ∧ Crypto.complement (Crypto.fcs (wire.take (wire.length - 4))) = wire.drop (wire.length - 4) then
      (if served d p then d.count (clusterPage p) (R.RX_STOMP_SEEN p) else d)
    else d
  else if c = stompRunt then portCount d p (R.RX_RUNT p)
  else portCount d p (R.RX_OVERSIZE p)

/-- Move counters of tables 8 to 13. -/
def chargeAll (d : Dev) (l : List (Nat × Nat × Nat)) : Dev := l.foldl (fun d x => d.count 0x70 (secStat x.1 x.2.1 x.2.2)) d

/-- The frame's tail is in and its verdict applied: it is marked, its context is zeroed (R207), and it goes when nothing holds it. -/
def endFrame (d : Dev) (id : Nat) (passed : Bool) : Dev :=
  match getFrame d id with
  | some f => frameRelease (putFrame d { f.withoutContext with tail := true, passed := passed }) id
  | none => d

/-- A stored frame fails at its tail. -/
def failAtTail (run : RunState) (d : Dev) (id cause status : Nat) : Dev := endFrame (failFrame run d id cause status) id false

/-- The charges of a long frame's tail, whatever becomes of the frame: its policer's buckets and its trap classes' (R319, R351). `len` is
its stored length with the FCS. -/
def tailCharges (d : Dev) (f : Frame) (len : Nat) : Dev :=
  let d := match f.meter with
    | some (i, c) => policerCharge d i c len
    | none => d
  f.traps.foldl (fun d c => takeBucket d (L.CLS_DEF c) len) d

/-- A frame passes: learning, where it passed every check (`learn`), ring buffers being written, and its copies may go (R291, R300). -/
def passFrame (run : RunState) (d : Dev) (id : Nat) (learn : Bool := true) : Dev :=
  match getFrame d id with
  | none => d
  | some f =>
    let d := if learn then fdbLearn d f else d
    let d := (d.descs.filter fun x => x.frame == some id && x.done.isNone).foldl (fun d x => ringDone run d x f) d
    endFrame d id true

/-- NEXT_PN and LOWEST_PN after a verified frame, and exhaustion by the last PN (R186, R187). NEXT_PN never wraps (R238). -/
def rxAdvance (d : Dev) (s i pn : Nat) : Dev :=
  let suite := d.get (R.SECY_CIPHER_SUITE s)
  let d :=
    if rxNextPn d i ≤ pn then
      let nxt := min (pn + 1) (2 ^ 64 - 1)
      d.setAll [(R.RXSA_NEXT_PN i, nxt), (R.RXSA_LOWEST_PN i, max (rxLowestPn d i) (pn + 1 - replayWindow d s))]
    else d
  if pn = lastPn suite ∧ saState d true i = saInService then saToExhausted d true i else d

/-- RX_FRAMES and RX_BLOCKS of a frame that its cluster has deciphered or verified, whatever the line checks find (R220). -/
def countDeciphered (d : Dev) (f : Frame) : Dev :=
  let t := secTag f.wire
  let k := portCluster f.src
  (d.count (clusterPage f.src) (R.RX_FRAMES k)).count (clusterPage f.src) (R.RX_BLOCKS k)
    (frameBlocks (secureData f.wire t true).length t.c f.off)

/-- The tail of a controlled frame that passed the line checks (R187 to R189). PRESUMED from IEEE 802.1AE-2018: IN_OCTETS_VALIDATED and
IN_OCTETS_DECRYPTED count the User Data of every frame that is checked, of one that fails the check too (log 33). -/
def controlledTail (run : RunState) (d : Dev) (id : Nat) : Dev :=
  match getFrame d id with
  | none => d
  | some f =>
  let s := f.secy.getD 0
  let i := f.sa.getD 0
  let t := secTag f.wire
  let n := (secureData f.wire t true).length
  let d := d.count 0x70 (secStat 12 s (b2n t.c)) n
  let ok := rxVerify f
  if d.on (R.SECY_REPLAY_PROTECT s) && decide (f.pn < rxLowestPn d i) then
    failAtTail run (chargeAll d [(10, f.sc, 2)]) f.id stompReplay 3
  else if !ok then
    if validateMode d s == 0 || t.c then failAtTail run (chargeAll d [(9, i, 2)]) f.id stompIcv 1
    else
      let d := chargeAll d [(9, i, 1)]
      if classPolicy d f.src (vlanClass d f.plain) = 0 then failAtTail run (chargeAll d [(13, f.src, 3)]) f.id stompPolicy 5
      else passFrame run (putFrame d { f with secStatus := 2 }) f.id false
  else
    let d := chargeAll d ([if f.pn < rxLowestPn d i then (10, f.sc, 1) else (9, i, 0)])
    passFrame run (if saState d true i = saEmpty ∨ d.get (L.SA_LOADS (saKeyIx true i)) ≠ f.load then d else rxAdvance d s i f.pn) f.id

/-- What the tail of a frame found at the MAC merge sublayer (R334): continuation fragments, assembly failure, SMD errors. -/
structure MergeInfo where
  frags : Nat
  assemblyError : Bool
  smdErrors : Nat
  deriving DecidableEq, Repr

/-- Counters of the MAC merge sublayer (R334). -/
def mergeCount (d : Dev) (p : Nat) (pmac : Bool) (m : MergeInfo) : Dev :=
  let pg := 0x78 + p / 32
  let d := d.count pg (R.PORT_MM_STATS p 4) m.smdErrors
  if !pmac then d else
  let d := d.count pg (R.PORT_MM_STATS p 1) m.frags
  if m.assemblyError then d.count pg (R.PORT_MM_STATS p 3) else if m.frags ≠ 0 then d.count pg (R.PORT_MM_STATS p 2) else d

/-- Bytes of a frame's SecTAG that are stripped with no verified protection. -/
def tagStrip (f : Frame) : Nat := if fieldZ f.wire 12 2 = 0x88E5 ∧ f.kind = .unvalidated then (secTag f.wire).len else 0

/-- Stored length of a whole frame, with the FCS (R318). -/
def storedLen (f : Frame) : Nat := (stripFrame f.wire (if f.kind = .controlled then (secTag f.wire).len else tagStrip f) true).length + 4

/-- A tail that follows a returned head completes the oldest returned frame of the port (R153). -/
def loopTail (d : Dev) (p : Nat) (f : Frame) (rest : List Byte) : Bool := !f.looped || loopNext d p == some (f.wire ++ rest)

/-- The returned frame has been received. -/
def loopPop (d : Dev) (p : Nat) (f : Frame) : Dev :=
  if f.looped then { d with looped := match d.looped.find? (·.1 == p) with
    | some x => d.looped.erase x
    | none => d.looped } else d

/-- The tail of a received frame (R155, R156, R187, R209, R302). -/
def rxTail (run : RunState) (d : Dev) (p : Nat) (pmac : Bool) (rest : List Byte) (ended : Bool) (m : MergeInfo) : Dev :=
  match rxInProgress d p pmac with
  | none => d
  | some f =>
    if !ended && !loopTail d p f rest then d else
    let d := loopPop d p f
    let f := { f with wire := f.wire ++ rest }
    let fault := lineFault d p f.wire (ended || f.errored || m.assemblyError)
    let d := mergeCount d p pmac m
    let d := winRx d p f.stamp f.wire.length (fault == some stompRxError || fault == some stompFcs)
    let d := match fault with
      | some c => countLineFault d p f.wire c
      | none => d
    let d := if f.kind.stored then tailCharges d f (storedLen f) else d
    let d := if f.kind = .controlled ∧ ¬ f.failed then countDeciphered d f else d
    let f := if f.failed then f else { f with plain := framePlain f (tagStrip f) true }
    let d := putFrame d f
    if f.failed then endFrame (match fault with
      | some c => poisonCopies d f.id c
      | none => d) f.id false
    else match fault with
      | some c => failAtTail run d f.id c 4
      | none =>
        let d := chargeAll d f.charges
        match f.kind with
        | .macControl =>
          endFrame (if fieldZ f.wire 14 2 = 1 then portCount d p (R.RX_PAUSE p) else portCount d p (R.RX_MAC_CTRL_OTHER p)) f.id false
        | .dropped => endFrame d f.id false
        | .controlled => controlledTail run (growFrame run d f.id (cellsOf (f.plain.length + 4))) f.id
        | .plain => passFrame run (growFrame run d f.id (cellsOf (f.plain.length + 4))) f.id
        | .bypass => passFrame run (growFrame run d f.id (cellsOf (f.plain.length + 4))) f.id
        | .unvalidated => passFrame run (growFrame run d f.id (cellsOf (f.plain.length + 4))) f.id

/-- A received frame in progress ends with error at once (R149): both MACs of the port. -/
def rxAbort (run : RunState) (d : Dev) (p : Nat) : Dev :=
  rxTail run (rxTail run d p false [] true ⟨0, false, 0⟩) p true [] true ⟨0, false, 0⟩

/-- Frames in progress on a port are discarded with the zero-overwrite when the run state becomes CONTAINED (R219). -/
def rxContain (run : RunState) (d : Dev) : Dev :=
  (d.frames.filter fun f => !f.fromRing && !f.tail).foldl (fun d f => failAtTail run d f.id stompRxError 4) d

/-- Bin `b` of the codeword histogram of port `p` (R158). -/
def fecBin (p b : Nat) : Fld := tblFld (portPage p) 0 (32 * (p % 8) + b) 0 64 0
/-- CORR_SYMBOLS and BLOCK_ERRORS of lane `l` (R159). -/
def fecSymbols (l : Nat) : Fld := tblFld (portPage l) 1 (l % 8) 0 64 0
def fecBlocks (l : Nat) : Fld := tblFld (portPage l) 1 (l % 8) 64 32 0

/-- Most symbols that the code of a port corrects in a codeword: RS(528,514) 7, RS(544,514) 15 (R158). -/
def fecLimit (d : Dev) (p : Nat) : Nat := if iface d p = 1 then 7 else 15

/-- A codeword decoded with these corrected symbols, by lane of the port (R158 to R160). -/
def fecGood (d : Dev) (p : Nat) (symbols : List Nat) : Dev :=
  let n := symbols.sum
  if fecLimit d p < n then d
  else
    let pg := portPage p
    let d := d.count pg (fecBin p n)
    let d := if n = 0 then d else portCount (portCount d p (R.FEC_CORRECTED_CW p)) p (R.FEC_CORRECTED_SYMBOLS p) n
    d.each (portWidth d p) fun i d => d.count pg (fecSymbols (p + i)) (symbols.getD i 0)

/-- Codewords of a port are reported: those decoded since the last report, and then one that is uncorrectable, whose errored blocks by lane
are `blocks` and which overlaps the frames in progress (R136, R158, R159). A port without FEC has none. -/
def fecUncorrectable (d : Dev) (p : Nat) (good : List (List Nat)) (blocks : List Nat) : Dev :=
  if !served d p || !d.on (R.PORT_STATUS_FEC_ACTIVE p) then d else
  let d := good.foldl (fun d xs => fecGood d p xs) d
  let d := portCount d p (R.FEC_UNCORRECTED_CW p)
  let d := d.count (portPage p) (fecBin p 16)
  let d := portCount d p (R.PCS_ERR_BLOCKS p) blocks.sum
  let d := d.each (portWidth d p) fun i d => d.count (portPage p) (fecBlocks (p + i)) (blocks.getD i 0)
  let d := { d with frames := d.frames.map fun f => if !f.fromRing && f.src == p && !f.tail then { f with errored := true } else f }
  portEvent d p 3

/-! ## The rows -/

/-- RX_FRAME_HEAD (R283). -/
def execRxFrameHead (p : Fin 256) (pmac : Bool) (ago : Nat) (bytes : List Byte) (whole : Bool) (s : State) :
    Host.Outcome State Fault Refusal := .next (s.setDev (rxHead s.run s.d p pmac ago bytes whole))
/-- RX_FRAME_TAIL (R187). -/
def execRxFrameTail (p : Fin 256) (pmac : Bool) (rest : List Byte) (ended : Bool) (frags : Nat) (assemblyError : Bool)
    (smdErrors : Nat) (s : State) : Host.Outcome State Fault Refusal :=
  s.lanes fun d => rxTail s.run d p pmac rest ended ⟨frags, assemblyError, smdErrors⟩
/-- FEC_UNCORRECTABLE (R136). -/
def execFecUncorrectable (r : CodewordReport) (s : State) : Host.Outcome State Fault Refusal :=
  s.lanes fun d => fecUncorrectable d r.port r.good r.blocks

end Sys2Proof.Machine
end

