-- ==== Sys2Proof/Machine/TxPath.lean ====
section
/-! DEFINITION. Sending a copy: transmit processing (R166 to R184), committed departure (R241 to R244), selection by tier,
deficit round robin, credit, tokens and gates (R311 to R317, R326 to R332), issue, start and end (R223 to R225, R210), and
the discards of a port that is down or of a run state (R143 to R145, R224, R333). -/

namespace Sys2Proof.Machine

/-! ## Transmit processing -/

/-- What transmit processing decides for a copy. -/
inductive TxKind where
  /-- Sent in clear, with the counters of tables 8 to 13 that move. -/
  | clear (charges : List (Nat × Nat × Nat))
  /-- Protected under this SecY. -/
  | protect (secy : Nat)
  /-- Withdrawn before a PN is taken, with the counters that move. -/
  | withdrawn (charges : List (Nat × Nat × Nat))
  deriving DecidableEq, Repr

/-- Expansion of a SecY in bytes (R181). -/
def expansion (d : Dev) (s : Nat) : Nat := if d.on (R.SECY_INCLUDE_SCI s) then 32 else 24
/-- TX_MAX_LEN in force (R173). -/
def txMaxLen (d : Dev) (s : Nat) : Nat :=
  let v := d.get (R.SECY_TX_MAX_LEN s)
  if v = 0 ∨ 16032 < v then 16032 else max 64 v

/-- Transmit processing up to select_tx_sa (the listing before R181). -/
def txProcess (d : Dev) (p : Nat) (bs : List Byte) : TxKind :=
  let e := 16 * p + vlanClass d bs
  let pol := d.get (R.PORT_CLASS_POLICY e)
  let s := d.get (R.PORT_CLASS_SECY e)
  let ok := d.on (R.PORT_CLASS_SECY_VALID e) && secyValid d s
  if pol = 2 ∨ ¬ portProtected d p then .clear []
  else if ok && (bypassOf d (d.get (R.SECY_BYPASS_MASK s)) bs).isSome then .clear [(13, p, 4)]
  else if !ok || !d.on (R.SECY_PROTECT_FRAMES s) then
    if pol = 0 then .withdrawn [(13, p, 1)] else .clear (if ok then [(11, s, 5)] else [])
  else if txMaxLen d s < (pad64 bs).length + 4 + expansion d s then .withdrawn [(12, s, 4)]
  else .protect s

/-- The SecTAG of a copy (R182). -/
def buildTag (d : Dev) (s an pn : Nat) : List Byte :=
  let c := b2n (d.on (R.SECY_CONFIDENTIALITY s))
  let sc := d.on (R.SECY_INCLUDE_SCI s)
  let tci := d.get (R.SECY_USE_ES s) * 64 + b2n sc * 32 + d.get (R.SECY_USE_SCB s) * 16 + c * 12 + an
  [0x88, 0xE5] ++ beBytes 1 tci ++ [0] ++ beBytes 4 (pn % 2 ^ 32) ++ (if sc then beBytes 8 (d.get (R.SECY_SCI s)) else [])

/-- Line bytes S of a copy whose bytes as handed to the port are `bs` (R311). -/
def copyS (bs : List Byte) (k : TxKind) (d : Dev) : Nat :=
  match k with
  | .protect s => (pad64 bs).length + 4 + expansion d s + 20
  | .clear _ => bs.length + 24
  | .withdrawn _ => bs.length + 24

/-! ## Committed departure (R242, R243) -/

/-- The committed time of a copy that starts at `t`, to 2^-16 ns: 64 bits of line time and TS_TX_DELAY. A time below zero
has no representation in the spec and is taken as zero. -/
def committedTime (d : Dev) (p t : Nat) : Nat :=
  ((t + lineTime d p 8 : Nat) + d.getS (R.TS_TX_DELAY p) * (2 ^ 32 : Nat)).toNat / 2 ^ 32 * 2 ^ 32

/-- The correctionField of a PTP header at `o`, signed. -/
def ptpCorr (bs : List Byte) (o : Nat) : Int := toSigned 64 (fieldZ bs (o + 8) 8)

/-- The operation on the plaintext; none when the header cannot be found, the correction overflows, or RESIDENCE has no
ingress timestamp (R243). -/
def cdWrite (f : Frame) (op reqTime tc : Nat) (bs : List Byte) : Option (List Byte) :=
  match ptpOff bs with
  | none => none
  | some o =>
    let add : Int := if op = 1 then (fracOf tc : Int)
      else if op = 2 then (tc / 2 ^ 32 : Nat) - (f.stamp / 2 ^ 32 : Nat)
      else (tc / 2 ^ 32 : Nat) - (reqTime / 2 ^ 32 : Nat)
    let c := ptpCorr bs o + add
    if c < -(2 ^ 63 : Nat) ∨ (2 ^ 63 : Nat) ≤ c ∨ (op = 2 ∧ ¬ f.stamped) then none
    else some (ptpWrite bs o (beBytes 8 (ofSigned 64 c))
      (if op = 1 then some (beBytes 6 (secOf tc % 2 ^ 48) ++ beBytes 4 (nsOf tc)) else none))

/-- The plaintext of a copy as handed to its port, with the committed time written (R242, R294). -/
def copyBytes (f : Frame) (c : Copy) (tc : Nat) : List Byte :=
  let bs := editTags c.edit f.plain
  if c.cdOp = 0 then bs else (cdWrite f c.cdOp c.cdTime tc bs).getD bs

/-! ## Eligibility (R300, R312) -/

/-- Cut-through eligibility of a copy (R300); a queue is governed by a list in operation while GATE_ENABLE of its port is in force (R328). -/
def cutThrough (d : Dev) (p : Nat) (c : Copy) (f : Frame) (k : TxKind) : Bool :=
  bitAt (d.get R.CT_CLASS_EN) c.flow && !f.fromRing && c.cdOp == 0 && decide (portGbps d p ≤ portGbps d f.src) &&
  !gateEnabled d p &&
  (match k with
   | .protect s => decide (maxLen d f.src + expansion d s ≤ txMaxLen d s)
   | .clear _ => true
   | .withdrawn _ => false)

/-- A copy can be issued under R300: its frame has passed, or it may go in cut-through. -/
def canIssue (d : Dev) (p : Nat) (c : Copy) (f : Frame) (k : TxKind) : Bool :=
  if f.tail then f.passed else !f.failed && decide (128 ≤ f.plain.length) && cutThrough d p c f k

/-- Queue `g` of port `p` is express (R330). -/
def express (d : Dev) (p g : Nat) : Bool := !(preemptActive d p && d.on (R.QSCHED_PREEMPTABLE g))

/-- A copy's frame is whole, so that its length is known. -/
def whole (d : Dev) (c : Copy) : Bool :=
  match getFrame d c.frame with
  | some f => f.tail
  | none => true

/-- The end of an issued copy's line time, counted as `TxCopy.phys`. -/
def txEnd (d : Dev) (t : TxCopy) : Nat :=
  (if t.sent = 0 then t.phys + lineSpan d t.port t.phys (txS d t) else t.fragStart + lineSpan d t.port t.fragStart (txS d t - t.sent))

/-- The instant from which the line of a port is free; none while the length of an issued copy is not known (R225). -/
def lineFree (d : Dev) (p : Nat) : Option Nat :=
  (d.txs.filter fun t => t.port == p && !t.suspended).foldl
    (fun r t => match r with
      | some x => if t.cut && !whole d t.copy then none else some (max x (txEnd d t))
      | none => none) (some (d.get (L.TX_FREE p)))

/-- The line of a port is free for a start at `phys`: every issued copy has ended by then (R225). -/
def lineIdle (d : Dev) (p phys : Nat) : Bool :=
  match lineFree d p with
  | some x => decide (x ≤ phys)
  | none => false

/-- Can a copy of a queue start at `phys`? An express copy may have the preemptable transmission interrupted in time. -/
def lineReady (d : Dev) (p phys : Nat) (exp : Bool) : Bool :=
  lineIdle d p phys || (match preTx d p with
    | some t =>
      exp && preemptActive d p &&
        decide (t.fragStart + lineTime d p (8 + fragMin d p + 12) ≤ phys) &&
        decide (t.sent + (fragBytes d t (phys - lineTime d p 16)) + 64 ≤ txS d t - 20) &&
        (d.txs.all fun x => x.port != p || x.started)
    | none => false)

/-- The head copy of queue 16 p + q is eligible for a start at `t` (R312): its S when it is. -/
def eligible (d : Dev) (p t phys q : Nat) : Option (Copy × Nat) :=
  let g := 16 * p + q
  match queueHead d g with
  | none => none
  | some c =>
    match getFrame d c.frame with
    | none => none
    | some f =>
      let bs := editTags c.edit f.plain
      let k := txProcess d p bs
      let s := copyS bs k d
      let exp := express d p g
      let gate := if exp then gateFits d p q t (lineSpan d p phys s)
        else !d.on (L.GATE_HOLD p) && (suspendedTx d p).isNone && gateFits d p q t (lineTime d p (fragMin d p + 20))
      if canIssue d p c f k && (!d.on (R.QSCHED_CBS_EN g) || decide (0 ≤ d.getS (L.CBS_FINE g))) && shaperOk d p &&
          lineReady d p phys exp && gate then some (c, s) else none

/-! ## Deficit round robin (R314) -/

/-- QUANTUM in force (R334). -/
def quantum (d : Dev) (g : Nat) : Nat := min 1048576 (max 64 (d.get (R.QSCHED_QUANTUM g)))

/-- The queue after `pos` in the ascending cycle of a tier. -/
def nextInTier (d : Dev) (p tier pos : Nat) : Nat :=
  ((List.range 16).map fun i => (pos + i) % 16).find? (fun q => d.get (R.QSCHED_TIER (16 * p + q)) = tier) |>.getD 0

/-- Serve the tier: the queue that issues, with the position, the visit and the DEFICITs moved. A round gives every
eligible queue at least 64 bytes, and S is below 16,384, which bounds the visits. -/
def drr (d : Dev) (p tier : Nat) (el : List (Nat × Nat)) : Nat → Dev × Option Nat
  | 0 => (d, none)
  | fuel + 1 =>
    let pos := d.get (L.DRR_POS p tier)
    let s? := if pos = 0 then none else (el.find? (·.1 == pos - 1)).map (·.2)
    let serve := match s? with
      | some s => d.on (L.DRR_VISIT p tier) && decide (s ≤ d.get (R.QSTATE_DEFICIT (16 * p + (pos - 1))))
      | none => false
    if serve then (d, some (pos - 1))
    else
      let q := nextInTier d p tier pos
      let d := d.set (L.DRR_POS p tier) (q + 1)
      let g := 16 * p + q
      if el.any (·.1 == q) then
        drr ((d.set (R.QSTATE_DEFICIT g) (d.get (R.QSTATE_DEFICIT g) + quantum d g)).set (L.DRR_VISIT p tier) 1) p tier el fuel
      else drr (d.set (L.DRR_VISIT p tier) 0) p tier el fuel

/-- The queue that issues for a start at `t` (R313): the lowest tier with an eligible queue. -/
def select (d : Dev) (p t phys : Nat) (only : Nat → Bool) : Dev × Option (Copy × Nat) :=
  let el := (List.range 16).filterMap fun q => if only q then (eligible d p t phys q).map fun x => (q, x.1, x.2) else none
  match findBelow (fun tier => el.any fun x => d.get (R.QSCHED_TIER (16 * p + x.1)) == tier) 4 with
  | none => (d, none)
  | some tier =>
    let es := el.filter fun x => d.get (R.QSCHED_TIER (16 * p + x.1)) == tier
    let r := drr d p tier (es.map fun x => (x.1, x.2.2)) 8192
    match r.2 with
    | some q => (r.1, (es.find? (·.1 == q)).map (·.2))
    | none => (r.1, none)

/-! ## Removing copies -/

/-- An issued copy is no longer in hand: it leaves its queue's charge and its frame may be freed. -/
def txRemove (run : RunState) (d : Dev) (t : TxCopy) : Dev :=
  let d := uncharge run (cbsSync d t.copy.queue) t.copy
  frameRelease { d with txs := d.txs.filter fun x => x.copy.id != t.copy.id } t.copy.frame

/-- An issued copy that does not start is dropped: its descriptor completes DROPPED, and the line carries idle in its place (R224, R244,
R350). -/
def txDrop (run : RunState) (d : Dev) (t : TxCopy) : Dev :=
  let free := max (d.get (L.TX_FREE t.port)) (txEnd d t)
  txRemove run ((txDescFinish d t.copy.desc 3 none).set (L.TX_FREE t.port) free) t

/-- The transmissions of a port end at once (R143, R151, R219): one that has started ends with an error control character,
one that has not does not start (R224, R244). -/
def txAbort (run : RunState) (d : Dev) (p : Nat) : Dev :=
  (d.txs.filter (·.port == p)).foldl (fun d t =>
    if t.started then ((txRemove run d t) |> fun d => portCount d p (R.TX_ABORTED p)).emit (.aborted p t.start)
    else
      let d := if t.copy.cdOp ≠ 0 then portCount d p (R.CD_MISS_PORT p) else d
      txDrop run d t) (loopClear d p)

/-- Copies queued for ports are handed to their port engines and discarded while the run state is CONTAINED (R333). -/
def containDiscard (run : RunState) (d : Dev) : Dev :=
  if run == .contained then
    (d.copies.filter fun c => decide (c.queue < 4096)).foldl (fun d c =>
      let p := c.queue / 16
      portCount (dropCopy run d c true) p (R.TX_DISCARD_FAULT p)) d
  else d

/-! ## Issue (R223) -/

/-- Drop a copy that was withdrawn at issue. -/
def withdraw (run : RunState) (d : Dev) (c : Copy) (charges : List (Nat × Nat × Nat)) : Dev :=
  dropCopy run (chargeAll d charges) c

/-- The counter of a committed copy that will be dropped at its start: 0 none, 1 FORMAT, 2 CAL (R243, R244). -/
def cdFault (d : Dev) (p : Nat) (f : Frame) (c : Copy) (tc : Nat) : Nat :=
  if c.cdOp = 0 then 0
  else if !d.on (R.CD_CTRL_ENABLE p) then 1
  else if d.on (R.CD_CTRL_REQUIRE_CAL p) && !d.on (R.TS_CAL_STATUS_CALIBRATED p) then 2
  else if (cdWrite f c.cdOp c.cdTime tc (editTags c.edit f.plain)).isNone then 1 else 0

/-- A copy leaves its queue and is issued: DEFICIT, credit, tokens and the queue's counters are charged S (R311, R314,
R315, R317). -/
def chargeIssue (run : RunState) (d : Dev) (p : Nat) (c : Copy) (s : Nat) : Dev :=
  let g := c.queue
  let d := hwmSojourn run d g c.joined
  let d := d.set (R.QSTATE_DEFICIT g) (d.get (R.QSTATE_DEFICIT g) - s)
  let d := cbsTake d g s
  let d := if shaperOn d p then takeBucket d (L.SHP_DEF p) s else d
  let d := (d.count (0x78 + g / 512) (R.QSTATE_TX_COPIES g)).count (0x78 + g / 512) (R.QSTATE_TX_LINE_BYTES g) s
  queueEmptied { d with copies := d.copies.filter (·.id != c.id) } g

/-- List an issued copy. -/
def putIssued (run : RunState) (d : Dev) (p : Nat) (t : TxCopy) : Dev :=
  let d := if t.cut then d.count 0x74 (R.PORT_BUF_STATS p 0) else d
  { chargeIssue run d p t.copy t.s with txs := d.txs ++ [t] }

/-- Issue the chosen copy, or withdraw it (R223, and the listings before R181 and after R227). -/
def issueCopy (run : RunState) (d : Dev) (p t phys : Nat) (c : Copy) (s : Nat) (f : Frame) : Dev :=
  let bs := editTags c.edit f.plain
  let tc := committedTime d p t
  let t0 : TxCopy :=
    { copy := c, port := p, start := t, phys := phys, sa := none, pn := 0, key := 0, tag := [], iv := 0, klen := 0, conf := false,
      off := 0, tc := tc, cut := !f.tail, s := s, started := false, drop := cdFault d p f c tc, steps := d.get L.STEP_SERIAL,
      moved := d.get L.RATE_MOVED, poison := none, pre := !express d p c.queue, suspended := false, sent := 0, fragStart := phys }
  if !portUp d p then portCount (dropCopy run d c true) p (R.TX_DISCARD_DOWN p)
  else if fieldZ bs 12 2 = 0x8808 then portCount (dropCopy run d c) p (R.TX_MAC_CTRL_DROPS p)
  else if txFaulted d p then portCount (dropCopy run d c) p (R.TX_DISCARD_FAULT p)
  else if 4 ≤ c.cdOp then portCount (dropCopy run d c) p (R.CD_MISS_FORMAT p)
  else match txProcess d p bs with
    | .withdrawn cs => withdraw run d c cs
    | .clear cs => putIssued run (chargeAll d cs) p t0
    | .protect y =>
      match selectTxSa d y t with
      | (d, none) => withdraw run d c [(13, p, 2)]
      | (d, some i) =>
        let key := d.get (L.SA_KEY (saKeyIx false i))
        let salt := d.get (L.SA_SALT (saKeyIx false i))
        let ssci := d.get (R.TXSA_SSCI i)
        let r := takePn d i
        let suite := d.get (R.SECY_CIPHER_SUITE y)
        let conf := d.on (R.SECY_CONFIDENTIALITY y)
        let d := chargeAll r.1 [(8, i, b2n conf)]
        putIssued run d p { t0 with
          sa := some i, pn := r.2, key := key, tag := buildTag d y (i % 4) r.2,
          iv := frameIv suite (d.get (R.SECY_SCI y)) ssci r.2 salt, klen := suiteKeyLen suite, conf := conf,
          off := confOffset (d.get (R.SECY_CONF_OFFSET y)) }

/-- Oversize copies at the head of an express queue are dropped (R327). -/
def oversize (run : RunState) (p q : Nat) : Nat → Dev → Dev
  | 0, d => d
  | fuel + 1, d =>
    let g := 16 * p + q
    match queueHead d g with
    | none => d
    | some c =>
      match getFrame d c.frame with
      | none => d
      | some f =>
        let bs := editTags c.edit f.plain
        let w := d.get (L.GATE_W p q)
        if f.tail && f.passed && express d p g && w != 0 && decide (w < lineTime d p (copyS bs (txProcess d p bs) d)) then
          oversize run p q fuel (((dropCopy run d c).count (0x78 + g / 512) (R.QSTATE_GATE_OVERSIZE_DROPS g)).latch (0x78 + p / 32) 1)
        else d

/-- Oversize drops of every queue of a port whose list is in operation. -/
def oversizeAll (run : RunState) (d : Dev) (p : Nat) : Dev :=
  if gatesOn d p && d.on (L.GATE_RUN p) then d.each 16 fun q d => oversize run p q (d.copies.length + 1) d else d

/-- A continuation fragment of a suspended copy may start at `t` (R331, R332). -/
def canResume (d : Dev) (p t phys : Nat) (x : TxCopy) : Bool :=
  !d.on (L.GATE_HOLD p) && (match lineFree d p with
    | some free => decide (free ≤ phys)
    | none => false) &&
  gateFits d p (x.copy.queue % 16) t (lineTime d p (min (fragMin d p) (txS d x - 20 - x.sent) + 20))

/-- The copy with this number has been issued. -/
def isIssued (d : Dev) (id : Nat) : Bool := d.txs.any (·.copy.id == id)

/-- The copy on the line that an issue for a start at `phys` interrupts, where the chosen copy is issued. -/
def giveWay (d : Dev) (p phys : Nat) (issued : Dev) (c : Copy) : Dev :=
  match preTx d p with
  | some a => if txEnd d a ≤ phys || !isIssued issued c.id then issued else suspendTx issued a (fragBytes d a (phys - lineTime d p 16))
  | none => issued

/-- The port engine's issue instant: the first one at or after `ago` before now, in units of 2^-16 ns, from which PLAN_LEAD ends on a start
boundary (R223, R225, R312, R331). -/
def copyIssue (run : RunState) (d : Dev) (p ago : Nat) : Dev :=
  let lead := planLead d p * fineNs
  let phys0 := physNow d - ago * 2 ^ 32 + lead
  let phys := startBoundary d p phys0
  let t := d.time - ago * 2 ^ 32 + lead + (phys - phys0)
  let d := shaperFill (cbsSyncPort (oversizeAll run d p) p) p
  match suspendedTx d p with
  | some x =>
    match select d p t phys (fun q => express d p (16 * p + q)) with
    | (d, some (c, s)) => issue d t phys c s
    | (d, none) =>
      if canResume d p t phys x then
        putTx (d.count (0x78 + p / 32) (R.PORT_MM_STATS p 0)) { x with suspended := false, fragStart := phys }
      else d
  | none =>
    match select d p t phys (fun _ => true) with
    | (d, some (c, s)) => giveWay d p phys (issue d t phys c s) c
    | (d, none) => d
where
  issue (d : Dev) (t phys : Nat) (c : Copy) (s : Nat) : Dev :=
    match getFrame d c.frame with
    | some f => issueCopy run d p t phys c s f
    | none => d

/-! ## Start (R224, R244, R168) -/

/-- The clear-egress guard passes a frame (R168). -/
def guardPasses (d : Dev) (p : Nat) (bs : List Byte) : Bool :=
  let e := 16 * p + vlanClass d bs
  d.get (R.PORT_CLASS_POLICY e) != 0 || (bypassOf d (d.get (R.PORT_CLASS_GUARD_MASK e)) bs).isSome

/-- Why a committed copy does not start: its counter (R244). -/
def cdMiss (d : Dev) (t : TxCopy) : Option Fld :=
  let p := t.port
  if t.copy.cdOp = 0 then none
  else if t.drop = 1 then some (R.CD_MISS_FORMAT p)
  else if t.drop = 2 then some (R.CD_MISS_CAL p)
  else if t.steps ≠ d.get L.STEP_SERIAL ∨ 28147497671 < d.get L.RATE_MOVED - t.moved then some (R.CD_MISS_TIME p)
  else none

/-- The transmit timestamp of a copy that starts now (R77, R244): t_c of a committed copy; otherwise device time at the crossing, which is
t_c while neither a step nor a rate change has come since its issue. -/
def txStamp (d : Dev) (t : TxCopy) : Nat :=
  if t.copy.cdOp ≠ 0 ∨ (t.steps = d.get L.STEP_SERIAL ∧ t.moved = d.get L.RATE_MOVED) then t.tc
  else committedTime d t.port (d.time - (physNow d - t.phys))

/-- The next issued copy of a port starts at its planned start. -/
def copyStart (run : RunState) (d : Dev) (p : Nat) : Dev :=
  match d.txs.find? fun t => t.port == p && !t.started with
  | none => d
  | some t =>
    if physNow d < t.phys then d else
    match cdMiss d t with
    | some f => txDrop run (portCount d p f) t
    | none =>
      match getFrame d t.copy.frame with
      | none => txDrop run d t
      | some f =>
        if t.sa.isNone && !guardPasses d p (copyBytes f t.copy t.tc) then
          txDrop run ((chargeAll d [(13, p, 0)]).alarm 54) t
        else
          let d := putTx d { t with started := true }
          let d := if t.copy.cdOp ≠ 0 then portCount d p (R.CD_SENT p) else d
          txDescFinish d t.copy.desc 0 (if t.copy.tsReq then
            some (txStamp d t, d.on R.TB_STATUS_HOLDOVER, !d.on (R.TS_CAL_STATUS_CALIBRATED p)) else none)

/-! ## End (R210, R211, R297) -/

/-- Least multiple of 16 that is at least `n` and at least `lo`. -/
def round16 (n lo : Nat) : Nat := (max n lo + 15) / 16 * 16

/-- A protected copy's head and secure data as they leave the cluster (R182). -/
def sealedData (t : TxCopy) (bs : List Byte) : List Byte × List Byte :=
  let head := bs.take 12 ++ t.tag
  let data := bs.drop 12
  let rk := Crypto.roundKeys t.klen t.key
  (head, if t.conf then data.take t.off ++ Crypto.gctr rk (t.iv * 2 ^ 32 + 1) (data.drop t.off) else data)

/-- ICV over what is sent. -/
def icvOf (t : TxCopy) (head data : List Byte) : List Byte :=
  let sp := splitData head data t.conf t.off
  beBytes 16 (Crypto.gcmTag (Crypto.roundKeys t.klen t.key) t.iv sp.1 sp.2)

/-- A string cut to `b` bytes and filled with zeros to `n`. -/
def zeroFrom (bs : List Byte) (b n : Nat) : List Byte := Crypto.padTo n (bs.take b)

/-- The bytes of a copy on the line, without FCS: complete, or poisoned after `b` bytes (R210). -/
def lineData (t : TxCopy) (bs : List Byte) (b : Nat) : List Byte :=
  match t.sa, t.poison with
  | none, none => bs
  | none, some _ => zeroFrom bs b (round16 (min b bs.length) 64)
  | some _, none => let x := sealedData t (pad64 bs); x.1 ++ x.2 ++ icvOf t x.1 x.2
  | some _, some _ =>
    let x := sealedData t (pad64 bs)
    let n := min (b - 12 - t.tag.length) x.2.length
    let y := zeroFrom x.2 n (round16 n 32)
    x.1 ++ y ++ Crypto.complement (icvOf t x.1 y)

/-- The stomp counter of a poisoned copy's port (R212, R221, R222). -/
def stompCount (d : Dev) (p cause : Nat) : Dev :=
  if served d p then
    (d.count (clusterPage p) (regFld (clusterPage p) (0x400 + 0x40 * (p % 8) + 4 * cause) 0 32 0)).latch (clusterPage p) 3
  else d

/-- A cut-through copy is charged the S that was not known at its issue (R311). -/
def chargeRest (d : Dev) (p g more : Nat) : Dev :=
  let d := cbsTake (d.set (R.QSTATE_DEFICIT g) (d.get (R.QSTATE_DEFICIT g) - more)) g more
  let d := if shaperOn d p then takeBucket (shaperFill d p) (L.SHP_DEF p) more else d
  d.count (0x78 + g / 512) (R.QSTATE_TX_LINE_BYTES g) more

/-- The copy's bytes leave: on the line, or to the port's own receiver under LOOPBACK (R153). -/
def sendOut (d : Dev) (p start : Nat) (bytes : List Byte) : Dev :=
  if d.on (R.PORT_CTRL_LOOPBACK p) then { d with looped := d.looped ++ [(p, bytes)] } else d.emit (.frame p start bytes)

/-- Bytes of secure data that a protected copy sends from its plaintext: all, or as many as had been handed over when it was poisoned. -/
def sealedBytes (t : TxCopy) (bs : List Byte) (b : Nat) : Nat :=
  let n := (pad64 bs).length - 12
  if t.poison.isSome then min (b - 12 - t.tag.length) n else n

/-- Counters of a protected copy that ends (R196, R220). DEDUCED: blocks and octets of a poisoned copy are those it sent (log 33). -/
def countSealed (d : Dev) (t : TxCopy) (n : Nat) : Dev :=
  match t.sa with
  | some i =>
    let cp := clusterPage t.port
    let d := (d.count cp (R.TX_FRAMES (portCluster t.port))).count cp (R.TX_BLOCKS (portCluster t.port)) (frameBlocks n t.conf t.off)
    d.count 0x70 (secStat 12 (txSecy i) (2 + b2n t.conf)) n
  | none => d

/-- The transmission on the line of port `p` hands over its last byte; `b` bytes had been handed when it was poisoned. A copy whose frame's
tail has not arrived ends only when it is poisoned. -/
def copyEnd (run : RunState) (d : Dev) (p b : Nat) : Dev :=
  match d.txs.find? fun t => t.port == p && t.started && !t.suspended with
  | none => d
  | some t =>
    match getFrame d t.copy.frame with
    | none => txRemove run d t
    | some f =>
      if !f.tail && t.poison.isNone then d else
      let bs := copyBytes f t.copy t.tc
      let data := lineData t bs b
      let crc := Crypto.fcs data
      let bytes := data ++ (if t.poison.isSome then Crypto.complement crc else crc)
      let free := txEnd d t
      let d := if t.cut then chargeRest d p t.copy.queue (txS d t - t.s) else d
      let d := countSealed (sendOut d p t.start bytes) t (sealedBytes t bs b)
      let d := match t.poison with
        | some c => stompCount d p c
        | none => d
      let d := winTx d p t.start bytes.length t.poison.isSome
      let d := (d.set (L.TX_FREE p) (max (d.get (L.TX_FREE p)) free)).set (L.CBS_HOLD t.copy.queue) (t.start + (free - t.phys))
      txRemove run d t

/-! ## The rows -/

/-- COPY_ISSUE (R223). -/
def execCopyIssue (p : Fin 256) (ago : Nat) (s : State) : Host.Outcome State Fault Refusal :=
  .next (s.setDev (if s.run.stopped || s.run == .contained then s.d else copyIssue s.run s.d p ago))
/-- COPY_START (R224). -/
def execCopyStart (p : Fin 256) (s : State) : Host.Outcome State Fault Refusal :=
  .next (s.setDev (if s.run.stopped then s.d else copyStart s.run s.d p))
/-- COPY_END (R207). -/
def execCopyEnd (p : Fin 256) (handed : Nat) (s : State) : Host.Outcome State Fault Refusal :=
  .next (s.setDev (if s.run.stopped then s.d else copyEnd s.run s.d p handed))

end Sys2Proof.Machine
end

