-- ==== Sys2Proof/Machine/Clusters.lean ====
section
/-! DEFINITION. Cipher clusters as power islands: shares, awake sets, wake and sleep, fencing (R201, R215 to R218), and a
check mismatch (R203 to R206), with their rows. -/

namespace Sys2Proof.Machine

/-! ## Shares (R201, R215, R216) -/

/-- The port holds its reservation. -/
def portReserved (d : Dev) (p : Nat) : Bool := decide (psBringup ≤ portState d p)

/-- Sum of the shares of the octet's ports that hold a reservation, `also` counted too, in 0.1 G blocks/s. -/
def clusterShare (d : Dev) (k : Nat) (also : Option Nat) : Nat :=
  sumBelow (fun j => let p := 8 * k + j
    if portReserved d p || also == some p then ifaceShare (iface d p) else 0) 8

/-- A grant of the action is being issued in portions (R494). -/
def granting (d : Dev) (a : PowerAction) : Bool := d.issuing.any (·.action == a)

/-- As `clusterShare`, with the ports whose grant is being issued counted as well: their cipher units are reserved. -/
def clusterShareAll (d : Dev) (k : Nat) (also : Option Nat) : Nat :=
  sumBelow (fun j => let p := 8 * k + j
    if portReserved d p || granting d (.port p) || also == some p then ifaceShare (iface d p) else 0) 8

/-- N of R216; 0 with no enabled port. -/
def setsFor (share : Nat) : Nat := (share + 15) / 16
def clusterN (d : Dev) (k : Nat) : Nat := setsFor (clusterShare d k none)

/-- Cluster page by number. -/
def ccPage (k : Nat) : Nat := 0x50 + k

/-- States of a pipe set. -/
def psSleep : Nat := 0
def psWaking : Nat := 1
def psAwake : Nat := 2
def psFenced : Nat := 3
/-- State of set `s` of direction `dir` (0 receive, 1 transmit). -/
def psF (k dir s : Nat) : Fld := L.PS_STATE k (5 * dir + s)
/-- The fence bits of a direction. -/
def fenceF (k dir : Nat) : Fld := if dir = 0 then R.CC_FENCE_RX k else R.CC_FENCE_TX k
def fenceBit (d : Dev) (k dir s : Nat) : Bool := bitAt (d.get (fenceF k dir)) s
def psIs (d : Dev) (k dir s st : Nat) : Bool := d.get (psF k dir s) == st
/-- Sets in a state. -/
def countSets (d : Dev) (k dir st : Nat) : Nat := countBelow (fun s => psIs d k dir s st) 5
/-- Awake sets that are not fenced. -/
def awakeFree (d : Dev) (k dir : Nat) : Nat := countBelow (fun s => psIs d k dir s psAwake && !fenceBit d k dir s) 5
/-- Sets the fences leave. -/
def unfenced (d : Dev) (k dir : Nat) : Nat := countBelow (fun s => !fenceBit d k dir s) 5
/-- The N lowest-numbered unfenced sets (R216). -/
def setNeeded (d : Dev) (k dir s : Nat) : Bool :=
  !fenceBit d k dir s && decide (countBelow (fun i => !fenceBit d k dir i) s < clusterN d k)

/-- Unfenced sets of a direction that are awake or waking. -/
def upFree (d : Dev) (k dir : Nat) : Nat :=
  countBelow (fun s => (psIs d k dir s psAwake || psIs d k dir s psWaking) && !fenceBit d k dir s) 5
/-- The sets of cluster `k` and a direction for which a grant has been requested and is not complete (R218). -/
def pipeAsked (d : Dev) (k dir : Nat) : List PowerAction :=
  (d.waiting.map (·.action) ++ d.issuing.map (·.action)).filter fun a => match a with
    | .pipeSet m g _ => m == k && g == dir
    | _ => false
/-- A replacement set awaits its grant. -/
def fencePending (d : Dev) (k : Nat) : Bool := !((pipeAsked d k 0).isEmpty && (pipeAsked d k 1).isEmpty)
/-- Replacement sets that a direction needs beyond the unfenced ones that are awake or waking. -/
def pipeWanted (d : Dev) (k dir : Nat) : Nat := clusterN d k - upFree d k dir
/-- Requests for replacement sets that are no longer needed are withdrawn. -/
def pipeTrim (d : Dev) (k dir : Nat) : Dev := ((pipeAsked d k dir).drop (pipeWanted d k dir)).foldl arbCancel d

/-- FENCED sets and awake counts as the page shows them. -/
def ccShow (d : Dev) (k : Nat) : Dev :=
  let mask (dir : Nat) := sumBelow (fun s => if psIs d k dir s psFenced then 2 ^ s else 0) 5
  d.setAll [(R.CC_STATUS_RX_AWAKE k, countSets d k 0 psAwake), (R.CC_STATUS_TX_AWAKE k, countSets d k 1 psAwake),
    (R.CC_STATUS_NEEDED k, clusterN d k), (R.CC_STATUS_SHARE k, clusterShare d k none),
    (R.CC_FENCE_STATUS_RX_FENCED k, mask 0), (R.CC_FENCE_STATUS_TX_FENCED k, mask 1),
    (R.CC_FENCE_STATUS_FENCE_PENDING k, b2n (fencePending d k))]

/-! ## Following the enabled ports (R216, R217) -/

/-- Units held beyond what is awake and needed are released in steps of 4 (R217). -/
def ccRelease (d : Dev) (k : Nat) : Dev :=
  let n := setsFor (clusterShareAll d k none)
  let up (dir : Nat) := countSets d k dir psAwake + countSets d k dir psWaking - d.get (L.CC_EXTRA k dir) / 2
  let keep := min (d.get (L.CC_UNITS k)) (4 * max n (max (up 0) (up 1)))
  arbRelease (d.set (L.CC_UNITS k) keep) (reqPorts k) (d.get (L.CC_UNITS k) - keep)

/-- A replacement's units are released when no more sets are awake than the reservation covers (R218). -/
def ccExtra (d : Dev) (k : Nat) : Dev :=
  d.each 2 fun dir d =>
    let excess := 2 * (countSets d k dir psAwake + countSets d k dir psWaking - d.get (L.CC_UNITS k) / 4)
    let keep := min (d.get (L.CC_EXTRA k dir)) excess
    arbRelease (d.set (L.CC_EXTRA k dir) keep) (reqAux k) (d.get (L.CC_EXTRA k dir) - keep)

/-- A reservation with cipher units has been granted, or the need grew: the sets that are needed wake, as many as the reservation covers
(R215, R216). -/
def clusterWake (d : Dev) (k : Nat) : Dev :=
  let d := if d.get (R.CC_STATUS_STATE k) = 0 && clusterN d k != 0 then d.set (R.CC_STATUS_STATE k) 1 else d
  let d := d.each 2 fun dir d => d.each 5 fun s d =>
    if setNeeded d k dir s && psIs d k dir s psSleep && decide (countSets d k dir psAwake + countSets d k dir psWaking < clusterN d k) then
      d.set (psF k dir s) psWaking else d
  ccShow (d.each 2 fun dir d => pipeTrim d k dir) k

/-- The need fell: with no enabled port the cluster goes OFF; otherwise sets that were still waking sleep again (R217). -/
def clusterFall (d : Dev) (k : Nat) : Dev :=
  let off := clusterN d k == 0
  let d := d.each 2 fun dir d => d.each 5 fun s d =>
    if !setNeeded d k dir s && (psIs d k dir s psWaking || (off && psIs d k dir s psAwake)) then d.set (psF k dir s) psSleep else d
  let d := if off then
      let d := d.set (R.CC_STATUS_STATE k) 0
      if d.on (L.CC_COMMON k) && clusterShareAll d k none == 0 then arbRelease (d.set (L.CC_COMMON k) 0) (reqPorts k) 2 else d
    else d
  let d := d.each 2 fun dir d => pipeTrim d k dir
  ccShow (ccExtra (ccRelease d k) k) k

/-! ## Rows of the islands -/

/-- The cluster reaches RUN (R216). -/
def clusterRun (d : Dev) (k : Nat) : Dev :=
  if d.get (R.CC_STATUS_STATE k) = 1 then (d.set (R.CC_STATUS_STATE k) 2).latch (ccPage k) 4 else d

/-- A set has woken (R216). -/
def setAwake (d : Dev) (k dir s : Nat) : Dev :=
  if psIs d k dir s psWaking then ccShow (d.set (psF k dir s) psAwake) k else d

/-- A set that is no longer needed sleeps (R217). -/
def setSleep (d : Dev) (k dir s : Nat) : Dev :=
  if psIs d k dir s psAwake && !setNeeded d k dir s && !fenceBit d k dir s &&
      decide (clusterN d k < awakeFree d k dir) then
    ccShow (ccExtra (ccRelease (d.set (psF k dir s) psSleep) k) k) k
  else d

/-- A set enters FENCED (R218). -/
def enterFenced (d : Dev) (k dir s : Nat) : Dev :=
  ccShow (ccExtra ((d.set (psF k dir s) psFenced).latch (ccPage k) 1) k) k

/-- A fenced set has finished its blocks in flight (R218). -/
def setFenced (d : Dev) (k dir s : Nat) : Dev :=
  if fenceBit d k dir s && psIs d k dir s psAwake && decide (clusterN d k ≤ awakeFree d k dir) then enterFenced d k dir s else d

/-- The next sleeping unfenced set of a direction. -/
def sleepingSet (d : Dev) (k dir : Nat) : Option Nat :=
  findBelow (fun s => psIs d k dir s psSleep && !fenceBit d k dir s && !arbPending d (.pipeSet k dir s)) 5

/-- One set of an accepted CC_FENCE write (R218): a set that is not awake is FENCED at once, and a set that is no longer fenced sleeps or
wakes. -/
def fenceSet (d : Dev) (k dir s : Nat) : Dev :=
  if fenceBit d k dir s then (if psIs d k dir s psSleep ∨ psIs d k dir s psWaking then enterFenced d k dir s else d)
  else if psIs d k dir s psFenced then d.set (psF k dir s) (if setNeeded d k dir s then psWaking else psSleep)
  else d

/-- Units for a replacement set are requested, as long as one is missing (R218). A set that was not awake when it was fenced is replaced
under the cluster's own reservation. -/
def fenceAsk (d : Dev) (k dir : Nat) : Dev :=
  if (pipeAsked d k dir).length < pipeWanted d k dir then
    match sleepingSet d k dir with
    | some r => arbRequest d (reqAux k) 2 classB (.pipeSet k dir r)
    | none => d
  else d

/-- CC_FENCE is written (R218). -/
def fenceWrite (d : Dev) (k rx tx : Nat) : Dev :=
  let n := clusterN d k
  if 5 - popCount 5 rx < n ∨ 5 - popCount 5 tx < n then (d.set (R.CC_FENCE_STATUS_FENCE_REFUSED k) 1).latch (ccPage k) 2
  else
    let d := d.setAll [(R.CC_FENCE_RX k, rx), (R.CC_FENCE_TX k, tx), (R.CC_FENCE_STATUS_FENCE_REFUSED k, 0)]
    let d := clusterWake (d.each 2 fun dir d => d.each 5 fun s d => fenceSet d k dir s) k
    ccShow (d.each 2 fun dir d => d.each 5 fun _ d => fenceAsk d k dir) k

/-- The set that a grant for set `s` wakes: that one, or the next that sleeps when it no longer does; none where none is needed. -/
def pipeToWake (d : Dev) (k dir s : Nat) : Option Nat :=
  if pipeWanted d k dir = 0 then none
  else if psIs d k dir s psSleep && !fenceBit d k dir s then some s
  else sleepingSet d k dir

/-- The replacement set has its grant: it wakes, and its units stay reserved (R218). Units that no set needs any more go back. -/
def pipeSetGranted (d : Dev) (k dir s : Nat) : Dev :=
  match pipeToWake d k dir s with
  | some r => ccShow ((d.set (L.CC_EXTRA k dir) (d.get (L.CC_EXTRA k dir) + 2)).set (psF k dir r) psWaking) k
  | none => ccShow (arbRelease d (reqAux k) 2) k

/-! ## Check mismatch (R203, R206) -/

/-- Count and capture a mismatch of cluster `k` (R206): kinds are 0 inverse pipe, 1 multiplier, 2 round-key parity. -/
def checkCapture (d : Dev) (k dir set kind sa : Nat) : Dev :=
  let d := d.count (ccPage k) (if dir = 0 then R.RX_SET_MISMATCH k set else R.TX_SET_MISMATCH k set)
  let d := if d.on (R.CHECK_LAST_VALID k) then d else
    d.setAll [(R.CHECK_LAST_DIR k, dir), (R.CHECK_LAST_SET k, set), (R.CHECK_LAST_KIND k, kind), (R.CHECK_LAST_VALID k, 1),
      (R.CHECK_LAST_SA_INDEX k, sa), (R.CHECK_LAST_TIME_NS k, nsOf d.tickTime), (R.CHECK_LAST_TIME_SEC k, secOf d.tickTime % 2 ^ 32)]
  (d.alarm 52).latch (ccPage k) 0

/-- A mismatch on receive: the frame is discarded, and what has left is zeroed and poisoned (R206, R209, R212). `before` says that no byte
of it had left the cluster, so that nothing is zero-filled; `more` is what arrived of it since its head. A frame that has failed already is
captured and counted at its pipe set only. -/
def checkRx (run : RunState) (d : Dev) (p : Nat) (pmac before : Bool) (more : List Byte) (set kind : Nat) : Dev :=
  match rxInProgress d p pmac with
  | some f =>
    if f.kind ≠ .controlled then d else
    let k := portCluster p
    let d := checkCapture d k 0 set kind (f.sa.getD 0)
    if f.failed then poisonCopies d f.id stompCheck
    else
      let f := { f with wire := f.wire ++ more }
      let d := putFrame (d.count (ccPage k) (R.RX_CHECK_SUPPRESSED k)) { f with plain := framePlain f 0 false }
      let d := failFrame run d f.id stompCheck 2 (!before)
      match getFrame d f.id with
      | some f => putFrame d f.withoutContext
      | none => d
  | none => d

/-- A mismatch on transmit: before its first byte has left the copy is not sent and its PN is consumed; afterwards it is
poisoned (R206). -/
def checkTx (run : RunState) (d : Dev) (p set kind : Nat) : Dev :=
  match d.txs.find? fun t => t.port == p && t.sa.isSome with
  | some t =>
    let k := portCluster p
    let d := checkCapture d k 1 set kind (t.sa.getD 0)
    if t.started then putTx d { t with poison := some (stompOf t.poison stompCheck) }
    else txDrop run (d.count (ccPage k) (R.TX_CHECK_SUPPRESSED k)) t
  | none => d

/-- A check mismatch at a site. -/
def checkMismatch (run : RunState) (d : Dev) (site : CheckSite) (set kind : Nat) : Dev :=
  match site with
  | .rx p pmac before more => checkRx run d p pmac before more set kind
  | .tx p => checkTx run d p set kind
  | .keyLoad => d.set L.SA_LOAD_FAULT 1

/-! ## The rows -/

/-- CIPHER_CHECK_MISMATCH (R206): `set` is the pipe set concerned and `kind` the circuit that disagreed. -/
def execCipherCheckMismatch (site : CheckSite) (set : Fin 5) (kind : Fin 3) (s : State) : Host.Outcome State Fault Refusal :=
  s.lanes fun d => checkMismatch s.run d site set kind
/-- CLUSTER_RUN (R216). -/
def execClusterRun (k : Fin 32) (s : State) : Host.Outcome State Fault Refusal :=
  s.lanes fun d => clusterRun d k
/-- PIPE_SET_AWAKE (R216). -/
def execPipeSetAwake (k : Fin 32) (tx : Bool) (set : Fin 5) (s : State) : Host.Outcome State Fault Refusal :=
  s.lanes fun d => setAwake d k (b2n tx) set
/-- PIPE_SET_SLEEP (R217). -/
def execPipeSetSleep (k : Fin 32) (tx : Bool) (set : Fin 5) (s : State) : Host.Outcome State Fault Refusal :=
  s.lanes fun d => setSleep d k (b2n tx) set
/-- CC_FENCE_WRITE (R218). -/
def execCcFenceWrite (k : Fin 32) (rx tx : BitVec 5) (s : State) : Host.Outcome State Fault Refusal :=
  .next (s.setDev (if s.live (0x50 + k) then fenceWrite s.d k rx.toNat tx.toNat else s.d))
/-- PIPE_SET_FENCED (R218). -/
def execPipeSetFenced (k : Fin 32) (tx : Bool) (set : Fin 5) (s : State) : Host.Outcome State Fault Refusal :=
  s.lanes fun d => setFenced d k (b2n tx) set

end Sys2Proof.Machine
end

