-- ==== Sys2Proof/Machine/Lanes.lean ====
section
/-! DEFINITION. Lanes and ports (R98 to R123, R132 to R154): clocking, bring-up, loss and relock, port enable and disable,
hold-off, faults, adaptation, eye scans, patterns and injection. The rows are in LaneRows.lean and PortRows.lean. -/

namespace Sys2Proof.Machine

/-! ## Lanes -/

/-- Octet and page of a lane. -/
def laneOct (l : Nat) : Nat := l / 8
def lanePage (l : Nat) : Nat := 0x10 + l / 8
/-- Lane event bits (R131): 0 STAGE, 1 ADAPT, 2 TEST. -/
def laneEvent (d : Dev) (l b : Nat) : Dev := d.latch (lanePage l) (3 * (l % 8) + b)
/-- Stages (R103). -/
def stOff : Nat := 0
def stPowerWait : Nat := 1
def stRxDetect : Nat := 2
def stTraining : Nat := 3
def stBitLock : Nat := 4
def stSymbolLock : Nat := 5
def stCapExchange : Nat := 6
def stActive : Nat := 7
def laneStage (d : Dev) (l : Nat) : Nat := d.get (R.LANE_STATUS_STAGE l)

/-- The port of a lane when its ENABLE is 1. -/
def lanePortOn (d : Dev) (l : Nat) : Option Nat :=
  match lanePort d l with
  | some p => if d.on (R.PORT_CTRL_ENABLE p) then some p else none
  | none => none

/-- Rate code of a lane: its port's, or LANE_CTRL.RATE (R129). -/
def laneRate (d : Dev) (l : Nat) : Nat :=
  match lanePortOn d l with
  | some p => ifaceLaneRate (iface d p)
  | none => d.get (R.LANE_CTRL_RATE l)

/-- VCO code of a rate (R98). -/
def rateVco (r : Nat) : Nat := min 3 (r + 1)
/-- Steady units of a rate (R104). -/
def rateSteady (r : Nat) : Nat := if r = 0 then 1 else if r = 3 then 3 else 2
/-- The rate is PAM4. -/
def ratePam4 (r : Nat) : Bool := decide (2 ≤ r)
/-- The PLL that would clock a rate in octet `k`: 0 A, 1 B (R100). -/
def pllFor (d : Dev) (k r : Nat) : Option Nat :=
  if d.get (R.OCT_PLL_A_VCO k) = rateVco r then some 0 else if d.get (R.OCT_PLL_B_VCO k) = rateVco r then some 1 else none
def pllLockedF (k j : Nat) : Fld := if j = 0 then R.OCT_STATUS_PLL_A_LOCKED k else R.OCT_STATUS_PLL_B_LOCKED k
/-- A lane of octet `k` is clocked by PLL `j`. -/
def pllUsed (d : Dev) (k j : Nat) : Bool :=
  (List.range 8).any fun i => laneStage d (8 * k + i) != stOff && d.get (R.LANE_STATUS_PLL (8 * k + i)) == j

/-- A port or test lane of octet `k` whose grant is being issued is to be clocked by PLL `j`. -/
def pllAwaited (d : Dev) (k j : Nat) : Bool :=
  (List.range 8).any fun i =>
    (granting d (.port (8 * k + i)) && pllFor d k (ifaceLaneRate (iface d (8 * k + i))) == some j) ||
    (granting d (.testLane (8 * k + i)) && pllFor d k (laneRate d (8 * k + i)) == some j)

/-- A PLL powers down and its 2 units are released when the last lane it clocks is OFF (R101, R104). -/
def pllFollow (d : Dev) (k : Nat) : Dev :=
  d.each 2 fun j d =>
    if d.on (L.PLL_RESV k j) && !pllUsed d k j && !pllAwaited d k j then
      arbRelease (d.setAll [(L.PLL_RESV k j, 0), (pllLockedF k j, 0)]) (reqPorts k) 2
    else d

/-- Release or withdraw the bring-up burst of a lane. -/
def burstEnd (d : Dev) (l : Nat) : Dev :=
  let b := d.get (L.LANE_BURST l)
  let d := d.set (L.LANE_BURST l) 0
  if b = 2 then arbRelease d (reqAux (laneOct l)) 2 else if b = 1 then arbCancel d (.laneBurst l) else d

/-- Release or withdraw the adaptation burst of a lane. -/
def adaptEnd (d : Dev) (l : Nat) : Dev :=
  let b := d.get (L.LANE_ADAPT l)
  let d := d.set (L.LANE_ADAPT l) 0
  if b = 2 ∨ b = 3 then arbRelease d (reqAux (laneOct l)) 2 else if b = 1 then arbCancel d (.adaptBurst l) else d

/-- Request the bring-up burst (R104). A request beyond the ceiling ends with ERR_POWER (R492). -/
def burstRequest (d : Dev) (l : Nat) : Dev :=
  if arbExceeds d (reqAux (laneOct l)) 2 then arbError d
  else (arbRequest d (reqAux (laneOct l)) 2 classB (.laneBurst l)).set (L.LANE_BURST l) 1

/-! ## Eye scans (R115 to R119) -/

/-- SCAN_STATUS.STATE codes. -/
def scRunning : Nat := 1
def scDone : Nat := 2
def scAborted : Nat := 3

/-- Is the action the eye scan of this lane? -/
def isScanOf (l : Nat) : PowerAction → Bool
  | .eyeScan m _ _ => m == l
  | _ => false

/-- A scan ends with a state, or its waiting request is withdrawn (R118). DESIGN CHOICE: a start that still waits for its grant ends like
a scan, STATE taking the state and TEST latching; the spec says only that an abort withdraws what waits (log 21). -/
def scanEnd (d : Dev) (l st : Nat) : Dev :=
  if d.get (R.SCAN_STATUS_STATE l) = scRunning then
    laneEvent (arbRelease (d.setAll [(R.SCAN_STATUS_STATE l, st), (L.LANE_SCAN_WP l, 0)]) (reqAux (laneOct l)) 1) l 2
  else if d.on (R.SCAN_STATUS_WAIT_GRANT l) then
    let acts := (d.waiting.map (·.action) ++ d.issuing.map (·.action)).filter (isScanOf l)
    laneEvent ((acts.foldl arbCancel d).setAll [(R.SCAN_STATUS_WAIT_GRANT l, 0), (R.SCAN_STATUS_STATE l, st), (L.LANE_SCAN_WP l, 0)]) l 2
  else d

/-- Values from `a` to `b` in steps of `st`. -/
def stepsOf (a b st : Nat) : List Nat := (List.range (b + 1)).filter fun x => decide (a ≤ x) && (x - a) % st == 0

/-- Eyes of a profile that a modulation has. -/
def scanEyes (d : Dev) (pr : Nat) (pam4 : Bool) : List Nat :=
  (List.range 3).filter fun e => bitAt (d.get (R.SCANP_EYE_MASK pr)) e && (pam4 || e == 1)
def scanPhases (d : Dev) (pr : Nat) : List Nat :=
  stepsOf (d.get (R.SCANP_PH_START pr)) (d.get (R.SCANP_PH_STOP pr)) (2 ^ min 5 (d.get (R.SCANP_PH_STEP_LOG pr)))
def scanVolts (d : Dev) (pr : Nat) : List Nat :=
  stepsOf (d.get (R.SCANP_V_START pr)) (d.get (R.SCANP_V_STOP pr)) (2 ^ min 6 (d.get (R.SCANP_V_STEP_LOG pr)))
/-- Number of points a scan of lane `l` visits. -/
def scanCount (d : Dev) (l pr : Nat) : Nat :=
  (scanEyes d pr (ratePam4 (laneRate d l))).length * (scanPhases d pr).length * (scanVolts d pr).length

/-- Global number of profile `n` of a lane's octet. -/
def profileOf (l n : Nat) : Nat := 16 * laneOct l + n

/-- Code of a scan start (R117). -/
def scanCheck (d : Dev) (l n : Nat) : Nat :=
  let pr := profileOf l n
  if laneStage d l ≠ stActive ∨ d.get (R.SCAN_STATUS_STATE l) = scRunning ∨ d.on (R.SCAN_STATUS_WAIT_GRANT l) then codeState
  else if (scanEyes d pr (ratePam4 (laneRate d l))).isEmpty || decide (d.get (R.SCANP_PH_STOP pr) < d.get (R.SCANP_PH_START pr)) ||
      decide (d.get (R.SCANP_V_STOP pr) < d.get (R.SCANP_V_START pr)) || decide (d.get (R.SCANP_DWELL_EXP pr) < 10) ||
      decide (42 < d.get (R.SCANP_DWELL_EXP pr)) || decide (8192 < scanCount d l pr) then codeArg
  else if arbExceeds d (reqAux (laneOct l)) 1 then codePower
  else codeOk

/-- Start of a scan by register or waypoint: the grant is requested (R117). -/
def scanStart (d : Dev) (l n : Nat) (wp : Option Nat) : Dev × Nat :=
  let c := scanCheck d l n
  if c = codeOk then
    let d := arbRequest d (reqAux (laneOct l)) 1 classD (.eyeScan l n wp)
    (d.setAll [(R.SCAN_STATUS_WAIT_GRANT l, 1), (R.SCAN_STATUS_REFUSED l, 0)], c)
  else
    let d := if c = codePower then arbError d else d
    (laneEvent (d.set (R.SCAN_STATUS_REFUSED l) 1) l 2, c)

/-- The grant has come: the scan begins (R118). -/
def scanGranted (d : Dev) (l n : Nat) (wp : Option Nat) : Dev :=
  let k0 := (R.SCANRES_ERRORS (8192 * l)).key
  let k1 := k0 + 512 * 8192
  let d := { d with cells := d.cells.filter fun p => !(decide (k0 ≤ p.1) && decide (p.1 < k1) && ((p.1 - k0) % 512 == 0 || (p.1 - k0) % 512 == 10)) }
  d.setAll [(R.SCAN_STATUS_WAIT_GRANT l, 0), (R.SCAN_STATUS_STATE l, scRunning), (R.SCAN_STATUS_PROFILE l, n),
    (R.SCAN_STATUS_POINTS_DONE l, 0), (L.LANE_SCAN_POINT l, 0), (R.SCAN_START_TIME_NS l, nsOf d.tickTime),
    (R.SCAN_START_TIME_SEC l, secOf d.tickTime % 2 ^ 32),
    (L.LANE_SCAN_WP l, match wp with | some w => w + 1 | none => 0)]

/-- A point ends at boundary 2^m with this error count (R116). -/
def scanPoint (d : Dev) (l m errors : Nat) : Dev :=
  let pr := profileOf l (d.get (R.SCAN_STATUS_PROFILE l))
  let lim := d.get (R.SCANP_ERR_LIMIT pr)
  let dwell := d.get (R.SCANP_DWELL_EXP pr)
  if d.get (R.SCAN_STATUS_STATE l) ≠ scRunning ∨ m < 10 ∨ dwell < m ∨ (m < dwell ∧ (lim = 0 ∨ errors < lim)) then d else
  let n := d.get (L.LANE_SCAN_POINT l)
  let vs := scanVolts d pr
  let ps := scanPhases d pr
  let es := scanEyes d pr (ratePam4 (laneRate d l))
  let i := 8192 * l + n
  let d := d.setAll [(R.SCANRES_ERRORS i, min errors 1023), (R.SCANRES_BITS_EXP i, m),
    (R.SCANRES_VOLT i, vs.getD (n % vs.length) 0), (R.SCANRES_PHASE i, ps.getD (n / vs.length % ps.length) 0),
    (R.SCANRES_EYE i, es.getD (n / vs.length / ps.length) 0), (L.LANE_SCAN_POINT l, n + 1), (R.SCAN_STATUS_POINTS_DONE l, n + 1)]
  if n + 1 = scanCount d l pr then scanEnd d l scDone else d

/-! ## Stages -/

/-- Enter a stage: leaving ACTIVE latches STAGE and ends a scan and a burst (R118, R131). -/
def laneSet (d : Dev) (l st : Nat) : Dev :=
  let was := laneStage d l
  let d := d.set (R.LANE_STATUS_STAGE l) st
  if was = stActive ∧ st ≠ stActive then
    adaptEnd (scanEnd (laneEvent d l 0) l scAborted) l
  else if st = stActive ∧ was ≠ stActive then laneEvent d l 0
  else d

/-- A lane returns to OFF (R102, R143): bursts and scans end, a test reservation is released, its PLL may power down. -/
def laneToOff (d : Dev) (l : Nat) : Dev :=
  let d := adaptEnd (burstEnd (laneSet d l stOff) l) l
  let d := arbRelease (d.set (L.LANE_STEADY l) 0) (reqPorts (laneOct l)) (d.get (L.LANE_STEADY l))
  let d := d.setAll [(R.LANE_STATUS_NO_PLL l, 0), (L.LANE_RELOCK l, 0), (R.PRBS_STATUS_GEN_RUNNING l, 0), (R.PRBS_STATUS_CHK_LOCKED l, 0),
    (R.LANE_STATUS_ADAPT_FROZEN l, 0)]
  pllFollow d (laneOct l)

/-- POWER_WAIT ends once the burst is held and the PLL is locked (R103). -/
def lanePower (d : Dev) (l : Nat) : Dev :=
  if laneStage d l = stPowerWait ∧ d.get (L.LANE_BURST l) = 2 ∧ d.on (pllLockedF (laneOct l) (d.get (R.LANE_STATUS_PLL l))) then
    laneSet d l stRxDetect else d

/-- A lane leaves OFF (R100, R102, R103). -/
def laneStart (d : Dev) (l : Nat) : Dev :=
  if !d.on (L.PAGE_ENABLE (lanePage l)) then d
  else match pllFor d (laneOct l) (laneRate d l) with
    | none => d.set (R.LANE_STATUS_NO_PLL l) 1
    | some j =>
      let d := d.setAll [(R.LANE_STATUS_NO_PLL l, 0), (R.LANE_STATUS_PLL l, j), (L.LANE_RELOCK l, 0), (L.PLL_RESV (laneOct l) j, 1)]
      burstRequest (laneSet d l stPowerWait) l

/-- The lane is the first of an enabled port that negotiates (R138). -/
def laneNegotiates (d : Dev) (l : Nat) : Bool := lanePortOn d l == some l && d.on (R.PORT_CTRL_AN_EN l)

/-- A lane returns to RX_DETECT with a new burst (R103, R105, R106); a port that negotiates does so again (R138, R139). -/
def laneToDetect (d : Dev) (l : Nat) : Dev :=
  let d := if laneNegotiates d l then d.set (R.PORT_STATUS_AN_DONE l) 0 else d
  burstRequest ((burstEnd (laneSet d l stRxDetect) l).set (L.LANE_RELOCK l) 0) l

/-- An ACTIVE lane loses lock (R105). -/
def laneLoss (d : Dev) (l : Nat) : Dev :=
  ((laneSet d l stBitLock).set (L.LANE_RELOCK l) 1).count (lanePage l) (R.LOCK_LOSS_COUNT l)

/-- Units of a test lane: steady, and the PLL's when it is not reserved (R104). -/
def testUnits (d : Dev) (l : Nat) : Nat :=
  rateSteady (laneRate d l) + (match pllFor d (laneOct l) (laneRate d l) with
    | some j => if d.on (L.PLL_RESV (laneOct l) j) then 0 else 2
    | none => 0)

/-- The grant of a test lane begins: its PLL units are reserved for the octet (R104). -/
def testReserve (d : Dev) (l : Nat) : Dev :=
  match pllFor d (laneOct l) (laneRate d l) with
  | some j => d.set (L.PLL_RESV (laneOct l) j) 1
  | none => d

/-- The request of a test lane is withdrawn, or the grant being issued is cancelled: units not issued leave the account at
once, and the PLL stays reserved while something else needs it (R104, R492, R494). -/
def testCancel (d : Dev) (l : Nat) : Dev :=
  let left := ((d.issuing.filter (·.action == .testLane l)).map (·.left)).sum
  let was := granting d (.testLane l)
  let d := { d with waiting := d.waiting.filter (fun r => !(r.action == .testLane l)), issuing := d.issuing.filter (fun g => !(g.action == .testLane l)) }
  if was then
    let u := rateSteady (laneRate d l)
    pllFollow (arbRelease (arbDrop d (reqPorts (laneOct l)) (min left u)) (reqPorts (laneOct l)) (u - left)) (laneOct l)
  else d

/-- The grant of a test lane is complete. -/
def testGranted (d : Dev) (l : Nat) : Dev := laneStart (d.set (L.LANE_STEADY l) (rateSteady (laneRate d l))) l

/-- LANE_CTRL.TEST_ENABLE is written (R103, R129). -/
def testEnable (d : Dev) (l : Nat) (v : Bool) : Dev :=
  if (lanePortOn d l).isSome || v == d.on (R.LANE_CTRL_TEST_ENABLE l) then d
  else if v then
    let d := d.set (R.LANE_CTRL_TEST_ENABLE l) 1
    if !d.on (L.PAGE_ENABLE (lanePage l)) then d
    else if (pllFor d (laneOct l) (laneRate d l)).isNone then d.set (R.LANE_STATUS_NO_PLL l) 1
    else if arbExceeds d (reqPorts (laneOct l)) (testUnits d l) then arbError d
    else arbRequest d (reqPorts (laneOct l)) (testUnits d l) classC (.testLane l)
  else
    laneToOff ((testCancel d l).setAll [(R.LANE_CTRL_TEST_ENABLE l, 0), (R.PRBS_CTRL_GEN_EN l, 0)]) l

/-! ## Equalizer (R110 to R113) -/

/-- A lane adapts freely now: neither held nor frozen. -/
def adaptFree (d : Dev) (l : Nat) : Bool :=
  !d.on (R.RX_EQ_CTRL_ADAPT_HOLD l) && !d.on (R.LANE_STATUS_ADAPT_FROZEN l) &&
  !(d.get (R.SCAN_STATUS_STATE l) == scRunning && d.on (R.SCANP_HOLD_ADAPT (profileOf l (d.get (R.SCAN_STATUS_PROFILE l)))))

/-- The receiver applies an update: the coefficients are values the spec leaves open. NRZ lanes use no taps above 8. -/
def adaptUpdate (d : Dev) (l : Nat) : Dev :=
  let d := (d.set (R.RX_EQ_CTLE l) (if d.on (R.RX_EQ_CTRL_CTLE_MANUAL l) then d.get (R.RX_EQ_CTRL_CTLE_VALUE l) else d.freeVal 5)).tookFree
  let d := (d.set (R.RX_EQ_GAIN l) (d.freeVal 6)).tookFree
  let d := (d.set (R.DFE_TAPS l 0) (d.freeVal 32)).tookFree
  let d := (d.set (R.DFE_TAPS l 1) (d.freeVal 32)).tookFree
  if ratePam4 (laneRate d l) then (d.set (R.DFE_TAPS l 2) (d.freeVal 32)).tookFree else d.set (R.DFE_TAPS l 2) 0

/-- The grant of an adaptation burst is complete: the burst runs, or waits for a freeze to end (R111). -/
def adaptGranted (d : Dev) (l : Nat) : Dev := d.set (L.LANE_ADAPT l) (if d.on (R.LANE_STATUS_ADAPT_FROZEN l) then 3 else 2)

/-- Which of its clause's training polynomials and seeds a lane uses, counted from 0: its place in its port (R108). -/
def trainPolynomial (d : Dev) (l : Nat) : Nat :=
  match lanePort d l with
  | some p => l - p
  | none => 0

/-- The clause of a lane defines tap C_M3. PRESUMED: Clause 162 does, Clause 136 does not (log 26). -/
def firHasM3 (d : Dev) (l : Nat) : Bool := laneRate d l == 3

/-- Taps as TX_FIR numbers them: 0 C_M3, 1 C_M2, 2 C_M1, 3 C_0, 4 C_P1. -/
def firTap (l i : Nat) : Fld :=
  if i = 0 then R.TX_FIR_C_M3 l else if i = 1 then R.TX_FIR_C_M2 l else if i = 2 then R.TX_FIR_C_M1 l
  else if i = 3 then R.TX_FIR_C_0 l else R.TX_FIR_C_P1 l

/-- Absolute coefficients of the transmitter, summed (R110). -/
def firSum (d : Dev) (l : Nat) : Nat :=
  (d.getS (R.TX_FIR_C_M3 l)).natAbs + (d.getS (R.TX_FIR_C_M2 l)).natAbs + (d.getS (R.TX_FIR_C_M1 l)).natAbs + d.get (R.TX_FIR_C_0 l) +
    (d.getS (R.TX_FIR_C_P1 l)).natAbs

/-- The far end's training request meets this transmitter (R108, R110). A preset loads coefficients that the clause gives and the spec does
not: they are free. A step moves one tap by one unit, and is answered as refused where the clause does not define the tap or the
coefficients would leave their range; DESIGN CHOICE: one unit of TX_FIR is the step (log 26). -/
def trainRequest (d : Dev) (l : Nat) : TrainRequest → Dev
  | .preset n =>
    let d := if firHasM3 d l then (d.set (R.TX_FIR_C_M3 l) (d.freeVal 6)).tookFree else d.set (R.TX_FIR_C_M3 l) 0
    let d := (d.set (R.TX_FIR_C_M2 l) (d.freeVal 6)).tookFree
    let d := (d.set (R.TX_FIR_C_M1 l) (d.freeVal 6)).tookFree
    let d := (d.set (R.TX_FIR_C_0 l) (d.freeVal 6)).tookFree
    ((d.set (R.TX_FIR_C_P1 l) (d.freeVal 6)).tookFree).emit (.trained l (.preset n) true)
  | .step i up =>
    let tap := i.val
    let f := firTap l tap
    let e := d.set f (if up then d.get f + 1 else d.get f + 63)
    let wraps := if tap = 3 then d.get f == (if up then 63 else 0) else d.get f == (if up then 31 else 32)
    let ok := (tap != 0 || firHasM3 d l) && !wraps && decide (firSum e l ≤ 63)
    (if ok then e else d).emit (.trained l (.step i up) ok)

/-- A training is over: what the far end asked for in it, from preset 1 on with which it begins, has been answered in order, and TX_FIR
reads the trained values (R109). -/
def trainedFir (d : Dev) (l : Nat) (rs : List TrainRequest) : Dev := rs.foldl (fun d r => trainRequest d l r) (trainRequest d l (.preset 1))

/-- Link training acts on a lane: PAM4 with TRAIN_EN (R108). -/
def trains (d : Dev) (l : Nat) : Bool := d.on (R.LANE_CTRL_TRAIN_EN l) && ratePam4 (laneRate d l)

/-- A write of TX_FIR (R109, R110). -/
def firWrite (d : Dev) (l v : Nat) : Dev :=
  let c (lo : Nat) : Int := toSigned 6 (bitsOf v lo 6)
  let sum := (c 0).natAbs + (c 6).natAbs + (c 12).natAbs + bitsOf v 18 6 + (c 24).natAbs
  if laneStage d l = stTraining then d
  else if 63 < sum then d.set (R.LANE_STATUS_FIR_REFUSED l) 1
  else d.setAll [(R.TX_FIR_C_M3 l, bitsOf v 0 6), (R.TX_FIR_C_M2 l, bitsOf v 6 6), (R.TX_FIR_C_M1 l, bitsOf v 12 6),
    (R.TX_FIR_C_0 l, bitsOf v 18 6), (R.TX_FIR_C_P1 l, bitsOf v 24 6), (R.LANE_STATUS_FIR_REFUSED l, 0)]

/-- LANE_CMD.ADAPT_BURST (R111). -/
def adaptBurst (d : Dev) (l : Nat) : Dev :=
  if laneStage d l ≠ stActive ∨ d.get (L.LANE_ADAPT l) ≠ 0 then d
  else if arbExceeds d (reqAux (laneOct l)) 2 then arbError d
  else (arbRequest d (reqAux (laneOct l)) 2 classB (.adaptBurst l)).set (L.LANE_ADAPT l) 1

/-- A window is rich (R112). -/
def isRich (d : Dev) (l trans level run : Nat) : Bool :=
  decide (64 * d.get (R.RICH_CFG_TRANS_MIN l) ≤ trans) && decide (16 * d.get (R.RICH_CFG_LEVEL_MIN l) ≤ level) &&
  decide (run ≤ max 1 (d.get (R.RICH_CFG_RUN_MAX l)))

/-- A window of 16,384 UI ends with its transitions, the count of its rarest level and its longest run (R112, R113). -/
def richWindow (d : Dev) (l trans level run : Nat) : Dev :=
  if laneStage d l ≤ stPowerWait then d
  else if isRich d l trans level run then
    let d := d.setAll [(R.RICH_STATUS_LAST_RICH l, 1), (R.RICH_STATUS_LOW_RUN l, 0), (L.LANE_RICH_RUN l, min 255 (d.get (L.LANE_RICH_RUN l) + 1))]
    let d := if d.on (R.LANE_STATUS_ADAPT_FROZEN l) && decide (max 1 (d.get (R.RICH_CFG_RESUME_N l)) ≤ d.get (L.LANE_RICH_RUN l)) then
        let d := laneEvent (d.set (R.LANE_STATUS_ADAPT_FROZEN l) 0) l 1
        if d.get (L.LANE_ADAPT l) = 3 then d.set (L.LANE_ADAPT l) 2 else d
      else d
    if adaptFree d l then adaptUpdate d l else d
  else
    let n := min 255 (d.get (R.RICH_STATUS_LOW_RUN l) + 1)
    let d := d.setAll [(R.RICH_STATUS_LAST_RICH l, 0), (R.RICH_STATUS_LOW_RUN l, n), (L.LANE_RICH_RUN l, 0)]
    if 64 ≤ n ∧ ¬ d.on (R.LANE_STATUS_ADAPT_FROZEN l) then
      laneEvent ((d.set (R.LANE_STATUS_ADAPT_FROZEN l) 1).count (lanePage l) (R.FREEZE_COUNT l)) l 1
    else d

/-! ## Patterns (R121 to R123) -/

/-- Symbols per second of a rate code, in units of 50 kBd. -/
def symbolRate (r : Nat) : Nat := if r = 0 then 206250 else if r = 1 then 515625 else if r = 2 then 531250 else 1062500

/-- Symbols that lane `l` has sent since device time started, at its nominal rate: the model's own count, by which patterns and
injections have their places. -/
def laneUi (d : Dev) (l : Nat) : Nat := d.cyc * symbolRate (laneRate d l) / 20000

/-- A generator or checker may run on a lane: a test lane outside an enabled port (R121, R122). -/
def testLane (d : Dev) (l : Nat) : Bool := (lanePortOn d l).isNone && d.on (R.LANE_CTRL_TEST_ENABLE l)

/-- A pattern that the lane's modulation has: the two PAM4 patterns run on PAM4 lanes only (R121). -/
def patternOk (d : Dev) (l pat : Nat) : Bool := !((pat == 6 || pat == 7) && !ratePam4 (laneRate d l))

/-- PRBS_CTRL.GEN_EN is written (R121); in CONTAINED generators stop (R107). DESIGN CHOICE: a GEN_EN of 1 in CONTAINED on a lane that may
generate is accepted, GEN_REFUSED clears, and the generator runs from the release on; the spec does not say (log 22). -/
def genEnable (run : RunState) (d : Dev) (l : Nat) (v : Bool) : Dev :=
  let d := d.setB (R.PRBS_CTRL_GEN_EN l) v
  if !v then d.set (R.PRBS_STATUS_GEN_RUNNING l) 0
  else
    if testLane d l && patternOk d l (d.get (R.PRBS_CTRL_GEN_PATTERN l)) then
      let d := if d.on (R.PRBS_STATUS_GEN_RUNNING l) then d else d.setAll [(L.LANE_GEN_FROM l, laneUi d l), (L.LANE_INJ_LEN l, 0)]
      d.setAll [(R.PRBS_STATUS_GEN_RUNNING l, b2n (run != .contained)), (R.PRBS_STATUS_GEN_REFUSED l, 0)]
    else d.setAll [(R.PRBS_STATUS_GEN_RUNNING l, 0), (R.PRBS_STATUS_GEN_REFUSED l, 1)]

/-- PRBS_CTRL.CHK_EN is written (R122). -/
def chkEnable (d : Dev) (l : Nat) (v : Bool) : Dev :=
  let d := if v && !d.on (R.PRBS_CTRL_CHK_EN l) then d.setAll [(R.CHK_BITS l, 0), (R.CHK_ERRORS l, 0), (R.CHK_LOCK_LOSS l, 0)] else d
  let d := d.setB (R.PRBS_CTRL_CHK_EN l) v
  if v then d else d.set (R.PRBS_STATUS_CHK_LOCKED l) 0

/-- The checker runs. -/
def chkRuns (d : Dev) (l : Nat) : Bool := d.on (R.PRBS_CTRL_CHK_EN l) && testLane d l && patternOk d l (d.get (R.PRBS_CTRL_CHK_PATTERN l))

/-- A locked checker has compared `bits` bits, `errors` of them wrong (R122). -/
def chkCompared (d : Dev) (l bits errors : Nat) : Dev := (d.satAdd (R.CHK_BITS l) bits).satAdd (R.CHK_ERRORS l) errors

/-- The checker is locked, and has compared `bits` bits, `errors` of them wrong, since it locked or was last heard of (R122). -/
def chkLock (d : Dev) (l bits errors : Nat) : Dev :=
  if chkRuns d l then
    if d.on (R.PRBS_STATUS_CHK_LOCKED l) then chkCompared d l bits errors else d.set (R.PRBS_STATUS_CHK_LOCKED l) 1
  else d

/-- The checker loses lock after comparing `bits` more bits, `errors` of them wrong (R122). -/
def chkLoss (d : Dev) (l bits errors : Nat) : Dev :=
  if chkRuns d l && d.on (R.PRBS_STATUS_CHK_LOCKED l) then
    let d := (chkCompared d l bits errors).satAdd (R.CHK_LOCK_LOSS l) 1
    laneEvent (d.set (R.PRBS_STATUS_CHK_LOCKED l) 0) l 2
  else d

/-- BURST_LEN in force. -/
def burstLen (d : Dev) (l : Nat) : Nat := min 64 (max 1 (d.get (R.INJ_CTRL_BURST_LEN l)))

/-- INJ_CTRL.MODE takes a value: periods of RATE are counted from here on (R123). -/
def injMode (d : Dev) (l old : Nat) : Dev := if d.get (R.INJ_CTRL_MODE l) = old then d else d.set (L.LANE_INJ_FROM l) (laneUi d l)

/-- INJ_CTRL.GO fires, or a period of mode RATE ends (R123). SINGLE and BURST invert the next symbols that an earlier one leaves; which
symbols RATE inverts, Patterns.lean says. With TARGET 0 it is the generator's output that is inverted, so a generator has to run. -/
def inject (d : Dev) (l mode : Nat) : Dev :=
  if d.get (R.INJ_CTRL_MODE l) ≠ mode || (!d.on (R.INJ_CTRL_TARGET l) && !d.on (R.PRBS_STATUS_GEN_RUNNING l)) || laneStage d l == stOff then d
  else
    let n := if mode = 1 then 1 else burstLen d l
    let d := if mode = 3 then d
      else d.setAll [(L.LANE_INJ_AT l, max (laneUi d l) (d.get (L.LANE_INJ_AT l) + d.get (L.LANE_INJ_LEN l))), (L.LANE_INJ_LEN l, n)]
    if mode = 1 then d.satAdd (L.LANE_INJ_SINGLE l) 1
    else if mode = 2 then d.satAdd (L.LANE_INJ_BURST l) n
    else d.satAdd (L.LANE_INJ_RATE l) 1

/-! ## Ports -/

/-- Enter a port state: high-water modes follow (R514, R517). -/
def portSet (run : RunState) (d : Dev) (p st : Nat) : Dev := hwmPort run d (d.set (R.PORT_STATUS_STATE p) st) p

/-- LOCAL_FAULT and RF_RECEIVED take values; each change latches FAULT (R154). -/
def portFault (d : Dev) (p : Nat) (lf rf : Bool) : Dev :=
  let ch := d.on (R.PORT_STATUS_LOCAL_FAULT p) != lf || d.on (R.PORT_STATUS_RF_RECEIVED p) != rf
  let d := d.setAll [(R.PORT_STATUS_LOCAL_FAULT p, b2n lf), (R.PORT_STATUS_RF_RECEIVED p, b2n rf)]
  if ch then portEvent d p 2 else d

/-- PLLs of an octet that a port's lanes would start, whose units are not reserved yet. -/
def portPllUnits (d : Dev) (p : Nat) : Nat :=
  let k := p / 8
  if !d.on (L.PAGE_ENABLE (0x10 + k)) then 0 else
  match pllFor d k (ifaceLaneRate (iface d p)) with
  | some j => if d.on (L.PLL_RESV k j) then 0 else 2
  | none => 0

/-- Lane and port-engine units of a port (R142). -/
def portOwn (d : Dev) (p : Nat) : Nat := portWidth d p * rateSteady (ifaceLaneRate (iface d p)) + ifaceEngine (iface d p)

/-- Cipher units that the enable of port `p` adds, with the common units of the first (R215). -/
def portCipher (d : Dev) (p : Nat) : Nat :=
  let k := p / 8
  (4 * setsFor (clusterShareAll d k (some p)) - d.get (L.CC_UNITS k)) + (if d.on (L.CC_COMMON k) then 0 else 2)

/-- The reservation of a port as its enable would make it now (R142). -/
def portUnits (d : Dev) (p : Nat) : Nat := portOwn d p + portPllUnits d p + portCipher d p

/-- Units of an octet whose eight lanes carry 100G-1L ports on one PLL, all encrypted (R497). -/
def fullOctet : Nat := 8 * (rateSteady (ifaceLaneRate 3) + ifaceEngine 3) + 2 + (4 * setsFor (8 * ifaceShare 3) + 2)

/-- Accounted units of a full device in ACTIVE, by consumer in the order of the table of R497: lanes with their PLLs, port engines, the switch
core's part of the fixed load, cipher clusters, management, and the control island with the vault's and the guard's grants. -/
def loadAccount : List Nat :=
  [256 * rateSteady (ifaceLaneRate 3) + 32 * 2, 256 * ifaceEngine 3, 600, 32 * (4 * setsFor (8 * ifaceShare 3)) + 32 * 2, 64, 16 + 2 + 2]

/-- The port's enable would need more sets than the fences leave (R218). -/
def portFenced (d : Dev) (p : Nat) : Bool :=
  let n := setsFor (clusterShareAll d (p / 8) (some p))
  decide (unfenced d (p / 8) 0 < n) || decide (unfenced d (p / 8) 1 < n)

/-- ENABLE_CODE takes a code; a terminal one latches ERRORS (R162). -/
def enableCode (d : Dev) (p c : Nat) : Dev :=
  let d := d.set (R.PORT_STATUS_ENABLE_CODE p) c
  if terminal c then portEvent d p 3 else d

/-- A port enable reaches its lanes: a generator stops and GEN_EN clears, and a checker no longer runs (R121, R122). -/
def testersStop (d : Dev) (p : Nat) : Dev :=
  (portLanes d p).foldl (fun d l =>
    let d := d.set (R.PRBS_STATUS_CHK_LOCKED l) 0
    if d.on (R.PRBS_STATUS_GEN_RUNNING l) then d.setAll [(R.PRBS_STATUS_GEN_RUNNING l, 0), (R.PRBS_CTRL_GEN_EN l, 0)] else d) d

/-- A write of 1 to PORT_CTRL.ENABLE of a port in DISABLED (R141); ERR_STATE too while the switch island is off (R488). -/
def portEnable (run : RunState) (power : PowerState) (d : Dev) (p : Nat) : Dev :=
  if d.on (R.PORT_CTRL_ENABLE p) || portState d p != psDisabled then d
  else if !d.on (L.PAGE_ENABLE (portPage p)) || run != .active || power != .active then enableCode d p codeState
  else if !served d p then enableCode d p codeArg
  else if arbExceeds d (reqPorts (p / 8)) (portUnits d p) then enableCode (arbError d) p codePower
  else
    let u := portUnits d p
    let d := testersStop ((enableCode d p codeQueued).setAll [(R.PORT_CTRL_ENABLE p, 1), (R.PORT_STATUS_POWER_PENDING p, 1)]) p
    arbRequest (portSet run d p psPowerPending) (reqPorts (p / 8)) u classC (.port p)

/-- The grant of a port begins: PLL, cipher and common units are reserved for its octet (R104, R215). -/
def portReserve (d : Dev) (p : Nat) : Dev :=
  let k := p / 8
  let d := if portPllUnits d p = 0 then d else match pllFor d k (ifaceLaneRate (iface d p)) with
    | some j => d.set (L.PLL_RESV k j) 1
    | none => d
  d.setAll [(L.CC_UNITS k, max (d.get (L.CC_UNITS k)) (4 * setsFor (clusterShareAll d k (some p)))), (L.CC_COMMON k, 1)]

/-- A port's request is withdrawn, or its grant being issued is cancelled (R143, R492, R494): its own units that are not
issued leave the account at once, and the rest is released as far as nothing else in the octet needs it. -/
def portCancel (d : Dev) (p : Nat) : Dev :=
  let left := ((d.issuing.filter (·.action == .port p)).map (·.left)).sum
  let was := granting d (.port p)
  let d := { d with waiting := d.waiting.filter (fun r => !(r.action == .port p)), issuing := d.issuing.filter (fun g => !(g.action == .port p)) }
  if was then
    let q := reqPorts (p / 8)
    let u := portOwn d p
    clusterFall (pllFollow (arbRelease (arbDrop d q (min left u)) q (u - left)) (p / 8)) (p / 8)
  else d

/-- The arbiter has granted a port's reservation (R141, R103, R216): BRINGUP, and its lanes leave OFF. -/
def portGranted (run : RunState) (d : Dev) (p : Nat) : Dev :=
  let k := p / 8
  let d := (portLanes d p).foldl (fun d l =>
    if laneStage d l ≠ stOff ∨ d.on (R.LANE_CTRL_TEST_ENABLE l) then
      (laneToOff (testCancel d l) l).setAll [(R.LANE_CTRL_TEST_ENABLE l, 0), (R.PRBS_CTRL_GEN_EN l, 0)]
    else d) d
  let d := d.setAll [(L.PORT_STEADY p, portOwn d p), (R.PORT_STATUS_POWER_PENDING p, 0)]
  let d := portFault (portSet run (enableCode d p codeOk) p psBringup) p true false
  let fec := decide (2 ≤ iface d p) || (iface d p == 1 && d.on (R.PORT_CTRL_FEC_MODE p))
  let d := d.setB (R.PORT_STATUS_FEC_ACTIVE p) fec
  let d := clusterWake d k
  (portLanes d p).foldl laneStart d

/-- A write of 0 to PORT_CTRL.ENABLE acts (R143, R152). -/
def portDisable (run : RunState) (d : Dev) (p : Nat) : Dev :=
  if portState d p = psDisabled then d.set (R.PORT_CTRL_ENABLE p) 0
  else
    let held := portReserved d p
    let d := if held then rxAbort run (txAbort run d p) p else portCancel d p
    let d := (portLanes d p).foldl laneToOff d
    let d := portSet run d p psDisabled
    let d := portFault (d.setAll [(R.PORT_CTRL_ENABLE p, 0), (R.PORT_STATUS_POWER_PENDING p, 0), (R.PORT_STATUS_ALIGNED p, 0),
      (R.PORT_STATUS_HI_BER p, 0), (R.PORT_STATUS_AN_DONE p, 0), (R.PORT_STATUS_AN_NO_HCD p, 0), (R.PORT_STATUS_FEC_ACTIVE p, 0)]) p false false
    if held then
      let d := arbRelease (d.set (L.PORT_STEADY p) 0) (reqPorts (p / 8)) (d.get (L.PORT_STEADY p))
      clusterFall d (p / 8)
    else d

/-- Every lane of the port is ACTIVE. -/
def allActive (d : Dev) (p : Nat) : Bool := (portLanes d p).all fun l => laneStage d l == stActive

/-- A write of 0 to ENABLE of port `p` acts in this tick: it comes before a recovery of the tick (R152). -/
def disableDue (d : Dev) (p : Nat) : Bool := d.posted.any fun x => x.1 != d.tick && x.2 == .portDisable p

/-- The hold-off timer of port `p` had reached its end before the present tick. -/
def holdoffPast (d : Dev) (p : Nat) : Bool := decide (d.get (L.HOLDOFF_AT p) + 1000 * d.get (L.HOLDOFF_LEN p) ≤ d.get L.TICK_FROM)

/-- The port enters UP from BRINGUP (R143), or returns from HOLDOFF before the timer's end or in the tick of it (R150). -/
def portRise (run : RunState) (d : Dev) (p : Nat) : Dev :=
  if !allActive d p || !d.on (R.PORT_STATUS_ALIGNED p) || disableDue d p then d
  else if portState d p = psBringup then
    portEvent (portFault (portSet run (drawPhase d p) p psUp) p false (d.on (R.PORT_STATUS_RF_RECEIVED p))) p 0
  else if portState d p = psHoldoff ∧ ¬ holdoffPast d p then
    portEvent (portCount (portSet run d p psUp) p (R.HOLDOFF_RECOVERED p)) p 1
  else d

/-- The port goes down (R151). -/
def portDown (run : RunState) (d : Dev) (p : Nat) : Dev :=
  let d := portCount (portCount d p (R.HOLDOFF_EXPIRED p)) p (R.LINK_DOWN_COUNT p)
  let d := portEvent (portFault d p true false) p 0
  let d := txAbort run d p
  let d := portSet run d p psBringup
  let d := d.setAll [(R.PORT_STATUS_ALIGNED p, 0), (R.PORT_STATUS_AN_DONE p, 0), (R.PORT_STATUS_HI_BER p, 0)]
  (portLanes d p).foldl (fun d l => if laneStage d l = stOff then d else laneToDetect d l) d

/-- A port in UP enters HOLDOFF (R148, R149), and goes down at once when LANE_HOLDOFF is 0 (R151). -/
def holdoffEntry (run : RunState) (d : Dev) (p : Nat) : Dev :=
  if portState d p ≠ psUp then d else
  let len := min 1000 (d.get (R.PORT_CTRL_LANE_HOLDOFF p))
  let d := portEvent (portSet run d p psHoldoff) p 1
  let d := rxAbort run (d.setAll [(L.HOLDOFF_AT p, d.cyc), (L.HOLDOFF_LEN p, len), (R.PORT_STATUS_ALIGNED p, 0)]) p
  if len = 0 then portDown run d p else d

/-- A lane has left ACTIVE: a port that is UP enters HOLDOFF. -/
def laneLeft (run : RunState) (d : Dev) (l : Nat) : Dev :=
  match lanePort d l with
  | some p => if served d p then holdoffEntry run d p else d
  | none => d

/-- The hold-off timer has reached LANE_HOLDOFF (R151): the port goes down behind everything else of the tick, for a realignment of the
same tick comes first (R150). -/
def holdoffExpiry (d : Dev) (p : Nat) : Dev :=
  if portState d p = psHoldoff ∧ d.get (L.HOLDOFF_AT p) + 1000 * d.get (L.HOLDOFF_LEN p) ≤ d.cyc then d.post (.holdoffEnd p) else d

/-- The tick of an expired hold-off ends with the port still in HOLDOFF. -/
def holdoffDown (run : RunState) (d : Dev) (p : Nat) : Dev := if portState d p = psHoldoff then portDown run d p else d

/-- PAGE_CTRL.ENABLE of a lane page is cleared (R102). -/
def lanePageOff (run : RunState) (d : Dev) (k : Nat) : Dev :=
  let d := d.set (L.PAGE_ENABLE (0x10 + k)) 0
  let d := d.each 8 fun i d => laneToOff (testCancel d (8 * k + i)) (8 * k + i)
  d.each 8 fun j d => if served d (8 * k + j) && !allActive d (8 * k + j) then holdoffEntry run d (8 * k + j) else d

/-! ## Modes of an octet (R132, R133, R545) -/

/-- The registers, counters, tables and event bits of slot `j` of octet `k` return to reset (R545). -/
def slotReset (d : Dev) (k j : Nat) : Dev :=
  let pg := 0x30 + k
  let regs (base len : Nat) : Nat × Nat := ((pg * 65536 + base) * 64, (pg * 65536 + base + len) * 64)
  let a := regs (0x100 + 0x100 * j) 0x100
  let b := regs (0xF00 + 0x10 * j) 0x10
  let d := (d.clearRange a.1 a.2).clearRange b.1 b.2
  let d := d.clearRange (tblKey pg 0 (32 * j)) (tblKey pg 0 (32 * j + 32))
  let cc := 0x50 + k
  let d := d.clearRange ((cc * 65536 + 0x400 + 0x40 * j) * 64) ((cc * 65536 + 0x400 + 0x40 * j + 0x40) * 64)
  let v := d.get (L.EVT_LATCH pg)
  d.set (L.EVT_LATCH pg) (v - (bitsOf v (4 * j) 4) * 2 ^ (4 * j))

/-- OCT_PORT_MODE is written (R132, R133, R545). -/
def portMode (d : Dev) (k mode : Nat) : Dev :=
  if 8 < mode || ((List.range 8).any fun j => d.on (R.PORT_CTRL_ENABLE (8 * k + j))) then d.set (R.OCT_PORT_STATUS_CFG_REFUSED k) 1
  else
    let old := d.get (R.OCT_PORT_MODE_MODE k)
    let same (j : Nat) : Bool := modeWidth old j == modeWidth mode j && modeWidth old j != 0
    let kept (i : Nat) : Bool := (List.range 8).any fun j => same j && decide (j ≤ i) && decide (i < j + modeWidth mode j)
    let d := d.each 8 fun j d => if same j then d else slotReset d k j
    let d := d.each 8 fun i d => if kept i then d else d.clearEntry (0x30 + k) 1 i
    d.setAll [(R.OCT_PORT_MODE_MODE k, mode), (R.OCT_PORT_STATUS_CFG_REFUSED k, 0)]

end Sys2Proof.Machine
end

