-- ==== Sys2Proof/Machine/LaneRows.lean ====
section
/-! DEFINITION. The rows of the lane pages (R78, R98 to R123): clocking, bring-up, loss of lock, adaptation, eye scans,
patterns and injection. -/

namespace Sys2Proof.Machine

/-! ## Clocking -/

/-- OCT_REF.SEL is written (R99). -/
def refSelWrite (d : Dev) (k sel : Nat) : Dev :=
  if (List.range 8).any fun i => laneStage d (8 * k + i) != stOff then d.set (R.OCT_STATUS_CFG_REFUSED k) 1
  else d.setAll [(R.OCT_REF_SEL k, sel), (R.OCT_STATUS_CFG_REFUSED k, 0)]

/-- OCT_PLL_A.VCO (`j` = 0) or OCT_PLL_B.VCO is written (R99). -/
def pllVcoWrite (d : Dev) (k j code : Nat) : Dev :=
  if pllUsed d k j then d.set (R.OCT_STATUS_CFG_REFUSED k) 1
  else d.setAll [(if j = 0 then R.OCT_PLL_A_VCO k else R.OCT_PLL_B_VCO k, code), (R.OCT_STATUS_CFG_REFUSED k, 0)]

/-- PLL `j` of octet `k` locks (R101): it is powered, and the selected reference is there. DESIGN CHOICE: REF_PRESENT, which resets to 0,
is first set when a PLL of the octet locks or the reference returns; the spec says only when it clears and sets again (log 19). -/
def pllLock (d : Dev) (k j : Nat) : Dev :=
  if d.on (L.OCT_REF_ABSENT k) || !d.on (L.PLL_RESV k j) || !pllUsed d k j then d
  else
    let d := d.setAll [(pllLockedF k j, 1), (R.OCT_STATUS_REF_PRESENT k, 1)]
    d.each 8 fun i d => if d.get (R.LANE_STATUS_PLL (8 * k + i)) = j then lanePower d (8 * k + i) else d

/-- The selected reference of octet `k` is lost (R101). -/
def refLostOct (run : RunState) (d : Dev) (k : Nat) : Dev :=
  let d := (d.setAll [(L.OCT_REF_ABSENT k, 1), (R.OCT_STATUS_REF_PRESENT k, 0)]).latch (0x10 + k) 26
  let d := d.each 2 fun j d => if d.on (pllLockedF k j) then (d.set (pllLockedF k j) 0).latch (0x10 + k) (24 + j) else d
  let left := (List.range 8).filter fun i => laneStage d (8 * k + i) == stActive
  let d := left.foldl (fun d i => laneLoss d (8 * k + i)) d
  left.foldl (fun d i => laneLeft run d (8 * k + i)) d

/-- The reference returns, and powered PLLs relock (R101). -/
def refReturn (d : Dev) (k : Nat) : Dev :=
  let d := d.setAll [(L.OCT_REF_ABSENT k, 0), (R.OCT_STATUS_REF_PRESENT k, 1)]
  d.each 2 fun j d => pllLock d k j

/-! ## Bring-up -/

/-- The lane is one of an enabled port that negotiates and has not resolved (R139): it stays in RX_DETECT. -/
def anAwaited (d : Dev) (l : Nat) : Bool :=
  match lanePortOn d l with
  | some p => d.on (R.PORT_CTRL_AN_EN p) && !d.on (R.PORT_STATUS_AN_DONE p)
  | none => false

/-- Signal energy has been there for 100 µs: TRAINING, once the burst is held and a negotiation has resolved (R103, R139). -/
def rxDetectDone (d : Dev) (l : Nat) : Dev :=
  if laneStage d l ≠ stRxDetect then d
  else
    let d := d.set (R.LANE_STATUS_SIGNAL l) 1
    if d.get (L.LANE_BURST l) = 2 ∧ ¬ anAwaited d l then
      (laneSet d l stTraining).set (R.LANE_STATUS_TRAINED l) 0
    else d

/-- Training or start-up adaptation converges (R108, R109); `rs` is what the far end requested of this transmitter in it. -/
def trainingDone (d : Dev) (l : Nat) (rs : List TrainRequest) : Dev :=
  if laneStage d l ≠ stTraining then d
  else
    let d := if trains d l then (trainedFir d l rs).set (R.LANE_STATUS_TRAINED l) 1 else d
    let d := if adaptFree d l then adaptUpdate d l else d
    laneSet d l stBitLock

/-- The lane regains lock: it and its port are uncalibrated until its next calibration (R78, R152). -/
def calLost (d : Dev) (l : Nat) : Dev :=
  match lanePort d l with
  | some p => (d.setBit (R.TS_CAL_STATUS_LANE_MASK p) (l - p) false).set (R.TS_CAL_STATUS_CALIBRATED p) 0
  | none => d

/-- The CDR locks: SYMBOL_LOCK, and the bring-up burst is released (R103, R104). -/
def bitLockDone (d : Dev) (l : Nat) : Dev :=
  if laneStage d l ≠ stBitLock ∨ ¬ d.on (pllLockedF (laneOct l) (d.get (R.LANE_STATUS_PLL l))) then d
  else calLost (burstEnd ((laneSet d l stSymbolLock).set (R.LANE_STATUS_SIGNAL l) 1) l) l

/-- Block or codeword lock is reported (R103). -/
def symbolLockDone (d : Dev) (l : Nat) : Dev := if laneStage d l = stSymbolLock then laneSet d l stCapExchange else d

/-- The port engine reports the port aligned and no remote fault (R103, R105): ACTIVE. -/
def capExchangeDone (run : RunState) (d : Dev) (l : Nat) : Dev :=
  if laneStage d l ≠ stCapExchange then d
  else
    let d := (laneSet d l stActive).set (L.LANE_RELOCK l) 0
    match lanePortOn d l with
    | some p => portRise run (if allActive d p then d.set (R.PORT_STATUS_ALIGNED p) 1 else d) p
    | none => d

/-- A port has alignment markers to lock to: it has several lanes, or an FEC whose lanes its one lane carries (R146). -/
def portAligns (d : Dev) (p : Nat) : Bool := decide (1 < portWidth d p) || d.on (R.PORT_STATUS_FEC_ACTIVE p)

/-- Alignment of port `p` fails: it is counted, and the port's lanes that have passed SYMBOL_LOCK on their way up repeat it (R146). -/
def deskewFail (d : Dev) (p : Nat) : Dev :=
  (portLanes d p).foldl (fun d l => if laneStage d l = stCapExchange then laneSet d l stSymbolLock else d) (portCount d p (R.DESKEW_FAILS p))

/-- A stage overruns its limit (R103), or alignment fails in SYMBOL_LOCK: a marker that does not lock on some PCS lane, or a skew of more
than 180 ns between the port's lanes (R146). -/
def stageOverrun (d : Dev) (l : Nat) (why : Overrun) : Dev :=
  let st := laneStage d l
  let align : Dev := if st = stSymbolLock then
      match lanePortOn d l with
      | some p => if portAligns d p then deskewFail d p else d
      | none => d
    else d
  match why with
  | .markers => align
  | .skew ns => if ns ≤ 180 then d else align
  | .limit =>
    if d.on (L.LANE_RELOCK l) || !(decide (stTraining ≤ st) && decide (st ≤ stCapExchange)) then d
    else laneEvent (laneToDetect (d.count (lanePage l) (R.BRINGUP_FAILS l)) l) l 0

/-- An ACTIVE lane loses CDR or symbol lock (R105, R148). -/
def lockLoss (run : RunState) (d : Dev) (l : Nat) : Dev :=
  if laneStage d l = stActive then laneLeft run (laneLoss d l) l else d

/-- A lane of an UP or HOLDOFF port loses signal energy: it is held in BIT_LOCK as if it had lost lock (R148). A lane that
is already relocking falls back to BIT_LOCK; elsewhere only SIGNAL follows. -/
def signalLoss (run : RunState) (d : Dev) (l : Nat) : Dev :=
  let d := d.set (R.LANE_STATUS_SIGNAL l) 0
  let up := match lanePort d l with
    | some p => portUp d p
    | none => false
  if !up then d
  else if laneStage d l = stActive then laneLeft run (laneLoss d l) l
  else if d.on (L.LANE_RELOCK l) && laneStage d l != stOff then laneSet d l stBitLock
  else d

/-- LANE_CMD.RESTART (R106): the lane returns to RX_DETECT under the timeout rule of R103, which latches STAGE; a port in UP enters HOLDOFF
when the lane leaves ACTIVE (R148). -/
def laneRestart (run : RunState) (d : Dev) (l : Nat) : Dev :=
  if laneStage d l = stOff then d
  else
    let was := laneStage d l == stActive
    let d := laneEvent (laneToDetect d l) l 0
    if was then laneLeft run d l else d

/-- LANE_CMD.SCAN_START (R117); a write to LANE_CMD of a lane that is OFF is ignored (R106). -/
def laneScanStart (d : Dev) (l profile : Nat) : Dev := if laneStage d l = stOff then d else (scanStart d l profile none).1

/-- The adaptation burst ends (R111); its updates have been applied window by window (R113). -/
def adaptBurstEnd (d : Dev) (l : Nat) : Dev := if d.get (L.LANE_ADAPT l) = 2 then adaptEnd d l else d

/-! ## Calibration (R78) -/

/-- Calibration of the lanes of a port: those that are ACTIVE become calibrated, and the port once all its lanes are. -/
def calibrate (d : Dev) (p : Nat) : Dev :=
  if !served d p then d
  else
    let mask := d.get (R.TS_CAL_STATUS_LANE_MASK p) |||
      sumBelow (fun i => if laneStage d (p + i) = stActive then 2 ^ i else 0) (portWidth d p)
    d.setAll [(R.TS_CAL_STATUS_LANE_MASK p, mask), (R.TS_CAL_STATUS_CALIBRATED p, b2n (mask % 2 ^ portWidth d p == 2 ^ portWidth d p - 1))]

/-! ## Rows -/

/-- TS_CALIBRATION_DONE (R78). -/
def execTsCalibrationDone (p : Fin 256) (s : State) : Host.Outcome State Fault Refusal := s.lanes fun d => calibrate d p
/-- TS_RECALIBRATION (R78). -/
def execTsRecalibration (p : Fin 256) (s : State) : Host.Outcome State Fault Refusal :=
  s.lanes fun d => if d.on (R.TS_CAL_STATUS_CALIBRATED p) then calibrate d p else d
/-- OCT_REF_SEL_WRITE (R99). -/
def execOctRefSelWrite (k : Fin 32) (sel : Fin 4) (s : State) : Host.Outcome State Fault Refusal :=
  s.page (0x10 + k) fun d => refSelWrite d k sel
/-- OCT_PLL_VCO_WRITE (R99). -/
def execOctPllVcoWrite (k : Fin 32) (pll : Fin 2) (code : Fin 4) (s : State) : Host.Outcome State Fault Refusal :=
  s.page (0x10 + k) fun d => pllVcoWrite d k pll code
/-- PLL_LOCK (R101). -/
def execPllLock (k : Fin 32) (pll : Fin 2) (s : State) : Host.Outcome State Fault Refusal := s.lanes fun d => pllLock d k pll
/-- OCT_REF_LOST (R101). -/
def execOctRefLost (k : Fin 32) (s : State) : Host.Outcome State Fault Refusal := s.lanes fun d => refLostOct s.run d k
/-- OCT_REF_RETURN (R101). -/
def execOctRefReturn (k : Fin 32) (s : State) : Host.Outcome State Fault Refusal := s.lanes fun d => refReturn d k
/-- LANE_PAGE_DISABLE (R102). -/
def execLanePageDisable (k : Fin 32) (s : State) : Host.Outcome State Fault Refusal :=
  s.page (0x10 + k) fun d => lanePageOff s.run d k
/-- TEST_ENABLE_WRITE (R103). -/
def execTestEnableWrite (l : Fin 256) (v : Bool) (s : State) : Host.Outcome State Fault Refusal :=
  s.page (lanePage l) fun d => testEnable d l v
/-- LANE_RX_DETECT_DONE (R103). -/
def execLaneRxDetectDone (l : Fin 256) (s : State) : Host.Outcome State Fault Refusal := s.lanes fun d => rxDetectDone d l
/-- LANE_TRAINING_DONE (R108). -/
def execLaneTrainingDone (t : TrainingEnd) (s : State) : Host.Outcome State Fault Refusal :=
  s.lanes fun d => trainingDone d t.lane t.requests
/-- LANE_BIT_LOCK_DONE (R103). -/
def execLaneBitLockDone (l : Fin 256) (s : State) : Host.Outcome State Fault Refusal := s.lanes fun d => bitLockDone d l
/-- LANE_SYMBOL_LOCK_DONE (R103). -/
def execLaneSymbolLockDone (l : Fin 256) (s : State) : Host.Outcome State Fault Refusal := s.lanes fun d => symbolLockDone d l
/-- LANE_CAP_EXCHANGE_DONE (R103). -/
def execLaneCapExchangeDone (l : Fin 256) (s : State) : Host.Outcome State Fault Refusal :=
  s.lanes fun d => capExchangeDone s.run d l
/-- LANE_STAGE_OVERRUN (R103, R146). -/
def execLaneStageOverrun (l : Fin 256) (why : Overrun) (s : State) : Host.Outcome State Fault Refusal :=
  s.lanes fun d => stageOverrun d l why
/-- LANE_LOCK_LOSS (R105). -/
def execLaneLockLoss (l : Fin 256) (s : State) : Host.Outcome State Fault Refusal := s.lanes fun d => lockLoss s.run d l
/-- LANE_SIGNAL_LOSS (R148). -/
def execLaneSignalLoss (l : Fin 256) (s : State) : Host.Outcome State Fault Refusal := s.lanes fun d => signalLoss s.run d l
/-- LANE_CMD_RESTART (R106). -/
def execLaneCmdRestart (l : Fin 256) (s : State) : Host.Outcome State Fault Refusal :=
  s.page (lanePage l) fun d => laneRestart s.run d l
/-- LANE_CMD_ADAPT_BURST (R111). -/
def execLaneCmdAdaptBurst (l : Fin 256) (s : State) : Host.Outcome State Fault Refusal :=
  s.page (lanePage l) fun d => adaptBurst d l
/-- ADAPT_BURST_END (R111). -/
def execAdaptBurstEnd (l : Fin 256) (s : State) : Host.Outcome State Fault Refusal := s.lanes fun d => adaptBurstEnd d l
/-- TX_FIR_WRITE (R110). -/
def execTxFirWrite (l : Fin 256) (v : Word) (s : State) : Host.Outcome State Fault Refusal :=
  s.page (lanePage l) fun d => firWrite d l v.toNat
/-- LANE_CMD_SCAN_START (R117). -/
def execLaneCmdScanStart (l : Fin 256) (profile : Fin 16) (s : State) : Host.Outcome State Fault Refusal :=
  s.page (lanePage l) fun d => laneScanStart d l profile
/-- LANE_CMD_SCAN_ABORT (R118). -/
def execLaneCmdScanAbort (l : Fin 256) (s : State) : Host.Outcome State Fault Refusal :=
  s.page (lanePage l) fun d => scanEnd d l scAborted
/-- SCAN_POINT_DONE (R116): the boundary exponent at which the point ended, and its errors. -/
def execScanPointDone (l : Fin 256) (m errors : Nat) (s : State) : Host.Outcome State Fault Refusal :=
  s.lanes fun d => scanPoint d l m errors
/-- GEN_EN_WRITE (R121). -/
def execGenEnWrite (l : Fin 256) (v : Bool) (s : State) : Host.Outcome State Fault Refusal :=
  s.page (lanePage l) fun d => genEnable s.run d l v
/-- CHK_EN_WRITE (R122). -/
def execChkEnWrite (l : Fin 256) (v : Bool) (s : State) : Host.Outcome State Fault Refusal :=
  s.page (lanePage l) fun d => chkEnable d l v
/-- CHECKER_LOCK (R122): the checker is locked; `bits` and `errors` are what a checker that was locked already has compared since. -/
def execCheckerLock (r : CompareReport) (s : State) : Host.Outcome State Fault Refusal :=
  s.lanes fun d => chkLock d r.lane r.bits r.errors
/-- CHECKER_LOCK_LOSS (R122): bits compared while locked, and errors among them, since the checker was last heard of. -/
def execCheckerLockLoss (l : Fin 256) (bits errors : Nat) (s : State) : Host.Outcome State Fault Refusal :=
  s.lanes fun d => chkLoss d l bits errors
/-- INJECT_SINGLE (R123). -/
def execInjectSingle (l : Fin 256) (s : State) : Host.Outcome State Fault Refusal := s.lanes fun d => inject d l 1
/-- INJECT_BURST (R123). -/
def execInjectBurst (l : Fin 256) (s : State) : Host.Outcome State Fault Refusal := s.lanes fun d => inject d l 2
/-- INJECT_RATE (R123). -/
def execInjectRate (l : Fin 256) (s : State) : Host.Outcome State Fault Refusal := s.lanes fun d => inject d l 3

end Sys2Proof.Machine
end

