-- ==== Sys2Proof/Machine/Slots.lean ====
section
/-! DEFINITION. Command slots (R50 to R57): accepting a CMD write, arguments, ending a command, and byte strings carried in
ranges of words (R261). Slots have one number across the pages: `slotId`. -/

namespace Sys2Proof.Machine

/-- Number of slot `s` of a page that has command slots. -/
def slotId (pg s : Nat) : Nat :=
  (if pg = 0x04 then 0 else if pg = 0x05 then 4 else if pg = 0x06 then 8 else if pg = 0x08 then 12 else if pg = 0x0A then 16 else 20) + s
/-- Page of a slot by its number. -/
def slotPage (id : Nat) : Nat :=
  if id < 4 then 0x04 else if id < 8 then 0x05 else if id < 12 then 0x06 else if id < 16 then 0x08 else if id < 20 then 0x0A else 0x0D
/-- The page has command slots. -/
def hasSlots (pg : Nat) : Bool := pg == 0x04 || pg == 0x05 || pg == 0x06 || pg == 0x08 || pg == 0x0A || pg == 0x0D
/-- Master that owns a slot: page 0x05 serves the host, page 0x08 the management complex, and of the others slots 0 and 1
belong to the host. -/
def slotMaster (id : Nat) : Master :=
  if slotPage id = 0x05 then .host else if slotPage id = 0x08 then .mgmt else if id % 4 < 2 then .host else .mgmt

def slotCode (d : Dev) (id : Nat) : Nat := d.get (L.SLOT_CODE id)
def slotOp (d : Dev) (id : Nat) : Nat := d.get (L.SLOT_OPCODE id)
/-- A captured argument word. -/
def slotArg (d : Dev) (id j : Nat) : Nat := d.get (L.SLOT_CAP id j)
/-- A command is in the slot: QUEUED or RUNNING. -/
def slotActive (d : Dev) (id : Nat) : Bool := slotCode d id == codeQueued || slotCode d id == codeRunning

/-- Set the sixteen results from a list, zero beyond it. -/
def slotResults (d : Dev) (id : Nat) (rs : List Nat) : Dev := d.each 16 fun j d => d.set (L.SLOT_RESULT id j) (rs.getD j 0)

/-- A CMD write that is accepted (R51): SEQ counts from 0xFFFF to 1, the arguments are captured. -/
def slotAccept (d : Dev) (id op : Nat) : Dev :=
  let q := if d.get (L.SLOT_SEQ id) = 0xFFFF then 1 else d.get (L.SLOT_SEQ id) + 1
  let d := d.each 16 fun j d => d.set (L.SLOT_CAP id j) (d.get (L.SLOT_ARG id j))
  (slotResults d id []).setAll [(L.SLOT_SEQ id, q), (L.SLOT_STATUS_SEQ id, q), (L.SLOT_OPCODE id, op), (L.SLOT_CODE id, codeQueued),
    (L.SLOT_READ_ONCE id, 0)]

/-- The command ends: code, results, and the slot's SLOT_DONE event (R57). -/
def slotEnd (d : Dev) (id code : Nat) (rs : List Nat) : Dev :=
  ((slotResults d id rs).set (L.SLOT_CODE id) code).latch (slotPage id) (if slotPage id = 0x0A then 24 + id % 4 else id % 4)

/-- The command ends with an error and a detail in RESULT0 (R53). -/
def slotFail (d : Dev) (id code detail : Nat) : Dev := slotEnd d id code [detail]

/-- A CMD write with a command that completes at once: it is accepted when the slot is free, and `f` runs it. -/
def slotRun (d : Dev) (id op : Nat) (f : Dev → Dev) : Dev := if slotActive d id then d else f (slotAccept d id op)

/-! ## What vault commands hold (R255) -/

/-- Commands that hold vault slot `i` as a source, or have it reserved as a destination. -/
def heldSrc (d : Dev) (c i : Nat) : Bool := d.get (L.V_SRC c 0) == i + 1 || d.get (L.V_SRC c 1) == i + 1
def heldDst (d : Dev) (c i : Nat) : Bool := d.get (L.V_DST c 0) == i + 1 || d.get (L.V_DST c 1) == i + 1
def vReserved (d : Dev) (i : Nat) : Bool := (List.range 8).any fun c => heldDst d c i
def vBusySlot (d : Dev) (i : Nat) : Bool := (List.range 8).any fun c => heldSrc d c i || heldDst d c i

def vsEmpty : Nat := 0
def vsValid : Nat := 1
def vsBusy : Nat := 2
def vsExhausted : Nat := 3
def vsOrphaned : Nat := 4
def vEmpty (d : Dev) (i : Nat) : Bool := d.get (R.SLOT_STATE i) == vsEmpty
/-- STATE as it reads: BUSY while a command holds the slot, else what its contents give (R255). -/
def slotShownState (d : Dev) (i : Nat) : Nat := if vBusySlot d i then vsBusy else d.get (R.SLOT_STATE i)

/-! ## Byte strings in ranges of words (R261) -/

/-- The field of words `lo` to `hi`, as bytes from the highest-numbered word down. -/
def wordField (word : Nat → Nat) (lo hi : Nat) : List Byte :=
  ((List.range (hi + 1 - lo)).map fun i => beBytes 4 (word (hi - i))).flatten
/-- The first `n` bytes of a range of argument words. -/
def argString (d : Dev) (id lo hi n : Nat) : List Byte := (wordField (slotArg d id) lo hi).take n
/-- Words of a range of `n` words that carries a byte string at its top, lowest word first. -/
def stringWords (bs : List Byte) (n : Nat) : List Nat := ((Crypto.chunked 4 (Crypto.padTo (4 * n) bs)).map beVal).reverse

end Sys2Proof.Machine
end

