-- ==== Sys2Proof/Machine/Vault.lean ====
section
/-! DEFINITION. The key vault (R247 to R282): slots and roots, erasure and the loss of parents, the DRBG, the checks of a
command at its first step, and its commit at the last. The rows are in VaultRows.lean. Vault command slots are numbered 0
to 3 for the host and 4 to 7 for the management complex. -/

namespace Sys2Proof.Machine

/-! ## Command slots of the vault -/

/-- Number among all command slots. -/
def vId (c : Nat) : Nat := if c < 4 then slotId 0x05 c else slotId 0x08 (c - 4)
/-- 0 host, 1 management. -/
def vMaster (c : Nat) : Nat := if c < 4 then 0 else 1
def vArg (d : Dev) (c j : Nat) : Nat := slotArg d (vId c) j
/-- Word `j` of the blob buffer (R261). -/
def blobF (c j : Nat) : Fld := if c < 4 then R.BLOB_BUF c j else regFld 0x08 (0x2000 + 128 * (c - 4) + 4 * j) 0 32 0
/-- The captured buffer as bytes. -/
def vBuf (d : Dev) (c : Nat) : List Byte := beBytes 128 (d.get (L.V_BUF c))
/-- Write a byte string into the buffer. -/
def blobWrite (d : Dev) (c : Nat) (bs : List Byte) : Dev :=
  let ws := stringWords bs 32
  d.each 32 fun j d => d.set (blobF c j) (ws.getD j 0)

/-! ## Slots (R248, R254, R255) -/

def tyCak : Nat := 1
def tyKek : Nat := 2
def tyIck : Nat := 3
def tySak : Nat := 4
def tyKdk : Nat := 5
def tyTransport : Nat := 6
def tyRope : Nat := 7
def tyRootSource : Nat := 8

/-- Operations a type allows. -/
def typeOps (t : Nat) : Nat :=
  if t = 1 ∨ t = 5 then 1 else if t = 2 ∨ t = 6 then 6 else if t = 3 then 8 else if t = 4 then 16 else if t = 8 then 32 else 0
/-- Length codes a type allows. -/
def typeLen (t l : Nat) : Bool :=
  if 1 ≤ t ∧ t ≤ 4 then decide (l ≤ 1) else if t = 5 then decide (1 ≤ l) else l == 1 && decide (6 ≤ t) && decide (t ≤ 8)
/-- The attribute word is one that a creating command can take (R248, R254). -/
def attrOk (a : Nat) : Bool :=
  let t := bitsOf a 0 4
  decide (1 ≤ t) && decide (t ≤ 8) && typeLen t (bitsOf a 4 2) && (bitsOf a 16 8 &&& typeOps t) == bitsOf a 16 8 && bitsOf a 9 2 != 3

/-- Length in bytes of a length code. -/
def keyBytes (l : Nat) : Nat := 16 * (l + 1)
/-- Length of a slot's key in bytes, and its bytes. -/
def slotLen (d : Dev) (i : Nat) : Nat := keyBytes (d.get (R.SLOT_LENGTH i))
def slotKey (d : Dev) (i : Nat) : List Byte := beBytes (slotLen d i) (d.get (L.VKEY i))

/-- The state that a slot's contents give. -/
def slotRestate (d : Dev) (i : Nat) : Dev :=
  d.set (R.SLOT_STATE i) (if d.get (R.SLOT_USE_LIMIT i) = 0 then vsExhausted else if d.on (R.SLOT_PARENT_LOST i) then vsOrphaned else vsValid)

/-- The attribute word of a slot. -/
def slotAttr (d : Dev) (i : Nat) : Nat :=
  d.get (R.SLOT_TYPE i) + d.get (R.SLOT_LENGTH i) * 2 ^ 4 + d.get (R.SLOT_EXPIRE_AT_RESET i) * 2 ^ 6 +
  d.get (R.SLOT_EXPORTABLE_WRAPPED i) * 2 ^ 7 + d.get (R.SLOT_PRESENCE_REQUIRED i) * 2 ^ 8 +
  d.get (R.SLOT_ON_PARENT_LOSS i) * 2 ^ 9 + d.get (R.SLOT_OPS i) * 2 ^ 16

/-- Parent numbers: slots 0 to 1,023, roots from 1,024. -/
def rootParent (r : Nat) : Nat := 1024 + r

/-! ## Opcodes (R264) -/

def opBlobLoad : Nat := 0x01
def opBlobSeal : Nat := 0x02
def opKeyGenerate : Nat := 0x03
def opKeyDerive : Nat := 0x04
def opMkaDerive : Nat := 0x05
def opKeyWrap : Nat := 0x06
def opKeyUnwrap : Nat := 0x07
def opSaLoad : Nat := 0x10
def opSakUnwrapToSa : Nat := 0x11
def opCmacBegin : Nat := 0x20
def opCmacUpdate : Nat := 0x21
def opCmacFinal : Nat := 0x22
def opDrbgRead : Nat := 0x30
def opDrbgReseed : Nat := 0x31
def opSlotErase : Nat := 0x40
def opSlotRestrict : Nat := 0x41
def opRootGenerate : Nat := 0x50
def opRootSet : Nat := 0x51
def opRootErase : Nat := 0x52

/-! ## Ending a command -/

/-- A slot with no use left becomes EXHAUSTED: the command that took the last one has ended (R256). -/
def useEnd (d : Dev) (i : Nat) : Dev :=
  if !vEmpty d i && d.get (R.SLOT_STATE i) != vsExhausted && d.get (R.SLOT_USE_LIMIT i) == 0 then
    ((d.set (R.SLOT_STATE i) vsExhausted).count 5 R.USE_EXHAUSTED_COUNT).latch 5 5
  else d

/-- Release what a command holds. -/
def vRelease (d : Dev) (c : Nat) : Dev :=
  let d := d.each 2 fun j d => if bitAt (d.get (L.V_LAST c)) j then useEnd d (d.get (L.V_SRC c j) - 1) else d
  d.setAll [(L.V_LAST c, 0), (L.V_PAR c, 0), (L.V_PAR_ON c, 0), (L.V_DUE c, 0), (L.V_SERVED c, 0),
    (L.V_SRC c 0, 0), (L.V_SRC c 1, 0), (L.V_DST c 0, 0), (L.V_DST c 1, 0), (L.V_STEP c, 0), (L.V_NEEDS c, 0),
    (L.V_COLLECT c, 0), (L.V_FRESH c, 0), (L.V_BUF c, 0), (L.V_IDLE_AT, d.cyc)]

/-- The command writes its slot buffer (R261). -/
def writesBlob (op : Nat) : Bool := op == opBlobSeal || op == opKeyWrap

/-- The command ends with an error: the counters of its code move (R268, R281, R282), and a buffer that it writes reads zero, as a result
does after an error (R53, R261). -/
def vFail (d : Dev) (c code detail : Nat) : Dev :=
  let d := if writesBlob (slotOp d (vId c)) then blobWrite d c [] else d
  let d := if code = codeKeyGone then d.count 5 R.KEY_GONE_COUNT else d
  let d := if code = codeIntegrity then (d.count 5 R.INTEGRITY_FAIL_COUNT).latch 5 8 else d
  slotFail (vRelease d c) (vId c) code detail

/-- The command completes. -/
def vDone (d : Dev) (c : Nat) (rs : List Nat) : Dev := slotEnd (vRelease d c) (vId c) codeOk rs

/-- Release the CMAC context of a command slot. -/
def cmacDrop (d : Dev) (c : Nat) : Dev :=
  d.setAll [(L.CMAC_ON c, 0), (L.CMAC_ICK c, 0), (L.CMAC_KEY c, 0), (L.CMAC_KLEN c, 0), (L.CMAC_PRES c, 0), (L.CMAC_X c, 0),
    (L.CMAC_LAST c, 0), (L.CMAC_N c, 0)]

/-! ## Erasure and the loss of parents (R268 to R273) -/

/-- Zero a slot: key, entry, contexts of its ICK; commands that use it end with ERR_KEY_GONE. -/
def slotZero (d : Dev) (i : Nat) : Dev :=
  let d := (d.set (L.VKEY i) 0).clearEntry 5 0 i
  d.each 8 fun c d =>
    let d := if d.on (L.CMAC_ON c) && d.get (L.CMAC_ICK c) == i then cmacDrop d c else d
    if slotActive d (vId c) && (heldSrc d c i || heldDst d c i) then vFail d c codeKeyGone 0 else d

/-- Slots whose PARENT is `par`. -/
def childSlots (d : Dev) (par : Nat) : List Nat :=
  (d.listedEntries 5 0 51).filter fun i => d.on (R.SLOT_PARENT_VALID i) && d.get (R.SLOT_PARENT i) == par && !d.on (R.SLOT_PARENT_LOST i)

/-- SAs of a direction whose PARENT is `par`. -/
def childSas (d : Dev) (rx : Bool) (par : Nat) : List Nat :=
  (d.listedEntries 0x70 (saTable rx) ((saParentValidF rx 0).key % 512)).filter fun i =>
    d.on (saParentValidF rx i) && d.get (saParentF rx i) == par && !d.on (saParentLostF rx i)

/-- ON_PARENT_LOSS in force: ERASE_AT acts as ERASE_NOW while its waypoint is not ARMED (R271). -/
def lossPolicy (d : Dev) (policy wp : Nat) : Nat :=
  if policy = 2 ∧ d.get (R.WP_STATE wp) ≠ wpArmed then 1 else policy

/-- An SA whose parent is lost (R190, R270). -/
def saLoss (d : Dev) (rx : Bool) (i : Nat) : Dev :=
  if lossPolicy d (d.get (saOnLossF rx i)) (d.get (saEraseAtF rx i)) = 1 then saErase (d.set (saParentLostF rx i) 1) rx i
  else saParentLost d rx i

/-- A KEY_GENERATE under way that names an invalidated key as its parent ends with ERR_KEY_GONE (R264). -/
def parentFails (d : Dev) (par : Nat) : Dev :=
  d.each 8 fun c d => if slotActive d (vId c) && d.on (L.V_PAR_ON c) && d.get (L.V_PAR c) == par then vFail d c codeKeyGone 0 else d

/-- A slot is erased and counted, and its key is lost as a parent; `fuel` bounds the generations below it. -/
def cascade : Nat → List Nat → Dev → Dev
  | 0, _, d => d
  | _, [], d => d
  | fuel + 1, par :: rest, d =>
    let d := parentFails d par
    let cs := childSlots d par
    let st := childSas d false par
    let sr := childSas d true par
    let d := if cs.isEmpty && st.isEmpty && sr.isEmpty then d else (d.latch 5 4).set R.VAULT_STATUS_CASCADE_ACTIVE 1
    let gone := cs.filter fun i => lossPolicy d (d.get (R.SLOT_ON_PARENT_LOSS i)) (d.get (R.SLOT_ERASE_AT_WP i)) == 1
    let d := cs.foldl (fun d i =>
      if gone.contains i then slotZero (d.count 5 R.ERASE_COUNT) i else slotRestate (d.set (R.SLOT_PARENT_LOST i) 1) i) d
    let d := st.foldl (fun d i => saLoss d false i) d
    let d := sr.foldl (fun d i => saLoss d true i) d
    cascade fuel (rest ++ gone) d

/-- A key is lost as a parent. -/
def parentLost (d : Dev) (par : Nat) : Dev := cascade 2048 [par] d

/-- Erase a slot (R268): one that is EMPTY does not change, but is BUSY where a command has reserved it, and that command then ends. -/
def slotErase (d : Dev) (i : Nat) : Dev := if vEmpty d i && !vBusySlot d i then d else parentLost (slotZero (d.count 5 R.ERASE_COUNT) i) i

/-- Erase slots of a creator that expire at its reset (R257). -/
def slotsExpire (d : Dev) (creator : Nat) : Dev :=
  ((d.listedEntries 5 0 6).filter fun i => d.on (R.SLOT_EXPIRE_AT_RESET i) && d.get (R.SLOT_CREATOR i) == creator).foldl
    (fun d i => (slotErase d i).latch 5 6) d

/-- Children that wait for waypoint `n` are erased: it has executed (R92), or has left ARMED without executing (R271). -/
def wpErase (d : Dev) (n : Nat) : Dev :=
  let ss := (d.listedEntries 5 0 35).filter fun i =>
    d.on (R.SLOT_PARENT_LOST i) && d.get (R.SLOT_ON_PARENT_LOSS i) == 2 && d.get (R.SLOT_ERASE_AT_WP i) == n
  let d := ss.foldl slotErase d
  let sas (d : Dev) (rx : Bool) := (d.listedEntries 0x70 (saTable rx) ((saParentLostF rx 0).key % 512)).filter fun i =>
    d.on (saParentLostF rx i) && d.get (saOnLossF rx i) == 2 && d.get (saEraseAtF rx i) == n
  let d := (sas d false).foldl (fun d i => saErase d false i) d
  (sas d true).foldl (fun d i => saErase d true i) d

/-- Waypoints that a child of a lost parent waits for although they are no longer ARMED. -/
def wpGone (d : Dev) : List Nat :=
  let ss := ((d.listedEntries 5 0 35).filter fun i => d.on (R.SLOT_PARENT_LOST i) && d.get (R.SLOT_ON_PARENT_LOSS i) == 2).map fun i =>
    d.get (R.SLOT_ERASE_AT_WP i)
  let sas (rx : Bool) := ((d.listedEntries 0x70 (saTable rx) ((saParentLostF rx 0).key % 512)).filter fun i =>
    d.on (saParentLostF rx i) && d.get (saOnLossF rx i) == 2).map fun i => d.get (saEraseAtF rx i)
  (ss ++ sas false ++ sas true).filter fun n => d.get (R.WP_STATE n) != wpArmed

/-- In the tick after a waypoint left ARMED without executing, its waiting children are erased (R271). -/
def wpSweep (d : Dev) : Dev := (wpGone d).foldl wpErase d

/-! ## The DRBG (R276 to R278) -/

def drbgReady : Nat := 1
def drbgError : Nat := 2
def drbgIs (d : Dev) (st : Nat) : Bool := d.get R.VAULT_STATUS_DRBG_STATE == st
def drbgOf (d : Dev) (n : Nat) : Crypto.Drbg := ⟨d.get (L.DRBG_KEY n), d.get (L.DRBG_VAL n)⟩
def drbgPut (d : Dev) (n : Nat) (g : Crypto.Drbg) : Dev := d.setAll [(L.DRBG_KEY n, g.key), (L.DRBG_VAL n, g.v)]
/-- DRBG_REQUESTS follows the output instance. -/
def drbgCount (d : Dev) (n k : Nat) : Dev :=
  let d := d.set (L.DRBG_GEN n) k
  if n = 1 then d.set R.DRBG_REQUESTS k else d
/-- Instantiate or reseed with fresh noise samples, which the spec leaves open: 768 of them carry 384 bits of min-entropy at 0.5 bit each
(R276, R277). DESIGN CHOICE: instantiation takes 1,024, the rest being its nonce (log 5). -/
def drbgSeed (d : Dev) (n : Nat) (fresh : Bool) : Dev :=
  let g := if fresh then Crypto.Drbg.instantiate (beBytes 128 (d.freeVal 1024)) else (drbgOf d n).reseed (beBytes 96 (d.freeVal 768))
  drbgCount (drbgPut d.tookFree n g) n 0
/-- One generate request. -/
def drbgGen (d : Dev) (n bytes : Nat) : Dev × List Byte :=
  let r := (drbgOf d n).generate bytes
  (drbgCount (drbgPut d n r.2) n (d.get (L.DRBG_GEN n) + 1), r.1)
/-- The instance must be reseeded before its next request. -/
def drbgDue (d : Dev) (n : Nat) : Bool := decide (2 ^ 20 ≤ d.get (L.DRBG_GEN n))
/-- Draw a key from the key-generation instance, for a use outside the command slots. -/
def drbgKey (d : Dev) (bytes : Nat) : Dev × List Byte := drbgGen (if drbgDue d 0 then drbgSeed d 0 false else d) 0 bytes

/-! ## Arguments and rights (R259, R264) -/

/-- Class bit of an opcode (R259); `none` for an unlisted opcode. -/
def vClass (op : Nat) : Option Nat :=
  if op = opBlobLoad ∨ op = opKeyUnwrap then some 0
  else if op = opKeyGenerate ∨ op = opKeyDerive ∨ op = opMkaDerive then some 1
  else if op = opBlobSeal ∨ op = opKeyWrap then some 2
  else if op = opSaLoad ∨ op = opSakUnwrapToSa then some 3
  else if op = opCmacBegin ∨ op = opCmacUpdate ∨ op = opCmacFinal then some 4
  else if op = opDrbgRead ∨ op = opDrbgReseed then some 5
  else if op = opSlotErase ∨ op = opSlotRestrict then some 6
  else if op = opRootGenerate ∨ op = opRootSet ∨ op = opRootErase then some 7
  else none

/-- Low 10 bits: a slot number. -/
def slotNum (w : Nat) : Nat := w % 1024

/-- Slots a command uses as sources (R264): their uses count. -/
def vSources (d : Dev) (c op : Nat) : List Nat :=
  let a := vArg d c
  if op = opBlobSeal ∨ op = opSaLoad ∨ op = opSakUnwrapToSa ∨ op = opCmacBegin then [slotNum (a 0)]
  else if op = opKeyDerive ∨ op = opKeyUnwrap then [slotNum (a 4)]
  else if op = opMkaDerive then [slotNum (a 3)]
  else if op = opKeyWrap then (if slotNum (a 0) = slotNum (a 1) then [slotNum (a 0)] else [slotNum (a 0), slotNum (a 1)])
  else if op = opRootSet then [slotNum (a 1)]
  else []

/-- Slots a command writes, each with its REPLACE bit. -/
def vDests (d : Dev) (c op : Nat) : List (Nat × Bool) :=
  let a := vArg d c
  if op = opBlobLoad ∨ op = opKeyGenerate ∨ op = opKeyDerive ∨ op = opKeyUnwrap then [(slotNum (a 0), bitAt (a 0) 16)]
  else if op = opMkaDerive then [(slotNum (a 0), bitAt (a 0) 31), (bitsOf (a 0) 16 10, bitAt (a 0) 31)]
  else []

/-- Slots that only the range check of R259 concerns: an erased, restricted or recorded slot. -/
def vNamed (d : Dev) (c op : Nat) : List Nat :=
  if op = opSlotErase ∨ op = opSlotRestrict then [slotNum (vArg d c 0)]
  else if op = opKeyGenerate ∧ bitAt (vArg d c 4) 16 then [slotNum (vArg d c 4)]
  else []

/-- The root a command names in its arguments. -/
def vRoot (d : Dev) (c op : Nat) : Option Nat :=
  if op = opBlobSeal then some (vArg d c 1)
  else if op = opRootGenerate ∨ op = opRootSet ∨ op = opRootErase then some (vArg d c 0) else none

/-- Rights of a master (R259). -/
def rightsMask (d : Dev) (m : Nat) : Nat := d.get (if m = 0 then R.RIGHTS_HOST_CLASSES else R.RIGHTS_MGMT_CLASSES)
def inRange (d : Dev) (m i : Nat) : Bool :=
  if m = 0 then decide (d.get R.RIGHTS_HOST_RANGE_FIRST ≤ i) && decide (i ≤ d.get R.RIGHTS_HOST_RANGE_LAST)
  else decide (d.get R.RIGHTS_MGMT_RANGE_FIRST ≤ i) && decide (i ≤ d.get R.RIGHTS_MGMT_RANGE_LAST)

/-! ## The checks (R253, R262) -/

/-- Check 1: class, slot ranges, system roots. -/
def vCheck1 (d : Dev) (c op : Nat) : Bool :=
  let m := vMaster c
  bitAt (rightsMask d m) ((vClass op).getD 8) &&
  ((vSources d c op ++ (vDests d c op).map (·.1) ++ vNamed d c op).all fun i => inRange d m i) &&
  (match vRoot d c op with
   | some r => !decide (r < 8)
   | none => true)

/-- The SA word of an SA command: direction and index. -/
def saWord (d : Dev) (c : Nat) : Bool × Nat := (bitAt (vArg d c 1) 20, bitsOf (vArg d c 1) 0 17)
/-- Salt of an SA command, ARG2 to ARG4. -/
def saSaltArg (d : Dev) (c : Nat) : Nat := beVal (argString d (vId c) 2 4 12)

/-- The SA belongs to a SecY that has a suite: the island is up, and its receive SC, or on transmit its SecY, is VALID (R177). -/
def saServed (d : Dev) (power : PowerState) (c : Nat) : Bool :=
  let w := saWord d c
  power == .active && (if w.1 then d.on (R.RXSC_VALID (w.2 / 4)) else secyValid d (w.2 / 4))

/-- Key length and salt fit the suite of the SA's SecY (R274). -/
def saFits (d : Dev) (c len : Nat) : Bool :=
  let w := saWord d c
  let suite := d.get (R.SECY_CIPHER_SUITE (saSecy d w.1 w.2))
  suiteKeyLen suite == len && (suiteXpn suite || saSaltArg d c == 0)

/-- The blob in the captured buffer. -/
def blobAttr (d : Dev) (c : Nat) : Nat := beVal (((vBuf d c).drop 8).take 4)
def blobRoot (d : Dev) (c : Nat) : Nat := beVal (((vBuf d c).drop 3).take 1)
/-- ATTR as loaded: the blob's OPS are masked (R264). -/
def blobAttrLoaded (d : Dev) (c : Nat) : Nat :=
  let a := blobAttr d c
  a - bitsOf a 16 8 * 2 ^ 16 + (bitsOf a 16 8 &&& vArg d c 1) * 2 ^ 16

/-- Checks of a blob that precede the rest (R253): the outcome of the first that fails. -/
def blobCheck (d : Dev) (c : Nat) : Option (Nat × Nat) :=
  let b := vBuf d c
  if beVal (b.take 2) ≠ 0x5642 ∨ beVal ((b.drop 2).take 1) ≠ 1 then some (codeArg, 0x20)
  else if vArg d c 3 ≠ 64 + keyBytes (bitsOf (blobAttr d c) 4 2) then some (codeArg, 4)
  else if blobRoot d c < 8 then some (codeAttr, 0)
  else if 64 ≤ blobRoot d c ∨ ¬ d.on (R.ROOT_VALID (blobRoot d c)) then some (codeState, 9)
  else none

/-- Check 2: the first bad argument word plus one, or 0x20 for the buffer. -/
def vCheck2 (d : Dev) (power : PowerState) (c op : Nat) : Option Nat :=
  let a := vArg d c
  let first (l : List (Bool × Nat)) : Option Nat := (l.find? (·.1)).map (·.2)
  let badSa : Bool := decide (numSa (saWord d c).1 ≤ (saWord d c).2)
  if op = opBlobLoad then first [(!attrOk (blobAttr d c), 0x20)]
  else if op = opBlobSeal then first [(decide (64 ≤ a 1), 2)]
  else if op = opKeyGenerate then first [(!attrOk (a 1), 2), (a 2 == 0, 3)]
  else if op = opKeyDerive then
    first [(!attrOk (a 1), 2), (a 2 == 0, 3), (decide (1 < bitsOf (a 4) 16 2) || (bitsOf (a 4) 16 2 == 0 && decide (d.get (R.SLOT_LENGTH (slotNum (a 4))) ≠ 1)
      && !vEmpty d (slotNum (a 4))), 5), (a 6 == 0 || decide (32 < a 6), 7), (decide (128 < a 15), 16)]
  else if op = opMkaDerive then
    first [(slotNum (a 0) == bitsOf (a 0) 16 10, 1), (bitsOf (a 1) 9 2 == 3, 2), (a 2 == 0, 3), (a 4 == 0 || decide (32 < a 4), 5)]
  else if op = opKeyUnwrap then first [(!attrOk (a 1), 2), (a 2 == 0, 3), (a 6 != 8 + keyBytes (bitsOf (a 1) 4 2), 7)]
  else if op = opSaLoad then
    first [(badSa, 2), (!vEmpty d (slotNum (a 0)) && saServed d power c && !saFits d c (slotLen d (slotNum (a 0))), 2)]
  else if op = opSakUnwrapToSa then first [(badSa, 2), (a 5 != 24 && a 5 != 40, 6), (saServed d power c && !saFits d c (a 5 - 8), 2)]
  else if op = opCmacUpdate then first [(a 0 == 0 || decide (128 < a 0), 1)]
  else if op = opDrbgRead then first [(a 0 == 0 || decide (16 < a 0), 1)]
  else if op = opRootGenerate ∨ op = opRootSet ∨ op = opRootErase then first [(decide (64 ≤ a 0), 1)]
  else none

/-- The command needs presence (R258). -/
def vNeedsPresence (d : Dev) (c op : Nat) : Bool :=
  (vClass op == some 7) || ((vSources d c op).any fun i => d.on (R.SLOT_PRESENCE_REQUIRED i)) ||
  ((op == opCmacUpdate || op == opCmacFinal) && d.on (L.CMAC_PRES c))

/-- The command draws from a DRBG instance. -/
def vNeedsDrbg (op : Nat) : Option Nat :=
  if op = opKeyGenerate ∨ op = opBlobSeal ∨ op = opRootGenerate then some 0 else if op = opDrbgRead then some 1 else none

/-- Life-cycle code OWNED (R405). -/
def lcOwned : Nat := 3

/-- Check 4: states. -/
def vCheck4 (d : Dev) (power : PowerState) (c op : Nat) : Option (Nat × Nat) :=
  if !d.on R.VAULT_STATUS_SELFTEST_PASS then some (codeState, 7)
  else if (vNeedsDrbg op).isSome && !drbgIs d drbgReady then some (codeState, 3)
  else if vClass op = some 7 ∧ d.get R.LC_STATE ≠ lcOwned then some (codeState, 4)
  else if vClass op = some 7 ∧ d.get (R.ROOT_GENERATION (vArg d c 0)) = 2 ^ 32 - 1 then some (codeState, 8)
  else if op = opBlobSeal ∧ ¬ d.on (R.ROOT_VALID (vArg d c 1)) then some (codeState, 9)
  else if (op = opCmacUpdate ∨ op = opCmacFinal) ∧ ¬ d.on (L.CMAC_ON c) then some (codeState, 6)
  else if (op = opSaLoad ∨ op = opSakUnwrapToSa) ∧ power ≠ .active then some (codeState, 5)
  else if (vSources d c op).any fun i => vReserved d i then some (codeSlotBusy, 0)
  else if (vSources d c op ++ (if op = opSlotErase then [] else vNamed d c op)).any fun i => vEmpty d i && !vBusySlot d i then some (codeState, 1)
  else if (vDests d c op).any fun i => !vBusySlot d i.1 && (d.get (R.SLOT_STATE i.1) == vsExhausted || (!vEmpty d i.1 && !i.2)) then
    some (codeState, 2)
  else if op = opSlotRestrict ∧ d.get (R.SLOT_USE_LIMIT (slotNum (vArg d c 0))) = 0 ∧ ¬ vBusySlot d (slotNum (vArg d c 0)) then some (codeState, 2)
  else none

/-- The operation a source has to permit, and the type it has to have (R248, R264). -/
def sourceAllows (d : Dev) (op i : Nat) (first : Bool) : Bool :=
  let ops := d.get (R.SLOT_OPS i)
  let t := d.get (R.SLOT_TYPE i)
  if op = opBlobSeal then d.on (R.SLOT_EXPORTABLE_WRAPPED i)
  else if op = opKeyWrap then (if first then d.on (R.SLOT_EXPORTABLE_WRAPPED i) else bitAt ops 1)
  else if op = opKeyDerive then bitAt ops 0 && t == tyKdk
  else if op = opMkaDerive then bitAt ops 0 && t == tyCak
  else if op = opKeyUnwrap then bitAt ops 2
  else if op = opSakUnwrapToSa then bitAt ops 2 && t == tyKek
  else if op = opSaLoad then bitAt ops 4
  else if op = opCmacBegin then bitAt ops 3
  else if op = opRootSet then bitAt ops 5
  else true

/-- Check 6. -/
def vCheck6 (d : Dev) (c op : Nat) : Bool :=
  if op = opKeyWrap then sourceAllows d op (slotNum (vArg d c 0)) true && sourceAllows d op (slotNum (vArg d c 1)) false
  else (vSources d c op).all fun i => sourceAllows d op i true

/-- The checks of R262 in their order; `none` when all pass. -/
def vCheck (d : Dev) (power : PowerState) (c op : Nat) : Option (Nat × Nat) :=
  if !vCheck1 d c op then some (codeAttr, 0)
  else if op = opSlotErase then none
  else match (if op = opBlobLoad then blobCheck d c else none) with
  | some r => some r
  | none => match vCheck2 d power c op with
    | some i => some (codeArg, i)
    | none =>
      if vNeedsPresence d c op && !d.on (L.V_PRES c) then some (codePresence, 0)
      else match vCheck4 d power c op with
      | some r => some r
      | none =>
        if (vSources d c op).any fun i => d.get (R.SLOT_USE_LIMIT i) == 0 && !vEmpty d i then
          some (codeUseExhausted, 0)
        else if !vCheck6 d c op then some (codeAttr, 0)
        else if ((vDests d c op).any fun i => vBusySlot d i.1) || (op == opSlotRestrict && vBusySlot d (slotNum (vArg d c 0))) then
          some (codeSlotBusy, 0)
        else none

/-! ## The first step -/

/-- Steps of a command (R264). KEY_DERIVE takes one per PRF block, which is the model's reading of "1 to 4". -/
def vSteps (d : Dev) (c op : Nat) : Nat :=
  if op = opBlobLoad ∨ op = opBlobSeal ∨ op = opMkaDerive ∨ op = opSaLoad then 2
  else if op = opSakUnwrapToSa then 3
  else if op = opKeyDerive then
    let bits := 8 * keyBytes (bitsOf (vArg d c 1) 4 2)
    if bitsOf (vArg d c 4) 16 2 = 0 then bits / 128 else (bits + 383) / 384
  else 1

/-- One use of a source is taken (R256). -/
def takeUse (d : Dev) (i : Nat) : Dev :=
  let u := d.get (R.SLOT_USE_LIMIT i)
  if u = 2 ^ 32 - 1 then d else d.set (R.SLOT_USE_LIMIT i) (u - 1)

/-- The command takes a use of each of its sources, and remembers of which it took the last. -/
def takeUses (d : Dev) (c op : Nat) : Dev :=
  let ss := vSources d c op
  let last := sumBelow (fun j => if (ss[j]?.map fun i => d.get (R.SLOT_USE_LIMIT i)) = some 1 then 2 ^ j else 0) 2
  (ss.foldl takeUse d).set (L.V_LAST c) last

/-- Hold the sources and reserve the destinations (R262); a KEY_GENERATE remembers the parent it names. -/
def vHold (d : Dev) (c op : Nat) : Dev :=
  let ss := vSources d c op
  let ds := (vDests d c op).map (·.1)
  let n (l : List Nat) (j : Nat) : Nat := match l[j]? with
    | some i => i + 1
    | none => 0
  d.setAll [(L.V_SRC c 0, n ss 0), (L.V_SRC c 1, n ss 1), (L.V_DST c 0, n ds 0), (L.V_DST c 1, n ds 1),
    (L.V_PAR_ON c, b2n (op == opKeyGenerate && bitAt (vArg d c 4) 16)), (L.V_PAR c, slotNum (vArg d c 4)),
    (L.V_NEEDS c, b2n (vNeedsPresence d c op)), (L.SLOT_CODE (vId c), codeRunning)]

/-! ## The commit (R263, R264) -/

/-- Write a slot. The loss of an old key as a parent follows once the command has committed. -/
def slotWrite (d : Dev) (c i : Nat) (key : List Byte) (attr use label wp : Nat) (parent : Option Nat) : Dev :=
  let t := bitsOf attr 0 4
  d.setAll [(L.VKEY i, beVal key), (R.SLOT_TYPE i, t), (R.SLOT_LENGTH i, bitsOf attr 4 2), (R.SLOT_EXPIRE_AT_RESET i, bitsOf attr 6 1),
    (R.SLOT_EXPORTABLE_WRAPPED i, bitsOf attr 7 1), (R.SLOT_PRESENCE_REQUIRED i, if t = tyRope then 1 else bitsOf attr 8 1),
    (R.SLOT_ON_PARENT_LOSS i, bitsOf attr 9 2), (R.SLOT_OPS i, bitsOf attr 16 8), (R.SLOT_PARENT_LOST i, 0), (R.SLOT_CREATOR i, vMaster c),
    (R.SLOT_PARENT i, parent.getD 0), (R.SLOT_PARENT_VALID i, b2n parent.isSome), (R.SLOT_ERASE_AT_WP i, wp), (R.SLOT_USE_LIMIT i, use),
    (R.SLOT_LABEL i, label), (R.SLOT_STATE i, if use = 0 then vsExhausted else vsValid)]

/-- Key of a root. -/
def rootKeyBytes (d : Dev) (r : Nat) : Nat := d.get (L.ROOT_KEY r)
def blobLabel : List Byte := [0x49, 0x48, 0x38, 0x32, 0x35, 0x36, 0x20, 0x42, 0x4C, 0x4F, 0x42]
/-- The blob key BK (R252). -/
def blobKey (d : Dev) (r : Nat) (header : List Byte) : Nat := beVal (Crypto.kdfCmac 32 (rootKeyBytes d r) 4 4 blobLabel header 256)

/-- BLOB_LOAD. -/
def commitBlobLoad (d : Dev) (c : Nat) : Dev :=
  let b := vBuf d c
  let r := blobRoot d c
  let k := keyBytes (bitsOf (blobAttr d c) 4 2)
  if beVal ((b.drop 4).take 4) ≠ d.get (R.ROOT_GENERATION r) then vFail d c codeIntegrity 2
  else
    let o := Crypto.gcmOpen 32 (blobKey d r (b.take 20)) (beVal ((b.drop 20).take 12)) (b.take 20) ((b.drop 32).take k)
      (beVal ((b.drop (32 + k)).take 16))
    if !o.2 then vFail d c codeIntegrity 1
    else
      let i := slotNum (vArg d c 0)
      let d := slotWrite d c i o.1 (blobAttrLoaded d c) (beVal ((b.drop 12).take 4)) (beVal ((b.drop 16).take 4)) (vArg d c 2) (some (rootParent r))
      vDone d c [slotAttr d i, d.get (R.SLOT_LABEL i)]

/-- BLOB_SEAL. DEDUCED: the root is the one of the last step, and one that is no longer VALID there cannot seal (log 34). -/
def commitBlobSeal (d : Dev) (c : Nat) : Dev :=
  let i := slotNum (vArg d c 0)
  let r := vArg d c 1
  if !d.on (R.ROOT_VALID r) then vFail d c codeState 9
  else
    let g := drbgGen d 0 12
    let header := beBytes 2 0x5642 ++ [1] ++ beBytes 1 r ++ beBytes 4 (d.get (R.ROOT_GENERATION r)) ++ beBytes 4 (slotAttr d i) ++
      beBytes 4 (d.get (R.SLOT_USE_LIMIT i)) ++ beBytes 4 (d.get (R.SLOT_LABEL i))
    let e := Crypto.gcmSeal 32 (blobKey d r header) (beVal g.2) header (slotKey d i)
    let blob := header ++ g.2 ++ e.1 ++ beBytes 16 e.2 ++ beBytes 16 0
    vDone (blobWrite g.1 c blob) c [blob.length]

/-- KEY_GENERATE. -/
def commitKeyGenerate (d : Dev) (c : Nat) : Dev :=
  let a := vArg d c
  let g := drbgGen d 0 (keyBytes (bitsOf (a 1) 4 2))
  vDone (slotWrite g.1 c (slotNum (a 0)) g.2 (a 1) (a 2) (a 3) (a 5) (if bitAt (a 4) 16 then some (slotNum (a 4)) else none)) c []

/-- KEY_DERIVE. -/
def commitKeyDerive (d : Dev) (c : Nat) : Dev :=
  let a := vArg d c
  let src := slotNum (a 4)
  let bits := 8 * keyBytes (bitsOf (a 1) 4 2)
  let label := argString d (vId c) 7 14 (a 6)
  let ctx := (vBuf d c).take (a 15)
  let key := if bitsOf (a 4) 16 2 = 0 then Crypto.kdfCmac 32 (d.get (L.VKEY src)) 4 4 label ctx bits
    else Crypto.kdfHmac (slotKey d src) label ctx bits
  vDone (slotWrite d c (slotNum (a 0)) key (a 1) (a 2) (a 3) (a 5) (some src)) c []

/-- The key identifier of MKA_DERIVE: the first 16 bytes of the CKN. -/
def mkaKey (d : Dev) (c src : Nat) (name : List Byte) : List Byte :=
  Crypto.kdfCmac (slotLen d src) (d.get (L.VKEY src)) 1 2 ([0x49, 0x45, 0x45, 0x45, 0x38, 0x30, 0x32, 0x31, 0x20] ++ name)
    (Crypto.padTo 16 ((argString d (vId c) 5 12 (vArg d c 4)).take 16)) (8 * slotLen d src)

/-- MKA_DERIVE: both destinations, with the CAK as parent. -/
def commitMkaDerive (d : Dev) (c : Nat) : Dev :=
  let a := vArg d c
  let src := slotNum (a 3)
  let base := (a 1) &&& 0x740
  let attr (t ops : Nat) : Nat := base + t + d.get (R.SLOT_LENGTH src) * 16 + ops * 2 ^ 16
  let kek := mkaKey d c src [0x4B, 0x45, 0x4B]
  let ick := mkaKey d c src [0x49, 0x43, 0x4B]
  let ka := attr tyKek 6
  let ia := attr tyIck 8
  let d := slotWrite d c (slotNum (a 0)) kek ka (a 2) 0 (a 13) (some src)
  vDone (slotWrite d c (bitsOf (a 0) 16 10) ick ia (a 2) 0 (a 13) (some src)) c []

/-- KEY_WRAP. -/
def commitKeyWrap (d : Dev) (c : Nat) : Dev :=
  let w := slotNum (vArg d c 1)
  let out := Crypto.keyWrap (slotLen d w) (d.get (L.VKEY w)) (slotKey d (slotNum (vArg d c 0)))
  vDone (blobWrite d c out) c [out.length]

/-- KEY_UNWRAP. -/
def commitKeyUnwrap (d : Dev) (c : Nat) : Dev :=
  let a := vArg d c
  let w := slotNum (a 4)
  match Crypto.keyUnwrap (slotLen d w) (d.get (L.VKEY w)) ((vBuf d c).take (a 6)) with
  | some key => vDone (slotWrite d c (slotNum (a 0)) key (a 1) (a 2) (a 3) (a 5) (some w)) c []
  | none => vFail d c codeIntegrity 3

/-- Key and salt go into an SA (R178, R190, R273, R274). -/
def vaultToSa (d : Dev) (power : PowerState) (c : Nat) (key : List Byte) (parent : Option Nat) (lost : Bool) : Dev :=
  let w := saWord d c
  let rx := w.1
  let i := w.2
  if !saServed d power c then vFail d c codeState 5
  else if !saFits d c key.length then vFail d c codeArg 2
  else if saLoadCode d rx i ≠ codeOk then vFail d c (saLoadCode d rx i) (if saLoadCode d rx i = codeState then 5 else 0)
  else if lost && lossPolicy d (d.get (saOnLossF rx i)) (d.get (saEraseAtF rx i)) == 1 then vFail d c codeKeyGone 0
  else
    let r := saLoadKey d rx i (beVal key) (saSaltArg d c) parent
    if r.2 ≠ codeOk then vFail r.1 c codeIntegrity 4
    else vDone (if lost then saParentLost r.1 rx i else r.1) c []

/-- SA_LOAD: the SA takes the parent of the SAK slot. -/
def commitSaLoad (d : Dev) (power : PowerState) (c : Nat) : Dev :=
  let i := slotNum (vArg d c 0)
  let lost := d.on (R.SLOT_PARENT_LOST i)
  vaultToSa d power c (slotKey d i) (if d.on (R.SLOT_PARENT_VALID i) && !lost then some (d.get (R.SLOT_PARENT i)) else none) lost

/-- SAK_UNWRAP_TO_SA: the KEK is the SA's parent. -/
def commitSakUnwrap (d : Dev) (power : PowerState) (c : Nat) : Dev :=
  let w := slotNum (vArg d c 0)
  match Crypto.keyUnwrap (slotLen d w) (d.get (L.VKEY w)) ((vBuf d c).take (vArg d c 5)) with
  | some key => vaultToSa d power c key (some w) false
  | none => vFail d c codeIntegrity 3

/-- CMAC_BEGIN. -/
def commitCmacBegin (d : Dev) (c : Nat) : Dev :=
  let i := slotNum (vArg d c 0)
  let d := (cmacDrop d c).setAll [(L.CMAC_ON c, 1), (L.CMAC_ICK c, i), (L.CMAC_KEY c, d.get (L.VKEY i)), (L.CMAC_KLEN c, slotLen d i),
    (L.CMAC_PRES c, d.get (R.SLOT_PRESENCE_REQUIRED i))]
  vDone d c []

/-- Append bytes: every block that cannot be the last enters the chain. -/
def cmacAppend (d : Dev) (c : Nat) (bs : List Byte) : Dev :=
  let all := beBytes (d.get (L.CMAC_N c)) (d.get (L.CMAC_LAST c)) ++ bs
  let cs := Crypto.chunked 16 all
  let x := cs.dropLast.foldl (fun x b => Crypto.cmacAbsorb (d.get (L.CMAC_KLEN c)) (d.get (L.CMAC_KEY c)) x (beVal b)) (d.get (L.CMAC_X c))
  let last := cs.getLastD []
  d.setAll [(L.CMAC_X c, x), (L.CMAC_LAST c, beVal last), (L.CMAC_N c, last.length)]

/-- CMAC_FINAL. -/
def commitCmacFinal (d : Dev) (c : Nat) : Dev :=
  let mac := Crypto.cmacFinish (d.get (L.CMAC_KLEN c)) (d.get (L.CMAC_KEY c)) (d.get (L.CMAC_X c))
    (beBytes (d.get (L.CMAC_N c)) (d.get (L.CMAC_LAST c)))
  let verify := bitAt (vArg d c 0) 0
  let same := argString d (vId c) 1 4 16 == beBytes 16 mac
  vDone (cmacDrop d c) c (if verify then [b2n same] else stringWords (beBytes 16 mac) 4)

/-- DRBG_READ: read-once. Word j of the result is word j of the output. -/
def commitDrbgRead (d : Dev) (c : Nat) : Dev :=
  let n := vArg d c 0
  let g := drbgGen d 1 (4 * n)
  (vDone g.1 c ((Crypto.chunked 4 g.2).map beVal)).set (L.SLOT_READ_ONCE (vId c)) n

/-- SLOT_RESTRICT only narrows. -/
def commitSlotRestrict (d : Dev) (c : Nat) : Dev :=
  let i := slotNum (vArg d c 0)
  let a1 := vArg d c 1
  let a2 := vArg d c 2
  let ops := d.get (R.SLOT_OPS i)
  let d := d.set (R.SLOT_OPS i) (ops ^^^ (ops &&& bitsOf a1 0 8))
  let d := if bitAt a1 8 then d.set (R.SLOT_EXPORTABLE_WRAPPED i) 0 else d
  let d := if bitAt a1 9 then d.set (R.SLOT_PRESENCE_REQUIRED i) 1 else d
  let d := if bitAt a1 10 then d.set (R.SLOT_EXPIRE_AT_RESET i) 1 else d
  let d := if a2 ≠ 0 ∧ a2 < d.get (R.SLOT_USE_LIMIT i) then d.set (R.SLOT_USE_LIMIT i) a2 else d
  vDone d c []

/-- A root changes: generation, event bit 7, and the loss of its old key as a parent (R251). -/
def rootChange (d : Dev) (r key valid origin : Nat) : Dev :=
  parentLost ((d.setAll [(L.ROOT_KEY r, key), (R.ROOT_VALID r, valid), (R.ROOT_ORIGIN r, origin),
    (R.ROOT_GENERATION r, d.get (R.ROOT_GENERATION r) + 1)]).latch 5 7) (rootParent r)

/-- The commit of a command at the end of its last step. -/
def vCommit (d : Dev) (power : PowerState) (c op : Nat) : Dev :=
  let a := vArg d c
  if op = opBlobLoad then commitBlobLoad d c
  else if op = opBlobSeal then commitBlobSeal d c
  else if op = opKeyGenerate then commitKeyGenerate d c
  else if op = opKeyDerive then commitKeyDerive d c
  else if op = opMkaDerive then commitMkaDerive d c
  else if op = opKeyWrap then commitKeyWrap d c
  else if op = opKeyUnwrap then commitKeyUnwrap d c
  else if op = opSaLoad then commitSaLoad d power c
  else if op = opSakUnwrapToSa then commitSakUnwrap d power c
  else if op = opCmacBegin then commitCmacBegin d c
  else if op = opCmacUpdate then vDone (cmacAppend d c ((vBuf d c).take (a 0))) c []
  else if op = opCmacFinal then commitCmacFinal d c
  else if op = opDrbgRead then commitDrbgRead d c
  else if op = opDrbgReseed then vDone d c []
  else if op = opSlotErase then vDone (slotErase d (slotNum (a 0))) c []
  else if op = opSlotRestrict then commitSlotRestrict d c
  else if op = opRootGenerate then
    let g := drbgGen d 0 32
    vDone (rootChange g.1 (a 0) (beVal g.2) 1 0) c []
  else if op = opRootSet then
    let key := d.get (L.VKEY (slotNum (a 1)))
    vDone (slotErase (rootChange (vRelease (d.set (L.V_LAST c) 0) c) (a 0) key 1 2) (slotNum (a 1))) c []
  else vDone (rootChange d (a 0) 0 0 0) c []

end Sys2Proof.Machine
end

