-- ==== Sys2Proof/Machine/VaultRows.lean ====
section
/-! DEFINITION. The vault's rows (R251 to R279): one per command, issued by its CMD write with the arguments that the slot's ARG
words and buffer hold, and the engine that runs them. -/

namespace Sys2Proof.Machine

/-- No vault command is QUEUED or RUNNING. -/
def vIdle (d : Dev) : Bool := (List.range 8).all fun c => !slotActive d (vId c)

/-- A CMD write to a vault command slot (R51, R261, R266, R275). -/
def vaultIssue (d : Dev) (c op : Nat) : Dev :=
  if slotActive d (vId c) then d
  else
    let d := slotAccept d (vId c) op
    let buf := sumBelow (fun j => d.get (blobF c j) * 2 ^ (32 * j)) 32
    let d := d.setAll [(L.V_BUF c, buf), (L.V_PRES c, d.get R.PRESENCE_STATUS_ASSERTED)]
    let d := if vClass op = some 4 then d else cmacDrop d c
    if (vClass op).isNone then vFail d c codeArg 0
    else if d.get (R.REQ_CEILING reqVault) < 2 then vFail (arbError d) c codePower 0
    else if d.on R.VAULT_STATUS_ENGINE_GRANTED || arbPending d .vault then d
    else arbRequest d reqVault 2 classA .vault

/-- The command waits for fresh entropy before its last step (R276). -/
def vWantsEntropy (d : Dev) (c op : Nat) : Bool :=
  !d.on (L.V_FRESH c) && (op == opDrbgReseed || (op == opDrbgRead && bitAt (vArg d c 1) 0) ||
    (match vNeedsDrbg op with
     | some n => drbgDue d n
     | none => false))

/-- A step of a command that holds its slots ends; the last one commits, and keys it replaced are then lost as parents. A command that needs
the DRBG ends when that is in ERROR (R277). -/
def vaultRunStep (d : Dev) (power : PowerState) (c op : Nat) (mismatch : Bool) : Dev :=
  if mismatch then vFail (d.alarm 52) c codeIntegrity 5
  else if (vNeedsDrbg op).isSome && !drbgIs d drbgReady then vFail d c codeState 3
  else
    let n := d.get (L.V_STEP c) + 1
    if n < vSteps d c op then d.set (L.V_STEP c) n
    else if vWantsEntropy d c op then d.set (L.V_COLLECT c) 1
    else
      let lost := ((vDests d c op).map (·.1)).filter fun i => !vEmpty d i
      let d := vCommit d power c op
      if slotCode d (vId c) = codeOk then cascade 2048 lost d else d

/-- The engine may run a step of a command slot: no cascade runs (R272), the command does not collect entropy (R276), and no other command is
between two steps since which this slot has had one (R265). -/
def vaultMayStep (d : Dev) (c : Nat) : Bool :=
  slotActive d (vId c) && d.on L.VAULT_TESTED && d.on R.VAULT_STATUS_ENGINE_GRANTED && !d.on R.VAULT_STATUS_CASCADE_ACTIVE &&
    !d.on (L.V_COLLECT c) && d.get (L.V_DUE c) == 0 &&
    (List.range 8).all fun x => d.get (L.V_STEP x) == 0 || d.on (L.V_COLLECT x) || !bitAt (d.get (L.V_SERVED x)) c

/-- The engine serves a command slot (R265, R266, R267): a step ends in this tick, after everything else of the tick that touches the
vault, so that an erase of the tick comes before a commit (R269). -/
def vaultStep (d : Dev) (c : Nat) (mismatch : Bool) : Dev :=
  if vaultMayStep d c then
    let d := d.each 8 fun x d => d.set (L.V_SERVED x) (if x = c then 0 else d.get (L.V_SERVED x) ||| 2 ^ c)
    d.set (L.V_DUE c) (if mismatch then 2 else 1)
  else d

/-- A first step: the checks, then the uses, the sources and the destinations are taken (R256, R262). -/
def vaultBegin (d : Dev) (power : PowerState) (c : Nat) : Dev :=
  let op := slotOp d (vId c)
  if slotCode d (vId c) = codeQueued then
    match vCheck d power c op with
    | some r => vFail d c r.1 r.2
    | none => vHold (takeUses d c op) c op
  else d

/-- A step that ends in the present tick. -/
def vaultFinish (d : Dev) (power : PowerState) (c : Nat) : Dev :=
  let due := d.get (L.V_DUE c)
  if due = 0 then d else vaultRunStep (d.set (L.V_DUE c) 0) power c (slotOp d (vId c)) (due == 2)

/-- The command can take a key away that another command of the tick uses: SLOT_ERASE, the root commands, and a write under REPLACE. -/
def vTakesKey (d : Dev) (c : Nat) : Bool :=
  let op := slotOp d (vId c)
  decide (opSlotErase ≤ op) || (vDests d c op).any fun i => !vEmpty d i.1

/-- The steps that end in the present tick. First steps go in the order of the command slots, the host's first (R256); then the steps end,
those that take a key away before those that would commit with it (R269). -/
def vaultTick (d : Dev) (power : PowerState) : Dev :=
  let due := (List.range 8).filter fun c => d.get (L.V_DUE c) != 0
  let d := due.foldl (fun d c => vaultBegin d power c) d
  let first := due.filter (vTakesKey d)
  let d := first.foldl (fun d c => vaultFinish d power c) d
  due.foldl (fun d c => vaultFinish d power c) d

/-- Fresh entropy has come for a command: the instances it concerns are reseeded (R276, R277). -/
def entropyDone (d : Dev) (c : Nat) : Dev :=
  if !d.on (L.V_COLLECT c) then d
  else
    let op := slotOp d (vId c)
    let d := d.setAll [(L.V_COLLECT c, 0), (L.V_FRESH c, 1)]
    if op = opDrbgReseed then (drbgSeed (drbgSeed d 0 false) 1 false).set R.VAULT_STATUS_DRBG_STATE drbgReady
    else match vNeedsDrbg op with
      | some n => drbgSeed d n false
      | none => d

/-- An entropy health test fails (R277). -/
def entropyFail (d : Dev) : Dev :=
  let d := if drbgIs d drbgError then d else d.latch 5 9
  let d := ((d.set R.VAULT_STATUS_DRBG_STATE drbgError).count 5 R.DRBG_HEALTH_FAILS).alarm 53
  d.each 8 fun c d => if d.on (L.V_COLLECT c) then vFail d c codeState 3 else d

/-- The known-answer tests end (R276, R279). -/
def selftestDone (d : Dev) (pass : Bool) : Dev :=
  if d.on L.VAULT_TESTED then d
  else if pass then
    (drbgSeed (drbgSeed d 0 true) 1 true).setAll [(L.VAULT_TESTED, 1), (R.VAULT_STATUS_SELFTEST_PASS, 1), (R.VAULT_STATUS_DRBG_STATE, drbgReady)]
  else (((d.setAll [(L.VAULT_TESTED, 1), (L.PAGE_FAULT 5, 1)]).latch 5 10).alarm 52)

/-- The engine releases its grant after 100 µs without a command (R266). -/
def vaultRelease (d : Dev) : Dev :=
  if d.on R.VAULT_STATUS_ENGINE_GRANTED && vIdle d && decide (d.get L.V_IDLE_AT + 100000 ≤ d.cyc) then
    arbRelease (d.set R.VAULT_STATUS_ENGINE_GRANTED 0) reqVault 2
  else d

/-- An alarm response of CONTAIN or higher aborts every vault command (R267). -/
def vaultAbort (d : Dev) : Dev :=
  d.each 8 fun c d => if slotActive d (vId c) then vFail (d.count 5 R.ALARM_ABORT_COUNT) c codeAbortedAlarm 0 else d

/-- Presence is withdrawn: commands that need it end, and the others that were written under it are known to have lost it (R258). -/
def vaultPresenceLost (d : Dev) : Dev :=
  d.each 8 fun c d =>
    let d := d.set (L.V_PRES c) 0
    if slotCode d (vId c) = codeRunning ∧ d.on (L.V_NEEDS c) then vFail d c codePresence 0 else d

/-- A CMD write of a vault command slot, on the page of its master. -/
def State.vault (s : State) (c : Fin 8) (op : Nat) : Host.Outcome State Fault Refusal :=
  s.page (if c.val < 4 then 0x05 else 0x08) fun d => vaultIssue d c op

/-- BLOB_LOAD (R253). -/
def execBlobLoad (c : Fin 8) (s : State) : Host.Outcome State Fault Refusal := s.vault c opBlobLoad
/-- BLOB_SEAL (R252). -/
def execBlobSeal (c : Fin 8) (s : State) : Host.Outcome State Fault Refusal := s.vault c opBlobSeal
/-- KEY_GENERATE (R264). -/
def execKeyGenerate (c : Fin 8) (s : State) : Host.Outcome State Fault Refusal := s.vault c opKeyGenerate
/-- KEY_DERIVE (R264). -/
def execKeyDerive (c : Fin 8) (s : State) : Host.Outcome State Fault Refusal := s.vault c opKeyDerive
/-- MKA_DERIVE (R264). -/
def execMkaDerive (c : Fin 8) (s : State) : Host.Outcome State Fault Refusal := s.vault c opMkaDerive
/-- KEY_WRAP (R264). -/
def execKeyWrap (c : Fin 8) (s : State) : Host.Outcome State Fault Refusal := s.vault c opKeyWrap
/-- KEY_UNWRAP (R264). -/
def execKeyUnwrap (c : Fin 8) (s : State) : Host.Outcome State Fault Refusal := s.vault c opKeyUnwrap
/-- SA_LOAD (R274). -/
def execSaLoad (c : Fin 8) (s : State) : Host.Outcome State Fault Refusal := s.vault c opSaLoad
/-- SAK_UNWRAP_TO_SA (R274). -/
def execSakUnwrapToSa (c : Fin 8) (s : State) : Host.Outcome State Fault Refusal := s.vault c opSakUnwrapToSa
/-- CMAC_BEGIN (R275). -/
def execCmacBegin (c : Fin 8) (s : State) : Host.Outcome State Fault Refusal := s.vault c opCmacBegin
/-- CMAC_UPDATE (R275). -/
def execCmacUpdate (c : Fin 8) (s : State) : Host.Outcome State Fault Refusal := s.vault c opCmacUpdate
/-- CMAC_FINAL (R275). -/
def execCmacFinal (c : Fin 8) (s : State) : Host.Outcome State Fault Refusal := s.vault c opCmacFinal
/-- DRBG_READ (R278). -/
def execDrbgRead (c : Fin 8) (s : State) : Host.Outcome State Fault Refusal := s.vault c opDrbgRead
/-- DRBG_RESEED (R277). -/
def execDrbgReseed (c : Fin 8) (s : State) : Host.Outcome State Fault Refusal := s.vault c opDrbgReseed
/-- SLOT_ERASE (R268). -/
def execSlotErase (c : Fin 8) (s : State) : Host.Outcome State Fault Refusal := s.vault c opSlotErase
/-- SLOT_RESTRICT (R264). -/
def execSlotRestrict (c : Fin 8) (s : State) : Host.Outcome State Fault Refusal := s.vault c opSlotRestrict
/-- ROOT_GENERATE (R251). -/
def execRootGenerate (c : Fin 8) (s : State) : Host.Outcome State Fault Refusal := s.vault c opRootGenerate
/-- ROOT_SET (R251). -/
def execRootSet (c : Fin 8) (s : State) : Host.Outcome State Fault Refusal := s.vault c opRootSet
/-- ROOT_ERASE (R251). -/
def execRootErase (c : Fin 8) (s : State) : Host.Outcome State Fault Refusal := s.vault c opRootErase
/-- VAULT_ENGINE_STEP (R265): one step for a command slot, which ends in the present tick (`vaultTick`); `mismatch` when the engine's two
computations disagree. -/
def execVaultEngineStep (c : Fin 8) (mismatch : Bool) (s : State) : Host.Outcome State Fault Refusal :=
  s.lanes fun d => vaultStep d c mismatch
/-- PARENT_CASCADE_DONE (R272). -/
def execParentCascadeDone (s : State) : Host.Outcome State Fault Refusal := s.lanes fun d => d.set R.VAULT_STATUS_CASCADE_ACTIVE 0
/-- VAULT_GRANT_IDLE_RELEASE (R266). -/
def execVaultGrantIdleRelease (s : State) : Host.Outcome State Fault Refusal := s.lanes vaultRelease
/-- VAULT_SELFTEST_DONE (R279). -/
def execVaultSelftestDone (pass : Bool) (s : State) : Host.Outcome State Fault Refusal := s.lanes fun d => selftestDone d pass
/-- ENTROPY_COLLECTION_DONE (R276). -/
def execEntropyCollectionDone (c : Fin 8) (s : State) : Host.Outcome State Fault Refusal := s.lanes fun d => entropyDone d c
/-- ENTROPY_TEST_FAIL (R277). -/
def execEntropyTestFail (s : State) : Host.Outcome State Fault Refusal := s.lanes entropyFail

end Sys2Proof.Machine
end

