-- ==== Sys2Proof/Machine/MemGuard.lean ====
section
/-! DEFINITION. The memory guard's rows (R435, R444, R447, R448, R451): enabling a range, an access, a step of re-encryption
and a scrub read; and the access fault of a core (R340). -/

namespace Sys2Proof.Machine

/-! ## Faults and the halt -/

/-- A core takes an access fault (R340): counted, captured, event bit 16. -/
def accessFault (d : Dev) (core a : Nat) : Dev :=
  let d := d.count 8 R.ACCESS_FAULTS
  let d := if d.on R.ACCESS_FAULT_INFO_VALID then d
    else d.setAll [(R.ACCESS_FAULT_ADDR, a), (R.ACCESS_FAULT_INFO_CORE, core), (R.ACCESS_FAULT_INFO_VALID, 1)]
  d.latch 8 16

/-- Rank of a halt cause when several are found in one tick: 2, then 1, then 3 (R449). -/
def haltRank (cause : Nat) : Nat := if cause = 2 then 0 else cause

/-- The guard halts the device: HALT_RECORD and AL55 (R448, R449). Of the failures of one tick the first in order stays. -/
def guardHalt (d : Dev) (cause level r offset : Nat) : Dev :=
  let old := haltRank (d.get R.HALT_RECORD_CAUSE)
  let keep := d.get L.MG_HALT_TICK == d.tick + 1 &&
    (decide (old < haltRank cause) || (old == haltRank cause && (decide (d.get R.HALT_RECORD_RANGE < r) ||
      (d.get R.HALT_RECORD_RANGE == r && decide (d.get R.HALT_ADDR ≤ offset)))))
  let d := if keep then d else
    d.setAll [(R.HALT_RECORD_CAUSE, cause), (R.HALT_RECORD_LEVEL, level), (R.HALT_RECORD_RANGE, r), (R.HALT_RECORD_VALID, 1),
      (R.HALT_ADDR, offset), (R.HALT_TIME_NS, nsOf d.tickTime), (R.HALT_TIME_SEC, secOf d.tickTime % 2 ^ 32), (L.MG_HALT_TICK, d.tick + 1)]
  d.alarm 55

/-- What becomes of a line read: it goes on, it is refused, or the device halts. -/
inductive LineFate where
  | goes
  | refused
  | halts
  deriving DecidableEq, Repr

/-- Metadata line of `level` above data line `line`. -/
def metaAbove (d : Dev) (r line level : Nat) : Nat := metaOffset d r level (linePage d r line / 8 ^ level)

/-- One finding in a data line of range `r`, or in its metadata, is classified (R448). -/
def classify1 (d : Dev) (r line : Nat) (f : Finding) : Dev × LineFate :=
  let prot := d.get (R.RANGE_CTRL_MODE r) == 2
  match f with
  | .corrected => (((d.count 9 R.CE_DATA).latch 9 16).emit (storedLine d r (line * 64) (Cells.find d.dram line)), .goes)
  | .uncorrectable => if prot then (guardHalt d 3 0 r (line * 64), .halts) else ((d.count 9 R.UE_DATA).latch 9 18, .refused)
  | .macFails => if prot then (guardHalt d 1 0 r (line * 64), .halts) else (d, .goes)
  | .metaCorrected => if prot then ((d.count 9 R.CE_META).latch 9 17, .goes) else (d, .goes)
  | .metaUncorrectable l => if prot then (guardHalt d 2 l r (metaAbove d r line l), .halts) else (d, .goes)
  | .metaMacFails l => if prot then (guardHalt d 1 l r (metaAbove d r line l), .halts) else (d, .goes)
  | .storeFails => if prot then ((guardHalt d 2 15 r (d.freeVal 64)).tookFree, .halts) else (d, .goes)

/-- Classify the findings of a transfer, in order, up to the first that stops it. -/
def classifyAll : List (Nat × Nat × Finding) → Dev → Dev × LineFate
  | [], d => (d, .goes)
  | (r, line, f) :: rest, d =>
    match classify1 d r line f with
    | (d, .goes) => classifyAll rest d
    | (d, .halts) => ((classifyAll rest d).1, .halts)
    | x => x

/-! ## Accesses (R446, R447) -/

/-- The answer to a refused access: a core takes its access fault. -/
def refuseTo (d : Dev) (u a : Nat) : Dev := (if u < 4 then accessFault d u a else d).emit (.mem u a none)

/-- A read is answered with plaintext, unless one of its pages is being re-encrypted: then it waits (R444). -/
def guardAnswer (d : Dev) (u a n : Nat) : Dev :=
  let ps := transferLines (a - dramBase) n
  let busy := ps.any fun p => match rangeOf d (dramBase + p.1 * 64) with
    | some r => mgBusy d r (linePage d r p.1)
    | none => false
  if busy then { d with mgPending := d.mgPending ++ [.read u a n] }
  else
    let d := ps.foldl (fun d p => match rangeOf d (dramBase + p.1 * 64) with
      | some r => if d.get (R.RANGE_CTRL_MODE r) = 2 then mgTrust d r (linePage d r p.1) else d
      | none => d) d
    d.emit (.mem u a (some ((ps.map fun p => bytesAt (lineBytes (Cells.find d.dram p.1)) p.2.1 p.2.2).flatten)))

/-- On-die SRAM (R340). -/
def sramBase : Nat := 0x30000000
def sramSize : Nat := 0x100000

/-- A finding in a data line, against one in the lines of the tree. -/
def dataFinding : Finding → Bool
  | .corrected => true
  | .uncorrectable => true
  | .macFails => true
  | .metaCorrected => false
  | .metaUncorrectable _ => false
  | .metaMacFails _ => false
  | .storeFails => false

/-- A finding concerns a line of an access in a range of mode `mode`: the data line is read by a read, and by a write of a part of a
CONFIDENTIAL or PROTECTED line (R433); the tree is read by every access to a PROTECTED line (R443, R444). -/
def findingCounts (f : Finding) (write whole : Bool) (mode : Nat) : Bool :=
  if dataFinding f then !write || (!whole && mode != 0) else mode == 2

/-- An access of master `u` to memory: `data` for a write. -/
def memAccess (d : Dev) (u a n : Nat) (data : Option (List Byte)) (findings : List (Nat × Finding)) : Dev :=
  let len := match data with
    | some bs => bs.length
    | none => n
  let w := data.isSome
  if u = 5 ∧ ¬ d.on R.DEBUG_STATUS_FULL_OPEN then d.emit (.mem u a none)
  else if sramBase ≤ a ∧ a + len ≤ sramBase + sramSize then
    match data with
    | some bs => (({ d with sram := (List.zip (List.range bs.length) bs).foldl (fun c p => Cells.put c (a + p.1) p.2.toNat) d.sram } : Dev)).emit
        (.mem u a (some []))
    | none => d.emit (.mem u a (some ((List.range n).map fun i => BitVec.ofNat 8 (Cells.find d.sram (a + i)))))
  else if ¬ (dramBase ≤ a ∧ a + len ≤ dramBase + dramSize d) then refuseTo d u a
  else
    let ps := transferLines (a - dramBase) len
    match ps.find? fun p => !mgMay d u w (dramBase + p.1 * 64) with
    | some p => refuseTo (mgRefuse d u w (dramBase + p.1 * 64 + p.2.1)) u a
    | none =>
      let fs := findings.filterMap fun x => match ps[x.1]? with
        | some p => match rangeOf d (dramBase + p.1 * 64) with
          | some r => if findingCounts x.2 w (p.2.2 == 64) (d.get (R.RANGE_CTRL_MODE r)) then some (r, p.1, x.2) else none
          | none => none
        | none => none
      match classifyAll fs d with
      | (d, .halts) => d
      | (d, .refused) => refuseTo (mgRefuse d u w a) u a
      | (d, .goes) =>
        match data with
        | some bs => (mgWriteParts d ps bs).emit (.mem u a (some []))
        | none => guardAnswer d u a n

/-! ## Re-encryption (R444) -/

/-- Run an access that waited. -/
def guardReplay (d : Dev) : MgPending → Dev
  | .write line off bs => match rangeOf d (dramBase + line * 64) with
    | some r => mgWriteLine d r line off bs
    | none => d
  | .read u a n => guardAnswer d u a n

/-- One step of the page's re-encryption: 8 lines under (M + 1, 0); the last step writes the counter block. -/
def reencStep (d : Dev) (r page : Nat) (finding : Option Finding) : Dev :=
  match d.mgReenc.find? fun e => e.range == r && e.page == page with
  | none => d
  | some e =>
    let line0 := (d.get (R.RANGE_BASE r) - dramBase) / 64 + 64 * page
    let first := line0 + 8 * e.done
    let c := match finding with
      | some f => classify1 d r first f
      | none => (d, .goes)
    if c.2 ≠ .goes then c.1
    else
      let d := c.1
      let mj := mgGetMajor d r page + 1
      let d := (List.range 8).foldl (fun d i =>
        let x := first + i
        let under : Dev := { d with mgMajor := Cells.put d.mgMajor (majorKey r page) mj, mgMinor := Cells.put d.mgMinor x 0 }
        d.emit (storedLine under r (x * 64) (Cells.find d.dram x))) d
      if e.done < 7 then
        { d with mgReenc := d.mgReenc.map fun y => if y.range == r && y.page == page then { y with done := y.done + 1 } else y }
      else
        let d : Dev := { d with mgMajor := Cells.put d.mgMajor (majorKey r page) mj,
                                mgMinor := (List.range 64).foldl (fun m i => Cells.put m (line0 + i) 0) d.mgMinor,
                                mgReenc := d.mgReenc.filter fun y => !(y.range == r && y.page == page) }
        let d := mgReencFlag ((mgDirty (mgTrust d r page) r 0 page).count 9 (R.REENCRYPTIONS r)) r
        d.mgPending.foldl guardReplay { d with mgPending := [] }

/-! ## Enabling a range (R435 to R437) -/

/-- Spans [a, b) and [x, y) overlap. -/
def overlaps (a b x y : Nat) : Bool := decide (a < y) && decide (x < b) && decide (a < b) && decide (x < y)

/-- Metadata area of a range as a span of core addresses. -/
def metaSpan (d : Dev) (r : Nat) : Nat × Nat := (d.get (R.META_BASE r), d.get (R.META_BASE r) + 4096 * mgMetaPages d r)

/-- Check 2 of an enable. -/
def rangeBad (d : Dev) (r : Nat) : Bool :=
  let b := d.get (R.RANGE_BASE r)
  let l := d.get (R.RANGE_LIMIT r)
  let m := metaSpan d r
  let others := (List.range 8).filter fun i => i != r && d.get (R.RANGE_STATUS_STATE i) != rangeOff
  let out (x y : Nat) : Bool := decide (x < dramBase) || decide (dramBase + dramSize d < y)
  d.get (R.RANGE_CTRL_MODE r) == 3 || decide (l ≤ b) || out b l ||
  (others.any fun i => overlaps b l (d.get (R.RANGE_BASE i)) (d.get (R.RANGE_LIMIT i))) ||
  (d.get (R.RANGE_CTRL_MODE r) == 2 &&
    (out m.1 m.2 || overlaps m.1 m.2 b l ||
     (others.any fun i => overlaps m.1 m.2 (d.get (R.RANGE_BASE i)) (d.get (R.RANGE_LIMIT i)) ||
       (d.get (R.RANGE_CTRL_MODE i) == 2 && overlaps m.1 m.2 (metaSpan d i).1 (metaSpan d i).2))))

/-- Outcome of the checks of R435. -/
def rangeCheck (run : RunState) (d : Dev) (r : Nat) : Nat :=
  if !d.on (L.PAGE_ENABLE 9) || run.stopped then codeState
  else if rangeBad d r then codeArg
  else if !drbgIs d drbgReady then codeState
  else if !d.on R.MG_STATUS_ENGINE_GRANTED && !arbPending d .memGuard && arbExceeds d reqMemGuard 2 then codePower
  else codeOk

/-- A write of 1 to RANGE_CTRL.ENABLE of a range in OFF: the request, which locks the range's fields, is checked in the next tick. -/
def rangeRequest (d : Dev) (r : Nat) : Dev :=
  if d.get (R.RANGE_STATUS_STATE r) ≠ rangeOff then d else (d.set (R.RANGE_CTRL_ENABLE r) 1).post (.rangeEnable r)

/-- The request of an enable is checked and carried out (R435). -/
def rangeEnable (run : RunState) (d : Dev) (r : Nat) : Dev :=
  if d.get (R.RANGE_STATUS_STATE r) ≠ rangeOff then d
  else
    let c := rangeCheck run d r
    if c ≠ codeOk then
      (((if c = codePower then arbError d else d).set (R.RANGE_STATUS_ENABLE_CODE r) c)).latch 9 1
    else
      let k1 := if d.get (R.RANGE_CTRL_MODE r) = 0 then (d, []) else drbgKey d 32
      let k2 := if d.get (R.RANGE_CTRL_MODE r) = 0 then (k1.1, []) else drbgKey k1.1 32
      let d := k2.1.setAll [(L.MG_KEY1 r, beVal k1.2), (L.MG_KEY2 r, beVal k2.2), (R.RANGE_STATUS_ENABLE_CODE r, codeQueued)]
      if d.on R.MG_STATUS_ENGINE_GRANTED then d.set (R.RANGE_STATUS_STATE r) rangeInit
      else
        let d := d.set (R.RANGE_STATUS_STATE r) rangePending
        if arbPending d .memGuard then d else arbRequest d reqMemGuard 2 classA .memGuard

/-- INIT has written every line of the range, and its metadata (R435). -/
def rangeInitDone (d : Dev) (r : Nat) : Dev :=
  if d.get (R.RANGE_STATUS_STATE r) ≠ rangeInit then d
  else
    let a := (d.get (R.RANGE_BASE r) - dramBase) / 64
    let b := (d.get (R.RANGE_LIMIT r) - dramBase) / 64
    let d : Dev := { d with dram := Cells.dropRange d.dram a b, mgMinor := Cells.dropRange d.mgMinor a b,
                            mgMajor := Cells.dropRange d.mgMajor (majorKey r 0) (majorKey (r + 1) 0),
                            mgTree := Cells.dropRange d.mgTree (treeKey r 0 0) (treeKey (r + 1) 0 0) }
    (d.setAll [(R.RANGE_STATUS_STATE r, rangeActive), (R.RANGE_STATUS_ENABLE_CODE r, codeOk)]).latch 9 0

/-! ## Scrubbing (R451) -/

/-- Lines a pass visits in a range: data, then metadata. -/
def scrubLines (d : Dev) (r : Nat) : Nat × Nat :=
  if d.get (R.RANGE_STATUS_STATE r) ≠ rangeActive then (0, 0)
  else ((d.get (R.RANGE_LIMIT r) - d.get (R.RANGE_BASE r)) / 64,
    if d.get (R.RANGE_CTRL_MODE r) = 2 then mgPages d r + (mgLevels d r).sum else 0)

/-- The range of line `n` of a pass, its place in the range, and whether it is metadata. -/
def scrubAt (d : Dev) : Nat → Nat → Nat → Option (Nat × Nat × Bool)
  | 0, _, _ => none
  | fuel + 1, r, n =>
    let s := scrubLines d r
    if n < s.1 then some (r, n, false)
    else if n < s.1 + s.2 then some (r, n - s.1, true)
    else scrubAt d fuel (r + 1) (n - (s.1 + s.2))

/-- Level and number of metadata line `n` of a range, counter blocks first. -/
def metaLevelOf : List Nat → Nat → Nat → Nat
  | [], level, _ => level
  | c :: cs, level, n => if n < c then level else metaLevelOf cs (level + 1) (n - c)

/-- MG_CTRL.SCRUB_EN has been written 0: the pass that runs ends, and the next one begins at the first line (DESIGN CHOICE, log 52). -/
def scrubStop (d : Dev) : Dev := if d.on R.MG_CTRL_SCRUB_EN then d else d.setAll [(L.MG_SCRUB_LINE, 0), (R.MG_STATUS_SCRUB_ACTIVE, 0)]

/-- The next scrub read. Of a PROTECTED data line only the code is checked. -/
def scrubRead (d : Dev) (finding : Option Finding) : Dev :=
  if !d.on R.MG_CTRL_SCRUB_EN then d
  else
    let n := d.get L.MG_SCRUB_LINE
    let total := sumBelow (fun r => (scrubLines d r).1 + (scrubLines d r).2) 8
    if total = 0 then d
    else
      let d := d.set R.MG_STATUS_SCRUB_ACTIVE 1
      let c := match scrubAt d 8 0 n, finding with
        | some (r, i, false), some f =>
          let line := (d.get (R.RANGE_BASE r) - dramBase) / 64 + i
          (match f with
           | .corrected => classify1 d r line f
           | .uncorrectable => classify1 d r line f
           | _ => (d, .goes))
        | some (r, i, true), some f =>
          let x := d.get (R.META_BASE r) - dramBase + 64 * i
          let level := metaLevelOf (mgPages d r :: mgLevels d r) 0 i
          (match f with
           | .metaCorrected => ((d.count 9 R.CE_META).latch 9 17, .goes)
           | .metaUncorrectable _ => (guardHalt d 2 level r x, .halts)
           | .metaMacFails _ => (guardHalt d 1 level r x, .halts)
           | .storeFails => ((guardHalt d 2 15 r (d.freeVal 64)).tookFree, .halts)
           | _ => (d, .goes))
        | _, _ => (d, .goes)
      if c.2 = .halts then c.1
      else if n + 1 < total then c.1.set L.MG_SCRUB_LINE (n + 1)
      else (c.1.setAll [(L.MG_SCRUB_LINE, 0), (R.MG_STATUS_SCRUB_ACTIVE, 0)]).latch 9 24

/-! ## Rows -/

/-- RANGE_ENABLE (R435). -/
def execRangeEnable (r : Fin 8) (s : State) : Host.Outcome State Fault Refusal := s.page 9 fun d => rangeRequest d r
/-- RANGE_INIT_DONE (R435). -/
def execRangeInitDone (r : Fin 8) (s : State) : Host.Outcome State Fault Refusal := s.lanes fun d => rangeInitDone d r
/-- REENCRYPT_STEP (R444). -/
def execReencryptStep (r : Fin 8) (page : Nat) (finding : Option Finding) (s : State) : Host.Outcome State Fault Refusal :=
  s.lanes fun d => reencStep d r page finding
/-- SCRUB_READ (R451). -/
def execScrubRead (finding : Option Finding) (s : State) : Host.Outcome State Fault Refusal := s.lanes fun d => scrubRead d finding

end Sys2Proof.Machine
end

