-- ==== Sys2Proof/Machine/Buffer.lean ====
section
/-! DEFINITION. The forwarding database's operations and ageing (R290, R292), pool sizes (R297) and the end of a whole-buffer
zero-fill (R305). -/

namespace Sys2Proof.Machine

/-- Key of FDB_KEY. -/
def fdbKeyMac (d : Dev) : Nat := d.get R.FDB_KEY_MAC_HI * 2 ^ 32 + d.get R.FDB_KEY_MAC_LO

/-- An FDB_OP ends: status and event bit 8. -/
def fdbEnd (d : Dev) (code hit full : Nat) (index : Nat) : Dev :=
  (d.setAll [(R.FDB_OP_STATUS_CODE, code), (R.FDB_OP_STATUS_HIT, hit), (R.FDB_OP_STATUS_FULL, full), (R.FDB_OP_STATUS_BUSY, 0),
    (R.FDB_OP_STATUS_INDEX, index)]).latch 0x72 8

/-- LOOKUP. -/
def fdbLookup (d : Dev) : Dev :=
  match fdbFind d (d.get R.FDB_KEY_FID) (fdbKeyMac d) with
  | some i => fdbEnd d codeOk 1 0 i
  | none => fdbEnd d codeOk 0 0 0

/-- DEST of FDB_OP_DATA is out of range for its type: 256 ports, 128 rings; every value names a group. -/
def fdbDestBad (d : Dev) : Bool :=
  let t := d.get R.FDB_OP_DATA_DEST_TYPE
  let x := d.get R.FDB_OP_DATA_DEST
  (t == 0 && decide (256 ≤ x)) || (t == 2 && decide (128 ≤ x))

/-- INSERT: an existing key's entry is replaced, HIT reporting that it was found; otherwise the lowest empty way is taken. -/
def fdbInsert (d : Dev) : Dev :=
  let fid := d.get R.FDB_KEY_FID
  let mac := fdbKeyMac d
  let put (i : Nat) : Dev := fdbPut d i fid mac (d.get R.FDB_OP_DATA_STATIC) (d.get R.FDB_OP_DATA_DEST_TYPE) (d.get R.FDB_OP_DATA_DEST)
  if fdbDestBad d then fdbEnd d codeArg 0 0 0
  else match fdbFind d fid mac with
    | some i => fdbEnd (put i) codeOk 1 0 i
    | none => match fdbFree d fid mac with
      | some i => fdbEnd (put i) codeOk 0 0 i
      | none => fdbEnd d codeState 0 1 0

/-- DELETE. -/
def fdbDelete (d : Dev) : Dev :=
  match fdbFind d (d.get R.FDB_KEY_FID) (fdbKeyMac d) with
  | some i => fdbEnd (fdbRemove d i) codeOk 1 0 i
  | none => fdbEnd d codeOk 0 0 0

/-- A valid dynamic entry that no lookup has hit goes; HIT clears in the others (R292). What each entry held is read in `s`, where the pass
begins. -/
def fdbAge1 (s d : Dev) (i : Nat) : Dev :=
  if s.on (R.FDB_STATIC i) then d
  else if s.on (R.FDB_HIT i) then d.set (R.FDB_HIT i) 0
  else (fdbRemove d i).count 0x72 R.AGED

/-- The end of an AGE_PERIOD. -/
def fdbAge (d : Dev) : Dev :=
  if d.get R.AGE_PERIOD = 0 then d
  else
    let live := (d.listedEntries 0x72 3 60).filter fun i => d.on (R.FDB_VALID i)
    let gone := live.any fun i => !d.on (R.FDB_STATIC i) && !d.on (R.FDB_HIT i)
    (live.foldl (fdbAge1 d) d).latchIf gone 0x72 3

/-- Sum of the pool sizes. -/
def poolTotal (d : Dev) : Nat := sumBelow (fun k => d.get (R.POOL_SIZE k)) 8
/-- Most cells that pools and reserves may take together (R297). -/
def cellBudget : Nat := 377088

/-- POOL_SIZE(k) is written (R297): event bit k when the free cells of the pool fall to zero or below (R310). -/
def poolSizeWrite (d : Dev) (k v : Nat) : Dev :=
  if poolTotal d - d.get (R.POOL_SIZE k) + v + d.get R.RESERVE_TOTAL ≤ cellBudget then
    let e := d.setAll [(R.POOL_SIZE k, v), (R.BUF_STATUS_CFG_REFUSED, 0)]
    e.latchIf (decide (0 < poolFree d k) && decide (poolFree e k ≤ 0)) 0x74 k
  else d.set R.BUF_STATUS_CFG_REFUSED 1

/-- Every copy and frame in the buffer goes, and every charge reads zero (R305). -/
def bufferEmpty (d : Dev) : Dev :=
  let qs := d.listedEntries 0x74 2 0
  let d : Dev := { d with frames := [], copies := [], txs := [], cellMem := [] }
  let d := qs.foldl (fun d g => d.set (R.QSTAT_CHARGE g) 0) d
  (d.each 8 fun k d => d.set (R.POOL_CHARGE k) 0).set R.CELLS_FREE 393216

/-- The zero-fill ends (R305). -/
def zeroFillDone (d : Dev) : Dev :=
  if d.on R.BUF_STATUS_ZERO_FILL then ((bufferEmpty d).set R.BUF_STATUS_ZERO_FILL 0).latch 0x74 8 else d

/-- FDB_OP_LOOKUP (R290). -/
def execFdbOpLookup (s : State) : Host.Outcome State Fault Refusal := s.page 0x72 fdbLookup
/-- FDB_OP_INSERT (R290). -/
def execFdbOpInsert (s : State) : Host.Outcome State Fault Refusal := s.page 0x72 fdbInsert
/-- FDB_OP_DELETE (R290). -/
def execFdbOpDelete (s : State) : Host.Outcome State Fault Refusal := s.page 0x72 fdbDelete
/-- FDB_AGING_PASS (R292). -/
def execFdbAgingPass (s : State) : Host.Outcome State Fault Refusal := s.lanes fdbAge
/-- POOL_SIZE_WRITE (R297). -/
def execPoolSizeWrite (k : Fin 8) (v : BitVec 19) (s : State) : Host.Outcome State Fault Refusal :=
  s.page 0x74 fun d => poolSizeWrite d k v.toNat
/-- BUFFER_ZERO_FILL_DONE (R305): also at a ZEROIZE response, when the part's run state has stopped. -/
def execBufferZeroFillDone (s : State) : Host.Outcome State Fault Refusal := .next (s.setDev (zeroFillDone s.d))

end Sys2Proof.Machine
end

