-- ==== Sys2Proof/Machine/Otp.lean ====
section
/-! DEFINITION. The one-time-programmable words (R406 to R409): reading and blowing them, decoding the life-cycle state, and
the registers that report them. -/

namespace Sys2Proof.Machine

/-- A word of the OTP; a word that is not listed is blank. -/
def otpWord (otp : List (Nat × Nat)) (w : Nat) : Nat := Cells.find otp w
/-- Blow the fuses of a value: they are only ever blown (R409). -/
def otpBlow (otp : List (Nat × Nat)) (w v : Nat) : List (Nat × Nat) := Cells.put otp w ((otpWord otp w ||| v) % 2 ^ 32)
/-- Words `w`, `w + 1`, … as one number, first word most significant. -/
def otpBig (otp : List (Nat × Nat)) (w n : Nat) : Nat := (List.range n).foldl (fun a i => a * 2 ^ 32 + otpWord otp (w + i)) 0
/-- Blow a number into `n` words, first word most significant. -/
def otpBlowBig (otp : List (Nat × Nat)) (w n v : Nat) : List (Nat × Nat) :=
  (List.range n).foldl (fun o i => otpBlow o (w + i) (v / 2 ^ (32 * (n - 1 - i)) % 2 ^ 32)) otp

/-- Number of ones below bit `n`. -/
def ones (x n : Nat) : Nat := countBelow (fun i => bitAt x i) n

/-! ## Life-cycle words (R406 to R408) -/

def lcTest : Nat := 1
def lcProvisioned : Nat := 2
def lcReturned : Nat := 4
def lcScrapped : Nat := 5

/-- Intent word and value of a target, 2 PROVISIONED to 5 SCRAPPED. -/
def lcIntent (t : Nat) : Nat × Nat :=
  (0x088 + 2 * (t - 2), if t = 2 then 0x3C3CC3C3 else if t = 3 then 0x69699696 else if t = 4 then 0x33CCCC33 else 0x0FF0F00F)
/-- Completion word and value of a target. -/
def lcComplete (t : Nat) : Nat × Nat :=
  (0x089 + 2 * (t - 2), if t = 2 then 0x5A5AA5A5 else if t = 3 then 0x96966969 else if t = 4 then 0xCC3333CC else 0xF00F0FF0)

/-- The completion word of target `t` reads exactly its value. -/
def lcIs (otp : List (Nat × Nat)) (t : Nat) : Bool := otpWord otp (lcComplete t).1 == (lcComplete t).2
/-- The life-cycle state (R408). -/
def lcDecode (otp : List (Nat × Nat)) : Nat := ([5, 4, 3, 2].find? (lcIs otp)).getD lcTest

/-- Words that hold a one where their value holds a zero (R408). -/
def lcOdd (otp : List (Nat × Nat)) : Nat :=
  countBelow (fun i =>
    let x := if i % 2 = 0 then lcIntent (2 + i / 2) else lcComplete (2 + i / 2)
    (otpWord otp x.1 ||| x.2) != x.2) 8

/-- LC_LAST records a refusal of a transition to `t` (R413, R416). -/
def lcRefused (d : Dev) (t : Nat) : Bool :=
  d.get R.LC_LAST_TO == t && (d.get R.LC_LAST_CODE == codePresence || d.get R.LC_LAST_CODE == codeAbortedAlarm)

/-- The highest interrupted transition (R408, R413, R417). -/
def lcInterrupted (otp : List (Nat × Nat)) (d : Dev) : Option Nat :=
  [5, 4, 3, 2].find? fun t =>
    decide (lcDecode otp < t) && otpWord otp (lcIntent t).1 != 0 && !lcIs otp t && !lcRefused d t

/-! ## Other items (R409, R370, R401) -/

/-- The identity that R30 reports in state `lc`: zero in TEST and in SCRAPPED. -/
def otpDeviceId (otp : List (Nat × Nat)) (lc : Nat) : Nat := if lc = lcTest ∨ lc = lcScrapped then 0 else otpBig otp 0x040 2
/-- KEYHASHk, 48 bytes. -/
def otpKeyHash (otp : List (Nat × Nat)) (k : Nat) : Nat := otpBig otp (0x050 + 12 * k) 12
/-- DEVICE_SECRET, 32 bytes. -/
def otpSecret (otp : List (Nat × Nat)) : Nat := otpBig otp 0x048 8
/-- Revocation bits of the image key slots. -/
def otpRevoked (otp : List (Nat × Nat)) : Nat := otpWord otp 0x080 % 16
/-- Bit k: KEYHASHk is programmed. -/
def otpProgrammed (otp : List (Nat × Nat)) : Nat := sumBelow (fun k => if otpKeyHash otp k = 0 then 0 else 2 ^ k) 4
/-- Image key slots permitted in state `lc` (R370, R406): an unprogrammed slot never is. -/
def slotsPermitted (otp : List (Nat × Nat)) (lc : Nat) : Nat :=
  (if lc = 3 then 0xC else if lc = lcScrapped then 0 else 0x3) &&& otpProgrammed otp
/-- Permitted slots that are not revoked (R421). -/
def slotsUsable (otp : List (Nat × Nat)) (lc : Nat) : Nat := slotsPermitted otp lc &&& (15 ^^^ otpRevoked otp)

/-- ROLLBACK_COUNT: blown fuses of the thermometer (R370). -/
def otpRollback (otp : List (Nat × Nat)) : Nat := min 255 (sumBelow (fun i => ones (otpWord otp (0x090 + i)) 32) 8)
/-- OTP count of an evidence class: four words each (R401). -/
def otpTamper (otp : List (Nat × Nat)) (c : Nat) : Nat := min 127 (sumBelow (fun i => ones (otpWord otp (0x098 + 4 * c + i)) 32) 4)
/-- TAMPER_COUNT: count and SATURATED of each class (R404). -/
def otpTamperWord (otp : List (Nat × Nat)) : Nat :=
  sumBelow (fun c => (otpTamper otp c + b2n (otpTamper otp c == 127) * 128) * 2 ^ (8 * c)) 4

/-- A thermometer of `n` fuses from word `w`, with the first `k` blown. -/
def otpThermo (otp : List (Nat × Nat)) (w k : Nat) : List (Nat × Nat) :=
  (List.range ((k + 31) / 32)).foldl (fun o i => otpBlow o (w + i) (2 ^ min 32 (k - 32 * i) - 1)) otp

/-! ## The registers that report the OTP -/

/-- Counts that follow a fuse that is blown while the part runs. -/
def otpCounts (s : State) : State :=
  s.setDev (s.d.setAll [(R.ROLLBACK_COUNT, otpRollback s.otp), (R.TAMPER_COUNT, otpTamperWord s.otp),
    (R.KEYHASH_STATE_PROGRAMMED, otpProgrammed s.otp), (R.KEYHASH_STATE_REVOKED, otpRevoked s.otp),
    (R.KEYHASH_STATE_PERMITTED, slotsPermitted s.otp (s.d.get R.LC_STATE)), (R.KEYHASH_STATE_SECRET_SET, b2n (otpSecret s.otp != 0))])

/-- Decode the OTP at a reset (R408, R260, R424, R431): the life-cycle state and what depends on it. -/
def otpLoad (s : State) : State :=
  let otp := s.otp
  let lc := lcDecode otp
  let ceil (w : Nat) : List Nat := [bitsOf (otpWord otp w) 0 8, bitsOf (otpWord otp w) 8 10, bitsOf (otpWord otp w) 18 10]
  let h := if lc = 3 then ceil 0x083 else [0, 1023, 0]
  let m := if lc = 3 then ceil 0x084 else [0x7F, 0, 1023]
  let d := s.d.setAll [(R.LC_STATE, lc), (R.DEVICE_ID, otpDeviceId otp lc), (R.OWNER_ID, if 3 ≤ lc then otpBig otp 0x081 2 else 0),
    (R.DEBUG_STATUS_FULL_OPEN, b2n (lc == lcTest)), (R.AVS_CODE, ofSigned 6 ((Config.avsCode (otp.filter fun p => decide (p.1 < 0x40)) % 33 : Nat) - 16)),
    (R.CEIL_HOST_CLASSES, h.getD 0 0), (R.CEIL_HOST_RANGE_FIRST, h.getD 1 0), (R.CEIL_HOST_RANGE_LAST, h.getD 2 0),
    (R.CEIL_MGMT_CLASSES, m.getD 0 0), (R.CEIL_MGMT_RANGE_FIRST, m.getD 1 0), (R.CEIL_MGMT_RANGE_LAST, m.getD 2 0)]
  let d := (List.range (lcOdd otp)).foldl (fun d _ => ((d.count 6 R.OTP_FAULTS).latch 6 16).alarm 59) d
  otpCounts (s.setDev d)

end Sys2Proof.Machine
end

