-- ==== Sys2Proof/Machine/Cores.lean ====
section
/-! DEFINITION. What the cores meet outside the register pages (R339 to R343): the address map and its faults, MSIP and the
machine timer, and the platform-level interrupt controller of the RISC-V PLIC specification 1.0.0, with its register layout
PRESUMED from that specification. -/

namespace Sys2Proof.Machine

/-! ## The interrupt controller (R343) -/

/-- Sources with TO_MGMT set; the store lists them, because the bit resets to 0. -/
def toMgmtSources (d : Dev) : List Nat :=
  let k0 := (R.EV_CFG_TO_MGMT 0).key
  d.cells.filterMap fun p =>
    if k0 ≤ p.1 ∧ p.1 ≤ (R.EV_CFG_TO_MGMT 511).key ∧ (p.1 - k0) % 256 = 0 then some ((p.1 - k0) / 256) else none

/-- Level of interrupt source `n`, 1 to 515. -/
def plicLevel (d : Dev) (n : Nat) : Bool :=
  if n = 0 then false
  else if n ≤ 512 then d.on (R.EV_CFG_TO_MGMT (n - 1)) && sourceLevel d (n - 1)
  else if n = 513 then d.get R.WD_STATUS_STAGE == 2
  else if n = 514 then d.get (ringHeadF 128) != d.get (ringAckF 128) || d.get (ringHeadF 129) != d.get (ringAckF 129)
  else n == 515 && d.on R.ACCESS_FAULT_INFO_VALID

/-- The gateways pass each active source that is not being served on to its pending bit. -/
def plicSample (d : Dev) : Dev :=
  ((toMgmtSources d).map (· + 1) ++ [513, 514, 515]).foldl
    (fun d n => if plicLevel d n && !bitAt (d.get L.PLIC_BUSY) n then d.setBit L.PLIC_PEND n true else d) d

/-- Source that a claim of context `c` takes: pending and enabled, of the highest priority above 0, lowest number first. -/
def plicBest (d : Dev) (c : Nat) : Nat :=
  (List.range 516).foldl (fun best n =>
    if bitAt (d.get L.PLIC_PEND) n && bitAt (d.get (L.PLIC_EN c)) n &&
        decide ((if best = 0 then 0 else d.get (L.PLIC_PRIO best)) < d.get (L.PLIC_PRIO n)) then n else best) 0

/-- The interrupt of context `c` is signalled to its core: a pending and enabled source above the threshold. -/
def plicSignal (d : Dev) (c : Nat) : Bool :=
  let n := plicBest d c
  n != 0 && decide (d.get (L.PLIC_THR c) < d.get (L.PLIC_PRIO n))

/-- Read a 32-bit register of the controller at offset `o`: its value and what the read does. -/
def plicRead (d0 : Dev) (o : Nat) : Dev × Nat :=
  let d := plicSample d0
  if o < 4 * 516 then (d, d.get (L.PLIC_PRIO (o / 4)))
  else if 0x1000 ≤ o ∧ o < 0x1000 + 4 * 17 then (d, bitsOf (d.get L.PLIC_PEND) (32 * ((o - 0x1000) / 4)) 32)
  else if 0x2000 ≤ o ∧ o < 0x2000 + 0x80 * 8 ∧ (o - 0x2000) % 0x80 < 4 * 17 then
    (d, bitsOf (d.get (L.PLIC_EN ((o - 0x2000) / 0x80))) (32 * ((o - 0x2000) % 0x80 / 4)) 32)
  else if 0x200000 ≤ o ∧ o < 0x200000 + 0x1000 * 8 then
    let c := (o - 0x200000) / 0x1000
    if (o - 0x200000) % 0x1000 = 0 then (d, d.get (L.PLIC_THR c))
    else if (o - 0x200000) % 0x1000 = 4 then
      let n := plicBest d c
      (if n = 0 then d else (d.setBit L.PLIC_PEND n false).setBit L.PLIC_BUSY n true, n)
    else (d, 0)
  else (d, 0)

/-- Write a 32-bit register of the controller. -/
def plicWrite (d0 : Dev) (o v : Nat) : Dev :=
  let d := plicSample d0
  if o < 4 * 516 then (if o / 4 = 0 then d else d.set (L.PLIC_PRIO (o / 4)) v)
  else if 0x2000 ≤ o ∧ o < 0x2000 + 0x80 * 8 ∧ (o - 0x2000) % 0x80 < 4 * 17 then
    let c := (o - 0x2000) / 0x80
    let w := (o - 0x2000) % 0x80 / 4
    let e := setBits (d.get (L.PLIC_EN c)) (32 * w) 32 v
    d.set (L.PLIC_EN c) (setBits e 0 1 0)
  else if 0x200000 ≤ o ∧ o < 0x200000 + 0x1000 * 8 then
    let c := (o - 0x200000) / 0x1000
    if (o - 0x200000) % 0x1000 = 0 then d.set (L.PLIC_THR c) v
    else if (o - 0x200000) % 0x1000 = 4 ∧ bitAt (d.get (L.PLIC_EN c)) v then plicSample (d.setBit L.PLIC_BUSY v false)
    else d
  else d

/-! ## MSIP and the machine timer (R342) -/

/-- MTIME has reached MTIMECMP(c). -/
def timerDue (d : Dev) (c : Nat) : Bool := decide (d.get (L.MTIMECMP c) ≤ d.cyc)

/-- A write of MTIMECMP(c): the interrupt stays only while it is still due. -/
def mtimecmpWrite (d : Dev) (c v : Nat) : Dev :=
  let d := d.set (L.MTIMECMP c) v
  if timerDue d c then d else d.set (L.MTIP c) 0

/-- MSIP(c) takes a value: a core that waits for its software interrupt runs from then on (R339). -/
def msipSet (d : Dev) (c v : Nat) : Dev :=
  let d := d.set (L.MSIP c) v
  if v % 2 = 1 then d.setBit L.CORE_WAIT c false else d

/-! ## The address map (R340) -/

/-- A region of the cores' address map other than SRAM and DRAM. -/
inductive CoreRegion where
  | rom
  | msip (c : Nat)
  | mtimecmp (c : Nat) (half : Nat)
  | mtime (half : Nat)
  | plic (o : Nat)
  | pages
  | flash
  deriving DecidableEq, Repr

/-- Where an access of `n` bytes falls, when it falls within one of these regions. -/
def coreRegion (a n : Nat) : Option CoreRegion :=
  if a + n ≤ 0x10000 then some .rom
  else if 0x02000000 ≤ a ∧ a + n ≤ 0x02000010 ∧ a % 4 + n ≤ 4 then some (.msip ((a - 0x02000000) / 4))
  else if 0x02004000 ≤ a ∧ a + n ≤ 0x02004020 ∧ a % 8 + n ≤ 8 then some (.mtimecmp ((a - 0x02004000) / 8) (a % 8))
  else if 0x02008000 ≤ a ∧ a + n ≤ 0x02008008 then some (.mtime (a % 8))
  else if 0x0C000000 ≤ a ∧ a + n ≤ 0x10000000 then some (.plic (a - 0x0C000000))
  else if 0x10000000 ≤ a ∧ a + n ≤ 0x11000000 then some .pages
  else if 0x20000000 ≤ a ∧ a + n ≤ 0x30000000 then some .flash
  else none

/-- Replace bytes of a little-endian register. -/
def mergeReg (v off : Nat) (bs : List Byte) : Nat := setBits v (8 * off) (8 * bs.length) (leVal bs)

/-- A core's access to one of these regions, the register pages apart (CorePages.lean). What the flash and the boot ROM hold is not in the spec: a free value. -/
def coreAccess (d : Dev) (core a n : Nat) (data : Option (List Byte)) (r : CoreRegion) : Dev :=
  let fault : Dev := (accessFault d core a).emit (.mem core a none)
  let answer (d : Dev) (v off : Nat) : Dev := d.emit (.mem core a (some (leBytes n (v / 2 ^ (8 * off)))))
  let written (d : Dev) : Dev := d.emit (.mem core a (some []))
  match r, data with
  | .rom, none => if d.on L.ROM_CLOSED then fault else (answer d (d.freeVal (8 * n)) 0).tookFree
  | .rom, some _ => fault
  | .msip c, none => answer d (d.get (L.MSIP c)) (a % 4)
  | .msip c, some bs => written (msipSet d c (mergeReg (d.get (L.MSIP c)) (a % 4) bs))
  | .mtimecmp c h, none => answer d (d.get (L.MTIMECMP c)) h
  | .mtimecmp c h, some bs => written (mtimecmpWrite d c (mergeReg (d.get (L.MTIMECMP c)) h bs))
  | .mtime h, none => answer d d.cyc h
  | .mtime _, some _ => fault
  | .plic o, none => let r := plicRead d (o / 4 * 4); answer r.1 r.2 (o % 4)
  | .plic o, some bs => written (plicWrite d (o / 4 * 4) (mergeReg (plicRead d (o / 4 * 4)).2 (o % 4) bs))
  | .pages, _ => d
  | .flash, none => (answer d (d.freeVal (8 * n)) 0).tookFree
  | .flash, some _ => fault

/-- Would an access of a core fault? (R340) -/
def coreFaults (d : Dev) (core a : Nat) (write : Bool) : Bool :=
  match coreRegion a 1 with
  | some .rom => write || d.on L.ROM_CLOSED
  | some (.mtime _) => write
  | some .flash => write
  | some _ => false
  | none =>
    if sramBase ≤ a ∧ a < sramBase + sramSize then false
    else if dramBase ≤ a ∧ a < dramBase + dramSize d then !mgMay d core write a
    else true

/-- An access that faults: in DRAM the guard refuses it (R447). -/
def coreFault (d : Dev) (core a : Nat) (write : Bool) : Dev :=
  if coreFaults d core a write then
    let d := if dramBase ≤ a ∧ a < dramBase + dramSize d then mgRefuse d core write a else d
    (accessFault d core a).emit (.mem core a none)
  else d

/-- An access of master `u`: the cores' own regions, else memory (R340, R447). -/
def anyAccess (d : Dev) (u a n : Nat) (data : Option (List Byte)) (findings : List (Nat × Finding)) : Dev :=
  let len := match data with
    | some bs => bs.length
    | none => n
  match (if u < 4 then coreRegion a len else none) with
  | some r => coreAccess d u a n data r
  | none => memAccess d u a n data findings

/-! ## Rows -/

/-- ACCESS_FAULT (R340): core `core` reads or writes address `addr`. -/
def execAccessFault (core : Fin 4) (addr : BitVec 64) (write : Bool) (s : State) : Host.Outcome State Fault Refusal :=
  s.lanes fun d => coreFault d core addr.toNat write
/-- MSIP_WRITE (R342). -/
def execMsipWrite (core : Fin 4) (v : Bool) (s : State) : Host.Outcome State Fault Refusal :=
  s.lanes fun d => msipSet d core (b2n v)
/-- MACHINE_TIMER_INTERRUPT (R342). -/
def execMachineTimerInterrupt (core : Fin 4) (s : State) : Host.Outcome State Fault Refusal :=
  s.lanes fun d => if timerDue d core then d.set (L.MTIP core) 1 else d

end Sys2Proof.Machine
end

