-- ==== Sys2Proof/Machine/LineCode.lean ====
section
/-! DEFINITION. The 8b/10b lines of the Belay ports (lines 0 and 1) and of MGMT0 (line 2): the code, its K-codes, ordered sets, the richness
filler, what a transmitter sends character by character, and what a receiver makes of code groups (R124 to R128). -/

namespace Sys2Proof.Machine

/-! ## The code (IEEE 802.3 Clause 36) -/

/-- Number of 1 bits of a six- or four-bit group. -/
def onesOf (g : Nat) : Nat := popCount 6 g

/-- Group abcdei of D0 to D31 at negative disparity, bit a first. -/
def sixTable : List Nat :=
  [0b100111, 0b011101, 0b101101, 0b110001, 0b110101, 0b101001, 0b011001, 0b111000, 0b111001, 0b100101, 0b010101, 0b110100, 0b001101, 0b101100,
    0b011100, 0b010111] ++
  [0b011011, 0b100011, 0b010011, 0b110010, 0b001011, 0b101010, 0b011010, 0b111010, 0b110011, 0b100110, 0b010110, 0b110110, 0b001110, 0b101110,
    0b011110, 0b101011]

/-- Group fghj of D.0 to D.7 at negative disparity, bit f first. -/
def fourTable : List Nat := [0b1011, 0b1001, 0b0101, 0b1100, 0b1101, 0b1010, 0b0110, 0b1110]

/-- The data characters D.7 that take the alternate group, by the disparity after their first six bits. -/
def altSeven (rd : Bool) (x : Nat) : Bool := if rd then x == 11 || x == 13 || x == 14 else x == 17 || x == 18 || x == 20

/-- A group that depends on the disparity: unbalanced, or 111000 or 1100. -/
def sixTurns (g : Nat) : Bool := onesOf g != 3 || g == 0b111000
def fourTurns (g : Nat) : Bool := onesOf g != 2 || g == 0b1100

/-- The code group of a data byte and the disparity after it. -/
def dataCode (rd : Bool) (b : Nat) : Nat × Bool :=
  let g := sixTable.getD (b % 32) 0
  let rd1 := rd != (onesOf g != 3)
  let h := if b / 32 = 7 ∧ altSeven rd1 (b % 32) then 0b0111 else fourTable.getD (b / 32 % 8) 0
  let six := if rd && sixTurns g then 63 - g else g
  let four := if rd1 && b / 32 == 7 && altSeven rd1 (b % 32) then 0b1000 else if rd1 && fourTurns h then 15 - h else h
  (six * 16 + four, rd1 != (onesOf h != 2))

/-- The twelve K-codes of Clause 36, with their code groups at negative disparity. -/
def kTable : List (Nat × Nat) :=
  [(0x1C, 0b0011110100), (0x3C, 0b0011111001), (0x5C, 0b0011110101), (0x7C, 0b0011110011), (0x9C, 0b0011110010), (0xBC, 0b0011111010)] ++
  [(0xDC, 0b0011110110), (0xFC, 0b0011111000), (0xF7, 0b1110101000), (0xFB, 0b1101101000), (0xFD, 0b1011101000), (0xFE, 0b0111101000)]

def k280 : Byte := 0x1C#8
def k281 : Byte := 0x3C#8
def k285 : Byte := 0xBC#8
def k237 : Byte := 0xF7#8
def k277 : Byte := 0xFB#8
def k297 : Byte := 0xFD#8
def k307 : Byte := 0xFE#8

/-- The K-codes of the Belay ports (R125). -/
def belayCodes : List Byte := [k285, k281, k277, k297, k307, k280]
/-- The K-codes that MGMT0 transmits: those of Clause 36's ordered sets, and K28.0 (R125, R128). -/
def mgmtCodes : List Byte := [k285, k237, k277, k297, k307, k280]

/-- The code group of a K-code and the disparity after it. -/
def kCode (rd : Bool) (b : Nat) : Nat × Bool :=
  let g := (kTable.lookup b).getD 0
  (if rd then 1023 - g else g, rd != (popCount 10 g != 5))

/-- The code group of a character at a running disparity (true: positive), and the disparity after it (R124). -/
def encodeChar (rd : Bool) : LineChar → Nat × Bool
  | .data b => dataCode rd b.toNat
  | .k b => kCode rd b.toNat

/-- The disparity after a received code group, valid or not: that of its last unbalanced half (Clause 36). -/
def codeDisparity (rd : Bool) (c : Nat) : Bool :=
  let six := c / 16
  let four := c % 16
  let r := if 3 < onesOf six ∨ six = 0b000111 then true else if onesOf six < 3 ∨ six = 0b111000 then false else rd
  if 2 < onesOf four ∨ four = 0b0011 then true else if onesOf four < 2 ∨ four = 0b1100 then false else r

/-- Every character that line `i` can receive: all data, and the K-codes of its table (R125). -/
def lineAlphabet (i : Nat) : List LineChar :=
  ((List.range 256).map fun b => .data (BitVec.ofNat 8 b)) ++
    (if i < 2 then belayCodes.map .k else kTable.map fun p => .k (BitVec.ofNat 8 p.1))

/-- The character that a received code group stands for at a running disparity; `none` is a code violation (R124, R125). -/
def decodeChar (i : Nat) (rd : Bool) (c : Nat) : Option LineChar := (lineAlphabet i).find? fun x => (encodeChar rd x).1 == c

/-! ## What is received -/

/-- Received code groups as characters, each violation replaced by K30.7, and the number of violations (R124). -/
def decodeLine (i : Nat) : Bool → List Nat → List LineChar × Nat
  | _, [] => ([], 0)
  | rd, c :: r =>
    let x := decodeLine i (codeDisparity rd c) r
    match decodeChar i rd c with
    | some ch => (ch :: x.1, x.2)
    | none => (.k k307 :: x.1, x.2 + 1)

/-- What a Belay receiver passes on: a time marker, or a frame with its bytes and whether it held K30.7. -/
inductive LineItem where
  | marker (mseq : Byte)
  | frame (bytes : List Byte) (err : Bool)
  deriving DecidableEq, Repr

/-- Characters of a Belay line as items. Idle and /RF/ leave nothing (R127), a marker can stand within a frame (R471), and K30.7 marks the
frame it stands in (R126); `cur` is the frame under way. -/
def belayItems : Nat → Option (List Byte × Bool) → List LineChar → List LineItem
  | 0, _, _ => []
  | _, _, [] => []
  | n + 1, cur, .k b :: r =>
    if b = k285 then belayItems n none (r.drop 1)
    else if b = k280 then belayItems n none (r.drop 3)
    else if b = k281 then
      match r with
      | .data q :: .data c :: .data 0#8 :: r => if c = ~~~q then .marker q :: belayItems n cur r else belayItems n cur r
      | r => belayItems n cur (r.drop 3)
    else if b = k277 then belayItems n (some ([], false)) r
    else if b = k297 then
      match cur with
      | some f => .frame f.1 f.2 :: belayItems n none r
      | none => belayItems n none r
    else belayItems n (cur.map fun f => (f.1, true)) r
  | n + 1, cur, .data b :: r => belayItems n (cur.map fun f => (f.1 ++ [b], f.2)) r

/-- A Belay receiver: items of a run of code groups that starts in an even position, and violations to count. -/
def belayReceive (rd : Bool) (codes : List Nat) : List LineItem × Nat :=
  let x := decodeLine 0 rd codes
  (belayItems (x.1.length + 1) none x.1, x.2)

/-! ## What is transmitted -/

/-- One step of PRBS31, x^31 + x^28 + 1, on the last 31 bits, the latest lowest. -/
def prbs31Step (r : Nat) : Nat := (2 * r + (r / 2 ^ 30 + r / 2 ^ 27) % 2) % 2 ^ 31

/-- The next eight bits as a byte, the first lowest, and the register after them. -/
def prbs31Byte (r : Nat) : Byte × Nat :=
  (List.range 8).foldl (fun a j => let n := prbs31Step a.2; (a.1 ||| BitVec.ofNat 8 (n % 2 * 2 ^ j), n)) (0#8, r)

/-- The idle ordered set: /I1/ at positive disparity, /I2/ at negative (R126). -/
def idleSet (rd : Bool) : List LineChar := [.k k285, .data (if rd then 0xC5#8 else 0x50#8)]

/-- A transmitter with nothing to send: idles, and after sixteen, with the filler on, pairs of idles and /RF/ in turn (R127). -/
def lineRefill (filler : Bool) (t : LineTx) : LineTx :=
  if filler && t.idles == 18 then
    let a := prbs31Byte t.prbs
    let b := prbs31Byte a.2
    let c := prbs31Byte b.2
    { t with idles := 16, prbs := c.2, queue := [.k k280, .data a.1, .data b.1, .data c.1] }
  else { t with idles := if 18 < t.idles then 1 else min 18 (t.idles + 1), queue := idleSet t.rd }

/-- A negotiating MGMT0 sends the configuration ordered sets /C1/ and /C2/ in turn (Clause 36); `cfg` is the register they carry. -/
def lineConfig (cfg : Nat) (t : LineTx) : LineTx :=
  { t with idles := if t.idles = 19 then 20 else 19
           queue := [.k k285, .data (if t.idles = 19 then 0x42#8 else 0xB5#8), .data (BitVec.ofNat 8 cfg), .data (BitVec.ofNat 8 (cfg / 256))] }

/-- One character leaves: its code group, and the transmitter after it. -/
def lineSend (refill : LineTx → LineTx) (t : LineTx) : Nat × LineTx :=
  let t := if t.queue.isEmpty then refill t else t
  match t.queue with
  | [] => (0, t)
  | c :: r =>
    let e := encodeChar t.rd c
    (e.1, { t with rd := e.2, odd := !t.odd, queue := r })

/-- `n` characters leave: their code groups in order, and the transmitter after them. -/
def lineSends (refill : LineTx → LineTx) : Nat → LineTx → List Nat × LineTx
  | 0, t => ([], t)
  | n + 1, t =>
    let x := lineSend refill t
    let y := lineSends refill n x.2
    (x.1 :: y.1, y.2)

/-- Characters join the queue; the count of idles starts again (R127). -/
def lineAppend (t : LineTx) (cs : List LineChar) : LineTx := { t with idles := 0, queue := t.queue ++ cs }

/-- A time marker goes at the first even character position, before what waits and within a frame under way (R471). -/
def lineMarker (t : LineTx) (q : Nat) : LineTx :=
  let m : List LineChar := [.k k281, .data (BitVec.ofNat 8 q), .data (~~~ BitVec.ofNat 8 q), .data 0#8]
  let n := if t.odd then 1 else 0
  { t with idles := 0, queue := t.queue.take n ++ m ++ t.queue.drop n }

/-- A character of a set or frame that has begun. -/
def LineChar.isData : LineChar → Bool
  | .data _ => true
  | .k _ => false

/-- A transmitter gives up what waits. A frame under way ends in error: K30.7 stands for its next character (R126), and K29.7 follows; DESIGN
CHOICE: with one K30.7 more where the position is odd, so that the next set begins in an even one (log 35). -/
def lineAbort (t : LineTx) : LineTx :=
  if (t.queue.dropWhile LineChar.isData).head? = some (.k k297) then
    { t with queue := (if t.odd then [.k k307] else []) ++ [.k k307, .k k297] }
  else { t with queue := t.queue.takeWhile LineChar.isData }

/-- A transmitter that stops: running disparity is negative when it starts again (R124); its PRBS31 runs on (R127). -/
def lineStop (t : LineTx) : LineTx := { LineTx.start with prbs := t.prbs }

/-- Characters of a Belay frame (R462). -/
def belayChars (bs : List Byte) : List LineChar := .k k277 :: bs.map .data ++ [.k k297]

/-- Characters of an MGMT0 frame, from DA to FCS: /S/, the rest of the preamble, the bytes, and /T/ /R/ with a second /R/ where the next set
would begin in an odd position (Clause 36). -/
def mgmtChars (bs : List Byte) : List LineChar :=
  .k k277 :: List.replicate 6 (.data 0x55#8) ++ [.data 0xD5#8] ++ bs.map .data ++ [.k k297, .k k237] ++
    (if bs.length % 2 = 0 then [] else [.k k237])

/-! ## The transmitters of the device -/

/-- Transmitter of line `i`. -/
def Dev.line (d : Dev) (i : Nat) : LineTx := d.lines.getD i LineTx.start
def Dev.lineMap (d : Dev) (i : Nat) (f : LineTx → LineTx) : Dev := { d with lines := d.lines.set i (f (d.line i)) }

/-- Characters that line `i` sends between two times in timebase cycles: 1.25 a nanosecond on a Belay port, one in 8 ns on MGMT0. -/
def lineChars (i a b : Nat) : Nat := if i < 2 then b * 5 / 4 - a * 5 / 4 else b / 8 - a / 8

end Sys2Proof.Machine
end

