-- ==== Sys2Proof/Machine/Rings.lean ====
section
/-! DEFINITION. The descriptor rings' rows (R344 to R357, R363): doorbells and acknowledgements, the punt scheduler, transmit
descriptors, stopping a ring, trap-class reserves, and MGMT0. -/

namespace Sys2Proof.Machine

/-! ## Doorbells and acknowledgements (R346, R347) -/

/-- A doorbell that the rules refuse. -/
def doorbellBad (d : Dev) (m : Master) (n t : Nat) : Bool :=
  let size := ringSize d n
  let head := d.get (ringHeadF n)
  let tail := d.get (ringTailF n)
  (m == .mgmt) != ringMgmt d n || !ringEnabled d n || decide (size ≤ t) ||
    decide ((head + 2 * size - tail - 1) % size < (t + size - tail) % size)

/-- A doorbell write (R346). -/
def doorbell (d : Dev) (m : Master) (n t : Nat) : Dev :=
  if doorbellBad d m n t then (d.count 0xB R.DOORBELL_REFUSED).latch 0xB 1 else d.set (ringTailF n) t

/-- A write of ACK (R347). -/
def ringAck (d : Dev) (m : Master) (n v : Nat) : Dev :=
  if (m == .mgmt) != ringMgmt d n then d
  else if n < 128 then ringEval (d.set (ringAckF n) v) d n else d.set (ringAckF n) v

/-! ## Stopping and starting a ring (R345) -/

/-- ENABLE is written 0: the ring stops at its next descriptor boundary. -/
def ringDisable (d : Dev) (n : Nat) : Dev :=
  if ringEnabled d n then (d.set (ringEnableF n) 0).set (L.RING_STOPPING n) 1 else d

/-- The stopped ring's taken descriptors are given up, with the frames that only they held. -/
def ringForget (d : Dev) (n : Nat) : Dev :=
  let ids := (ringTaken d n).filterMap (·.frame)
  let d := { d with descs := d.descs.filter (·.ring != n) }
  ids.foldl (fun d id => frameRelease d id) d

/-- The ring has stopped: the copies in its queue are discarded and counted in RING_DISCARDS. -/
def ringStopped (run : RunState) (d : Dev) (n : Nat) : Dev :=
  let d := ringForget (d.set (L.RING_STOPPING n) 0) n
  if n < 128 then
    (d.copies.filter (·.queue == 4096 + n)).foldl (fun d c => ringStat (dropCopy run d c) n 3 1) d
  else d

/-- The ring stands at a descriptor boundary: no taken descriptor is open, or it had stopped in error already. -/
def ringAtBoundary (d : Dev) (n : Nat) : Bool := (ringTaken d n).isEmpty || d.on (ringErrorF n)

/-- ENABLE is written 1: HEAD, TAIL and ACK start at 0 and ERROR is clear. A stop that has not finished finishes first. -/
def ringStart (run : RunState) (d : Dev) (n : Nat) : Dev :=
  let d := if d.on (L.RING_STOPPING n) then ringStopped run d n else d
  let e := d.setAll [(ringHeadF n, 0), (ringTailF n, 0), (ringAckF n, 0), (ringErrorF n, 0), (ringEnableF n, 1)]
  if n < 128 then ringEval e d n else e

/-! ## Reading a descriptor -/

/-- The words of the next descriptor: as the host's memory holds them, or read from management memory. `none` when the read is
refused. -/
def ringWords (d : Dev) (n : Nat) (host : List Word) : Dev × Option (List Nat) :=
  let a := ringBase d n + 32 * ringNext d n
  if ringMgmt d n then
    match dmaRead d a 32 with
    | (d, true) => (d, some ((Crypto.chunked 4 (memBytes d a 32)).map leVal))
    | (d, false) => (d, none)
  else (d, some ((List.range 8).map fun i => (host.getD i 0).toNat))

/-- Take the next descriptor of a ring: its index and words, or the ring stops (R347, R447). -/
def ringFetch (d : Dev) (n : Nat) (host : List Word) (frame : Option Nat) : Dev × Option (Nat × List Nat) :=
  match ringWords d n host with
  | (d, none) => (ringStop d n, none)
  | (d, some ws) =>
    match ringTake d n ws frame with
    | (d, some ix) => (d, some (ix, ws))
    | (d, none) => (d, none)

/-! ## The punt scheduler (R352) -/

/-- Rings that a delivery can serve: receive rings that run, with a waiting copy and a free descriptor. -/
def puntRings (d : Dev) : List Nat :=
  (List.range 128).filter fun n => ringRuns d n && !ringTx d n && (queueHead d (4096 + n)).isSome && ringHasDesc d n

/-- Bytes known of a frame: its LENGTH once the tail is in. -/
def frameLen (d : Dev) (id : Nat) : Nat :=
  match getFrame d id with
  | some f => f.plain.length
  | none => 0

/-- Bytes that the delivery of a ring's head copy takes: LENGTH plus 4 (R352), as far as it has arrived. -/
def puntBytes (d : Dev) (n : Nat) : Nat :=
  match queueHead d (4096 + n) with
  | some c => frameLen d c.frame + 4
  | none => 0

/-- QUANTUM of a ring, with the limits of the traffic manager's (R334, R366). -/
def ringQuantum (d : Dev) (n : Nat) : Nat := min 1048576 (max 64 (d.get (R.RING_QUANTUM n)))

/-- Deficit round robin over the eligible rings of a tier (R314, R352): the ring that is served. -/
def puntDrr (d : Dev) (tier : Nat) (el : List Nat) : Nat → Dev × Option Nat
  | 0 => (d, none)
  | fuel + 1 =>
    let pos := d.get (L.RING_POS tier)
    let served := pos ≠ 0 ∧ el.contains (pos - 1) ∧ d.on (L.RING_VISIT tier) ∧
      puntBytes d (pos - 1) ≤ d.get (L.RING_DEFICIT (pos - 1) (tier - 1))
    if served then (d, some (pos - 1))
    else
      match (el.find? fun n => decide (pos ≤ n)).or el.head? with
      | none => (d, none)
      | some n =>
        let f := L.RING_DEFICIT n (tier - 1)
        puntDrr (d.setAll [(L.RING_POS tier, n + 1), (L.RING_VISIT tier, 1), (f, d.get f + ringQuantum d n)]) tier el fuel

/-- The timebase cycle in which the ceiling bucket, below zero when it was last filled, reaches zero; now where that is still to come. -/
def ceilZero (d : Dev) : Nat :=
  d.cyc - (d.time - (d.get L.CEIL_SINCE + (d.get L.CEIL_DEF - ceilBurst d * tokUnit) / ceilRate d)) / fineNs

/-- Count the fabric cycles in which copies wait while the ceiling bucket is negative (R352), up to now. -/
def ceilDeferred (d : Dev) : Dev :=
  let a := d.get L.CEIL_SEEN
  let d := d.set L.CEIL_SEEN d.cyc
  if bucketNegative d L.CEIL_DEF (ceilBurst d) && !(puntRings d).isEmpty then
    d.count 8 R.CEILING_DEFERRED (fabricCycles (min a (ceilZero d)) (ceilZero d))
  else d

/-- The head copy of ring `n` is delivered in a tier (R348, R352). -/
def puntDeliver (run : RunState) (d : Dev) (n tier : Nat) (host : List Word) : Dev :=
  match queueHead d (4096 + n) with
  | none => d
  | some c =>
    match getFrame d c.frame with
    | none => d
    | some f =>
      match ringFetch d n host (some c.frame) with
      | (d, none) => d
      | (d, some (ix, _)) =>
        let bytes := f.plain.length + 4
        let d := puntCharge d n tier bytes
        let d := hwmSojourn run d c.queue c.joined
        let d := queueEmptied { d with copies := d.copies.filter (·.id != c.id),
                                       descs := d.descs.map fun x => if x.ring == n && x.index == ix then { x with tier := tier, charged := bytes } else x } c.queue
        if f.tail then
          match d.descs.find? fun x => x.ring == n && x.index == ix with
          | some x => frameRelease (ringDone run d x f) f.id
          | none => d
        else d

/-- The delivery scheduler serves one copy (R352). -/
def puntServe (run : RunState) (d : Dev) (host : List Word) : Dev :=
  let d := puntFill (ceilDeferred d)
  if bucketNegative d L.CEIL_DEF (ceilBurst d) then d
  else
    let all := puntRings d
    let one := all.filter fun n => reserveOk d (d.get (R.RING_TRAP_CLASS n))
    let tier := if one.isEmpty then 2 else 1
    match puntDrr d tier (if one.isEmpty then all else one) 65536 with
    | (d, some n) => puntDeliver run d n tier host
    | (d, none) => d

/-! ## Transmit descriptors (R349, R350) -/

/-- A frame injected from a transmit ring. -/
def ringFrame (n id : Nat) (bs : List Byte) : Frame :=
  { id := id, fromRing := true, src := n, pmac := false, stamp := 0, stamped := false, tsHold := false, tsUncal := false, wire := [],
    plain := bs, errored := false, tail := true, passed := true, failed := false, kind := .plain, charges := [], secy := none, sc := 0,
    sa := none, pn := 0, key := 0, salt := 0, ssci := 0, sci := 0, suite := 0, off := 0, load := 0, secStatus := 0, bypassClass := 0,
    rule := none, vid := 0, noLearn := false, meter := none, traps := [], cells := 0, cellNos := [], looped := false, status := 0 }

def txLen (ws : List Nat) : Nat := bitsOf (ws.getD 2 0) 0 14
def txDirect (ws : List Nat) : Bool := bitAt (ws.getD 2 0) 16
def txPort (ws : List Nat) : Nat := bitsOf (ws.getD 2 0) 24 8
def txQueue (ws : List Nat) : Nat := bitsOf (ws.getD 3 0) 0 4
def txCdOp (ws : List Nat) : Nat := bitsOf (ws.getD 3 0) 4 3
def txTsReq (ws : List Nat) : Bool := bitAt (ws.getD 3 0) 7
def txAddr (ws : List Nat) : Nat := ws.getD 0 0 + ws.getD 1 0 * 2 ^ 32
/-- TIME of a transmit descriptor, as a time (R349). -/
def txTime (ws : List Nat) : Nat :=
  timeOf (ws.getD 5 0 + bitsOf (ws.getD 6 0) 0 16 * 2 ^ 32) (bitsOf (ws.getD 4 0) 0 30) (bitsOf (ws.getD 6 0) 16 16)

/-- A transmit descriptor that completes with BAD_DESC (R349). -/
def txBad (d : Dev) (ws : List Nat) : Bool :=
  decide (txLen ws < 60) || decide (15996 < txLen ws) || (if txDirect ws then !served d (txPort ws) else txTsReq ws)

/-- A transmit descriptor completes at once. -/
def txDescEnd (d : Dev) (n ix st : Nat) : Dev :=
  let d := descDone d n ix (txDescStatus st) st
  if st = 2 then ringStat d n 4 1 else d

/-- The frame's bytes: as the host's memory holds them, or read from management memory; `none` when refused. -/
def txData (d : Dev) (n : Nat) (ws : List Nat) (host : List Byte) : Dev × Option (List Byte) :=
  if ringMgmt d n then
    match dmaRead d (txAddr ws) (txLen ws) with
    | (d, true) => (d, some (memBytes d (txAddr ws) (txLen ws)))
    | (d, false) => (d, none)
  else (d, some (Crypto.padTo (txLen ws) (host.take (txLen ws))))

/-- The frame of a transmit descriptor is admitted (R349, R350). -/
def txAdmit (run : RunState) (d : Dev) (n ix : Nat) (ws : List Nat) (bs : List Byte) : Dev :=
  let (d, id) := newSerial d
  let cells := cellsOf (bs.length + 4)
  let f := { ringFrame n id bs with cells := cells }
  let d := { d with frames := d.frames ++ [f] }
  let d := ringStat (ringStat d n 0 1) n 1 bs.length
  let d :=
    if txDirect ws then
      let waits := txTsReq ws || txCdOp ws != 0
      let r := copyTo run d f (16 * txPort ws + txQueue ws) ⟨false, false, 0, 0, false, false, false⟩
        (txCdOp ws) (txTime ws) 0 (if waits then some (n, ix) else none) (txTsReq ws)
      if r.2 then (if waits then r.1 else txDescEnd r.1 n ix 0) else txDescEnd r.1 n ix (if waits then 3 else 1)
    else
      let r := forward run d id (some (bs.length + 4)) (txCdOp ws) (txTime ws)
      txDescEnd r.1 n ix (if r.2 = 0 then 1 else 0)
  containDiscard run (frameRelease (settleFrame d id cells) id)

/-- The device takes a descriptor of a transmit ring and reads its frame. -/
def txFetch (run : RunState) (power : PowerState) (d : Dev) (n : Nat) (host : List Word) (data : List Byte) : Dev :=
  if !ringRuns d n || !ringTx d n || !ringHasDesc d n then d
  else
    match ringFetch d n host none with
    | (d, none) => d
    | (d, some (ix, ws)) =>
      if txBad d ws then txDescEnd d n ix 2
      else match txData d n ws data with
        | (d, none) => txDescEnd d n ix 2
        | (d, some bs) => if power == .active then txAdmit run d n ix ws bs else txDescEnd d n ix 1

/-! ## Trap-class reserves (R353) -/

/-- A write of CLASS_RESERVE. -/
def reserveWrite (d : Dev) (c v : Nat) : Dev :=
  if 100 < v then d
  else
    let d0 := puntFill d
    let d1 := d0.set (R.CLASS_RESERVE c) v
    if 100 < sumBelow (classReserve d1) 16 then d.set R.PUNT_STATUS_RESERVE_REFUSED 1
    else
      let d1 := if classReserve d0 c = 0 then d1.setAll [(L.RES_DEF c, 0), (L.RES_SINCE c, d.time)] else d1
      d1.set R.PUNT_STATUS_RESERVE_REFUSED 0

/-! ## MGMT0 (R363) -/

/-- MGMT0 runs. -/
def m0Runs (d : Dev) : Bool := d.on (L.PAGE_ENABLE 8) && d.on R.MGMT0_CTRL_ENABLE && !d.on R.MGMT_STATUS_RESTARTING

/-- LINK takes a value; event bit 12 when it changes. -/
def m0Link (d : Dev) (up an : Bool) : Dev :=
  let was := d.on R.MGMT0_STATUS_LINK
  (d.setAll [(R.MGMT0_STATUS_LINK, b2n up), (R.MGMT0_STATUS_AN_DONE, b2n (up && an && d.on R.MGMT0_CTRL_AN_EN))]).latchIf (was != up) 8 12

/-- MGMT0 is held in reset: its link is down, its line stops, its rings are disabled and stand at their start. -/
def m0Reset (d : Dev) : Dev :=
  let d := ((m0Link d false false).lineMap 2 lineStop).setAll [(R.MGMT0_STATUS_ADAPT_FROZEN, 0), (R.MGMT0_STATUS_LOW_RUN, 0)]
  d.each 2 fun i d => (ringForget d (128 + i)).setAll [(ringEnableF (128 + i), 0), (ringHeadF (128 + i), 0), (ringTailF (128 + i), 0),
    (ringAckF (128 + i), 0), (ringErrorF (128 + i), 0), (L.RING_STOPPING (128 + i), 0)]

/-- A frame arrives on MGMT0: `ended` when it ended with an error, `viol` code violations in it (R124). With no free descriptor
it is lost. -/
def m0Receive (d : Dev) (bs : List Byte) (ended : Bool) (viol : Nat) : Dev :=
  if !m0Runs d || !d.on R.MGMT0_STATUS_LINK then d
  else
    let d := if viol = 0 then d else d.count 8 R.MGMT0_CODE_VIOL viol
    if !ringRuns d 128 || !ringHasDesc d 128 then d
    else
      let body := bs.take (bs.length - 4)
      let bad := ended || viol != 0 || decide (bs.length < 64) || Crypto.fcs body != bs.drop (bs.length - 4)
      match ringFetch d 128 [] none with
      | (d, none) => d
      | (d, some (ix, _)) =>
        match d.descs.find? fun x => x.ring == 128 && x.index == ix with
        | some x => rxDescEnd d x { ringFrame 0 0 body with fromRing := false, status := if bad then 4 else 0 }
        | none => d

/-- Place on the line that `Out.frame` gives MGMT0. -/
def m0Port : Nat := 256

/-- A descriptor of the MGMT0 transmit ring is taken and its frame is sent. -/
def m0Transmit (d : Dev) : Dev :=
  if !m0Runs d || !d.on R.MGMT0_STATUS_LINK || !ringRuns d 129 || !ringHasDesc d 129 then d
  else
    match ringFetch d 129 [] none with
    | (d, none) => d
    | (d, some (ix, ws)) =>
      if txLen ws < 60 ∨ 15996 < txLen ws ∨ txTsReq ws ∨ txCdOp ws ≠ 0 then txDescEnd d 129 ix 2
      else match txData d 129 ws [] with
        | (d, none) => txDescEnd d 129 ix 2
        | (d, some bs) => txDescEnd ((d.lineMap 2 fun t => lineAppend t (mgmtChars (bs ++ Crypto.fcs bs))).emit
            (.frame m0Port d.time (bs ++ Crypto.fcs bs))) 129 ix 0

/-! ## Rows -/

/-- RING_DOORBELL (R346): rings 128 and 129 are the MGMT0 rings. -/
def execRingDoorbell (m : Master) (n : Fin 130) (t : BitVec 16) (s : State) : Host.Outcome State Fault Refusal :=
  s.page 0xB fun d => doorbell d m n t.toNat
/-- RING_ACK_WRITE (R347). -/
def execRingAckWrite (m : Master) (n : Fin 130) (v : BitVec 16) (s : State) : Host.Outcome State Fault Refusal :=
  s.page 0xB fun d => ringAck d m n v.toNat
/-- RX_RING_DELIVERY (R352): `words` is the descriptor as the host's memory holds it. -/
def execRxRingDelivery (words : List Word) (s : State) : Host.Outcome State Fault Refusal :=
  s.lanes fun d => puntServe s.run d words
/-- TX_DESCRIPTOR_FETCH (R349): the descriptor and the frame's bytes as the host's memory holds them. -/
def execTxDescriptorFetch (n : Fin 128) (words : List Word) (data : List Byte) (s : State) : Host.Outcome State Fault Refusal :=
  s.lanes fun d => txFetch s.run s.power d n words data
/-- RING_STOP (R345). -/
def execRingStop (n : Fin 130) (s : State) : Host.Outcome State Fault Refusal :=
  s.lanes fun d => if d.on (L.RING_STOPPING n) && ringAtBoundary d n then ringStopped s.run d n else d
/-- CLASS_RESERVE_WRITE (R353). -/
def execClassReserveWrite (c : Fin 16) (v : BitVec 7) (s : State) : Host.Outcome State Fault Refusal :=
  s.page 8 fun d => reserveWrite d c v.toNat
/-- MGMT0_RX_FRAME (R363): the frame with its FCS, whether it ended with an error, and code violations in it (R124). -/
def execMgmt0RxFrame (bytes : List Byte) (ended : Bool) (violations : Nat) (s : State) : Host.Outcome State Fault Refusal :=
  s.lanes fun d => m0Receive d bytes ended violations
/-- MGMT0_TX_DESCRIPTOR (R363). -/
def execMgmt0TxDescriptor (s : State) : Host.Outcome State Fault Refusal := s.lanes m0Transmit
/-- MGMT0_LINK_CHANGE (R365). -/
def execMgmt0LinkChange (up : Bool) (anDone : Bool) (s : State) : Host.Outcome State Fault Refusal :=
  s.lanes fun d => if m0Runs d then m0Link d up anDone else d

end Sys2Proof.Machine
end

