-- ==== Sys2Proof/Machine/Timebase.lean ====
section
/-! DEFINITION. The timebase: device time, its latch, steering by rate, step and slew, holdover, the PPS inputs and the
time-of-day UART (R65 to R76), and what one tick does. -/

namespace Sys2Proof.Machine

/-! ## Holdover (R73, R74) -/

/-- The rope disciplines time: DISCIPLINE_SRC is ROPE on a device that is not the lead (R72). -/
def ropeDisciplined (d : Dev) : Bool := d.on R.TB_CTRL_DISCIPLINE_SRC && d.get R.ROPE_CFG_ROLE != 1

/-- Belay port `b` is UP and carries lead time: its latest TIME frame gives HOPS_FROM_LEAD below 0xFF (R473). -/
def leadTime (d : Dev) (b : Nat) : Bool := d.get (R.BELAY_STATUS_LINK b) == 4 && d.get (L.B_HOPS b) != 255

/-- The rope cause: on a member that the rope disciplines, no port carries the lead's time (R73, R479). -/
def ropeCause (d : Dev) : Bool :=
  ropeDisciplined d && d.get R.ROPE_CFG_ROLE == 2 && !leadTime d 0 && !leadTime d 1

/-- At least one cause of holdover holds (R73). -/
def holdoverCause (d : Dev) : Bool :=
  d.on R.TB_CTRL_FORCE_HOLDOVER || d.on R.TB_STATUS_REF_LOST ||
    (!ropeDisciplined d && d.on L.HO_FW) || ropeCause d

/-- Holdover begins with its first cause and ends with its last; each edge latches its event bit (R73). -/
def holdoverUpdate (d : Dev) : Dev :=
  if holdoverCause d then
    if d.on R.TB_STATUS_HOLDOVER then d else (d.set R.TB_STATUS_HOLDOVER 1).latch 2 2
  else
    if d.on R.TB_STATUS_HOLDOVER then (d.set R.TB_STATUS_HOLDOVER 0).latch 2 3 else d

/-- An accepted rate commit or ADJ_CMD: the firmware cause ends and the HOLDOVER_TIMEOUT count starts again (R73). -/
def steeringAccepted (d : Dev) : Dev := holdoverUpdate (d.setAll [(L.HO_FW, 0), (L.HO_SINCE, d.cyc)])

/-- A steering write ignored under ROPE discipline (R72). -/
def disciplineRefused (d : Dev) : Dev := (d.count 2 R.DISCIPLINE_REFUSED).latch 2 9

/-! ## Rate (R69) -/

/-- The limit of RATE_ADJ, 1,000 ppm in units of 2^-48 ns/ns. -/
def rateLimit : Int := 281474976711

/-- The rate of device time has changed by `z` units of 2^-48: R244 counts such changes between issue and start. -/
def rateMoved (d : Dev) (z : Int) : Dev := d.satAdd L.RATE_MOVED z.natAbs

/-- A committed RATE_ADJ value is in effect: the first tick after its commit has come. -/
def rateApply (d : Dev) (v : Nat) : Dev :=
  let z := toSigned 40 v
  let c := if z > rateLimit then rateLimit else if z < -rateLimit then -rateLimit else z
  let clamped := decide (c ≠ z)
  let d := rateMoved d (c - toSigned 40 (d.get R.RATE_ADJ))
  steeringAccepted (((d.set R.RATE_ADJ (ofSigned 40 c)).setB R.TB_STATUS_RATE_CLAMPED clamped).latchIf clamped 2 8)

/-- RATE_ADJ is committed: it takes effect in the next tick, or is ignored under ROPE discipline (R69, R72). -/
def rateCommit (d : Dev) (v : Nat) : Dev := if ropeDisciplined d then disciplineRefused d else d.post (.rate v)

/-! ## Phase (R70, R71) -/

/-- OFFSET in units of 2^-48 ns: OFFSET_NS is signed, OFFSET_FRAC unsigned (R70). -/
def adjOffset (d : Dev) : Int :=
  toSigned 64 (d.get R.OFFSET_NS) * (fineNs : Int) + (d.get R.OFFSET_FRAC * 2 ^ 32 : Nat)

/-- Load the slew remainder. DESIGN CHOICE: ADJ_REMAIN, whole nanoseconds, shows the remainder rounded towards minus infinity; the
spec gives no rounding (log 10). -/
def setSlew (d : Dev) (z : Int) : Dev :=
  d.setAll [(L.ADJ_FINE, ofSigned 128 z), (R.ADJ_REMAIN, ofSigned 64 (z / (fineNs : Int)))]

/-- First time that needs more than 48 bits of seconds (R70). -/
def timeLimit : Int := (2 ^ 48 * fineSec : Nat)

/-- Device time steps by `off`: any slew is discarded, TIME_SET, STEP_COUNT and event bit 0 (R70). -/
def timeStepBy (d : Dev) (off : Int) : Dev :=
  let d := (setSlew d 0).setAll [(R.TB_STATUS_SLEWING, 0), (R.TB_STATUS_TIME_SET, 1)]
  stepTime ((d.count 2 R.STEP_COUNT).latch 2 0) ((d.time : Int) + off).toNat

/-- Is the time after a step by `off` representable? (R70) -/
def stepInRange (d : Dev) (off : Int) : Bool :=
  decide (0 ≤ (d.time : Int) + off) && decide ((d.time : Int) + off < timeLimit)

/-- Rate of a slew in units of 2^-40: SLEW_RATE, or that of the rope discipline (R71, R473). -/
def slewRate (d : Dev) : Nat := if ropeDisciplined d then d.get L.ROPE_SLEW else min (d.get R.SLEW_RATE) 549755814

/-- The change of rate that a slew makes (R71). -/
def slewMove (d : Dev) : Int := if d.on R.TB_STATUS_SLEWING then (slewRate d * 2 ^ 8 : Nat) else 0

/-- ADJ_CMD acts with its MODE and the offset of its write (R70, R71). -/
def adjApply (d : Dev) (mode : Nat) (off : Int) : Dev :=
  if mode = 1 then
    if stepInRange d off then steeringAccepted (timeStepBy (d.set R.TB_STATUS_ADJ_REFUSED 0) off)
    else d.set R.TB_STATUS_ADJ_REFUSED 1
  else if mode = 2 then
    if d.get R.SLEW_RATE = 0 then d.set R.TB_STATUS_ADJ_REFUSED 1
    else
      let d := rateMoved d (slewMove d)
      let d := steeringAccepted ((setSlew d off).setAll [(R.TB_STATUS_SLEWING, 1), (R.TB_STATUS_ADJ_REFUSED, 0)])
      rateMoved d (slewMove d)
  else steeringAccepted ((setSlew (rateMoved d (slewMove d)) 0).setAll [(R.TB_STATUS_SLEWING, 0), (R.TB_STATUS_ADJ_REFUSED, 0)])

/-- ADJ_CMD is written: it acts in the next tick, or is ignored under ROPE discipline (R70 to R72); MODE 0 is no command. -/
def adjCmd (d : Dev) (mode : Nat) : Dev :=
  if mode = 0 then d else if ropeDisciplined d then disciplineRefused d else d.post (.adj mode (adjOffset d))

/-- The slew has reached zero remainder: it ends and latches event bit 1 (R71). -/
def slewDone (d : Dev) : Dev :=
  if d.on R.TB_STATUS_SLEWING && d.get L.ADJ_FINE == 0 then ((rateMoved d (slewMove d)).set R.TB_STATUS_SLEWING 0).latch 2 1 else d

/-! ## One tick (R67, R71, R82) -/

/-- The slew of one timebase cycle, in units of 2^-48 ns: SLEW_RATE × 2^-40 ns towards the remainder (R71). -/
def slewStep (d : Dev) : Int :=
  let r := toSigned 128 (d.get L.ADJ_FINE)
  let m : Int := (slewRate d * 2 ^ 8 : Nat)
  if !d.on R.TB_STATUS_SLEWING then 0 else if r > 0 then min r m else max r (-m)

/-- One timebase cycle: device time advances by (1 + RATE_ADJ × 2^-48) ns and the slew (R67, R71). -/
def timebaseCycle (d : Dev) : Dev :=
  let s := slewStep d
  let d := if s = 0 then d else setSlew d (toSigned 128 (d.get L.ADJ_FINE) - s)
  { d with time := ((d.time : Int) + (fineNs : Int) + toSigned 40 (d.get R.RATE_ADJ) + s).toNat, cyc := d.cyc + 1 }

/-- Timebase cycles until device time reaches or passes the multiple of 4 ns `t`; `fuel` bounds the count, which R82
gives as three to five. -/
def cyclesTo (t : Nat) : Nat → Dev → Dev
  | 0, d => d
  | fuel + 1, d => let d := timebaseCycle d; if t ≤ d.time then d else cyclesTo t fuel d

/-- The next tick, with the multiple of 4 ns that it carries (R82). Before the timebase PLL locks there is none. -/
def tickDev (d : Dev) : Dev :=
  if d.on L.TB_RUN then
    let t := d.nextTick
    let d := cyclesTo t 8 d
    { d with tick := d.tick + 1, tickTime := t, nextTick := t + 4 * fineNs }
  else d

/-! ## Start, references, holdover timeout -/

/-- The timebase PLL locks: device time starts at 0 (R66). -/
def timebaseLock (d : Dev) : Dev :=
  if d.on L.TB_RUN then d
  else ({ d with time := 0, cyc := 0, tick := 0, tickTime := 0, nextTick := 4 * fineNs }).setAll
    [(L.TB_RUN, 1), (R.TB_STATUS_PLL_LOCKED, 1), (R.RATE_ADJ, 0), (R.TB_STATUS_TIME_SET, 0), (L.HO_SINCE, 0)]

/-- The timing reference is lost: AL33, REF_LOST, event bit 4, holdover (R74, R389). The PLL is out of lock until the reference is back,
for then it "relocks"; device time keeps running. -/
def refLost (d : Dev) : Dev :=
  if d.on R.TB_STATUS_REF_LOST then d
  else holdoverUpdate (((d.alarmLevel 33 true).setAll [(R.TB_STATUS_REF_LOST, 1), (R.TB_STATUS_PLL_LOCKED, 0)]).latch 2 4)

/-- The timing reference is back within range (R74). -/
def refRestored (d : Dev) : Dev :=
  if d.on R.TB_STATUS_REF_LOST then
    holdoverUpdate (((d.alarmLevel 33 false).setAll [(R.TB_STATUS_REF_LOST, 0), (R.TB_STATUS_PLL_LOCKED, d.get L.TB_RUN)]).latch 2 5)
  else d

/-- HOLDOVER_TIMEOUT milliseconds have passed without accepted steering (R73). One timebase cycle is 1 ns. -/
def holdoverTimeout (d : Dev) : Dev :=
  let ms := d.get R.HOLDOVER_TIMEOUT
  if !ropeDisciplined d && ms != 0 && decide (d.get L.HO_SINCE + ms * 1000000 ≤ d.cyc) then
    holdoverUpdate (d.set L.HO_FW 1)
  else d

/-- DISCIPLINE_SRC takes a new value (R73). -/
def disciplineSrc (d : Dev) (rope : Bool) : Dev :=
  if d.on R.TB_CTRL_DISCIPLINE_SRC = rope then d
  else if rope then
    holdoverUpdate (d.setAll [(R.TB_CTRL_DISCIPLINE_SRC, 1), (L.HO_FW, 0)])
  else
    let held := d.on R.TB_STATUS_HOLDOVER
    let d := d.set R.TB_CTRL_DISCIPLINE_SRC 0
    holdoverUpdate (if held then d.set L.HO_FW 1 else d.setAll [(L.HO_FW, 0), (L.HO_SINCE, d.cyc)])

/-! ## Reading the time (R68) -/

/-- The words of a latch group: fraction, nanoseconds, low and high seconds; group 0 is TIME_NOW, 1 and 2 the PPS
captures. -/
def timeGroup (d : Dev) (g : Nat) : Nat × Nat × Nat × Nat :=
  if g = 0 then (fracOf d.time, nsOf d.time, secOf d.time % 2 ^ 32, secOf d.time / 2 ^ 32 % 2 ^ 16)
  else if g = 1 then (d.get R.PPS_IN0_TIME_FRAC, d.get R.PPS_IN0_TIME_NS, d.get R.PPS_IN0_TIME_SEC_LO, d.get R.PPS_IN0_TIME_SEC_HI)
  else (d.get R.PPS_IN1_TIME_FRAC, d.get R.PPS_IN1_TIME_NS, d.get R.PPS_IN1_TIME_SEC_LO, d.get R.PPS_IN1_TIME_SEC_HI)

/-- Offset of the fraction word of a latch group (R97). -/
def timeGroupOff (g : Nat) : Nat := if g = 0 then 0x100 else if g = 1 then 0x140 else 0x150

/-! ## PPS inputs (R75) -/

/-- Field of PPS_INn_TIME. -/
def ppsFields (n : Nat) : Fld × Fld × Fld × Fld :=
  if n = 0 then (R.PPS_IN0_TIME_FRAC, R.PPS_IN0_TIME_NS, R.PPS_IN0_TIME_SEC_LO, R.PPS_IN0_TIME_SEC_HI)
  else (R.PPS_IN1_TIME_FRAC, R.PPS_IN1_TIME_NS, R.PPS_IN1_TIME_SEC_LO, R.PPS_IN1_TIME_SEC_HI)

/-- An edge of PPS input `n` belonging to a pulse of `width` ns, `ago` units of 2^-16 ns before now at the ball: device time of that
instant less the input's delay is captured. A difference below zero has no representation in the spec: the captured value is then
free. -/
def ppsInEdge (d : Dev) (n : Nat) (rising : Bool) (width ago : Nat) : Dev :=
  let enabled := bitAt (d.get R.TB_CTRL_PPS_IN_EN) n
  let selected := bitAt (d.get R.TB_CTRL_PPS_IN_FALL) n != rising
  let tooSoon := d.on (L.PPS_LAST n) && decide (d.cyc + 1 ≤ d.get (L.PPS_LAST n) + 1000)
  if enabled && selected && decide (10 ≤ width) && !tooSoon then
    let z : Int := (d.time : Int) - (ago * 2 ^ 32 : Nat) - toSigned 32 (d.get (R.PPS_IN_DELAY n)) * (2 ^ 32 : Nat)
    let t := if 0 ≤ z then z.toNat else d.freeVal 128
    let d := if 0 ≤ z then d else d.tookFree
    let f := ppsFields n
    (d.setAll [(f.1, fracOf t), (f.2.1, nsOf t), (f.2.2.1, secOf t % 2 ^ 32), (f.2.2.2, secOf t / 2 ^ 32),
      (L.PPS_LAST n, d.cyc + 1)]).latch 2 (6 + n)
  else d

/-! ## Time-of-day UART (R76) -/

/-- Baud of TOD_CTRL.BAUD (R97). -/
def todBaud (d : Dev) : Nat :=
  let c := d.get R.TOD_CTRL_BAUD
  if c = 0 then 9600 else if c = 1 then 19200 else if c = 2 then 38400 else if c = 3 then 57600 else 115200

/-- Start sending what the transmit queue holds now, the first start bit at `t`. An empty queue, a disabled UART or a transmission in
progress sends nothing: DESIGN CHOICE, the spec names no precondition of a sending (log 11). -/
def todStart (d : Dev) (t : Nat) : Dev :=
  if d.todTx.isEmpty || !d.on R.TOD_CTRL_ENABLE || d.on L.TOD_TX_BUSY then d
  else d.setAll [(L.TOD_TX_BUSY, 1), (L.TOD_LEFT, d.todTx.length), (L.TOD_SENT, 0), (L.TOD_AT, d.cyc), (L.TOD_START_SEC, secOf t),
    (L.TOD_START_NS, nsOf t), (L.TOD_START_FRAC, fracOf t)]

/-- The first `k` bytes of the queue leave it and the part. -/
def todOut (d : Dev) (k : Nat) : Dev := if k = 0 then d else { d with todTx := d.todTx.drop k }.emit (.tod (d.todTx.take k))

/-- The bytes of the burst whose start bits have begun by now leave the queue; a byte has ten bit times (R76). -/
def todPump (d : Dev) : Dev :=
  if d.on L.TOD_TX_BUSY then
    let k := min (d.get L.TOD_LEFT) ((d.cyc - d.get L.TOD_AT) * todBaud d / 10000000000 + 1 - d.get L.TOD_SENT)
    (todOut d k).setAll [(L.TOD_LEFT, d.get L.TOD_LEFT - k), (L.TOD_SENT, d.get L.TOD_SENT + k)]
  else d

/-- A byte written to TOD_TX_DATA: it joins the 64-byte queue, or is ignored when that is full. With FREE_SEND 1 it is sent, behind a
transmission in progress; with 0 it waits for the next TOD_SEND. -/
def todTxWrite (d : Dev) (b : Byte) : Dev :=
  let fits := decide (d.todTx.length < 64)
  let d := if fits then { d with todTx := d.todTx ++ [b] } else d
  if !d.on R.TOD_CTRL_FREE_SEND then d
  else if d.on L.TOD_TX_BUSY then (if fits then d.set L.TOD_LEFT d.todTx.length else d)
  else todStart d d.time

/-- The last byte of the burst has been sent; the event says that the queue is empty. -/
def todTxEmpty (d : Dev) : Dev :=
  if d.on L.TOD_TX_BUSY then
    let d := (todOut d (d.get L.TOD_LEFT)).setAll [(L.TOD_TX_BUSY, 0), (L.TOD_LEFT, 0)]
    d.latchIf d.todTx.isEmpty 2 11
  else d

/-- A byte received: it joins the 64-byte queue, or is dropped when that is full. DESIGN CHOICE: a dropped byte latches no TOD_RX, and a
disabled UART receives nothing; the spec says neither (log 11). -/
def todRxByte (d : Dev) (b : Byte) : Dev :=
  if d.on R.TOD_CTRL_ENABLE && decide (d.todRx.length < 64) then ({ d with todRx := d.todRx ++ [b] }).latch 2 10 else d

/-- The word of TOD_RX_DATA (R97). -/
def todRxWord (d : Dev) : Nat :=
  match d.todRx with
  | b :: _ => b.toNat + 256
  | [] => 0

/-- TB_CTRL as a word written whole (R97): the discipline source, forced holdover and the PPS selections. -/
def tbCtrlWrite (d : Dev) (v : Nat) : Dev :=
  let d := d.setAll [(R.TB_CTRL_FORCE_HOLDOVER, bitsOf v 1 1), (R.TB_CTRL_PPS_OUT_EN, bitsOf v 8 2),
    (R.TB_CTRL_PPS_OUT_INV, bitsOf v 10 2), (R.TB_CTRL_PPS_IN_EN, bitsOf v 12 2), (R.TB_CTRL_PPS_IN_FALL, bitsOf v 14 2)]
  holdoverUpdate (disciplineSrc d (bitAt v 0))

/-- TOD_CTRL as a word written whole: BAUD codes 5 to 7 leave BAUD unchanged (R97). -/
def todCtrlWrite (d : Dev) (v : Nat) : Dev :=
  let d := if bitsOf v 0 3 ≤ 4 then d.set R.TOD_CTRL_BAUD (bitsOf v 0 3) else d
  let d := d.setAll [(R.TOD_CTRL_ENABLE, bitsOf v 8 1), (R.TOD_CTRL_FREE_SEND, bitsOf v 9 1)]
  if d.on R.TOD_CTRL_FREE_SEND then todStart d d.time else d

/-! ## The commands -/

/-- TIMEBASE_PLL_LOCK (R66). -/
def execTimebasePllLock (s : State) : Host.Outcome State Fault Refusal := s.inPower fun d => timebaseLock d
/-- RATE_ADJ_COMMIT (R69). -/
def execRateAdjCommit (rate : BitVec 40) (s : State) : Host.Outcome State Fault Refusal :=
  s.page 2 fun d => rateCommit d rate.toNat
/-- ADJ_STEP (R70). -/
def execAdjStep (s : State) : Host.Outcome State Fault Refusal := s.page 2 fun d => adjCmd d 1
/-- ADJ_SLEW (R71). -/
def execAdjSlew (s : State) : Host.Outcome State Fault Refusal := s.page 2 fun d => adjCmd d 2
/-- ADJ_ABORT (R71). -/
def execAdjAbort (s : State) : Host.Outcome State Fault Refusal := s.page 2 fun d => adjCmd d 3
/-- SLEW_DONE (R71). -/
def execSlewDone (s : State) : Host.Outcome State Fault Refusal := s.inPower fun d => slewDone d
/-- DISCIPLINE_SRC_WRITE (R73). -/
def execDisciplineSrcWrite (rope : Bool) (s : State) : Host.Outcome State Fault Refusal :=
  s.page 2 fun d => disciplineSrc d rope
/-- HOLDOVER_TIMEOUT (R73). -/
def execHoldoverTimeout (s : State) : Host.Outcome State Fault Refusal := s.inPower fun d => holdoverTimeout d
/-- REF_LOST (R74). -/
def execRefLost (s : State) : Host.Outcome State Fault Refusal := s.inPower fun d => refLost d
/-- REF_RESTORED (R74). -/
def execRefRestored (s : State) : Host.Outcome State Fault Refusal := s.inPower fun d => refRestored d
/-- PPS_IN_EDGE (R75). -/
def execPpsInEdge (n : Fin 2) (rising : Bool) (edge : PulseEdge) (s : State) : Host.Outcome State Fault Refusal :=
  s.inPower fun d => ppsInEdge d n rising edge.widthNs edge.ago
/-- TOD_TX_WRITE (R76). -/
def execTodTxWrite (b : Byte) (s : State) : Host.Outcome State Fault Refusal := s.page 2 fun d => todTxWrite d b
/-- TOD_RX_BYTE (R76). -/
def execTodRxByte (b : Byte) (s : State) : Host.Outcome State Fault Refusal := s.inPower fun d => todRxByte d b
/-- TOD_TX_EMPTY (R76). -/
def execTodTxEmpty (s : State) : Host.Outcome State Fault Refusal := s.inPower fun d => todTxEmpty d

end Sys2Proof.Machine
end

