-- ==== Sys2Proof/Machine/Rope.lean ====
section
/-! DEFINITION. The rope and the Belay link (R456 to R486): link states, frames and their seal, formation, time transfer and the
alarm frame. What a WAYPOINT or a remote frame does to registers is in RopeBus.lean. -/

namespace Sys2Proof.Machine

/-- Code of DEV_STATE.RUN_STATE (R39). -/
def RunState.code : RunState → Nat
  | .booting => 0
  | .active => 1
  | .contained => 2
  | .alarmHold => 3
  | .halted => 4
  | .zeroized => 5

/-! ## Roles and states (R456, R459, R484) -/

def lkOff : Nat := 0
def lkAlign : Nat := 1
def lkHello : Nat := 2
def lkConfirm : Nat := 3
def lkUp : Nat := 4
/-- Link state of Belay port `b`: 0 EAST, 1 WEST. -/
def link (d : Dev) (b : Nat) : Nat := d.get (R.BELAY_STATUS_LINK b)

def rpIdle : Nat := 0
def rpForming : Nat := 1
def rpFormed : Nat := 2
def rpDegraded : Nat := 3
def rpLeadLost : Nat := 4
def ropeState (d : Dev) : Nat := d.get R.ROPE_STATUS_STATE
def isLead (d : Dev) : Bool := d.get R.ROPE_CFG_ROLE == 1
def isMember (d : Dev) : Bool := d.get R.ROPE_CFG_ROLE == 2
/-- Own position: 0 on the lead (R456). -/
def ropePos (d : Dev) : Nat := if isLead d then 0 else d.get R.ROPE_CFG_POSITION
/-- EXPECTED_MASK with bit 0 acting as 1. -/
def ropeExpected (d : Dev) : Nat := d.get R.ROPE_CFG_EXPECTED_MASK ||| 1
/-- HOPS_FROM_LEAD: 0 on the lead, 0xFF without lead time (R471). -/
def ropeHops (d : Dev) : Nat := if isLead d then 0 else d.get R.ROPE_STATUS_HOPS_FROM_LEAD
/-- First entry of the rope region of the waypoint table. -/
def ropeFirst : Nat := 3584
/-- The rope region is locked: the device is a member of a rope (R95). -/
def ropeLocked (d : Dev) : Bool := isMember d && ropeState d != rpIdle

/-- The rope state changes, which latches event bit 8 (R469). -/
def ropeSet (d : Dev) (st : Nat) : Dev := if ropeState d = st then d else (d.set R.ROPE_STATUS_STATE st).latch 0xA 8
/-- A conflict of R470. -/
def ropeConflict (d : Dev) : Dev := (d.set L.ROPE_CONFLICT 1).latch 0xA 2

/-! ## Link states (R459, R478) -/

/-- A port that is no longer UP carries no lead time; without another port that does, there is no upstream (R473, R479). -/
def upstreamLost (d : Dev) (b : Nat) : Dev :=
  let d := d.setAll [(L.B_HOPS b, 255), (L.TM_RXV b, 0)]
  let d := if d.get R.ROPE_STATUS_UPSTREAM = b + 1 ∧ ¬ leadTime d (1 - b) then
      d.setAll [(R.ROPE_STATUS_UPSTREAM, 0), (R.ROPE_STATUS_HOPS_FROM_LEAD, 255)] else d
  holdoverUpdate d

/-- Port `b` takes a link state; entering or leaving UP latches event bit `b`. -/
def linkSet (d : Dev) (b st : Nat) : Dev :=
  let was := link d b
  let d := d.setAll [(R.BELAY_STATUS_LINK b, st), (L.B_AT b, d.cyc), (L.B_TAGFAILS b, 0)]
  if (was == lkUp) != (st == lkUp) then (if was = lkUp then upstreamLost d b else d).latch 0xA b else d

/-- Back to ALIGN, from any state but OFF; the frames that wait are lost. -/
def linkAlign (d : Dev) (b : Nat) : Dev :=
  if link d b = lkOff then d
  else ({ linkSet d b lkAlign with lineWait := d.lineWait.filter (·.port != b) }.lineMap b lineAbort).setAll [(L.B_PEER_V b, 0), (L.B_TXKEY b, 0), (L.B_RXKEY b, 0), (R.BELAY_STATUS_CONFLICT b, 0)]

/-- An UP port goes down for a cause of R478: it counts. -/
def linkDown (d : Dev) (b : Nat) : Dev :=
  if link d b = lkUp then linkAlign (d.count 0xA (R.BELAY_LINK_DOWNS b)) b else d

/-- Port `b` is on or off: BELAY_CTRL.ENABLE of a page that is enabled. -/
def linkEnable (d : Dev) (b : Nat) : Dev :=
  if d.on (L.PAGE_ENABLE 0xA) && d.on (R.BELAY_CTRL_ENABLE b) then (if link d b = lkOff then linkSet d b lkAlign else d)
  else if link d b = lkOff then d
  else ((linkAlign d b).lineMap b lineStop).setAll [(R.BELAY_STATUS_LINK b, lkOff), (R.BELAY_STATUS_ADAPT_FROZEN b, 0), (R.BELAY_STATUS_LOW_RUN b, 0)]

/-! ## Frames out (R462 to R464) -/

/-- Bytes 0 to 27 of a frame. -/
def belayHeader (typ origin hops dst len ctr epoch seq : Nat) : List Byte :=
  [BitVec.ofNat 8 typ, BitVec.ofNat 8 (origin + 16 * hops), BitVec.ofNat 8 dst, 0#8] ++ beBytes 2 len ++ [0#8, 0#8] ++
    beBytes 8 ctr ++ beBytes 4 epoch ++ beBytes 8 seq

/-- Put a frame on the line. -/
def belayEmit (d : Dev) (b : Nat) (bs : List Byte) : Dev := ((d.lineMap b fun t => lineAppend t (belayChars bs)).emit (.belay b bs)).count 0xA (R.BELAY_FRAMES_TX b)

/-- Put a frame on its line: a HELLO in clear, any other sealed under the next counter; a port whose counter reaches its end goes down
(R463). -/
def belaySeal (d : Dev) (w : LineWait) : Dev :=
  let b := w.port
  if w.type = 1 then belayEmit d b (belayHeader 1 w.origin w.hops w.dst w.payload.length 0 w.epoch w.seq ++ w.payload)
  else
    let ctr := d.get (R.TX_COUNTER b) + 1
    let h := belayHeader w.type w.origin w.hops w.dst w.payload.length ctr w.epoch w.seq
    let c := Crypto.gcmSeal 32 (d.get (L.B_TXKEY b)) ctr h w.payload
    let d := belayEmit (d.set (R.TX_COUNTER b) ctr) b (h ++ c.1 ++ beBytes 16 c.2)
    if ctr = 2 ^ 64 - 1 then linkDown d b else d

/-- A frame is under way on line `b`. -/
def lineBusy (d : Dev) (b : Nat) : Bool := (d.line b).queue.contains (.k k297)

/-- A frame for port `b`: it goes out, or waits for the frame under way and for those that wait (R466). -/
def belayQueue (d : Dev) (w : LineWait) : Dev :=
  if lineBusy d w.port || d.lineWait.any (·.port == w.port) then { d with lineWait := d.lineWait ++ [w] } else belaySeal d w

/-- Order in which waiting frames go out: ALARM, TIME, WAYPOINT, remote access, then the others (R466). -/
def belayRank (typ : Nat) : Nat := if typ = 0x50 then 0 else if typ = 3 then 1 else if typ = 0x20 then 2 else if typ = 0x30 ∨ typ = 0x31 then 3 else 4

/-- The frame that goes next of those that wait: of the first rank, the oldest. -/
def waitFirst : List LineWait → Option LineWait
  | [] => none
  | w :: ws =>
    match waitFirst ws with
    | some x => if belayRank x.type < belayRank w.type then some x else some w
    | none => some w

/-- Line `b` takes its next waiting frame once no frame is under way. -/
def lineNext (d : Dev) (b : Nat) : Dev :=
  if lineBusy d b then d
  else match waitFirst (d.lineWait.filter (·.port == b)) with
    | some w => belaySeal { d with lineWait := d.lineWait.erase w } w
    | none => d

/-- A sealed frame of a port in CONFIRM or UP; `send` puts it in line. -/
def belaySendBy (send : Dev → LineWait → Dev) (d : Dev) (b typ origin hops dst epoch seq : Nat) (payload : List Byte) : Dev :=
  if d.on L.ROPE_SILENT || link d b < lkConfirm then d else send d ⟨b, typ, origin, hops, dst, epoch, seq, payload⟩
def belaySend : Dev → Nat → Nat → Nat → Nat → Nat → Nat → Nat → List Byte → Dev := belaySendBy belayQueue

/-- A link frame of this device: it names its own position and no destination. -/
def linkFrame (d : Dev) (b typ : Nat) (payload : List Byte) : Dev :=
  belaySend d b typ (ropePos d) 0 0 (d.get L.ORIGIN_EPOCH) 0 payload

/-- A rope frame of this device, on every UP port; its own record keeps it from being taken as new when it returns. -/
def ropeSendBy (send : Dev → LineWait → Dev) (d : Dev) (typ dst : Nat) (payload : List Byte) : Dev :=
  let seq := d.get L.ORIGIN_SEQ + 1
  let d := d.setAll [(L.ORIGIN_SEQ, seq), (L.O_EPOCH (ropePos d), d.get L.ORIGIN_EPOCH), (L.O_SEQ (ropePos d), seq)]
  d.each 2 fun b d => if link d b = lkUp then belaySendBy send d b typ (ropePos d) 0 dst (d.get L.ORIGIN_EPOCH) seq payload else d
def ropeSend : Dev → Nat → Nat → List Byte → Dev := ropeSendBy belayQueue

/-- HELLO payload of port `b` (R465). -/
def helloPayload (d : Dev) (b : Nat) : List Byte :=
  beBytes 8 (d.get R.DEVICE_ID) ++ beBytes 8 (d.get (L.LINK_EPOCH b)) ++
    [BitVec.ofNat 8 (d.get R.ROPE_CFG_ROLE), BitVec.ofNat 8 (ropePos d), BitVec.ofNat 8 (d.get R.ROPE_CFG_TOPOLOGY), BitVec.ofNat 8 b,
      BitVec.ofNat 8 (d.get R.ROPE_STATUS_KEY_PRESENT), 0#8, 0#8, 0#8]

/-- Send a HELLO (R460). -/
def helloSend (d : Dev) (b : Nat) : Dev :=
  if d.on L.ROPE_SILENT then d
  else
    let p := helloPayload d b
    belayQueue (d.set (L.B_HELLO b) (beVal p)) ⟨b, 1, ropePos d, 0, 0, d.get L.ORIGIN_EPOCH, 0, p⟩

/-- Send a CONFIRM: the HELLO last sent and the HELLO last received (R461). -/
def confirmSend (d : Dev) (b : Nat) : Dev := linkFrame d b 2 (beBytes 24 (d.get (L.B_HELLO b)) ++ beBytes 24 (d.get (L.B_PEER b)))

/-- A time as Belay frames carry it, from units of 2^-16 ns (R465). -/
def belayTime (t : Nat) : List Byte :=
  let u := 1000000000 * 65536
  beBytes 6 (t / u) ++ beBytes 4 (t % u / 65536) ++ beBytes 2 (t % 65536)
/-- The time that twelve bytes carry, in units of 2^-16 ns. -/
def belayTimeOf (bs : List Byte) : Nat :=
  beVal (bytesAt bs 0 6) * (1000000000 * 65536) + beVal (bytesAt bs 6 4) * 65536 + beVal (bytesAt bs 10 2)

def announceSend (d : Dev) : Dev := ropeSend d 0x10 1 (beBytes 8 (d.get R.DEVICE_ID) ++ [BitVec.ofNat 8 (ropePos d), 0#8, 0#8, 0#8])

/-- FORMED, to every other position: the members and the identity of each (R465). -/
def formedSend (d : Dev) : Dev :=
  let m := d.get R.ROPE_STATUS_MEMBERS
  let id (i : Nat) : Nat := if i = 0 then d.get R.DEVICE_ID else if bitAt m i then d.get (R.MEMBER_DEVICE_ID i) else 0
  ropeSend d 0x11 0xFE ([BitVec.ofNat 8 m, 0#8, 0#8, 0#8] ++ ((List.range 8).map fun i => beBytes 8 (id i)).flatten)

/-- STATUS, to the lead (R465). -/
def statusSend (run : RunState) (d : Dev) : Dev :=
  let ev := sumBelow (fun w => if evActiveWord d w = 0 then 0 else 2 ^ w) 16
  ropeSend d 0x40 1 ([BitVec.ofNat 8 run.code, BitVec.ofNat 8 (ropeState d),
    BitVec.ofNat 8 (d.get R.TB_STATUS_HOLDOVER + 2 * d.get R.ROPE_STATUS_TIME_LOCKED), 0#8] ++
    beBytes 4 (d.get R.TIME_OFFSET) ++ beBytes 8 (d.get R.STICKY) ++ beBytes 2 ev ++ [0#8, 0#8])

/-- Entry bits [287:0] of waypoint `n`. -/
def wpEntryBits (d : Dev) (n : Nat) : Nat :=
  sumBelow (fun i => match [(R.WP_TIME_SEC_LO n, 0), (R.WP_TIME_SEC_HI n, 32), (R.WP_TIME_FRAC n, 48), (R.WP_TIME_NS n, 64),
      (R.WP_ACTION n, 96), (R.WP_LATE_POLICY n, 104), (R.WP_NOTIFY n, 106), (R.WP_ENABLE n, 107), (R.WP_MEMBER_MASK n, 112),
      (R.WP_TARGET n, 128), (R.WP_ARG0 n, 160), (R.WP_ARG1 n, 192), (R.WP_PERIOD_NS n, 224), (R.WP_PERIOD_FRAC n, 264)][i]? with
    | some (f, lo) => d.get f * 2 ^ lo
    | none => 0) 14

/-- WAYPOINT for entry `n` to the members in `mask`: its bits, or zero for a CLEAR (R474). -/
def waypointSend (d : Dev) (n entry mask : Nat) : Dev :=
  if mask = 0 then d
  else (ropeSend d 0x20 mask (beBytes 2 n ++ [0#8, 0#8] ++ beBytes 36 entry)).count 0xA R.WP_DISTRIBUTED

/-- A window WRITE or CLEAR of the lead to the rope region has been committed; a lead that is not FORMED keeps it for later. -/
def ropeCommit (d : Dev) (n entry : Nat) : Dev :=
  if isLead d && ropeState d == rpFormed && decide (ropeFirst ≤ n) then
    waypointSend d n entry (d.get R.ROPE_STATUS_MEMBERS &&& 0xFE)
  else d

/-- Every ARMED entry of the rope region goes to the members in `mask`. -/
def ropeDistribute (d : Dev) (mask : Nat) : Dev :=
  ((wpArmedList d).filter fun n => decide (ropeFirst ≤ n)).foldl (fun d n => waypointSend d n (wpEntryBits d n) mask) d

/-! ## Formation (R469, R470, R478, R479) -/

/-- The lead enters FORMED with the positions recorded so far. -/
def leadForm (d : Dev) : Dev :=
  let m := sumBelow (fun i => if d.on (R.MEMBER_VALID i) then 2 ^ i else 0) 8 &&& 0xFE
  let d := d.each 8 fun i d => if bitAt m i then d.setAll [(R.MEMBER_STATE i, 2), (L.MEMBER_SEEN i, d.cyc)] else d
  let d := ropeSet (d.set R.ROPE_STATUS_MEMBERS (m ||| 1)) rpFormed
  ropeDistribute (formedSend d) m

/-- A FORMING lead has recorded every expected position. -/
def leadComplete (d : Dev) : Dev :=
  let m := sumBelow (fun i => if d.on (R.MEMBER_VALID i) then 2 ^ i else 0) 8 &&& 0xFE
  if isLead d && ropeState d == rpForming && (m ||| 1) == ropeExpected d then leadForm d else d

/-- ANNOUNCE reaches the lead. -/
def announceRx (d : Dev) (p : List Byte) : Dev :=
  let id := beVal (bytesAt p 0 8)
  let i := beVal (bytesAt p 8 1)
  if !isLead d || ropeState d == rpIdle then d
  else if i = 0 ∨ 7 < i ∨ ¬ bitAt (ropeExpected d) i ∨ (d.on (R.MEMBER_VALID i) ∧ d.get (R.MEMBER_DEVICE_ID i) ≠ id) then ropeConflict d
  else if ropeState d = rpForming then
    leadComplete (d.setAll [(R.MEMBER_VALID i, 1), (R.MEMBER_STATE i, 1), (R.MEMBER_DEVICE_ID i, id)])
  else if bitAt (d.get R.ROPE_STATUS_MEMBERS) i then d
  else
    let d := d.setAll [(R.MEMBER_VALID i, 1), (R.MEMBER_STATE i, 2), (R.MEMBER_DEVICE_ID i, id), (L.MEMBER_SEEN i, d.cyc)]
    let d := (d.set R.ROPE_STATUS_MEMBERS (d.get R.ROPE_STATUS_MEMBERS ||| 2 ^ i)).latch 0xA 10
    if d.get R.ROPE_STATUS_MEMBERS = ropeExpected d ∧ ropeState d ≠ rpFormed then
      ropeDistribute (formedSend (ropeSet d rpFormed)) (d.get R.ROPE_STATUS_MEMBERS &&& 0xFE)
    else ropeDistribute (formedSend d) (2 ^ i)

/-- A member takes the table of a FORMED frame. -/
def formedFill (d : Dev) (p : List Byte) : Dev :=
  let m := beVal (bytesAt p 0 1)
  (d.each 8 fun i d => d.setAll [(R.MEMBER_VALID i, b2n (bitAt m i)), (R.MEMBER_STATE i, if bitAt m i then 2 else 0),
    (R.MEMBER_DEVICE_ID i, beVal (bytesAt p (4 + 8 * i) 8))]).set R.ROPE_STATUS_MEMBERS m

/-- FORMED reaches a member; the Bool says that the frame is refused as from another lead. -/
def formedRx (d : Dev) (p : List Byte) : Dev × Bool :=
  let m := beVal (bytesAt p 0 1)
  let lead := beVal (bytesAt p 4 8)
  let listed := bitAt m (ropePos d) && beVal (bytesAt p (4 + 8 * ropePos d) 8) == d.get R.DEVICE_ID
  if !isMember d || ropeState d == rpIdle then (d, false)
  else if ropeState d = rpForming then
    (if listed then ropeSet (formedFill (d.setAll [(L.LEAD_ID, lead), (L.LEAD_SEEN, d.cyc)]) p) rpFormed else d, false)
  else if lead ≠ d.get L.LEAD_ID then (d, true)
  else
    let d := formedFill d p
    (if listed then ropeSet d rpFormed else announceSend d, false)

/-- STATUS reaches the lead: it updates the entry of a recorded position. -/
def statusRx (d : Dev) (i : Nat) (p : List Byte) : Dev :=
  if !isLead d || ropeState d == rpIdle || !d.on (R.MEMBER_VALID i) then d
  else
    let f := beVal (bytesAt p 2 1)
    d.setAll [(R.MEMBER_RUN_STATE i, beVal (bytesAt p 0 1)), (R.MEMBER_HOLDOVER i, bitsOf f 0 1), (R.MEMBER_TIME_LOCKED i, bitsOf f 1 1),
      (R.MEMBER_OFFSET i, beVal (bytesAt p 4 4)), (R.MEMBER_STICKY i, beVal (bytesAt p 8 8)),
      (R.MEMBER_EVENT_SUMMARY i, beVal (bytesAt p 16 2)), (R.MEMBER_LAST_SEEN_NS i, nsOf d.time),
      (R.MEMBER_LAST_SEEN_SEC i, secOf d.time % 2 ^ 32), (L.MEMBER_SEEN i, d.cyc)]

/-- A timeout in milliseconds, 0 acting as 1, has passed since a timebase cycle. -/
def msPassed (d : Dev) (ms since : Nat) : Bool := decide (since + max 1 ms * 1000000 ≤ d.cyc)

/-- No STATUS has come from member `i` for MEMBER_TIMEOUT (R478). -/
def memberTimeout (d : Dev) (i : Nat) : Dev :=
  let m := d.get R.ROPE_STATUS_MEMBERS
  if isLead d && (ropeState d == rpFormed || ropeState d == rpDegraded) && decide (0 < i) && bitAt m i &&
      msPassed d (d.get R.ROPE_CFG2_MEMBER_TIMEOUT) (d.get (L.MEMBER_SEEN i)) then
    formedSend ((ropeSet (d.setAll [(R.ROPE_STATUS_MEMBERS, m - 2 ^ i), (R.MEMBER_STATE i, 3)]) rpDegraded).latch 0xA 9)
  else d

/-- A FORMED member hears no rope frame from position 0 for LEAD_TIMEOUT (R479). -/
def leadTimeout (d : Dev) : Dev :=
  if isMember d && ropeState d == rpFormed && msPassed d (d.get R.ROPE_CFG2_LEAD_TIMEOUT) (d.get L.LEAD_SEEN) then
    (ropeSet d rpLeadLost).latch 0xA 11
  else d

/-- ROPE_CMD OP START (R469). -/
def ropeStart (d : Dev) : Dev :=
  if ropeState d ≠ rpIdle ∨ ¬ (isLead d ∨ isMember d) then d
  else
    let d := (d.setAll [(L.ORIGIN_EPOCH, d.freeVal 32), (L.ORIGIN_SEQ, 0)]).tookFree
    let d := ropeSet d rpForming
    if isMember d then announceSend d else leadComplete d

/-- ROPE_CMD OP LEAVE (R469, R474). -/
def ropeLeave (d : Dev) : Dev :=
  ropeSet ({ (d.clearTable 0xA 0) with ropeHeld := [] }.setAll [(R.ROPE_STATUS_MEMBERS, 0), (L.LEAD_ID, 0), (L.ROPE_CONFLICT, 0)]) rpIdle

/-- ROPE_CMD OP FORCE_FORM (R469). -/
def ropeForce (d : Dev) : Dev := if isLead d && ropeState d == rpForming then leadForm d else d

/-- ROPE_CFG is written (R458, R484). -/
def ropeCfgWrite (d : Dev) (v : Nat) : Dev :=
  let d := d.set R.ROPE_CFG_REMOTE_ALLOW (bitsOf v 24 1)
  if ropeState d ≠ rpIdle then d.set R.ROPE_STATUS_CFG_REFUSED 1
  else
    let d := if bitsOf v 0 2 = 3 then d else d.set R.ROPE_CFG_ROLE (bitsOf v 0 2)
    holdoverUpdate (d.setAll [(R.ROPE_CFG_POSITION, bitsOf v 4 3), (R.ROPE_CFG_TOPOLOGY, bitsOf v 8 1),
      (R.ROPE_CFG_EXPECTED_MASK, bitsOf v 16 8), (R.ROPE_STATUS_CFG_REFUSED, 0)])

/-! ## HELLO and CONFIRM (R459 to R461) -/

/-- The link has come up: a member that waits for its lead announces itself, and held frames go out (R474, R478). -/
def linkUp (d : Dev) (b : Nat) : Dev :=
  let d := (linkSet d b lkUp).setAll [(L.TM_RXV b, 0), (L.TM_LAST b, d.cyc), (L.B_HOPS b, 255)]
  let mine := d.ropeHeld.filter (·.1 == b)
  let d := { d with ropeHeld := d.ropeHeld.filter (·.1 != b) }
  let d := mine.foldl (fun d x =>
    let h := x.2
    let o := beVal (bytesAt h 1 1)
    belaySend d b (beVal (bytesAt h 0 1)) (o % 8) (o / 16) (beVal (bytesAt h 2 1)) (beVal (bytesAt h 16 4)) (beVal (bytesAt h 20 8)) (h.drop 28)) d
  if isMember d && ropeState d != rpIdle then announceSend d else d

/-- Alignment and 64 clean characters: the port enters HELLO with a new LINK_EPOCH, which it can draw only while the DRBG is
READY; it sends its first HELLO at once (R459, R460, R276). -/
def belayAligned (d : Dev) (b : Nat) : Dev :=
  if link d b ≠ lkAlign ∨ d.on L.ROPE_SILENT ∨ ¬ drbgIs d drbgReady then d
  else
    let r := drbgKey d 8
    helloSend ((linkSet r.1 b lkHello).setAll [(L.LINK_EPOCH b, beVal r.2), (L.B_PEER_V b, 0)]) b

/-- Label of the link keys. -/
def belayLabel : List Byte := [0x49, 0x48, 0x38, 0x32, 0x35, 0x36, 0x20, 0x42, 0x45, 0x4C, 0x41, 0x59]
/-- Key of the frames that a device sends from a port (R461). -/
def belayKey (d : Dev) (id port epoch : Nat) : Nat :=
  beVal (Crypto.kdfCmac 32 (d.get L.ROPE_KEY) 4 4 belayLabel (beBytes 8 id ++ beBytes 1 port ++ beBytes 8 epoch) 256)

/-- Derive both keys of a link from the two HELLOs. -/
def belayKeys (d : Dev) (b : Nat) (peer : List Byte) : Dev :=
  d.setAll [(L.B_TXKEY b, belayKey d (d.get R.DEVICE_ID) b (d.get (L.LINK_EPOCH b))),
    (L.B_RXKEY b, belayKey d (beVal (bytesAt peer 0 8)) (beVal (bytesAt peer 19 1)) (beVal (bytesAt peer 8 8))), (L.B_RXCTR b, 0)]

/-- The peer's HELLO shows a conflict (R460). -/
def helloConflict (d : Dev) (p : List Byte) : Bool :=
  beVal (bytesAt p 18 1) != d.get R.ROPE_CFG_TOPOLOGY || beVal (bytesAt p 17 1) == ropePos d || (isLead d && beVal (bytesAt p 16 1) == 1)

/-- A HELLO is received in HELLO or CONFIRM. -/
def helloRx (d : Dev) (b : Nat) (p : List Byte) : Dev :=
  if link d b = lkUp then d
  else
    let newEpoch := beVal (bytesAt (beBytes 24 (d.get (L.B_PEER b))) 8 8) != beVal (bytesAt p 8 8) || !d.on (L.B_PEER_V b)
    let d := d.setAll [(L.B_PEER b, beVal p), (L.B_PEER_V b, 1), (R.PEER_DEVICE_ID b, beVal (bytesAt p 0 8)),
      (R.BELAY_STATUS_PEER_ROLE b, beVal (bytesAt p 16 1)), (R.BELAY_STATUS_PEER_POSITION b, beVal (bytesAt p 17 1))]
    if helloConflict d p then (d.set (R.BELAY_STATUS_CONFLICT b) 1).latch 0xA 2
    else
      let d := d.set (R.BELAY_STATUS_CONFLICT b) 0
      if link d b = lkConfirm then (if newEpoch then belayKeys d b p else d)
      else if d.on R.ROPE_STATUS_KEY_PRESENT then confirmSend ((belayKeys (linkSet d b lkConfirm) b p).set (R.TX_COUNTER b) 0) b
      else d

/-- A CONFIRM has passed its tag: the link comes up when it matches both HELLOs; the port sends a last CONFIRM first. -/
def confirmRx (d : Dev) (b : Nat) (p : List Byte) : Dev :=
  if link d b = lkConfirm ∧ beVal (bytesAt p 0 24) = d.get (L.B_PEER b) ∧ beVal (bytesAt p 24 24) = d.get (L.B_HELLO b) then
    linkUp (confirmSend d b) b
  else d

/-- The 100 µs timer: a HELLO in HELLO and CONFIRM, and in CONFIRM a CONFIRM too. -/
def belayHelloTimer (d : Dev) (b : Nat) : Dev :=
  if link d b = lkHello then helloSend d b
  else if link d b = lkConfirm then confirmSend (helloSend d b) b
  else d

/-! ## Time transfer (R471 to R473) -/

/-- Ten microseconds in units of 2^-48 ns. -/
def tenUs : Nat := 10000 * fineNs

/-- The marker of the present multiple of 10,000 ns leaves, `off` units of 2^-16 ns after it at the first even character
position, and a TIME frame follows. -/
def markerTx (d : Dev) (b off : Nat) : Dev :=
  let n := d.time / tenUs
  if link d b ≠ lkUp ∨ d.on L.ROPE_SILENT ∨ d.get (L.TM_TXN b) = n + 1 then d
  else
    let t := n * 10000 * 65536 + off % 104858
    let q := d.get (L.TM_MSEQ b)
    let d := ((d.setAll [(L.TM_TXN b, n + 1), (L.TM_TXT b q, t + 1), (L.TM_MSEQ b, (q + 1) % 256)]).lineMap b fun t => lineMarker t q).emit (.marker b q)
    let v := d.on (L.TM_RXV b)
    linkFrame d b 3 ([BitVec.ofNat 8 q, BitVec.ofNat 8 (d.get (L.TM_RXSEQ b)), BitVec.ofNat 8 (ropeHops d),
      BitVec.ofNat 8 (d.get R.TB_STATUS_HOLDOVER + 2 * b2n v)] ++ belayTime t ++
      (if v then belayTime (d.get (L.TM_RXT b)) else List.replicate 12 0) ++ List.replicate 8 0)

/-- A marker arrived `ago` units of 2^-16 ns before now. -/
def markerRx (d : Dev) (b mseq ago : Nat) : Dev :=
  if link d b ≠ lkUp ∨ d.on L.ROPE_SILENT then d
  else
    let now := d.time / 2 ^ 32
    let d1 := d.setAll [(L.TM_RXSEQ b, mseq), (L.TM_RXT b, if ago ≤ now then now - ago else d.freeVal 128), (L.TM_RXV b, 1), (L.TM_LAST b, d.cyc)]
    if ago ≤ now then d1 else d1.tookFree

/-- Three markers in a row have failed to arrive (R478). -/
def markerTimeout (d : Dev) (b : Nat) : Dev :=
  if link d b = lkUp ∧ d.get (L.TM_LAST b) + 30000 ≤ d.cyc then linkDown d b else d

/-- The member's upstream port and its distance from the lead (R473). -/
def upstreamPick (d : Dev) : Dev :=
  if !isMember d then d
  else
    let e := leadTime d 0
    let w := leadTime d 1
    let b := if w && (!e || decide (d.get (L.B_HOPS 1) ≤ d.get (L.B_HOPS 0))) then 2 else if e then 1 else 0
    let d := d.setAll [(R.ROPE_STATUS_UPSTREAM, b), (R.ROPE_STATUS_HOPS_FROM_LEAD, if b = 0 then 255 else d.get (L.B_HOPS (b - 1)) + 1)]
    holdoverUpdate d

/-- TIME_LOCKED follows a correction with offset `z` in units of 2^-16 ns (R473). -/
def ropeLock (d : Dev) (z : Int) : Dev :=
  let n := if z.natAbs < 65536 then min 100 (d.get L.LOCK_RUN + 1) else 0
  let d := d.set L.LOCK_RUN n
  if n = 100 ∧ ¬ d.on R.ROPE_STATUS_TIME_LOCKED then (d.set R.ROPE_STATUS_TIME_LOCKED 1).latch 0xA 18
  else if 5 * 65536 ≤ z.natAbs ∧ d.on R.ROPE_STATUS_TIME_LOCKED then (d.set R.ROPE_STATUS_TIME_LOCKED 0).latch 0xA 18
  else d

/-- One correction of a member that the rope disciplines: a step above 1,000 ns, else a slew at a rate of at most 100 ppm and a new
rate, both free because the spec gives no law for them (R473). -/
def ropeCorrect (d : Dev) (z : Int) : Dev :=
  if !ropeDisciplined d || !isMember d || d.on R.TB_STATUS_HOLDOVER then d
  else
    let off : Int := -z * (2 ^ 32 : Nat)
    let d := if 1000 * 65536 < z.natAbs then (if stepInRange d off then timeStepBy d off else d)
      else
        let r : Int := (d.freeVal 64 % 562949953423 : Nat) - 281474976711
        let d := rateMoved (rateMoved d.tookFree (r - toSigned 40 (d.get R.RATE_ADJ))) (slewMove d)
        let d := setSlew ((d.setAll [(R.RATE_ADJ, ofSigned 40 r), (L.ROPE_SLEW, d.freeVal 64 % 109951163), (R.TB_STATUS_SLEWING, 1)]).tookFree) off
        rateMoved d (slewMove d)
    ropeLock d z

/-- Twice the delay of one pair joins the average of 64 (R472). -/
def delayPair (d : Dev) (b : Nat) (z : Int) : Dev :=
  let s := toSigned 160 (d.get (L.B_DSUM b)) + z
  let n := d.get (L.B_DN b) + 1
  if n < 64 then d.setAll [(L.B_DSUM b, ofSigned 160 s), (L.B_DN b, n)]
  else
    let a := s / 128
    let d := d.setAll [(L.B_DSUM b, 0), (L.B_DN b, 0)]
    if 0 ≤ a ∧ a < 2 ^ 32 then d.set (R.LINK_DELAY b) a.toNat else (d.set (R.LINK_DELAY b) (d.freeVal 32)).tookFree

/-- A TIME frame on port `b` (R471 to R473). -/
def timeRx (d : Dev) (b : Nat) (p : List Byte) : Dev :=
  let d := upstreamPick (d.set (L.B_HOPS b) (beVal (bytesAt p 2 1)))
  let txa := belayTimeOf (bytesAt p 4 12)
  let rxa := belayTimeOf (bytesAt p 16 12)
  let mine := d.get (L.TM_TXT b (beVal (bytesAt p 1 1)))
  if !d.on (L.TM_RXV b) || d.get (L.TM_RXSEQ b) != beVal (bytesAt p 0 1) || !bitAt (beVal (bytesAt p 3 1)) 1 || mine == 0 then d
  else
    let rxb : Int := (d.get (L.TM_RXT b) : Nat)
    let twice : Int := (rxb - (txa : Nat)) + ((rxa : Nat) - (mine - 1 : Nat))
    let d := delayPair d b twice
    if d.get R.ROPE_STATUS_UPSTREAM ≠ b + 1 then d
    else
      let z : Int := (2 * (rxb - (txa : Nat)) - twice) / 2 - toSigned 32 (d.get (R.BELAY_ASYM b))
      let d := if z.natAbs < 2 ^ 31 then d.set R.TIME_OFFSET (ofSigned 32 z) else (d.set R.TIME_OFFSET (d.freeVal 32)).tookFree
      ropeCorrect d z

/-! ## Alarms (R480 to R482) -/

/-- An ALARM frame of this tick: its time, its response, and (source, severity) of each record. With HALT or ZEROIZE it is sealed before
anything else (R482). -/
def ropeAlarmSend (d : Dev) (response : Nat) (recs : List (Nat × Nat)) : Dev :=
  if recs.isEmpty || ropeState d < rpFormed then d
  else
    let body := (recs.map fun r => [BitVec.ofNat 8 r.1, BitVec.ofNat 8 r.2]).flatten
    let p := belayTime (d.tickTime / 2 ^ 32) ++ [BitVec.ofNat 8 response, BitVec.ofNat 8 recs.length, 0#8, 0#8] ++ body
    let p := p ++ List.replicate ((4 - p.length % 4) % 4) 0
    let send := if 3 ≤ response then belaySeal else belayQueue
    ((ropeSendBy send d 0x50 (0xFF - 2 ^ ropePos d) p).count 0xA R.ROPE_ALARMS_TX).latch 0xA 17

/-- The record of an ALARM frame that ROPE_ALARM_LAST keeps: the highest severity, the first of them. -/
def alarmTop (p : List Byte) : Nat × Nat :=
  (List.range (beVal (bytesAt p 13 1))).foldl
    (fun best j =>
      let r := (beVal (bytesAt p (16 + 2 * j) 1), beVal (bytesAt p (17 + 2 * j) 1))
      if j = 0 ∨ best.2 < r.2 then r else best) (0, 0)

/-- A new ALARM frame is accepted (R481). -/
def ropeAlarmRx (d : Dev) (origin : Nat) (p : List Byte) : Dev :=
  let top := alarmTop p
  let d := ((d.count 0xA R.ROPE_ALARMS_RX).latch 0xA 16).alarm 57
  let keep := d.get L.ROPE_TICK = d.tick + 1 ∧
    (top.2 < d.get R.ROPE_ALARM_LAST_SEVERITY ∨ (top.2 = d.get R.ROPE_ALARM_LAST_SEVERITY ∧ d.get R.ROPE_ALARM_LAST_ORIGIN ≤ origin))
  if keep then d
  else d.setAll [(L.ROPE_TICK, d.tick + 1), (R.ROPE_ALARM_LAST_VALID, 1), (R.ROPE_ALARM_LAST_ORIGIN, origin), (R.ROPE_ALARM_LAST_SOURCE, top.1),
    (R.ROPE_ALARM_LAST_SEVERITY, top.2), (R.ROPE_ALARM_LAST_TIME_SEC, beVal (bytesAt p 0 6) % 2 ^ 32),
    (R.ROPE_ALARM_LAST_TIME_NS, beVal (bytesAt p 6 4))]

/-! ## The rope key (R467, R468) -/

/-- The rope key is gone: every port trains again, and held frames with it. -/
def ropeKeyClear (d : Dev) : Dev :=
  let d := { d with ropeHeld := [] }.setAll [(L.ROPE_KEY, 0), (R.ROPE_STATUS_KEY_PRESENT, 0)]
  d.each 2 fun b d => linkAlign d b

/-- ROPE_KEY_INSTALL: its checks in order, then the move of the key (R467). -/
def ropeInstall (run : RunState) (d : Dev) (id : Nat) : Dev :=
  let i := slotNum (slotArg d id 0)
  if !inRange d (slotMaster id).num i || d.get (R.SLOT_TYPE i) != tyRope then slotFail d id codeAttr 0
  else if run.stopped then slotFail d id codeState 2
  else if !d.on R.PRESENCE_STATUS_ASSERTED then slotFail d id codePresence 0
  else if vEmpty d i then slotFail d id codeState 1
  else if d.get (R.SLOT_USE_LIMIT i) = 0 then slotFail d id codeUseExhausted 0
  else if vReserved d i then slotFail d id codeSlotBusy 0
  else
    let d := takeUse d i
    let k := beVal (slotKey d i)
    let d := (slotErase d i).setAll [(L.ROPE_KEY, k), (R.ROPE_STATUS_KEY_PRESENT, 1)]
    slotEnd (d.each 2 fun b d => linkAlign d b) id codeOk []

/-! ## Frames in (R462 to R465) -/

/-- A frame is discarded and counted. -/
def belayDiscard (d : Dev) (b : Nat) : Dev := d.count 0xA (R.BELAY_FRAMES_DISCARDED b)

/-- Length that a type's payload has; ALARM has its own rule. -/
def belayLen (typ : Nat) : Option Nat :=
  [(0x01, 24), (0x02, 48), (0x03, 36), (0x10, 12), (0x11, 68), (0x20, 40), (0x30, 16), (0x31, 16), (0x40, 20)].lookup typ
/-- Bytes of a type's payload that are sent as zero. -/
def belayZeros (typ : Nat) : List Nat :=
  (([(0x01, [21, 22, 23]), (0x03, [28, 29, 30, 31, 32, 33, 34, 35]), (0x10, [9, 10, 11]), (0x11, [1, 2, 3]), (0x20, [2, 3]),
    (0x30, [5, 6, 7, 9]), (0x31, [6, 7, 9]), (0x40, [3, 18, 19]), (0x50, [14, 15])] : List (Nat × List Nat)).lookup typ).getD []

/-- The bytes have a header that the rules allow, and their number is what it says. -/
def belayFormOk (bs : List Byte) : Bool :=
  let len := beVal (bytesAt bs 4 2)
  let typ := beVal (bytesAt bs 0 1)
  decide (28 ≤ bs.length) && beVal (bytesAt bs 1 1) &&& 0x88 == 0 && beVal (bytesAt bs 3 1) == 0 && beVal (bytesAt bs 6 2) == 0 &&
    len % 4 == 0 && decide (len ≤ 1024) && bs.length == 28 + len + (if typ = 1 then 0 else 16) &&
    (match belayLen typ with
     | some n => len == n
     | none => typ == 0x50 && decide (16 ≤ len))

/-- The payload's zero bytes are zero, and an ALARM's length fits its count. -/
def belayPayloadOk (typ : Nat) (p : List Byte) : Bool :=
  (belayZeros typ).all (fun i => beVal (bytesAt p i 1) == 0) &&
    (typ != 0x50 ||
      (let c := beVal (bytesAt p 13 1)
       decide (1 ≤ c) && decide (c ≤ 60) && p.length == (16 + 2 * c + 3) / 4 * 4 && (p.drop (16 + 2 * c)).all (· == 0#8)))

/-- The frame comes from a position 0 that is not the lead of the FORMED frame (R470). -/
def foreignLead (d : Dev) (b : Nat) : Bool :=
  isMember d && ropeState d == rpFormed && d.get (R.BELAY_STATUS_PEER_POSITION b) == 0 && d.get (R.PEER_DEVICE_ID b) != d.get L.LEAD_ID

/-- Forward a new rope frame out of the other port, or hold a WAYPOINT frame for it (R464, R474). -/
def ropeForward (d : Dev) (b : Nat) (bs p : List Byte) : Dev :=
  let o := 1 - b
  let typ := beVal (bytesAt bs 0 1)
  let origin := beVal (bytesAt bs 1 1) % 8
  let hops := beVal (bytesAt bs 1 1) / 16 % 8
  let dst := beVal (bytesAt bs 2 1)
  let others := dst - (if bitAt dst (ropePos d) then 2 ^ ropePos d else 0)
  if 7 ≤ hops ∨ others = 0 then d
  else if link d o = lkUp then belaySend d o typ origin (hops + 1) dst (beVal (bytesAt bs 16 4)) (beVal (bytesAt bs 20 8)) p
  else if typ ≠ 0x20 then d
  else if 64 ≤ (d.ropeHeld.filter (·.1 == o)).length then belayDiscard d b
  else { d with ropeHeld := d.ropeHeld ++ [(o, belayHeader typ origin (hops + 1) dst p.length 0 (beVal (bytesAt bs 16 4)) (beVal (bytesAt bs 20 8)) ++ p)] }

/-- A rope frame has passed its tag: refused, not new, or recorded, delivered by `k`, and forwarded (R464, R470). `k` says
whether it refuses the frame. -/
def ropeFrame (d : Dev) (b : Nat) (bs p : List Byte) (k : Dev → Nat → List Byte → Dev × Bool) : Dev :=
  let origin := beVal (bytesAt bs 1 1) % 8
  let epoch := beVal (bytesAt bs 16 4)
  let seq := beVal (bytesAt bs 20 8)
  if origin = 0 ∧ foreignLead d b then belayDiscard d b
  else if d.get (L.O_EPOCH origin) = epoch ∧ seq ≤ d.get (L.O_SEQ origin) then d
  else
    let d := d.setAll [(L.O_EPOCH origin, epoch), (L.O_SEQ origin, seq)]
    let d := if origin = 0 then d.set L.LEAD_SEEN d.cyc else d
    let r := if bitAt (beVal (bytesAt bs 2 1)) (ropePos d) then k d origin p else (d, false)
    if r.2 then belayDiscard r.1 b else ropeForward r.1 b bs p

/-- A sealed frame is opened (R463): none when it fails its tag or its counter is not higher. -/
def belayOpen (d : Dev) (b : Nat) (bs : List Byte) : Dev × Option (List Byte) :=
  let len := beVal (bytesAt bs 4 2)
  let ctr := beVal (bytesAt bs 8 8)
  let r := Crypto.gcmOpen 32 (d.get (L.B_RXKEY b)) ctr (bs.take 28) (bytesAt bs 28 len) (beVal (bytesAt bs (28 + len) 16))
  if !r.2 then
    let n := d.get (L.B_TAGFAILS b) + 1
    let d := ((d.count 0xA (R.BELAY_AUTH_FAILS b)).latch 0xA 3).set (L.B_TAGFAILS b) (min 3 n)
    (if 3 ≤ n then linkDown d b else d, none)
  else
    let d := d.set (L.B_TAGFAILS b) 0
    if ctr ≤ d.get (L.B_RXCTR b) then (d.count 0xA (R.BELAY_REPLAY_DROPS b), none)
    else (d.set (L.B_RXCTR b) ctr, some r.1)

/-- A frame between K27.7 and K29.7 arrives on port `b` with `viol` code violations, `err` when it holds K30.7 (R126, R462 to
R465); `k` is what its type does when it is delivered. -/
def belayRx (d : Dev) (b : Nat) (bs : List Byte) (err : Bool) (viol : Nat) (k : Dev → Nat → List Byte → Dev × Bool) : Dev :=
  if link d b < lkHello || d.on L.ROPE_SILENT then d
  else
    let typ := beVal (bytesAt bs 0 1)
    let d := d.count 0xA (R.BELAY_FRAMES_RX b)
    let d := if viol = 0 then d else d.count 0xA (R.BELAY_CODE_VIOL b) viol
    if err || viol != 0 || !belayFormOk bs then belayDiscard d b
    else if typ = 1 then (if belayPayloadOk 1 (bs.drop 28) then helloRx d b (bs.drop 28) else belayDiscard d b)
    else if link d b = lkHello then belayDiscard d b
    else match belayOpen d b bs with
      | (d, none) => d
      | (d, some p) =>
        if !belayPayloadOk typ p then belayDiscard d b
        else if typ = 2 then confirmRx d b p
        else if link d b ≠ lkUp then belayDiscard d b
        else if typ = 3 then (if foreignLead d b then belayDiscard d b else timeRx d b p)
        else ropeFrame d b bs p k

/-- The row of one type sees a frame of that type only. -/
def belayRow (typ : Nat) (b : Nat) (bs : List Byte) (err : Bool) (viol : Nat) (k : Dev → Nat → List Byte → Dev × Bool) (d : Dev) : Dev :=
  if bs.head? = some (BitVec.ofNat 8 typ) then belayRx d b bs err viol k else d

/-- A type that the table of R464 lists. -/
def belayKnown (typ : Nat) : Bool := (belayLen typ).isSome || typ == 0x50

/-! ## Page 0x0A -/

/-- PAGE_CTRL.ENABLE of the page is written (R484). -/
def ropePageEnable (d : Dev) (v : Bool) : Dev := (d.setB (L.PAGE_ENABLE 0xA) v).each 2 fun b d => linkEnable d b

/-- A soft reset of the page: STATE IDLE, ports OFF, the rope key gone; its counters are zeroed with those of every page. -/
def ropeSoftReset (d : Dev) : Dev :=
  let d := (ropeKeyClear (ropeLeave d)).each 2 fun b d => linkEnable (d.set (R.BELAY_CTRL_ENABLE b) 0) b
  d

/-- A window of 16,384 UI of a Belay receiver (0, 1) or the MGMT0 receiver (2) ends, judged by the reset values of RICH_CFG
(R114). A freeze or a resume of MGMT0 latches MGMT0_ADAPT, bit 13 of page 0x08 (R365). -/
def richOther (d : Dev) (i trans level run : Nat) : Dev :=
  let runs := if i < 2 then link d i != lkOff else m0Runs d
  let lowF := if i < 2 then R.BELAY_STATUS_LOW_RUN i else R.MGMT0_STATUS_LOW_RUN
  let froF := if i < 2 then R.BELAY_STATUS_ADAPT_FROZEN i else R.MGMT0_STATUS_ADAPT_FROZEN
  if !runs then d
  else if 64 * (R.RICH_CFG_TRANS_MIN 0).reset ≤ trans ∧ 16 * (R.RICH_CFG_LEVEL_MIN 0).reset ≤ level ∧ run ≤ (R.RICH_CFG_RUN_MAX 0).reset then
    let n := min 255 (d.get (L.RICH_RUN i) + 1)
    let d := d.setAll [(lowF, 0), (L.RICH_RUN i, n)]
    if (R.RICH_CFG_RESUME_N 0).reset ≤ n ∧ d.on froF then (d.set froF 0).latchIf (i == 2) 8 13 else d
  else
    let n := min 255 (d.get lowF + 1)
    let d := d.setAll [(lowF, n), (L.RICH_RUN i, 0)]
    if 64 ≤ n ∧ ¬ d.on froF then (d.set froF 1).latchIf (i == 2) 8 13 else d

/-! ## The 8b/10b lines (R127, R128) -/

/-- Line `i` transmits: a Belay port that is not OFF, MGMT0 out of reset. -/
def lineOn (d : Dev) (i : Nat) : Bool := if i < 2 then link d i != lkOff else m0Runs d
/-- The richness filler is on: always on a Belay port, on MGMT0 with FILLER_EN (R128). A Belay port lets no /RF/ begin where a time marker is
about to be due, so that none is displaced (R127). -/
def lineFills (d : Dev) (i : Nat) : Bool :=
  if i < 2 then link d i != lkUp || d.on L.ROPE_SILENT || d.time / tenUs == (d.time + 8 * fineNs) / tenUs else d.on R.MGMT0_CTRL_FILLER_EN
/-- What line `i` sends when nothing waits: idle and filler; MGMT0 sends configuration sets while it negotiates (R363), whose register is a
value the spec leaves open. -/
def lineIdles (d : Dev) (i : Nat) (t : LineTx) : LineTx :=
  if i = 2 ∧ d.on R.MGMT0_CTRL_AN_EN ∧ ¬ d.on R.MGMT0_STATUS_LINK then lineConfig (Config.negotiation d.cyc) t else lineRefill (lineFills d i) t
/-- Code groups that line `i` sends until the timebase stands at `t`, and its transmitter then. -/
def lineRun (d : Dev) (i t : Nat) : List Nat × LineTx := lineSends (lineIdles d i) (lineChars i d.cyc t) (d.line i)
/-- The lines send until the timebase stands at `t`; one that is not on starts anew later. A Belay line that has sent its frame takes the next. -/
def linesRun (d : Dev) (t : Nat) : Dev :=
  d.each 3 fun i d =>
    let d := d.lineMap i fun x => if lineOn d i then (lineRun d i t).2 else lineStop x
    if i < 2 then lineNext d i else d
/-- A code group at the balls of line `i`, as BELAY_CTRL.TX_INV and RX_INV turn those of a Belay port (R484): what the device sends for a
group of its own, and the group that it takes from one received. -/
def ballSent (d : Dev) (i c : Nat) : Nat := if i < 2 ∧ d.on (R.BELAY_CTRL_TX_INV i) then 1023 - c else c
def ballTaken (d : Dev) (i c : Nat) : Nat := if i < 2 ∧ d.on (R.BELAY_CTRL_RX_INV i) then 1023 - c else c
/-- The code groups that leave the balls of line `i` until the timebase stands at `t`. -/
def lineBall (d : Dev) (i t : Nat) : List Nat := (lineRun d i t).1.map (ballSent d i)

/-! ## Rows -/

/-- BELAY_ENABLE (R459). -/
def execBelayEnable (b : Fin 2) (v : Bool) (s : State) : Host.Outcome State Fault Refusal :=
  s.page 0xA fun d => linkEnable (d.setB (R.BELAY_CTRL_ENABLE b) v) b
/-- BELAY_ALIGNED (R459). -/
def execBelayAligned (b : Fin 2) (s : State) : Host.Outcome State Fault Refusal := s.lanes fun d => belayAligned d b
/-- BELAY_ALIGN_LOSS (R478). -/
def execBelayAlignLoss (b : Fin 2) (s : State) : Host.Outcome State Fault Refusal :=
  s.lanes fun d => if link d b = lkUp then linkDown d b else linkAlign d b
/-- BELAY_HELLO_TIMER (R460). -/
def execBelayHelloTimer (b : Fin 2) (s : State) : Host.Outcome State Fault Refusal := s.lanes fun d => belayHelloTimer d b
/-- BELAY_HELLO (R460). -/
def execBelayHello (b : Fin 2) (bytes : List Byte) (err : Bool) (violations : Nat) (s : State) : Host.Outcome State Fault Refusal :=
  s.lanes (belayRow 1 b bytes err violations fun d _ _ => (d, false))
/-- BELAY_CONFIRM (R461). -/
def execBelayConfirm (b : Fin 2) (bytes : List Byte) (err : Bool) (violations : Nat) (s : State) : Host.Outcome State Fault Refusal :=
  s.lanes (belayRow 2 b bytes err violations fun d _ _ => (d, false))
/-- BELAY_CONFIRM_TIMEOUT (R459): 10 ms in CONFIRM. -/
def execBelayConfirmTimeout (b : Fin 2) (s : State) : Host.Outcome State Fault Refusal :=
  s.lanes fun d => if link d b = lkConfirm ∧ d.get (L.B_AT b) + 10000000 ≤ d.cyc then linkAlign d b else d
/-- BELAY_TIME_MARKER_TX (R471): `off` is the wait for an even character position, in units of 2^-16 ns. -/
def execBelayTimeMarkerTx (b : Fin 2) (off : Nat) (s : State) : Host.Outcome State Fault Refusal := s.lanes fun d => markerTx d b off
/-- BELAY_TIME_MARKER_RX (R471): the marker crossed the ball `ago` units of 2^-16 ns before now. -/
def execBelayTimeMarkerRx (b : Fin 2) (mseq : Byte) (ago : Nat) (s : State) : Host.Outcome State Fault Refusal :=
  s.lanes fun d => markerRx d b mseq.toNat ago
/-- BELAY_TIME (R472). -/
def execBelayTime (b : Fin 2) (bytes : List Byte) (err : Bool) (violations : Nat) (s : State) : Host.Outcome State Fault Refusal :=
  s.lanes (belayRow 3 b bytes err violations fun d _ _ => (d, false))
/-- BELAY_MARKER_TIMEOUT (R478). -/
def execBelayMarkerTimeout (b : Fin 2) (s : State) : Host.Outcome State Fault Refusal := s.lanes fun d => markerTimeout d b
/-- BELAY_ANNOUNCE (R469). -/
def execBelayAnnounce (b : Fin 2) (bytes : List Byte) (err : Bool) (violations : Nat) (s : State) : Host.Outcome State Fault Refusal :=
  s.lanes (belayRow 0x10 b bytes err violations fun d _ p => (announceRx d p, false))
/-- BELAY_FORMED (R469). -/
def execBelayFormed (b : Fin 2) (bytes : List Byte) (err : Bool) (violations : Nat) (s : State) : Host.Outcome State Fault Refusal :=
  s.lanes (belayRow 0x11 b bytes err violations fun d o p => if o = 0 then formedRx d p else (d, false))
/-- BELAY_STATUS (R478). -/
def execBelayStatus (b : Fin 2) (bytes : List Byte) (err : Bool) (violations : Nat) (s : State) : Host.Outcome State Fault Refusal :=
  s.lanes (belayRow 0x40 b bytes err violations fun d o p => (statusRx d o p, false))
/-- BELAY_ALARM (R481). -/
def execBelayAlarm (b : Fin 2) (bytes : List Byte) (err : Bool) (violations : Nat) (s : State) : Host.Outcome State Fault Refusal :=
  s.lanes (belayRow 0x50 b bytes err violations fun d o p => (ropeAlarmRx d o p, false))
/-- BELAY_UNKNOWN_TYPE (R464): a frame of an unlisted type, or with no byte, is discarded. -/
def execBelayUnknownType (b : Fin 2) (bytes : List Byte) (err : Bool) (violations : Nat) (s : State) : Host.Outcome State Fault Refusal :=
  s.lanes fun d => if bytes ≠ [] ∧ belayKnown (beVal (bytesAt bytes 0 1)) then d else belayRx d b bytes err violations fun d _ _ => (d, false)
/-- ANNOUNCE_TIMER (R464, R479): a member announces itself while it is JOINING, in LEAD_LOST, or no longer listed. -/
def execAnnounceTimer (s : State) : Host.Outcome State Fault Refusal :=
  s.lanes fun d =>
    if isMember d && (ropeState d == rpForming || ropeState d == rpLeadLost ||
        (ropeState d == rpFormed && !bitAt (d.get R.ROPE_STATUS_MEMBERS) (ropePos d))) then announceSend d else d
/-- STATUS_TIMER (R464). -/
def execStatusTimer (s : State) : Host.Outcome State Fault Refusal :=
  s.lanes fun d => if isMember d && (ropeState d == rpForming || ropeState d == rpFormed) then statusSend s.run d else d
/-- MEMBER_TIMEOUT (R478). -/
def execMemberTimeout (i : Fin 8) (s : State) : Host.Outcome State Fault Refusal := s.lanes fun d => memberTimeout d i
/-- LEAD_TIMEOUT (R479). -/
def execLeadTimeout (s : State) : Host.Outcome State Fault Refusal := s.lanes leadTimeout
/-- ROPE_CMD_START (R469). -/
def execRopeCmdStart (s : State) : Host.Outcome State Fault Refusal := s.page 0xA ropeStart
/-- ROPE_CMD_LEAVE (R469). -/
def execRopeCmdLeave (s : State) : Host.Outcome State Fault Refusal := s.page 0xA ropeLeave
/-- ROPE_CMD_FORCE_FORM (R469). -/
def execRopeCmdForceForm (s : State) : Host.Outcome State Fault Refusal := s.page 0xA ropeForce
/-- ROPE_CFG_WRITE (R458). -/
def execRopeCfgWrite (v : Word) (s : State) : Host.Outcome State Fault Refusal := s.page 0xA fun d => ropeCfgWrite d v.toNat
/-- ROPE_KEY_INSTALL (R467). -/
def execRopeKeyInstall (slot : Fin 4) (s : State) : Host.Outcome State Fault Refusal :=
  s.page 0xA fun d => slotRun d (slotId 0xA slot) 0x0001 fun d => ropeInstall s.run d (slotId 0xA slot)
/-- ROPE_KEY_ERASE (R468). -/
def execRopeKeyErase (slot : Fin 4) (s : State) : Host.Outcome State Fault Refusal :=
  s.page 0xA fun d => slotRun d (slotId 0xA slot) 0x0002 fun d => slotEnd (ropeKeyClear d) (slotId 0xA slot) codeOk []
/-- RICHNESS_WINDOW (R113, R114): transitions, count of the rarest level, and longest run of the window; receivers 256 and 257 are
the Belay ports and 258 is MGMT0. -/
def execRichnessWindow (l : Fin 259) (flips level run : Nat) (s : State) : Host.Outcome State Fault Refusal :=
  s.lanes fun d => if l.val < 256 then richWindow d l flips level run else richOther d (l.val - 256) flips level run

end Sys2Proof.Machine
end

