-- ==== Sys2Proof/Machine/Alarms.lean ====
section
/-! DEFINITION. The alarm collector (R384 to R405): conditions, sampling and recording, the responses by run state,
zeroization, evidence, the alarm log, and presence (R410). -/

namespace Sys2Proof.Machine

/-! ## The alarm log and evidence (R400 to R402) -/

/-- Write a log entry; in battery operation it carries no device time and no page event latches. -/
def logWrite (d : Dev) (battery : Bool) (source kind sev resp : Nat) : Dev :=
  let q := d.get R.LOG_SEQ_NEWEST + 1
  let i := q % 128
  let d := d.setAll [(R.LOG_SEQ_NEWEST, q), (R.ALOG_SOURCE i, source), (R.ALOG_KIND i, kind), (R.ALOG_SEVERITY i, sev),
    (R.ALOG_RESPONSE i, resp), (R.ALOG_BATTERY i, b2n battery), (R.ALOG_VALID i, 1),
    (R.ALOG_TIME_NS i, if battery then 0 else nsOf d.tickTime), (R.ALOG_TIME_SEC i, if battery then 0 else secOf d.tickTime % 2 ^ 32),
    (R.ALOG_BC_COUNT i, d.get R.BC_COUNT), (R.ALOG_SEQ i, q)]
  if battery then d else d.latch 7 4

/-- Pending increments of an evidence class, and whether its target is stored. -/
def pendingOf (d : Dev) (c : Nat) : Nat := bitsOf (d.get R.PENDING_EVIDENCE) (8 * c) 7
def targetStored (d : Dev) (c : Nat) : Bool := bitAt (d.get R.PENDING_EVIDENCE) (8 * c + 7)
/-- Set the byte of a class. -/
def pendingSet (d : Dev) (c n : Nat) (target : Bool) : Dev :=
  let v := d.get R.PENDING_EVIDENCE
  d.set R.PENDING_EVIDENCE (v - bitsOf v (8 * c) 8 * 2 ^ (8 * c) + (n + b2n target * 128) * 2 ^ (8 * c))

/-- Each class with a record of severity 4 gains one pending increment. -/
def evidence (d : Dev) (battery : Bool) (recs : List (Nat × Nat)) : Dev :=
  d.each 4 fun c d =>
    if recs.any fun r => r.2 == 4 && alarmClass r.1 == some c then
      let d := pendingSet d c (min 127 (pendingOf d c + 1)) (targetStored d c)
      if battery then d else d.latch 7 7
    else d

/-- Commit one class: the target is stored, the fuses are blown up to it, then both are cleared (R371, R401). -/
def commitClass (s : State) (c : Nat) : State :=
  let target := if targetStored s.d c then s.d.get (L.EV_TARGET c) else min 127 (otpTamper s.otp c + pendingOf s.d c)
  if pendingOf s.d c = 0 ∧ ¬ targetStored s.d c then s
  else { s with otp := otpThermo s.otp (0x098 + 4 * c) target, d := (pendingSet s.d c 0 false).set (L.EV_TARGET c) 0 }

/-- Commit all pending evidence. -/
def commitEvidence (s : State) : State := otpCounts (commitClass (commitClass (commitClass (commitClass s 0) 1) 2) 3)

/-! ## Conditions (R384, R386, R387, R390, R392) -/

/-- Sources whose condition comes from outside the model's own blocks. -/
def alarmOutside (n : Nat) : Bool :=
  decide (n ≤ 16) || n == 18 || (decide (20 ≤ n) && decide (n ≤ 27)) || (decide (32 ≤ n) && decide (n ≤ 43)) || n == 50 || n == 51 ||
    n == 58 || n == 59 || n == 60

/-- The source is enabled for this report: mesh and case enables, the supply mode of the rail, an open debug path. -/
def alarmEnabled (d : Dev) (n : Nat) (glitch : Bool) : Bool :=
  if n < 4 then bitAt (d.get R.BC_CFG_MESH_EN) n
  else if n < 12 then bitAt (d.get R.BC_CFG_CASE_EN) (n - 4)
  else if 20 ≤ n ∧ n ≤ 27 then bitAt (d.get R.SUPPLY_MODE) (2 * ((n - 20) / 2) + b2n glitch)
  else if n = 58 then !d.on R.DEBUG_STATUS_LANE_OPEN && !d.on R.DEBUG_STATUS_FULL_OPEN
  else true

/-- Guarded machines that a source reports. -/
def fsmMachine (n m : Nat) : Bool := (n == 51 && decide (m ≤ 8)) || (n == 18 && decide (16 ≤ m) && decide (m ≤ 18))

/-- A Base Camp source as a level, or as a pulse since the last sample. -/
def bcAlarm (d : Dev) (n : Nat) (on : Option Bool) : Dev :=
  match on with
  | some b => d.setBit L.BCA_LEVEL n b
  | none => d.setBit L.BCA_PULSE n true

/-- A detector reports: `on` is a condition that begins or ends to hold, or none for one that held between two samples. -/
def alarmCondition (power : PowerState) (d : Dev) (n : Nat) (on : Option Bool) (glitch : Bool) (machine : Nat) : Dev :=
  if !alarmOutside n || (power == .baseCampOnly && decide (19 ≤ n)) then d
  else if on = some false then
    if n < 19 then (if bitAt (d.get L.BCA_LEVEL) n then bcAlarm (bcAlarm d n none) n on else d)
    else if bitAt (d.get L.AL_LEVEL) n then (d.alarm n).alarmLevel n false else d
  else if !alarmEnabled d n glitch || ((n == 51 || n == 18) && !fsmMachine n machine) then d
  else
    let d := if (n = 51 ∨ n = 18) ∧ ¬ d.on R.FSM_FAULT_VALID ∧ power ≠ .baseCampOnly then
        d.setAll [(R.FSM_FAULT_MACHINE, machine), (R.FSM_FAULT_VALID, 1)] else d
    let d := if n = 59 then (d.count 6 R.OTP_FAULTS).latch 6 16 else d
    if n < 19 then bcAlarm d n on
    else match on with
      | some b => d.alarmLevel n b
      | none => d.alarm n

/-- The agreement time of a pair ends with one detector's report only (R386); the pair of an input that is not enabled reports nothing
(R390). -/
def disagreement (power : PowerState) (d : Dev) (n : Nat) : Dev :=
  if n < 12 ∧ ¬ alarmEnabled d n false then d else
  match alarmDisagree n with
  | some m => if m = 17 then bcAlarm d 17 none else if power = .baseCampOnly then d else d.alarm m
  | none => d

/-! ## Severity -/

/-- Effective severity (R385). -/
def alarmEff (d : Dev) (n : Nat) : Nat := max (d.get (R.ALARM_CFG_SEVERITY n)) (d.get (R.ALARM_CFG_FLOOR n))

/-- Response of a Base Camp source in battery operation (R398). -/
def battEff (d : Dev) (n : Nat) : Nat := if n = 18 ∨ (n ≠ 17 ∧ bitAt (d.get R.BC_BATT_ZEROIZE) n) then 4 else 0

/-- Records of a mask of sources in the order of R394: highest severity first, then lowest index. -/
def alarmOrder (eff : Nat → Nat) (mask : Nat) : List (Nat × Nat) :=
  let rs := ((List.range 64).filter fun n => bitAt mask n && !alarmReserved n).map fun n => (n, eff n)
  (([4, 3, 2, 1, 0] : List Nat).map fun v => rs.filter fun r => r.2 == v).flatten

/-- A source of severity CONTAIN or higher among the bits of a mask (R396). -/
def containSource (d : Dev) (mask : Nat) : Bool := (List.range 64).any fun n => bitAt mask n && decide (2 ≤ alarmEff d n)

/-! ## Clearing the stores (R397) -/

/-- Base Camp roots from `lo` on. -/
def clearRoots (d : Dev) (lo : Nat) : Dev :=
  d.each (64 - lo) fun i d => d.setAll [(L.ROOT_KEY (lo + i), 0), (R.ROOT_VALID (lo + i), 0), (R.ROOT_ORIGIN (lo + i), 0)]

/-- SAs of a direction that are not EMPTY. -/
def saListed (d : Dev) (rx : Bool) : List Nat :=
  (d.listedEntries 0x70 (saTable rx) ((saStateF rx 0).key % 512)).filter fun i => saState d rx i != saEmpty

/-- The keys of the memory guard go: a range with keys is OFF, and no key reads its lines any more (R437). -/
def clearGuardKeys (d : Dev) : Dev :=
  d.each 8 fun r d =>
    if d.get (R.RANGE_STATUS_STATE r) = rangeOff ∨ d.get (R.RANGE_CTRL_MODE r) = 0 then d
    else
      let lo := (d.get (R.RANGE_BASE r) - dramBase) / 64
      let hi := (d.get (R.RANGE_LIMIT r) - dramBase) / 64
      let k0 := majorKey r 0
      let k1 := majorKey (r + 1) 0
      let t0 := treeKey r 0 0
      let t1 := treeKey (r + 1) 0 0
      { d with
        dram := Cells.dropRange d.dram lo hi, mgMinor := Cells.dropRange d.mgMinor lo hi, mgMajor := Cells.dropRange d.mgMajor k0 k1,
        mgTree := Cells.dropRange d.mgTree t0 t1, mgCache := d.mgCache.filter (·.range != r),
        mgReenc := d.mgReenc.filter (·.range != r) }.setAll
        [(L.MG_KEY1 r, 0), (L.MG_KEY2 r, 0), (R.RANGE_STATUS_STATE r, rangeOff), (R.RANGE_STATUS_REENCRYPTING r, 0)]

/-- The key stores of the main domain: vault, DRBG, CMAC contexts, SAs, frame contexts, memory-guard keys, rope key. -/
def clearKeys (d : Dev) : Dev :=
  let d := ((d.listedEntries 5 0 32).filter fun i => !vEmpty d i).foldl slotZero d
  let d := ((d.each 8 fun c d => cmacDrop d c).each 2 fun n d => d.setAll [(L.DRBG_KEY n, 0), (L.DRBG_VAL n, 0), (L.DRBG_GEN n, 0)]).set
    R.VAULT_STATUS_DRBG_STATE 0
  let d := (saListed d false).foldl (fun d i => saToEmpty d false i) d
  let d := (saListed d true).foldl (fun d i => saToEmpty d true i) d
  let d := { d with
    txHeld := [], frames := d.frames.map Frame.withoutContext, txs := d.txs.map (fun t => { t with key := 0, iv := 0 }) }
  ropeKeyClear (clearGuardKeys d)

/-- The memories: on-die SRAM and the shared buffer. -/
def clearMemory (d : Dev) : Dev := bufferEmpty { d with sram := [] }

/-- A staged owner package goes (R415, R416). -/
def clearStaged (d : Dev) : Dev := d.setAll [(L.STAGED, 0), (L.STAGED_LEN, 0), (R.LC_STATUS_ENROLL_STAGED, 0)]

/-- Debug closes; in TEST the full class stays open (R424, R427). -/
def debugClose (d : Dev) : Dev :=
  d.setAll [(R.DEBUG_STATUS_LANE_OPEN, 0), (R.DEBUG_STATUS_FULL_OPEN, b2n (d.get R.LC_STATE == lcTest)), (L.FULL_WIPE, 0)]

/-! ## What a response ends -/

/-- A power-state transition ends with ERR_ABORTED_ALARM (R487). -/
def powerAbort (d : Dev) : Dev :=
  if d.get R.PWR_STATUS_TRANSITION = 0 then d
  else
    let q := d.get L.PWR_SLOT
    let d := { d with waiting := d.waiting.filter (fun r => !(r.action == PowerAction.powerState)) }.setAll
      [(R.PWR_STATUS_TRANSITION, 0), (L.PWR_SLOT, 0), (L.PWR_GRANTED, 0)]
    if q = 0 then d else slotFail d (q - 1) codeAbortedAlarm 0

/-- The wipe of a full-debug response is abandoned: its command ends with ERR_ABORTED_ALARM (R267, R430). -/
def wipeAbort (d : Dev) : Dev :=
  let q := d.get L.FULL_WIPE
  if q = 0 then d else slotFail (d.set L.FULL_WIPE 0) (7 + q) codeAbortedAlarm 0

/-- A life-cycle transition ends with an error: LC_STATUS, LC_LAST and event bit 5 (R411, R412). -/
def lcEnd (d : Dev) (target code detail : Nat) : Dev :=
  (d.setAll [(R.LC_STATUS_CODE, code), (R.LC_STATUS_DETAIL, detail), (R.LC_STATUS_PHASE, 0), (R.LC_LAST_FROM, d.get R.LC_STATE),
    (R.LC_LAST_TO, target), (R.LC_LAST_CODE, code)]).latch 6 5

/-- A transition before its commit ends with `code`: its intent word is finished and stays without effect (R413). -/
def lcBreak (s : State) (code : Nat) : State :=
  let t := s.d.get L.LC_TARGET
  { s with otp := otpBlow s.otp (lcIntent t).1 (lcIntent t).2, d := lcEnd s.d t code 0 }

/-- HALT or ZEROIZE meets a life-cycle transition (R416). -/
def lcAlarm (s : State) : State :=
  let p := s.d.get R.LC_STATUS_PHASE
  if p = 0 then s else if p ≤ 2 then lcBreak s codeAbortedAlarm else s.setDev (s.d.set L.LC_STOP 1)

/-- Pattern generators stop in CONTAINED and run again after it (R107). -/
def generators (d : Dev) (on : Bool) : Dev :=
  d.each 256 fun l d =>
    if d.on (R.PRBS_CTRL_GEN_EN l) && !d.on (R.PRBS_STATUS_GEN_REFUSED l) then d.setB (R.PRBS_STATUS_GEN_RUNNING l) on else d

/-- The run state enters CONTAINED (R22, R145, R219, R333). -/
def containEnter (s : State) (was : RunState) : State :=
  let d := rxContain .contained s.d
  let d := ((d.txs.map (·.port)).eraseDups).foldl (txAbort .contained) d
  let d := generators (containDiscard .contained d) false
  { s with run := .contained, d := (hwmAll d s.d was .contained).latch 7 1 }

/-- HALT or more: what stops at once; Belay frames that wait are not sent any more (R107, R395, R416, R482, R487). -/
def haltStop (s : State) : State :=
  let s := lcAlarm s
  s.setDev (generators ({ powerAbort s.d with lineWait := [] }.set L.ROPE_SILENT 1) false)

/-- A zeroization goes on: the stores wait for their clearing (R397). -/
def zeroizing (d : Dev) : Bool := d.on L.ZERO_KEYS || d.on L.ZERO_MEM

/-- The response of a tick acts (R395). -/
def respond (s : State) (resp : Nat) : State :=
  if resp < 2 then s
  else
    let s := s.setDev (wipeAbort (vaultAbort s.d))
    if resp = 2 then
      match s.run with
      | .active => containEnter s .active
      | .booting => s.setDev (s.d.set L.CONTAIN_AT_BOOT 1)
      | .contained => s
      | .alarmHold => s
      | .halted => s
      | .zeroized => s
    else if resp = 3 then
      let s := haltStop s
      match s.run with
      | .active => { s with run := .halted }
      | .contained => { s with run := .halted }
      | .booting => if zeroizing s.d then s else { s with run := .halted }
      | .alarmHold => s
      | .halted => s
      | .zeroized => s
    else
      let s := haltStop s
      let d := debugClose (s.d.setAll [(R.ZEROIZE_STATUS_ACTIVE, 1), (L.ZERO_KEYS, 1), (L.ZERO_MEM, 1), (R.BUF_STATUS_ZERO_FILL, 1)])
      match s.run with
      | .active => { s with run := .zeroized, d := d }
      | .contained => { s with run := .zeroized, d := d }
      | .booting => s.setDev d
      | .alarmHold => s.setDev d
      | .halted => s.setDev d
      | .zeroized => s.setDev d

/-- A zeroization of BOOTING that is complete leads to ALARM_HOLD (R27, R395). -/
def zeroizeDone (s : State) : State :=
  if s.run = .booting ∧ ¬ zeroizing s.d then { s with run := .alarmHold } else s

/-- The key stores are clear (R397). -/
def keysClear (s : State) : State :=
  if s.d.on L.ZERO_KEYS then
    zeroizeDone (s.setDev ((clearStaged (clearKeys (clearRoots s.d 0))).setAll [(L.ZERO_KEYS, 0), (R.ZEROIZE_STATUS_KEYS_CLEAR, 1)]))
  else s

/-- The memories are clear (R397). -/
def memoryClear (s : State) : State :=
  if s.d.on L.ZERO_MEM then
    zeroizeDone (s.setDev ((zeroFillDone (clearMemory s.d)).setAll [(L.ZERO_MEM, 0), (R.ZEROIZE_STATUS_MEMORY_CLEAR, 1)]))
  else s

/-! ## Sampling and recording (R393, R394, R398, R399) -/

/-- Base Camp runs alone: no main power, or no tick yet since a power-on reset. -/
def battery (s : State) : Bool := s.power == .baseCampOnly || s.d.on L.PU_WANT

/-- Sources active at a sample: every source whose condition holds or has held since the last one. -/
def alarmSample (d : Dev) : Nat :=
  (d.get L.AL_LEVEL ||| d.get L.AL_PULSE) / 2 ^ 19 * 2 ^ 19 ||| d.get L.BCA_LEVEL ||| d.get L.BCA_PULSE

/-- A tick samples the sources that are no longer active as inactive; the others keep their bit (R393). -/
def alarmDrop (d : Dev) : Dev :=
  let v := alarmSample d
  if d.get R.ALARM_ACTIVE = 0 ∧ d.get L.BCA_ACTIVE = 0 then d
  else d.setAll [(R.ALARM_ACTIVE, d.get R.ALARM_ACTIVE &&& v), (L.BCA_ACTIVE, d.get L.BCA_ACTIVE &&& v)]

/-- A tick has sampled a source that is newly active: its record and response come before everything else of the tick (R83, R393). -/
def alarmNew (s : State) : Dev :=
  let prev := (s.d.get R.ALARM_ACTIVE) / 2 ^ 19 * 2 ^ 19 ||| s.d.get L.BCA_ACTIVE
  let act := alarmSample s.d
  s.d.setB L.AL_NEW (!battery s && (act ^^^ (act &&& prev)) != 0)

/-- Flags, latch bits and log entries of the records of one sample. -/
def recordAll (d : Dev) (batt : Bool) (resp : Nat) (recs : List (Nat × Nat)) : Dev :=
  recs.foldl (fun d r =>
    let d := d.setBit R.STICKY r.1 true
    let d := if batt then d else d.setBit R.ALARM_LATCH r.1 true
    let d := logWrite d batt r.1 0 r.2 resp
    if !batt && alarmIsDisagree r.1 then d.latch 7 8 else d) d

/-- The highest severity of a list of records. -/
def topSeverity (recs : List (Nat × Nat)) : Nat := recs.foldl (fun m r => max m r.2) 0

/-- The collector samples every source at a tick, records the new ones and applies the response (R393, R394, R480). -/
def alarmTick (s : State) : State :=
  if battery s || !s.d.on L.TB_RUN || s.d.tick == 0 then s
  else
    let act := alarmSample s.d
    let prev := (s.d.get R.ALARM_ACTIVE) / 2 ^ 19 * 2 ^ 19 ||| s.d.get L.BCA_ACTIVE
    let recs := alarmOrder (alarmEff s.d) (act ^^^ (act &&& prev))
    let d := s.d.setAll [(R.ALARM_ACTIVE, act), (L.BCA_ACTIVE, act % 2 ^ 19), (L.AL_PULSE, 0), (L.BCA_PULSE, 0), (L.AL_NEW, 0)]
    if recs.isEmpty then s.setDev d
    else
      let resp := topSeverity recs
      let d := recordAll (d.setAll [(L.AL_RESP, resp), (L.AL_RESP_TICK, d.tick + 1)]) false resp recs
      let d := if resp = 4 then evidence d false recs else d
      let d := d.latchIf (decide (1 ≤ resp)) 7 0
      let d := if d.on L.ROPE_SILENT then d
        else ropeAlarmSend d resp (recs.filter fun r => r.1 != 57 && decide (d.get R.ROPE_CFG2_ALARM_SEND_MIN ≤ r.2))
      respond (s.setDev d) resp

/-- A Base Camp cycle samples the Base Camp sources (R398, R399). -/
def batteryTick (s : State) : State :=
  if !battery s then s
  else
    let act := s.d.get L.BCA_LEVEL ||| s.d.get L.BCA_PULSE
    let recs := alarmOrder (battEff s.d) (act ^^^ (act &&& s.d.get L.BCA_ACTIVE))
    let d := s.d.setAll [(L.BCA_ACTIVE, act), (L.BCA_PULSE, 0)]
    let resp := topSeverity recs
    let d := recordAll d true resp recs
    s.setDev (if resp = 4 then clearRoots (evidence d true recs) 0 else d)

/-! ## Register writes of page 0x07 -/

/-- CONTAIN_RELEASE (R396). -/
def containRelease (s : State) : State :=
  if s.run = .contained ∧ ¬ containSource s.d (s.d.get R.ALARM_LATCH ||| s.d.get R.ALARM_ACTIVE) then
    let d := logWrite (generators (s.d.set R.RELEASE_STATUS_CODE codeOk) true) false 0 2 0 0
    { s with run := .active, d := (hwmAll d s.d .contained .active).latch 7 2 }
  else s.setDev ((s.d.set R.RELEASE_STATUS_CODE codeState).latch 7 3)

/-- ALARM_LATCH bits are written with ones (R396). -/
def alarmLatchClear (d : Dev) (bits : Nat) : Dev :=
  let v := d.get R.ALARM_LATCH
  let gone := v &&& bits &&& (v ^^^ (v &&& d.get R.ALARM_ACTIVE))
  d.set R.ALARM_LATCH (v ^^^ gone)

/-- STICKY_CLEAR bits are written with ones (R400). -/
def stickyClear (d : Dev) (bits : Nat) : Dev :=
  d.each 64 fun n d =>
    if !bitAt bits n || alarmReserved n then d
    else if d.on R.PRESENCE_STATUS_ASSERTED && !bitAt (d.get R.ALARM_ACTIVE) n then
      (logWrite (d.setBit R.STICKY n false) false n 1 0 0).latch 7 5
    else (d.count 7 R.STICKY_CLEAR_REFUSED).latch 7 6

/-- A write of the Base Camp configuration without presence (R391). -/
def bcRefused (d : Dev) : Dev := (d.count 7 R.BC_CFG_REFUSED).latch 7 6

/-- BC_CFG is written: a source that is no longer enabled is no longer active, and an input whose active level turns is no longer at it
(R390, R391). -/
def bcCfgWrite (d : Dev) (v : Nat) : Dev :=
  if !d.on R.PRESENCE_STATUS_ASSERTED then bcRefused d
  else
    let en := bitsOf v 0 12 + (2 ^ 19 - 2 ^ 12)
    let level := d.get L.BCA_LEVEL
    let left := level &&& ((d.get R.BC_CFG_CASE_LEVEL ^^^ bitsOf v 12 8) * 16)
    let d := d.setAll [(R.BC_CFG_MESH_EN, bitsOf v 0 4), (R.BC_CFG_CASE_EN, bitsOf v 4 8), (R.BC_CFG_CASE_LEVEL, bitsOf v 12 8),
      (L.BCA_LEVEL, (level ^^^ left) &&& en), (L.BCA_PULSE, (d.get L.BCA_PULSE ||| left) &&& en)]
    logWrite d false 0 3 0 0

/-- BC_BATT_ZEROIZE is written (R391). -/
def bcBattWrite (d : Dev) (v : Nat) : Dev :=
  if !d.on R.PRESENCE_STATUS_ASSERTED then bcRefused d else logWrite (d.set R.BC_BATT_ZEROIZE v) false 0 3 0 0

/-- ALARM_CFG(n) is written (R385). -/
def alarmCfgWrite (a : BitVec 10) (d : Dev) (n v : Nat) : Dev :=
  let ok (x : Nat) : Bool := decide (alarmLowest n ≤ x) && decide (x ≤ alarmHighest n)
  let d := if ok (bitsOf v 0 3) then d.set (R.ALARM_CFG_SEVERITY n) (bitsOf v 0 3) else d
  if anchored a 4 || ok (bitsOf v 4 3) then rwaWrite a 4 (R.ALARM_CFG_FLOOR n) (bitsOf v 4 3) d else d

/-- The instant of a tick whose time is a whole second is stored in Base Camp (R403). -/
def timeRef (d : Dev) : Dev :=
  if d.on L.TB_RUN && d.tickTime % fineSec == 0 then
    d.setAll [(R.BC_TIME_REF_REF_SEC, secOf d.tickTime), (R.BC_TIME_REF_REF_COUNT, d.get R.BC_COUNT), (R.BC_TIME_REF_TIME_SET, d.get R.TB_STATUS_TIME_SET)]
  else d

/-! ## Presence (R410) -/

/-- A transition between two states needs presence (R414). -/
def lcNeedsPresence (src t : Nat) : Bool := t == 5 || (src == 2 && t == 3) || (src == 3 && t == 4)

/-- PRESENCE_N has been low at every tick for 20 ms. -/
def presenceOn (d : Dev) : Dev :=
  if d.on R.PRESENCE_STATUS_ASSERTED then d
  else (d.setAll [(R.PRESENCE_STATUS_ASSERTED, 1), (R.PRESENCE_STATUS_RAW_LOW, 1)]).latch 6 12

/-- PRESENCE_N is sampled high: what needs presence ends (R258, R412). -/
def presenceOff (s : State) : State :=
  let was := s.d.on R.PRESENCE_STATUS_ASSERTED
  let d := vaultPresenceLost (s.d.setAll [(R.PRESENCE_STATUS_ASSERTED, 0), (R.PRESENCE_STATUS_RAW_LOW, 0)])
  let s := s.setDev (d.latchIf was 6 12)
  let p := s.d.get R.LC_STATUS_PHASE
  if was && (p == 1 || p == 2) && lcNeedsPresence (s.d.get R.LC_STATE) (s.d.get L.LC_TARGET) then lcBreak s codePresence else s

/-! ## Rows -/

/-- A row of the part while its main domain has power, in any run state. -/
def State.powered (s : State) (f : State → State) : Host.Outcome State Fault Refusal :=
  .next (if s.power = .baseCampOnly then s else f s)

/-- ALARM_CONDITION (R386): the source, whether its condition begins or ends to hold or has been a pulse, whether a supply excursion
is a glitch (else slow), and the guarded machine of AL18 and AL51. -/
def execAlarmCondition (n : Fin 64) (on : Option Bool) (glitch : Bool) (machine : Fin 32) (s : State) : Host.Outcome State Fault Refusal :=
  .next (s.setDev (alarmCondition s.power s.d n on glitch machine))
/-- DETECTOR_DISAGREEMENT (R386): a detector pair of source `n`. -/
def execDetectorDisagreement (n : Fin 64) (s : State) : Host.Outcome State Fault Refusal := .next (s.setDev (disagreement s.power s.d n))
/-- ZEROIZE_KEYS_CLEAR (R397). -/
def execZeroizeKeysClear (s : State) : Host.Outcome State Fault Refusal := s.powered keysClear
/-- ZEROIZE_MEMORY_CLEAR (R397). -/
def execZeroizeMemoryClear (s : State) : Host.Outcome State Fault Refusal := s.powered memoryClear
/-- BATTERY_ALARM_RECORD (R398). -/
def execBatteryAlarmRecord (s : State) : Host.Outcome State Fault Refusal := .next (batteryTick s)
/-- EVIDENCE_OTP_COMMIT (R401). -/
def execEvidenceOtpCommit (s : State) : Host.Outcome State Fault Refusal := s.powered commitEvidence
/-- BC_TIME_REF_CAPTURE (R403). -/
def execBcTimeRefCapture (s : State) : Host.Outcome State Fault Refusal := s.powered fun s => s.setDev (timeRef s.d)
/-- CONTAIN_RELEASE (R396). -/
def execContainRelease (key : BitVec 16) (s : State) : Host.Outcome State Fault Refusal :=
  .next (if s.live 7 ∧ key.toNat = 0x5245 then containRelease s else s)
/-- ALARM_LATCH_CLEAR (R396): the low or high word. -/
def execAlarmLatchClear (half : Fin 2) (bits : Word) (s : State) : Host.Outcome State Fault Refusal :=
  s.page 7 fun d => alarmLatchClear d (bits.toNat * 2 ^ (32 * half.val))
/-- STICKY_CLEAR (R400): the low or high word. -/
def execStickyClear (half : Fin 2) (bits : Word) (s : State) : Host.Outcome State Fault Refusal :=
  s.page 7 fun d => stickyClear d (bits.toNat * 2 ^ (32 * half.val))
/-- ZEROIZE_REQUEST (R404). -/
def execZeroizeRequest (key : BitVec 16) (s : State) : Host.Outcome State Fault Refusal :=
  s.page 7 fun d => if key.toNat = 0x5A5A then d.alarm 61 else d
/-- BC_CFG_WRITE (R391). -/
def execBcCfgWrite (v : Word) (s : State) : Host.Outcome State Fault Refusal := s.page 7 fun d => bcCfgWrite d v.toNat
/-- BC_BATT_ZEROIZE_WRITE (R391). -/
def execBcBattZeroizeWrite (v : Word) (s : State) : Host.Outcome State Fault Refusal := s.page 7 fun d => bcBattWrite d v.toNat
/-- ALARM_CFG_WRITE (R385). -/
def execAlarmCfgWrite (n : Fin 64) (v : Word) (s : State) : Host.Outcome State Fault Refusal :=
  s.page 7 fun d => alarmCfgWrite s.anchors d n v.toNat
/-- PRESENCE_ASSERTED (R410). -/
def execPresenceAsserted (s : State) : Host.Outcome State Fault Refusal := s.powered fun s => s.setDev (presenceOn s.d)
/-- PRESENCE_WITHDRAWN (R410). -/
def execPresenceWithdrawn (s : State) : Host.Outcome State Fault Refusal := s.powered presenceOff

end Sys2Proof.Machine
end

