-- ==== Sys2Proof/Machine/PortRows.lean ====
section
/-! DEFINITION. The rows of the port pages (R132 to R154): octet mode, enable and disable, hold-off, negotiation, faults. -/

namespace Sys2Proof.Machine

/-- A page of Clause 73 as far as R138 uses one: the technology by interface code with its RS-FEC bits, or a null message page. -/
inductive AnPage where
  | base (technology : Nat) (rsAble rsAsked : Bool)
  | null
  deriving DecidableEq, Repr

/-- What port `p` sends (R138): its base page, and a null message page in answer to each next page of the partner. -/
def anSends (d : Dev) (p : Nat) (answer : Bool) : AnPage :=
  if answer then .null else .base (iface d p) (iface d p == 1) (iface d p == 1 && d.on (R.PORT_CTRL_FEC_MODE p))

/-- The FEC that a negotiation resolves to on a 25G-1L port. PRESUMED: under the priority rules of Clause 73 RS-FEC is used when both ends
are able and one of them asks for it (log 28). -/
def anRsFec (own partner : AnPage) : Bool :=
  match own, partner with
  | .base _ a x, .base _ b y => a && b && (x || y)
  | .null, _ => false
  | _, .null => false

/-- Clause 73 negotiation resolves with a partner of the port's technology (R138): the first lane leaves RX_DETECT once its burst is held. -/
def anResolved (d : Dev) (p : Nat) (able asked : Bool) : Dev :=
  if laneNegotiates d p && laneStage d p == stRxDetect then
    let f := decide (2 ≤ iface d p) || anRsFec (anSends d p false) (.base (iface d p) able asked)
    let d := d.setAll [(R.PORT_STATUS_AN_DONE p, 1), (R.PORT_STATUS_AN_NO_HCD p, 0), (R.PORT_STATUS_FEC_ACTIVE p, b2n f)]
    if d.get (L.LANE_BURST p) = 2 then (laneSet d p stTraining).setAll [(R.LANE_STATUS_SIGNAL p, 1), (R.LANE_STATUS_TRAINED p, 0)] else d
  else d

/-- The partner does not advertise the configured ability (R139). -/
def anRestart (d : Dev) (p : Nat) : Dev :=
  if laneNegotiates d p && laneStage d p == stRxDetect then
    portCount (d.setAll [(R.PORT_STATUS_AN_NO_HCD p, 1), (R.PORT_STATUS_AN_DONE p, 0)]) p (R.AN_RESTARTS p)
  else d

/-- The port's hi_ber variable, or the degraded-SER indication of its FEC, is now `v`: HI_BER follows, and each rise counts and latches
ERRORS (R137). -/
def hiBer (d : Dev) (p : Nat) (v : Bool) : Dev :=
  if !portReserved d p || !served d p || d.on (R.PORT_STATUS_HI_BER p) == v then d
  else if v then portEvent (portCount (d.set (R.PORT_STATUS_HI_BER p) 1) p (R.HI_BER_COUNT p)) p 3
  else d.set (R.PORT_STATUS_HI_BER p) 0

/-- An aligned port loses marker lock on a PCS lane (R147, R148). -/
def amLockLoss (run : RunState) (d : Dev) (p : Nat) : Dev :=
  if portState d p = psUp ∧ d.on (R.PORT_STATUS_ALIGNED p) then holdoffEntry run (portCount d p (R.AM_LOCK_LOSS p)) p else d

/-- Received fault ordered sets change (R153, R154): local and remote fault exclude each other, local fault first. -/
def faultSets (d : Dev) (p : Nat) (lf rf : Bool) : Dev := if portState d p = psUp then portFault d p lf (rf && !lf) else d

/-- The PCS of a port in HOLDOFF realigns while all its lanes are ACTIVE (R150). -/
def pcsRealigned (run : RunState) (d : Dev) (p : Nat) : Dev :=
  if portState d p = psHoldoff ∧ allActive d p then portRise run (d.set (R.PORT_STATUS_ALIGNED p) 1) p else d

/-- ENABLE of a port is written 0: the port is disabled in the next tick (R143). DESIGN CHOICE: until then ENABLE reads 1 (log 18). -/
def portOff (d : Dev) (p : Nat) : Dev :=
  if portState d p = psDisabled ∧ ¬ d.posted.any (fun x => x.2 == .portEnable p) then d else d.post (.portDisable p)

/-- ENABLE of a port is written 1: at once, or behind a write of 0 that waits for its tick. -/
def portOn (run : RunState) (power : PowerState) (d : Dev) (p : Nat) : Dev :=
  if d.posted.any (fun x => x.2 == .portDisable p) then d.post (.portEnable p) else portEnable run power d p

/-- OCT_PORT_MODE_WRITE (R545). -/
def execOctPortModeWrite (k : Fin 32) (mode : Fin 16) (s : State) : Host.Outcome State Fault Refusal :=
  s.page (0x30 + k) fun d => portMode d k mode
/-- PORT_ENABLE (R141). -/
def execPortEnable (p : Fin 256) (s : State) : Host.Outcome State Fault Refusal :=
  s.page (portPage p) fun d => portOn s.run s.power d p
/-- PORT_DISABLE (R143). -/
def execPortDisable (p : Fin 256) (s : State) : Host.Outcome State Fault Refusal :=
  s.page (portPage p) fun d => portOff d p
/-- HOLDOFF_EXPIRY (R151). -/
def execHoldoffExpiry (p : Fin 256) (s : State) : Host.Outcome State Fault Refusal := s.lanes fun d => holdoffExpiry d p
/-- AN_RESOLVED (R138): what the partner's base page says of RS-FEC. -/
def execAnResolved (p : Fin 256) (far : PartnerFec) (s : State) : Host.Outcome State Fault Refusal := s.lanes fun d => anResolved d p far.able far.asked
/-- AN_RESTART (R139). -/
def execAnRestart (p : Fin 256) (s : State) : Host.Outcome State Fault Refusal := s.lanes fun d => anRestart d p
/-- HI_BER_RISE (R137): the variable takes a value; `true` is the rise. -/
def execHiBerRise (c : BerChange) (s : State) : Host.Outcome State Fault Refusal := s.lanes fun d => hiBer d c.port c.up
/-- AM_LOCK_LOSS (R147). -/
def execAmLockLoss (p : Fin 256) (s : State) : Host.Outcome State Fault Refusal := s.lanes fun d => amLockLoss s.run d p
/-- FAULT_ORDERED_SETS (R154): which faults the received ordered sets give now. -/
def execFaultOrderedSets (p : Fin 256) (lf rf : Bool) (s : State) : Host.Outcome State Fault Refusal :=
  s.lanes fun d => faultSets d p lf rf
/-- PCS_REALIGNED (R150). -/
def execPcsRealigned (p : Fin 256) (s : State) : Host.Outcome State Fault Refusal := s.lanes fun d => pcsRealigned s.run d p

end Sys2Proof.Machine
end

