-- ==== Sys2Proof/Machine/Arbiter.lean ====
section
/-! DEFINITION. The power arbiter at work (R493, R494): granting in order, portions of grants and releases within the
SLEW_LIMIT window, and what a complete grant starts. -/

namespace Sys2Proof.Machine

/-- The memory guard's grant has come: PENDING ranges start INIT (R435, R452). -/
def guardGranted (d : Dev) : Dev :=
  (d.set R.MG_STATUS_ENGINE_GRANTED 1).each 8 fun r d =>
    if d.get (R.RANGE_STATUS_STATE r) = rangePending then d.set (R.RANGE_STATUS_STATE r) rangeInit else d

/-- What a complete grant starts (R490). -/
def powerStart (run : RunState) (d : Dev) : PowerAction → Dev
  | .port p => portGranted run d p
  | .testLane l => testGranted d l
  | .laneBurst l => lanePower (d.set (L.LANE_BURST l) 2) l
  | .adaptBurst l => adaptGranted d l
  | .eyeScan l n wp => scanGranted d l n wp
  | .pipeSet k dir s => pipeSetGranted d k dir s
  | .vault => d.set R.VAULT_STATUS_ENGINE_GRANTED 1
  | .memGuard => guardGranted d
  | .powerState => d.setAll [(L.PWR_GRANTED, 1), (R.BUF_STATUS_ZERO_FILL, 1)]

/-- Units of a request now: those of a port and of a test lane depend on what their octet holds (R104, R142). -/
def requestUnits (d : Dev) (r : PowerReq) : Nat :=
  match r.action with
  | .port p => portUnits d p
  | .testLane l => testUnits d l
  | _ => r.units

/-- Order of consideration: class, arrival, requester (R493). -/
def reqBefore (a b : PowerReq) : Bool :=
  decide (a.cls < b.cls) || (a.cls == b.cls && (decide (a.arrived < b.arrived) || (a.arrived == b.arrived && decide (a.requester ≤ b.requester))))

/-- Insert a request in order. -/
def reqInsert (r : PowerReq) : List PowerReq → List PowerReq
  | [] => [r]
  | x :: xs => if reqBefore x r then x :: reqInsert r xs else r :: x :: xs

/-- Waiting requests in the order of R493. -/
def reqOrder (d : Dev) : List PowerReq := d.waiting.foldl (fun l r => reqInsert r l) []

/-- The requests of R493 that a tick considers: those that arrived before it. -/
def reqDue (d : Dev) : List PowerReq := (reqOrder d).filter fun r => r.arrived != d.cyc

/-- Issue a portion of the first grant being issued, within the window's room; a complete grant starts its action. -/
def grantPortion (run : RunState) (d : Dev) : Dev :=
  match d.issuing with
  | [] => d
  | g :: gs =>
    let n := min g.left (slewRoom d d.slewIssued)
    let d := { d with slewIssued := inWindow d d.slewIssued ++ (if n = 0 then [] else [(d.tick, n)]) }
    if g.left ≤ n then powerStart run { d with issuing := gs } g.action
    else { d with issuing := { g with issued := g.issued + n, left := g.left - n } :: gs }

/-- Issue from the queue of grants while the window has room: `fuel` grants at most. -/
def issueAll (run : RunState) : Nat → Dev → Dev
  | 0, d => d
  | fuel + 1, d =>
    let d' := grantPortion run d
    if d'.issuing.length < d.issuing.length then issueAll run fuel d' else d'

/-- Admit a portion of the first release (R494). -/
def releasePortion (d : Dev) : Dev :=
  match d.releasing with
  | [] => d
  | (q, u) :: rest =>
    let n := min u (slewRoom d d.slewAdmitted)
    let d := arbDrop { d with slewAdmitted := inWindow d d.slewAdmitted ++ (if n = 0 then [] else [(d.tick, n)]) } q n
    { d with releasing := if u ≤ n then rest else (q, u - n) :: rest }

/-- A waypoint's eye scan that does not start at once is DELAYED (R91, R117). -/
def scanDelayed (d : Dev) (a : PowerAction) : Dev :=
  match a with
  | .eyeScan _ _ (some w) => (d.set (R.WP_DELAYED w) 1).latch 3 4
  | _ => d

/-- Grant a request: its units enter the account, what its octet shares is reserved, and its first portion issues. -/
def grantRequest (run : RunState) (d : Dev) (r : PowerReq) : Dev :=
  let u := requestUnits d r
  let d := { d with waiting := d.waiting.filter (fun x => !(x == r)) }
  let d := match r.action with
    | .port p => portReserve d p
    | .testLane l => testReserve d l
    | _ => d
  let d := (d.set (R.REQ_GRANTED r.requester) (d.get (R.REQ_GRANTED r.requester) + u)).count 4 R.GRANTS
  let d := if d.on (L.PAGE_FREEZE 4) then d else d.set R.MAX_WAIT_US (max (d.get R.MAX_WAIT_US) (min (2 ^ 32 - 1) ((d.cyc - r.arrived) / 1000)))
  let alone := d.issuing.isEmpty
  let d := { d with issuing := d.issuing ++ [⟨r.requester, r.action, 0, u⟩] }
  let d := if alone then grantPortion run d else d
  if granting d r.action then scanDelayed d r.action else d

/-- A request does not fit and begins to wait (R492); a waypoint's eye scan that waits is DELAYED (R117). -/
def beginWait (d : Dev) (r : PowerReq) : Dev :=
  if r.waits then d
  else
    let d := { d with waiting := d.waiting.map fun x => if x == r then { x with waits := true } else x }
    scanDelayed ((d.count 4 R.WAITS).latch 4 8) r.action

/-- A port waits while the fences leave too few sets (R218). DESIGN CHOICE: a test lane waits while the power state is not ACTIVE, since
the octets are then off (R15); the spec gives the TEST_ENABLE write no code (log 25). -/
def heldBack (power : PowerState) (d : Dev) (r : PowerReq) : Bool :=
  match r.action with
  | .port p => portFenced d p
  | .testLane _ => power != .active
  | _ => false

/-- Consider the requests in order; `blocked` once one has not fitted (R493). -/
def considerAll (run : RunState) (power : PowerState) : List PowerReq → Bool → Dev → Dev
  | [], _, d => d
  | r :: rs, blocked, d =>
    let u := requestUnits d r
    let own := unusedFloor d r.requester
    if heldBack power d r then considerAll run power rs blocked (beginWait d r)
    else if (!blocked && decide (u ≤ arbFree d + own)) || decide (u ≤ own) then considerAll run power rs blocked (grantRequest run d r)
    else considerAll run power rs true (beginWait d r)

/-- ARBITER_GRANT (R493): the requests that wait in this tick, those of this tick itself not yet. The arbiter is frozen in HALTED, ZEROIZED and ALARM_HOLD (R498,
R499). -/
def execArbiterGrant (s : State) : Host.Outcome State Fault Refusal :=
  s.lanes fun d => considerAll s.run s.power (reqDue d) false d
/-- GRANT_PORTION (R494). -/
def execGrantPortion (s : State) : Host.Outcome State Fault Refusal :=
  s.lanes fun d => issueAll s.run (d.issuing.length + 1) d
/-- RELEASE_PORTION (R494). -/
def execReleasePortion (s : State) : Host.Outcome State Fault Refusal := s.lanes releasePortion
/-- BUDGET_CEILING_WRITE (R491): the field belongs to anchor group 3, and a write that an anchor stops counts under R62. -/
def execBudgetCeilingWrite (v : BitVec 12) (s : State) : Host.Outcome State Fault Refusal :=
  s.page 4 fun d =>
    if anchored s.anchors 3 then (if v.toNat = d.get R.BUDGET_CEILING then d else anchoredWrite d) else budgetWrite d v.toNat

end Sys2Proof.Machine
end

