-- ==== Sys2Proof/Machine/Power.lean ====
section
/-! DEFINITION. Power-state transitions (R487, R488), adaptive voltage scaling (R500, R501), performance-counter overflow (R521)
and the SMBus target (R539). -/

namespace Sys2Proof.Machine

/-- Units of the switch island (R487, R489). -/
def islandUnits : Nat := 640

/-- DEV_STATE.POWER_STATE codes (R39). -/
def PowerState.code : PowerState → Nat
  | .baseCampOnly => 0
  | .standby => 1
  | .active => 2

/-! ## The switch island goes off (R488) -/

/-- A table field of page 0x70 of anchor groups 0 to 2, by table and lowest bit: BYPASS_MASK, POLICY, GUARD_MASK, the VLAN classes
and the bypass table. -/
def anchoredCell (table lo : Nat) : Bool :=
  (table == 0 && lo == 64) || (table == 4 && (lo == 16 || lo == 32)) || table == 5 || table == 6

/-- A cell of a table that the switch island loses. -/
def islandCell (k : Nat) : Bool :=
  if k < tblBase ∨ latBase ≤ k then false
  else
    let t := (k - tblBase) / 512 / 2 ^ 20
    let pg := t / 32
    ((decide (0x70 ≤ pg) && decide (pg ≤ 0x74)) || (decide (0x78 ≤ pg) && decide (pg ≤ 0x87))) &&
      !(pg == 0x70 && anchoredCell (t % 32) (k % 512))

/-- What the tables stand on goes with them: keys, windows, buckets, credits, averages, positions and gate schedules. -/
def islandLatches : List Fld :=
  [L.SA_KEY 0, L.SA_SALT 0, L.SA_FRAMES 0, L.RXSA_FROM_V 0, L.RXSA_FROM 0, L.RXSA_UNTIL_V 0, L.RXSA_UNTIL 0, L.SW_AT_V 0, L.SW_AT 0,
    L.POL_TC_DEF 0, L.POL_TP_DEF 0, L.POL_SINCE 0, L.SHP_DEF 0, L.SHP_SINCE 0, L.CBS_FINE 0, L.CBS_SINCE 0, L.CBS_HOLD 0, L.Q_AVG 0, L.DRR_POS 0 0,
    L.DRR_VISIT 0 0, L.GATE_RUN 0, L.GATE_BASE 0, L.GATE_AT 0, L.GATE_ENTRY 0, L.GATE_W 0 0, L.GATE_HOLD 0]

/-- The tables of the switch island return to their reset values. -/
def islandOff (d : Dev) : Dev :=
  let d := ((saListed d false).foldl (fun d i => saToEmpty d false i) d)
  let d := ((saListed d true).foldl (fun d i => saToEmpty d true i) d)
  islandLatches.foldl Dev.clearGroup { d with txHeld := [], looped := [], cells := d.cells.filter fun p => !islandCell p.1 }

/-- Copies that wait in ring queues are discarded and counted in RING_DISCARDS (R488). -/
def ringQueuesEmpty (run : RunState) (d : Dev) : Dev :=
  (d.copies.filter fun c => decide (4096 ≤ c.queue)).foldl (fun d c => ringStat (dropCopy run d c) (c.queue - 4096) 3 1) d

/-! ## Transitions (R487) -/

/-- Every port is DISABLED, every lane and every cluster OFF. -/
def islandIdle (d : Dev) : Bool :=
  allBelow (fun p => d.get (R.PORT_STATUS_STATE p) == 0) 256 && allBelow (fun l => d.get (R.LANE_STATUS_STAGE l) == 0) 256 &&
    allBelow (fun k => d.get (R.CC_STATUS_STATE k) == 0) 32

/-- A transition starts. -/
def transitionStart (d : Dev) (id dir : Nat) : Dev :=
  d.setAll [(R.PWR_STATUS_TRANSITION, dir), (L.PWR_SLOT, id + 1), (L.PWR_GRANTED, 0), (L.SLOT_CODE id, codeRunning)]

/-- SET_POWER_STATE runs in slot `id`. -/
def setPowerState (power : PowerState) (d : Dev) (id : Nat) : Dev :=
  let t := slotArg d id 0 % 4
  if d.get R.PWR_STATUS_TRANSITION ≠ 0 then slotFail d id codeState 2
  else if t ≠ 1 ∧ t ≠ 2 then slotEnd d id codeArg []
  else if t = power.code then slotEnd d id codeOk [t]
  else if t = 2 then
    if arbExceeds d reqPowerState islandUnits then slotEnd (arbError d) id codePower []
    else arbRequest (transitionStart d id 1) reqPowerState islandUnits classA .powerState
  else if !islandIdle d then slotFail d id codeState 1
  else transitionStart d id 2

/-- The transition's record: its slot ends with the state reached, and event bit 16 latches. -/
def transitionEnd (d : Dev) (reached : Nat) : Dev :=
  let q := d.get L.PWR_SLOT
  let d := d.setAll [(R.PWR_STATUS_TRANSITION, 0), (L.PWR_SLOT, 0), (L.PWR_GRANTED, 0)]
  (if q = 0 then d else slotEnd d (q - 1) codeOk [reached]).latch 4 16

/-- The steps of a transition are done (R487, R489). -/
def transitionDone (s : State) : State :=
  if s.d.get R.PWR_STATUS_TRANSITION = 1 ∧ s.d.on L.PWR_GRANTED then
    let d := arbDrop (zeroFillDone s.d) reqPowerState islandUnits
    { s with power := .active, d := transitionEnd (d.set R.ARB_TOTAL_FIXED_LOAD 680) 2 }
  else if s.d.get R.PWR_STATUS_TRANSITION = 2 then
    let d := islandOff (bufferEmpty (ringQueuesEmpty s.run s.d))
    let d := d.setAll [(R.ARB_TOTAL_FIXED_LOAD, 40), (R.REQ_GRANTED reqPowerState, d.get (R.REQ_GRANTED reqPowerState) + islandUnits)]
    { s with power := .standby, d := transitionEnd (arbRelease d reqPowerState islandUnits) 1 }
  else s

/-! ## Adaptive voltage scaling (R500, R501) -/

/-- The target before clamping, in mV: a hottest sensor below 0 °C adds 10 mV. -/
def avsWanted (d : Dev) : Int :=
  if d.on R.AVS_CTRL_MANUAL then (d.get R.AVS_MANUAL_MV : Int)
  else 750 + 5 * toSigned 6 (d.get R.AVS_CODE) + (if toSigned 16 (d.get L.TEMP_HOT) < 0 then 10 else 0)

/-- The target is set anew while AVS is enabled, clamped to 670 to 830 mV. -/
def avsRetarget (d : Dev) : Dev :=
  if !d.on R.AVS_CTRL_ENABLE then d
  else
    let w := avsWanted d
    let t := min 830 (max 670 w)
    (d.set R.AVS_TARGET_MV t.toNat).latchIf (decide (t ≠ w)) 4 25

/-- AVS_CTRL is written: ENABLE 0 and then 1 starts AVS again after a fault. -/
def avsCtrlWrite (d : Dev) (v : Nat) : Dev :=
  let was := d.on R.AVS_CTRL_ENABLE
  let d := d.setAll [(R.AVS_CTRL_ENABLE, bitsOf v 0 1), (R.AVS_CTRL_MANUAL, bitsOf v 1 1)]
  avsRetarget (if bitAt v 0 && !was then d.setAll [(L.AVS_STOP, 0), (L.AVS_BAD, 0), (L.AVS_FROM, d.cyc)] else d)

/-- AVS_MANUAL_MV is written. -/
def avsManualWrite (d : Dev) (v : Nat) : Dev := avsRetarget (d.set R.AVS_MANUAL_MV v)

/-- One step of 5 mV towards the target, at most one every 100 µs; `hot` is the hottest sensor's reading now. -/
def avsStep (d : Dev) (hot : Nat) : Dev :=
  let turned := decide (toSigned 16 hot < 0) != decide (toSigned 16 (d.get L.TEMP_HOT) < 0)
  let d := d.set L.TEMP_HOT hot
  let d := if turned then avsRetarget d else d
  if !d.on R.AVS_CTRL_ENABLE || d.on L.AVS_STOP || decide (d.cyc < d.get L.AVS_AT + 100000) then d
  else
    let now := d.get L.AVS_NOW
    let t := d.get R.AVS_TARGET_MV
    let next := if now + 5 ≤ t then now + 5 else if t + 5 ≤ now then now - 5 else now
    if next = now then d else (d.setAll [(L.AVS_NOW, next), (L.AVS_AT, d.cyc)]).emit (.avs next)

/-- AVS stops with a fault (R501). -/
def avsFault (d : Dev) : Dev := ((d.set L.AVS_STOP 1).count 4 R.AVS_FAULTS).latch 4 24

/-- A readback with the regulator's response, Vout in mV and Iout in 0.1 A, or without one. -/
def avsReadback (d : Dev) (r : Option (Nat × Nat)) : Dev :=
  if !d.on R.AVS_CTRL_ENABLE then d
  else match r with
    | some (v, i) =>
      let t := d.get R.AVS_TARGET_MV
      let bad := if t + 15 < v ∨ v + 15 < t then min 10 (d.get L.AVS_BAD + 1) else 0
      let d := d.setAll [(R.AVS_READ_VOUT_MV, v), (R.AVS_READ_IOUT, i), (L.AVS_FROM, d.cyc), (L.AVS_BAD, bad)]
      if bad = 10 ∧ ¬ d.on L.AVS_STOP then avsFault d else d
    | none => if !d.on L.AVS_STOP && decide (d.get L.AVS_FROM + 10000000 ≤ d.cyc) then avsFault d else d

/-! ## Performance counters (R520, R521) -/

/-- Counter mhpmcounter(n + 3) of a running core wraps: while OF is 0 it is set, and the core's local interrupt is raised with the
sampled address. -/
def perfOverflow (d : Dev) (core n addr : Nat) : Dev :=
  if !bitAt (d.get R.MGMT_STATUS_CORE_RUN) core then d
  else
    let d := d.set (L.PERF_CTR core (n + 2)) 0
    let f := L.PERF_EVT core n
    if bitAt (d.get f) 63 then d else d.setAll [(f, d.get f + 2 ^ 63), (L.LCOFI core, 1), (L.MHPMSAMPLE core, addr)]

/-! ## SMBus (R539) -/

/-- The target's 7-bit address. -/
def smbAddress (d : Dev) : Nat := 0x58 + d.get L.STRAPS / 4 % 4
/-- SMB_ALERT_N is asserted. -/
def smbAlert (d : Dev) : Bool := containSource d (d.get R.ALARM_LATCH)

/-- An SMBus read: the target answers while the main domain has power, and nothing else changes. -/
def State.smb (s : State) (code : Nat) (bs : List Byte) : Host.Outcome State Fault Refusal :=
  s.powered fun s => s.setDev (s.d.emit (.smb code bs))

/-! ## Rows -/

/-- SET_POWER_STATE (R487, R502). -/
def execSetPowerState (slot : Fin 4) (s : State) : Host.Outcome State Fault Refusal :=
  s.page 4 fun d => slotRun d (slotId 4 slot) 0x0001 fun d => setPowerState s.power d (slotId 4 slot)
/-- POWER_STATE_TRANSITION_DONE (R487). -/
def execPowerStateTransitionDone (s : State) : Host.Outcome State Fault Refusal :=
  .next (if s.frozen then s else transitionDone s)
/-- AVS_ENABLE_WRITE (R500, R501): a write of AVS_CTRL. -/
def execAvsEnableWrite (v : Word) (s : State) : Host.Outcome State Fault Refusal := s.page 4 fun d => avsCtrlWrite d v.toNat
/-- AVS_STEP (R500). -/
def execAvsStep (hot : BitVec 16) (s : State) : Host.Outcome State Fault Refusal :=
  s.powered fun s => s.setDev (avsStep s.d hot.toNat)
/-- AVS_READBACK (R500, R501). -/
def execAvsReadback (response : Option (BitVec 10 × BitVec 16)) (s : State) : Host.Outcome State Fault Refusal :=
  s.powered fun s => s.setDev (avsReadback s.d (response.map fun r => (r.1.toNat, r.2.toNat)))
/-- PERF_COUNTER_OVERFLOW (R521): mhpmcounter(n + 3) of a core, and the last instruction retired before the trap. -/
def execPerfCounterOverflow (core : Fin 4) (n : Fin 8) (addr : BitVec 64) (s : State) : Host.Outcome State Fault Refusal :=
  s.lanes fun d => perfOverflow d core n addr.toNat
/-- SMB_READ_DEV_STATE (R539). -/
def execSmbReadDevState (s : State) : Host.Outcome State Fault Refusal :=
  s.smb 0x01 [BitVec.ofNat 8 (s.run.code + 16 * s.power.code)]
/-- SMB_READ_TEMPERATURE (R539): `hot` is the hottest sensor's reading. -/
def execSmbReadTemperature (hot : BitVec 16) (s : State) : Host.Outcome State Fault Refusal := s.smb 0x02 (leBytes 2 hot.toNat)
/-- SMB_READ_TAMPER_MESH_CASE (R539). -/
def execSmbReadTamperMeshCase (s : State) : Host.Outcome State Fault Refusal :=
  s.smb 0x03 (leBytes 2 (bitsOf (s.d.get R.TAMPER_COUNT) 0 16))
/-- SMB_READ_TAMPER_SUPPLY_CLOCK (R539). -/
def execSmbReadTamperSupplyClock (s : State) : Host.Outcome State Fault Refusal :=
  s.smb 0x04 (leBytes 2 (bitsOf (s.d.get R.TAMPER_COUNT) 16 16))
/-- SMB_READ_STATUS_FLAGS (R539). -/
def execSmbReadStatusFlags (s : State) : Host.Outcome State Fault Refusal :=
  s.smb 0x05 (leBytes 2 (b2n (s.d.get R.STICKY != 0) + 2 * s.d.get R.ZEROIZE_STATUS_ACTIVE + 4 * s.d.get R.HALT_RECORD_VALID +
    8 * b2n (powerPending s.d 4)))
/-- SMB_READ_ACCOUNTED (R539). -/
def execSmbReadAccounted (s : State) : Host.Outcome State Fault Refusal := s.smb 0x06 (leBytes 2 (arbAccounted s.d))
/-- SMB_READ_VOUT (R539). -/
def execSmbReadVout (s : State) : Host.Outcome State Fault Refusal := s.smb 0x07 (leBytes 2 (s.d.get R.AVS_READ_VOUT_MV))
/-- SMB_READ_LC_STATE (R539). -/
def execSmbReadLcState (s : State) : Host.Outcome State Fault Refusal := s.smb 0x08 [BitVec.ofNat 8 (s.d.get R.LC_STATE)]
/-- SMB_READ_DEVICE_ID (R539): 8 bytes in wire order. -/
def execSmbReadDeviceId (s : State) : Host.Outcome State Fault Refusal := s.smb 0x10 (beBytes 8 (s.d.get R.DEVICE_ID))
/-- SMB_ALERT_RESPONSE (R539): while SMB_ALERT_N is asserted the target answers with its address; the eighth bit is free. -/
def execSmbAlertResponse (s : State) : Host.Outcome State Fault Refusal :=
  s.powered fun s =>
    if smbAlert s.d then s.setDev (s.d.tookFree.emit (.smb 0x0C [BitVec.ofNat 8 (2 * smbAddress s.d + s.d.freeVal 1)])) else s
/-- SMB_OTHER (R539): acknowledged without effect. -/
def execSmbOther (s : State) : Host.Outcome State Fault Refusal := .next s

end Sys2Proof.Machine
end

