-- ==== Sys2Proof/Machine/Reset.lean ====
section
/-! DEFINITION. The resets (R24, R26, R31, R55, R378, R388, R532, R536), the watchdog (R358 to R360) and the management restart
(R361). -/

namespace Sys2Proof.Machine

/-! ## Resets of the whole part (R24) -/

/-- What outlives every reset of the main domain: Base Camp. -/
def keptCells (c : List (Nat × Nat)) : List (Nat × Nat) := c.filter fun p => decide (bcBase ≤ p.1)

/-- Device contents with the main domain cleared: Base Camp stays, and the model's count of free values runs on. -/
def mainClear (d : Dev) : Dev := { Dev.empty with cells := keptCells d.cells, freeCtr := d.freeCtr }

/-- The straps are sampled as the main domain leaves reset (R532). -/
def strapsSample (d : Dev) : Dev :=
  d.setAll [(R.TB_STATUS_REF_25M, bitsOf (d.get L.STRAPS) 0 1), (R.ROPE_CFG_ROLE, bitsOf (d.get L.STRAPS) 1 1)]

/-- The lowest `k` ones of a value. -/
def lowOnes (v k : Nat) : Nat := sumBelow (fun i => if bitAt v i && decide (ones v i < k) then 2 ^ i else 0) 32

/-- A reset or a loss of power meets the programming of an intent word: a fuse takes 200 µs, and those blown by then stay
blown (R408, R409, R412). -/
def intentCut (s : State) : State :=
  let p := s.d.get R.LC_STATUS_PHASE
  if (p = 1 ∨ p = 2) ∧ ¬ s.d.on L.LC_STOP then
    let i := lcIntent (s.d.get L.LC_TARGET)
    { s with otp := otpBlow s.otp i.1 (lowOnes i.2 ((s.d.cyc - s.d.get L.LC_AT) / 200000)) }
  else s

/-- The main domain leaves reset: STANDBY, BOOTING, no anchor set, the life-cycle state decoded (R24, R26, R408). -/
def mainStart (s : State) (cause : Nat) (powerOn : Bool) : State :=
  let d := (strapsSample (mainClear s.d)).setAll [(L.RESET_CAUSE, cause), (L.PU_WANT, b2n powerOn)]
  otpLoad { s with anchors := 0, run := .booting, power := .standby, d := d }

/-- A power-on reset (R24): POWERUP_COUNT waits for the first tick (R403). -/
def powerOnReset (s : State) (straps : Nat) : State :=
  let s := intentCut s
  mainStart (s.setDev (s.d.setAll [(L.STRAPS, straps), (R.POWERUP_COUNT, 0)])) 0 true

/-- A device reset with a cause of R376; without main power there is none. -/
def deviceReset (s : State) (cause : Nat) : State := if s.power = .baseCampOnly then s else mainStart (intentCut s) cause false

/-- Base Camp takes the main domain into reset and runs on its own (R28, R388). -/
def supplyLoss (s : State) : State :=
  let s := intentCut s
  { s with run := .booting, power := .baseCampOnly, d := mainClear s.d }

/-- Base Camp has lost all state (R378): the straps are ties of the board and stay. -/
def coldStart (s : State) : State :=
  let s := intentCut s
  { s with run := .booting, power := .baseCampOnly, d := { Dev.empty with freeCtr := s.d.freeCtr }.set L.STRAPS (s.d.get L.STRAPS) }

/-! ## Command slots and rings of a master (R55) -/

/-- Place of a vault command slot among eight. -/
def vSlot (id : Nat) : Option Nat := if 4 ≤ id ∧ id < 8 then some (id - 4) else if 12 ≤ id ∧ id < 16 then some (id - 12 + 4) else none

/-- The words of a slot's own buffer: page, offset and number. -/
def slotBuffer (id : Nat) : Option (Nat × Nat × Nat) :=
  let i := id % 4
  match slotPage id with
  | 0x05 => some (0x05, 0x2000 + 0x80 * i, 32)
  | 0x08 => some (0x08, 0x2000 + 0x80 * i, 32)
  | 0x06 => some (0x06, 0x2000 + 0x400 * i, 256)
  | 0x0D => some (0x0D, 0x2000 + 0x100 * i, 64)
  | _ => none

/-- Clear the buffer of a slot. -/
def bufferClear (d : Dev) (id : Nat) : Dev :=
  match slotBuffer id with
  | some (pg, off, n) => d.clearRange (regFld pg off 0 32 0).key (regFld pg (off + 4 * n) 0 32 0).key
  | none => d

/-- A slot returns to IDLE with SEQ 0: its command is dropped or abandoned with its partial results, a power transition goes on
without its record (R55). -/
def cmdSlotReset (d : Dev) (id : Nat) : Dev :=
  let d := match vSlot id with
    | some c => cmacDrop (if slotActive d id then vRelease d c else d) c
    | none => d
  let d := if d.get L.PWR_SLOT = id + 1 then d.set L.PWR_SLOT 0 else d
  let d := if d.get L.FULL_WIPE ≠ 0 ∧ 7 + d.get L.FULL_WIPE = id then d.set L.FULL_WIPE 0 else d
  let d := d.each 16 fun j d => d.setAll [(L.SLOT_ARG id j, 0), (L.SLOT_CAP id j, 0), (L.SLOT_RESULT id j, 0)]
  bufferClear (d.setAll [(L.SLOT_CODE id, codeIdle), (L.SLOT_STATUS_SEQ id, 0), (L.SLOT_SEQ id, 0), (L.SLOT_OPCODE id, 0),
    (L.SLOT_READ_ONCE id, 0)]) id

/-- Every slot of a master returns to IDLE. -/
def slotsReset (d : Dev) (m : Master) : Dev := d.each 24 fun id d => if slotMaster id = m then cmdSlotReset d id else d

/-- The host's rings are cleared (R24): the copies in their queues are discarded, and entry and state return to reset values. -/
def hostRingsReset (run : RunState) (d : Dev) : Dev :=
  d.each 128 fun n d =>
    if ringMgmt d n then d
    else (((ringStopped run d n).clearEntry 0xB 0 n).clearEntry 0xB 1 n).set (R.RING_ACK n) 0

/-- The endpoint's configuration returns to its reset values: the MSI-X table and its masks, Bus Master Enable and D-state. DESIGN CHOICE:
Bus Master Enable is set and the function in D0 after every reset, as an enumerated function stands; the spec gives neither reset value
(log 23). -/
def endpointReset (d : Dev) : Dev :=
  [L.MSIX_ADDR 0, L.MSIX_DATA 0, L.MSIX_MASK 0, L.MSIX_PENDING, L.MSIX_FMASK, L.PCI_BM_OFF, L.PCI_D3HOT].foldl Dev.clearGroup d

/-- A PCIe conventional reset (R24, R55, R257). -/
def pcieReset (run : RunState) (d : Dev) : Dev := endpointReset (slotsExpire (slotsReset (hostRingsReset run d) .host) 0)

/-! ## Management restart (R361, R373) -/

/-- The ascent log starts again. -/
def ascentReset (d : Dev) : Dev :=
  let d := (d.each 12 fun j d => d.set (R.ASCENT_LOG j) 0).each 64 fun n d => d.setAll [(R.ASCENT_TYPE n, 0), (L.ASCENT_DIGEST n, 0)]
  d.set R.EXTEND_COUNT 0

/-- The interrupt controller, MSIP, MTIMECMP and the counters of the cores return to reset values. -/
def coresReset (d : Dev) : Dev :=
  [L.PLIC_PRIO 0, L.PLIC_EN 0, L.PLIC_THR 0, L.PLIC_PEND, L.PLIC_BUSY, L.MSIP 0, L.MTIMECMP 0, L.MTIP 0, L.PERF_CTR 0 0, L.PERF_EVT 0 0,
    L.MHPMSAMPLE 0, L.LCOFI 0].foldl Dev.clearGroup d

/-- A management restart starts. -/
def restartStart (run : RunState) (d : Dev) : Dev :=
  if d.on R.MGMT_STATUS_RESTARTING then d
  else
    let d := slotsExpire (slotsReset d .mgmt) 1
    let d := d.each 128 fun n d => if ringMgmt d n then ringDisable d n else d
    let d := coresReset (m0Reset d)
    let d := (d.count 8 R.RESTART_COUNT).setAll [(R.MGMT_STATUS_RESTARTING, 1), (R.MGMT_STATUS_CORE_RUN, 0), (L.RESTART_AT, d.cyc),
      (L.ROM_RUN, 0), (L.RESTARTS, min 65535 (d.get L.RESTARTS + 1))]
    if run = .booting then (ascentReset d).set R.BOOT_STATUS_STAGE 0 else d

/-- The cores start again after 10 µs: CORE0 in the boot ROM, the others wait (R339, R361). -/
def coresStart (d : Dev) : Dev :=
  if d.on R.MGMT_STATUS_RESTARTING && decide (d.get L.RESTART_AT + 10000 ≤ d.cyc) then
    (d.setAll [(R.MGMT_STATUS_RESTARTING, 0), (R.MGMT_STATUS_CORE_RUN, 15), (L.CORE_WAIT, 14), (L.ROM_RUN, 1), (L.ROM_CLOSED, 0)]).latch 8 6
  else d

/-! ## Watchdog (R358 to R360) -/

/-- A count of milliseconds of MTIME from WD_SINCE has passed; 0 acts as 1. -/
def wdPassed (d : Dev) (ms : Nat) : Bool := decide (d.get L.WD_SINCE + max 1 ms * 1000000 ≤ d.cyc)

/-- WD_CTRL.ENABLE is set. -/
def wdEnable (d : Dev) : Dev :=
  if d.on R.WD_CTRL_ENABLE then d else d.setAll [(R.WD_CTRL_ENABLE, 1), (R.WD_STATUS_STAGE, 1), (L.WD_SINCE, d.cyc)]

/-- WD_CTRL.ACTION or WD_LIMIT takes a value that is an action. -/
def wdActionOk (v : Nat) : Bool := decide (1 ≤ v) && decide (v ≤ 4)

/-- An accepted service: the count starts again and the watchdog is no CONTAIN source. -/
def wdService (d : Dev) : Dev :=
  if d.get R.WD_STATUS_STAGE = 0 then d
  else
    let d := if bitAt (d.get L.AL_LEVEL) 56 then (d.alarm 56).alarmLevel 56 false else d
    d.setAll [(R.WD_STATUS_STAGE, 1), (L.WD_SINCE, d.cyc)]

/-- WD_TIMEOUT ends: GRACE. -/
def wdTimeout (d : Dev) : Dev :=
  if d.get R.WD_STATUS_STAGE = 1 ∧ wdPassed d (d.get R.WD_TIMEOUT) then
    (d.setAll [(R.WD_STATUS_STAGE, 2), (L.WD_SINCE, d.cyc)]).latch 8 4
  else d

/-- WD_GRACE ends: the lower of ACTION and WD_LIMIT is taken (R359). -/
def wdExpiry (s : State) : State :=
  let d := s.d
  if d.get R.WD_STATUS_STAGE = 2 ∧ wdPassed d (d.get R.WD_GRACE) then
    let a := min (d.get R.WD_CTRL_ACTION) (d.get R.WD_LIMIT)
    let d := ((d.setAll [(R.WD_STATUS_STAGE, 1), (L.WD_SINCE, d.cyc), (R.WD_STATUS_LAST_ACTION, a)]).count 8 R.WD_EXPIRIES).latch 8 5
    if a = 2 then s.setDev (restartStart s.run d)
    else if a = 3 then s.setDev (d.alarmLevel 56 true)
    else if a = 4 then deviceReset s 3
    else s.setDev d
  else s

/-! ## Rows -/

/-- POWER_ON_RESET (R24): the main supplies reach range, with the strap balls as they are tied (R532). -/
def execPowerOnReset (straps : BitVec 4) (s : State) : Host.Outcome State Fault Refusal := .next (powerOnReset s straps.toNat)
/-- RESET_N (R536): a pulse shorter than 1 µs is ignored. -/
def execResetN (heldNs : Nat) (s : State) : Host.Outcome State Fault Refusal :=
  .next (if 1000 ≤ heldNs then deviceReset s 1 else s)
/-- DEVICE_RESET (R39). -/
def execDeviceReset (key : BitVec 16) (s : State) : Host.Outcome State Fault Refusal :=
  .next (if s.live 0 ∧ key.toNat = 0xD1E5 then deviceReset s 2 else s)
/-- MAIN_SUPPLY_LOSS (R388). -/
def execMainSupplyLoss (s : State) : Host.Outcome State Fault Refusal := .next (supplyLoss s)
/-- BASE_CAMP_COLD_START (R378). -/
def execBaseCampColdStart (s : State) : Host.Outcome State Fault Refusal := .next (coldStart s)
/-- PCIE_CONVENTIONAL_RESET (R55). -/
def execPcieConventionalReset (s : State) : Host.Outcome State Fault Refusal :=
  s.powered fun s => s.setDev (pcieReset s.run s.d)
/-- FUNCTION_LEVEL_RESET (R31). -/
def execFunctionLevelReset (s : State) : Host.Outcome State Fault Refusal :=
  s.powered fun s => s.setDev (pcieReset s.run s.d)
/-- WATCHDOG_ENABLE (R358). -/
def execWatchdogEnable (s : State) : Host.Outcome State Fault Refusal := s.page 8 wdEnable
/-- WD_SERVICE (R360). -/
def execWdService (m : Master) (key : BitVec 16) (s : State) : Host.Outcome State Fault Refusal :=
  s.page 8 fun d => if m = .mgmt ∧ key.toNat = 0xA5C3 then wdService d else d
/-- WATCHDOG_TIMEOUT (R358). -/
def execWatchdogTimeout (s : State) : Host.Outcome State Fault Refusal := s.lanes wdTimeout
/-- WATCHDOG_EXPIRY (R359). -/
def execWatchdogExpiry (s : State) : Host.Outcome State Fault Refusal := .next (if s.frozen then s else wdExpiry s)
/-- MGMT_RESTART (R361). -/
def execMgmtRestart (key : BitVec 16) (s : State) : Host.Outcome State Fault Refusal :=
  s.page 8 fun d => if key.toNat = 0x4D52 then restartStart s.run d else d
/-- MGMT_RESTART_CORES_START (R361). -/
def execMgmtRestartCoresStart (s : State) : Host.Outcome State Fault Refusal := s.lanes coresStart

end Sys2Proof.Machine
end

