-- ==== Sys2Proof/Machine/LifeCycle.lean ====
section
/-! DEFINITION. Life-cycle transitions (R411 to R418), owner packages (R419, R420), key-hash revocation (R421), the derived keys
(R423) and debug authorization (R424 to R428). -/

namespace Sys2Proof.Machine

/-! ## Derived keys (R423) -/

/-- Bytes of an ASCII string given as one number of `n` bytes. -/
def asciiOf (n v : Nat) : List Byte := beBytes n v
/-- "IH8256 VENDOR ATTEST" -/
def labelVendor : List Byte := asciiOf 20 0x4948383235362056454e444f5220415454455354
/-- "IH8256 ENROLL" -/
def labelEnroll : List Byte := asciiOf 13 0x49483832353620454e524f4c4c
/-- "IH8256 DEBUG LANE" -/
def labelLane : List Byte := asciiOf 17 0x494838323536204445425547204c414e45
/-- "IH8256 DEBUG FULL" -/
def labelFull : List Byte := asciiOf 17 0x4948383235362044454255472046554c4c

/-- DEVICE_ID as 8 bytes. -/
def idBytes (d : Dev) : List Byte := beBytes 8 (d.get R.DEVICE_ID)
/-- DEVICE_SECRET as 32 bytes; zero while it is unprogrammed. -/
def secretBytes (otp : List (Nat × Nat)) : List Byte := beBytes 32 (otpSecret otp)
/-- A 256-bit key derived from DEVICE_SECRET with CMAC-AES-256. -/
def secretCmac (otp : List (Nat × Nat)) (label ctx : List Byte) : Nat := beVal (Crypto.kdfCmac 32 (otpSecret otp) 4 4 label ctx 256)
/-- A 384-bit key derived with HMAC-SHA-384. -/
def secretHmac (otp : List (Nat × Nat)) (label ctx : List Byte) : List Byte := Crypto.kdfHmac (secretBytes otp) label ctx 384

/-- BC0 for an identity. -/
def vendorKey (otp : List (Nat × Nat)) (ident : List Byte) : Nat := secretCmac otp labelVendor ident

/-- Install a system or owner root with ORIGIN 1. -/
def rootInstall (d : Dev) (r key : Nat) : Dev := d.setAll [(L.ROOT_KEY r, key), (R.ROOT_VALID r, 1), (R.ROOT_ORIGIN r, 1)]

/-! ## Words of slot buffers (R261) -/

/-- A slot buffer of page 0x06 as bytes. -/
def lcBufBytes (d : Dev) (s : Nat) : List Byte := wordField (fun j => d.get (R.LC_BUF s j)) 0 255
/-- Write a byte string into it. -/
def lcBufWrite (d : Dev) (s : Nat) (bs : List Byte) : Dev :=
  let ws := stringWords bs 256
  d.each 256 fun j d => d.set (R.LC_BUF s j) (ws.getD j 0)

/-! ## Requests (R411, R414) -/

/-- A code of R406. -/
def lcCode (t : Nat) : Bool := decide (1 ≤ t) && decide (t ≤ 5)
/-- The transition is in the table. -/
def lcPermitted (src t : Nat) : Bool :=
  (src == 1 && t == 2) || (src == 2 && (t == 3 || t == 4)) || (src == 3 && t == 4) || (t == 5 && decide (1 ≤ src) && decide (src ≤ 4))
/-- Detail of a further condition that fails. -/
def lcCondition (s : State) (src t : Nat) : Option Nat :=
  if src = 1 ∧ t = 2 then
    if otpBig s.otp 0x040 2 = 0 ∨ otpSecret s.otp = 0 ∨ otpKeyHash s.otp 0 = 0 then some 2 else none
  else if src = 2 ∧ t = 3 then
    if !s.d.on R.LC_STATUS_ENROLL_STAGED then some 3 else if s.d.on R.DEBUG_STATUS_FULL_OPEN then some 4 else none
  else none

/-- LC_TRANSITION is written with its key: the request is checked in the next tick, and is ignored while a transition runs (R411). -/
def lcWrite (d : Dev) (t : Nat) : Dev := if d.get R.LC_STATUS_PHASE ≠ 0 then d else d.post (.lifeCycle t)

/-- The alarm response of this tick: that of its sample, or of the records that the sample is still to make. -/
def alarmDue (s : State) : Nat :=
  if s.d.get L.AL_RESP_TICK = s.d.tick + 1 then s.d.get L.AL_RESP
  else if !s.d.on L.AL_NEW || battery s || !s.d.on L.TB_RUN then 0
  else
    let act := alarmSample s.d
    let prev := (s.d.get R.ALARM_ACTIVE) / 2 ^ 19 * 2 ^ 19 ||| s.d.get L.BCA_ACTIVE
    topSeverity (alarmOrder (alarmEff s.d) (act ^^^ (act &&& prev)))

/-- A keyed request for a transition to `t` is checked (R411). -/
def lcRequest (s : State) (t : Nat) : State :=
  let d := s.d
  let src := d.get R.LC_STATE
  if d.get R.LC_STATUS_PHASE ≠ 0 then s
  else if 3 ≤ alarmDue s then s.setDev (lcEnd d t codeAbortedAlarm 0)
  else if !lcCode t then s.setDev (lcEnd d t codeArg 0)
  else if !lcPermitted src t then s.setDev (lcEnd d t codeState 1)
  else match lcCondition s src t with
    | some x => s.setDev (lcEnd d t codeState x)
    | none =>
      if lcNeedsPresence src t ∧ ¬ d.on R.PRESENCE_STATUS_ASSERTED then s.setDev (lcEnd d t codePresence 0)
      else s.setDev ((d.setAll [(R.LC_STATUS_CODE, codeRunning), (R.LC_STATUS_DETAIL, 0), (R.LC_STATUS_PHASE, 1), (L.LC_TARGET, t),
        (L.LC_AT, d.cyc), (L.LC_STOP, 0)]).latch 6 4)

/-! ## Phases (R412 to R418) -/

/-- Wipe all of Base Camp: the board's ties and the conditions outside it stay (R414). -/
def campWipe (d : Dev) : Dev :=
  let straps := d.get L.STRAPS
  let level := d.get L.BCA_LEVEL
  ({ d with cells := d.cells.filter fun p => decide (p.1 < bcBase) }).setAll [(L.STRAPS, straps), (L.BCA_LEVEL, level)]

/-- The stores listed for the transition from `src` to `t` are cleared (R414). -/
def lcWipe (d : Dev) (src t : Nat) : Dev :=
  let d := clearMemory (clearKeys d)
  let d := if t = 3 then d else clearStaged d
  if t = 5 then campWipe d else clearRoots d (if src = 1 then 0 else 1)

/-- The staged package as bytes. -/
def stagedBytes (d : Dev) : List Byte := beBytes (d.get L.STAGED_LEN) (d.get L.STAGED)
/-- A field of a package: bytes [i, i + n). -/
def pkg (bs : List Byte) (i n : Nat) : Nat := beVal (bytesAt bs i n)

/-- The listed roots of a package are installed. -/
def pkgRoots (d : Dev) (bs : List Byte) : Dev :=
  (List.range (pkg bs 6 1)).foldl (fun d i => rootInstall d (pkg bs (180 + 36 * i) 1) (pkg bs (184 + 36 * i) 32)) d

/-- BC1 and its KEY_ID from a package. -/
def pkgAttest (d : Dev) (bs : List Byte) : Dev := (rootInstall d 1 (pkg bs 40 32)).set R.ATTEST_KEY_ID (pkg bs 24 4)

/-- A ceiling word of R409. -/
def ceilWord (mask first last : Nat) : Nat := mask + first * 2 ^ 8 + last * 2 ^ 18

/-- Entry to OWNED from the staged package; without one the owner's image slots are revoked (R418). -/
def installOwned (s : State) : State :=
  if !s.d.on R.LC_STATUS_ENROLL_STAGED then
    { s with otp := otpBlow s.otp 0x080 12, d := s.d.set R.LC_LAST_ENROLL_LOST 1 }
  else
    let bs := stagedBytes s.d
    let otp := otpBlowBig (otpBlowBig (otpBlowBig s.otp 0x068 12 (pkg bs 72 48)) 0x074 12 (pkg bs 120 48)) 0x081 2 (pkg bs 16 8)
    let otp := otpBlow (otpBlow otp 0x083 (ceilWord (pkg bs 168 1) (pkg bs 170 2) (pkg bs 172 2))) 0x084
      (ceilWord (pkg bs 169 1) (pkg bs 174 2) (pkg bs 176 2))
    { s with otp := otp, d := pkgRoots (pkgAttest s.d bs) bs }

/-- The OTP words and Base Camp contents of the transition are written. -/
def lcInstall (s : State) (src t : Nat) : State :=
  let s :=
    if t = 2 then s.setDev (rootInstall s.d 0 (vendorKey s.otp (beBytes 8 (otpBig s.otp 0x040 2))))
    else if t = 3 then installOwned s
    else if t = 4 then (if src = 3 then { s with otp := otpBlow s.otp 0x080 12 } else s)
    else { s with otp := (List.range 0x085).foldl (fun o w => otpBlow o w (2 ^ 32 - 1)) s.otp }
  otpCounts s

/-- LC_LAST records a completed transition. -/
def lcRecord (d : Dev) (src t : Nat) : Dev := d.setAll [(R.LC_LAST_FROM, src), (R.LC_LAST_TO, t), (R.LC_LAST_CODE, codeOk)]

/-- The controller runs in phase `p`. -/
def lcAt (s : State) (p : Nat) : Bool := s.d.get R.LC_STATUS_PHASE == p && !s.d.on L.LC_STOP

/-- The last fuse of the intent word is blown: the transition goes on whatever happens (R412), so LC_LAST no longer records an earlier refusal
of the same target, by which a boot would leave it out (R413). -/
def intentCommitted (s : State) : State :=
  if lcAt s 1 || lcAt s 2 then
    let t := s.d.get L.LC_TARGET
    let i := lcIntent t
    let d := if lcRefused s.d t then s.d.set R.LC_LAST_CODE codeRunning else s.d
    { s with otp := otpBlow s.otp i.1 i.2, d := d.set R.LC_STATUS_PHASE 3 }
  else s

/-- The stores are clear. -/
def wipeDone (s : State) : State :=
  if lcAt s 3 then s.setDev ((lcWipe s.d (s.d.get R.LC_STATE) (s.d.get L.LC_TARGET)).set R.LC_STATUS_PHASE 4) else s

/-- The install items are written. -/
def installDone (s : State) : State :=
  if lcAt s 4 then
    let s := lcInstall s (s.d.get R.LC_STATE) (s.d.get L.LC_TARGET)
    s.setDev (s.d.set R.LC_STATUS_PHASE 5)
  else s

/-- The completion word is programmed: LC_LAST, and a device reset with cause 4 (R415). -/
def transitionComplete (s : State) : State :=
  if lcAt s 5 then
    let t := s.d.get L.LC_TARGET
    let c := lcComplete t
    let d := clearStaged (lcRecord s.d (s.d.get R.LC_STATE) t)
    deviceReset { s with otp := otpBlow s.otp c.1 c.2, d := d } 4
  else s

/-- The boot ROM completes an interrupted transition to `t` and decodes the state again (R417, R418). -/
def lcResume (s : State) (t : Nat) : State :=
  let src := s.d.get R.LC_STATE
  let i := lcIntent t
  let s := { s with otp := otpBlow s.otp i.1 i.2, d := lcWipe s.d src t }
  let s := lcInstall s src t
  let c := lcComplete t
  otpLoad { s with otp := otpBlow s.otp c.1 c.2, d := clearStaged (lcRecord s.d src t) }

/-! ## Owner packages (R419, R420) -/

/-- Header and length are those of a package. -/
def pkgShape (bs : List Byte) (len : Nat) : Bool :=
  pkg bs 0 4 == 0x4948454E && pkg bs 4 1 == 1 && (pkg bs 5 1 == 1 || pkg bs 5 1 == 2) && decide (pkg bs 6 1 ≤ 16) &&
    len == 196 + 36 * pkg bs 6 1

/-- Root entries: indices 8 to 63, none twice, zero bytes zero. -/
def pkgRootsOk (bs : List Byte) : Bool :=
  let is := (List.range (pkg bs 6 1)).map fun i => pkg bs (180 + 36 * i) 1
  is.all (fun r => decide (8 ≤ r) && decide (r ≤ 63)) && decide (is.Nodup) &&
    (List.range (pkg bs 6 1)).all fun i => pkg bs (181 + 36 * i) 3 == 0

/-- Fields of the opened package within their ranges (R419); `owner` is the enrolled OWNER_ID. -/
def pkgFieldsOk (bs : List Byte) (owner : Nat) : Bool :=
  pkg bs 7 1 == 0 && pkg bs 16 8 != 0 && pkg bs 178 2 == 0 && pkgRootsOk bs &&
    (if pkg bs 5 1 = 1 then
      pkg bs 72 48 != 0 && decide (pkg bs 168 1 ≤ 0x7F) && decide (pkg bs 169 1 ≤ 0x7F) &&
        ([170, 172, 174, 176].all fun i => decide (pkg bs i 2 ≤ 1023))
    else pkg bs 72 106 == 0 && pkg bs 16 8 == owner)

/-- The package opened under ETK: its bytes before the tag. -/
def pkgOpen (otp : List (Nat × Nat)) (d : Dev) (bs : List Byte) : List Byte × Bool :=
  let n := pkg bs 6 1
  let key := secretCmac otp labelEnroll (idBytes d)
  let o := Crypto.gcmOpen 32 key (pkg bs 28 12) (bs.take 40) ((bs.drop 40).take (140 + 36 * n)) (pkg bs (180 + 36 * n) 16)
  (bs.take 40 ++ o.1, o.2)

/-- ROOT_INSTALL: BC1 with KEY_ID and each listed root, whose former keys are lost as parents. -/
def rootsInstalled (d : Dev) (bs : List Byte) : Dev :=
  (List.range (pkg bs 6 1)).foldl (fun d i =>
    let r := pkg bs (180 + 36 * i) 1
    parentLost (d.set (R.ROOT_GENERATION r) (min (2 ^ 32 - 1) (d.get (R.ROOT_GENERATION r) + 1))) (rootParent r)) (pkgRoots (pkgAttest d bs) bs)

/-- The run states in which a ROOT_INSTALL runs (R420). -/
def RunState.installs : RunState → Bool
  | .booting => true
  | .active => true
  | .contained => true
  | .alarmHold => false
  | .halted => false
  | .zeroized => false

/-- ENROLL_LOAD in slot `i` of page 0x06. -/
def enrollLoad (s : State) (d : Dev) (i : Nat) : Dev :=
  let id := slotId 6 i
  let len := slotArg d id 0
  let bs := (lcBufBytes d i).take len
  let kind := pkg bs 5 1
  let lc := d.get R.LC_STATE
  if !pkgShape bs len then slotFail d id codeArg 1
  else if pkg bs 8 8 ≠ d.get R.DEVICE_ID then slotFail d id codeArg 2
  else if kind = 1 ∧ (lc ≠ lcProvisioned ∨ d.on R.DEBUG_STATUS_FULL_OPEN) then slotFail d id codeState 1
  else if kind = 2 ∧ (lc ≠ lcOwned ∨ ¬ s.run.installs) then slotFail d id codeState 1
  else if kind = 2 ∧ ¬ d.on R.PRESENCE_STATUS_ASSERTED then slotEnd d id codePresence []
  else
    let o := pkgOpen s.otp d bs
    if !o.2 then slotFail d id codeIntegrity 1
    else if !pkgFieldsOk o.1 (d.get R.OWNER_ID) then slotFail d id codeArg 3
    else if kind = 1 then
      slotEnd (d.setAll [(L.STAGED, beVal o.1), (L.STAGED_LEN, o.1.length), (R.LC_STATUS_ENROLL_STAGED, 1)]) id codeOk [1]
    else slotEnd (rootsInstalled d o.1) id codeOk [2]

/-! ## OTP commands (R421, R430) -/

/-- OTP_PROGRAM. -/
def otpProgram (s : State) (id : Nat) : State :=
  let w := slotArg s.d id 0
  if s.d.get R.LC_STATE ≠ lcTest then s.setDev (slotFail s.d id codeState 1)
  else if 0x067 < w then s.setDev (slotEnd s.d id codeArg [])
  else
    let s := otpCounts { s with otp := otpBlow s.otp w (slotArg s.d id 1) }
    s.setDev (slotEnd s.d id codeOk [])

/-- KEYHASH_REVOKE. -/
def keyhashRevoke (s : State) (id : Nat) : State :=
  let k := slotArg s.d id 0
  let lc := s.d.get R.LC_STATE
  if 3 < k ∨ ¬ bitAt (slotsPermitted s.otp lc) k then s.setDev (slotFail s.d id codeState 1)
  else if !s.d.on R.PRESENCE_STATUS_ASSERTED then s.setDev (slotEnd s.d id codePresence [])
  else
    let otp := otpBlow s.otp 0x080 (2 ^ k)
    if slotsUsable otp lc = 0 then s.setDev (slotFail s.d id codeState 5)
    else
      let s := otpCounts { s with otp := otp }
      s.setDev (slotEnd s.d id codeOk [])

/-! ## Debug (R424 to R427) -/

/-- DEBUG_CTRL bit of a class as it reads: 1 in TEST and RETURNED. -/
def debugEnable (d : Dev) (cls : Nat) : Bool :=
  let lc := d.get R.LC_STATE
  lc == lcTest || lc == lcReturned || (lc != lcScrapped && d.on (if cls = 1 then R.DEBUG_CTRL_LANE_EN else R.DEBUG_CTRL_FULL_EN))

/-- The state allows a class to open. -/
def debugState (d : Dev) (cls : Nat) : Bool :=
  let lc := d.get R.LC_STATE
  (cls == 1 && decide (1 ≤ lc) && decide (lc ≤ 4)) || (cls == 2 && (lc == 1 || lc == 2 || lc == 4))

/-- Presence is required at the response. -/
def debugPresence (d : Dev) (cls : Nat) : Bool :=
  let lc := d.get R.LC_STATE
  (cls == 1 && lc == 3) || (cls == 2 && (lc == 2 || lc == 4))

/-- Draw bytes from the output instance for a use outside the vault's commands. -/
def drbgOut (d : Dev) (n : Nat) : Dev × List Byte := drbgGen (if drbgDue d 1 then drbgSeed d 1 false else d) 1 n

/-- Results that carry a nonce, lowest word first. -/
def nonceWords (bs : List Byte) : List Nat := stringWords bs 8

/-- DEBUG_CHALLENGE in slot `i`. -/
def debugChallenge (d : Dev) (i : Nat) : Dev :=
  let id := slotId 6 i
  let cls := slotArg d id 0
  if !debugState d cls then slotFail d id codeState 1
  else if !(debugEnable d cls || (cls == 2 && d.get R.LC_STATE == lcTest)) then slotFail d id codeState 8
  else if !drbgIs d drbgReady then slotFail d id codeState 4
  else if 8 ≤ d.get R.DEBUG_STATUS_FAILS then slotFail d id codeState 7
  else
    let r := drbgOut d 32
    let d := r.1
    let c := beBytes 4 0x49484443 ++ beBytes 1 1 ++ beBytes 1 cls ++ beBytes 1 (d.get R.LC_STATE) ++ beBytes 1 0 ++ idBytes d ++
      beBytes 8 (d.get R.BOOT_COUNT) ++ r.2 ++ beBytes 8 0
    let d := (lcBufWrite d i c).setAll [(L.CHAL, beVal c), (L.CHAL_AT, d.time), (R.DEBUG_STATUS_CHALLENGE_OUT, 1)]
    (slotEnd d id codeOk (nonceWords r.2)).set (L.SLOT_READ_ONCE id) 8

/-- 120 s of device time have passed since the challenge (R425). -/
def chalExpired (d : Dev) : Bool := decide (d.get L.CHAL_AT + 120 * fineSec ≤ d.time)

/-- The outstanding challenge is discarded. -/
def chalDrop (d : Dev) : Dev := d.setAll [(R.DEBUG_STATUS_CHALLENGE_OUT, 0), (L.CHAL, 0), (L.CHAL_AT, 0)]

/-- The response that the maker's server gives. -/
def chalAnswer (otp : List (Nat × Nat)) (d : Dev) (cls : Nat) : List Byte :=
  Crypto.hmac384 (secretHmac otp (if cls = 1 then labelLane else labelFull) (idBytes d)) (beBytes 64 (d.get L.CHAL))

/-- A debug class opens. -/
def debugOpened (d : Dev) (f : Fld) : Dev := (d.setAll [(f, 1), (L.DEBUG_SINCE, 1)]).latch 6 8

/-- DEBUG_RESPOND in slot `i` (R426, R427). -/
def debugRespond (otp : List (Nat × Nat)) (d : Dev) (i : Nat) : Dev :=
  let id := slotId 6 i
  let cls := bitsOf (d.get L.CHAL) 464 8
  let ans := argString d id 0 11 48
  if !d.on R.DEBUG_STATUS_CHALLENGE_OUT || chalExpired d then slotFail (chalDrop d) id codeState 6
  else if !debugState d cls then slotFail (chalDrop d) id codeState 1
  else if !(debugEnable d cls || (cls == 2 && d.get R.LC_STATE == lcTest)) then slotFail (chalDrop d) id codeState 8
  else if debugPresence d cls && !d.on R.PRESENCE_STATUS_ASSERTED then slotEnd (chalDrop d) id codePresence []
  else if ans ≠ chalAnswer otp d cls then
    let d := (chalDrop d).count 6 R.DEBUG_FAILS
    slotFail ((d.set R.DEBUG_STATUS_FAILS (min 8 (d.get R.DEBUG_STATUS_FAILS + 1))).latch 6 9) id codeIntegrity 1
  else if cls = 1 then slotEnd (debugOpened (chalDrop d) R.DEBUG_STATUS_LANE_OPEN) id codeOk []
  else (chalDrop d).setAll [(L.FULL_WIPE, i + 1), (L.SLOT_CODE id, codeRunning)]

/-- The stores are clear after a full-debug response (R427). -/
def fullDebugDone (d : Dev) : Dev :=
  let q := d.get L.FULL_WIPE
  if q = 0 then d
  else slotEnd (debugOpened ((clearStaged (clearMemory (clearKeys d))).set L.FULL_WIPE 0) R.DEBUG_STATUS_FULL_OPEN) (7 + q) codeOk []

/-! ## Rows -/

/-- A CMD write to slot `i` of page 0x06, with commands that may change the fuses. -/
def State.lcSlot (s : State) (i op : Nat) (f : State → State) : Host.Outcome State Fault Refusal :=
  .next (if s.live 6 ∧ ¬ slotActive s.d (slotId 6 i) then f (s.setDev (slotAccept s.d (slotId 6 i) op)) else s)

/-- LC_TRANSITION (R411). -/
def execLcTransition (target : Fin 8) (key : BitVec 16) (s : State) : Host.Outcome State Fault Refusal :=
  .next (if s.live 6 ∧ key.toNat = 0x4C43 then s.setDev (lcWrite s.d target) else s)
/-- LC_INTENT_COMMITTED (R413). -/
def execLcIntentCommitted (s : State) : Host.Outcome State Fault Refusal := s.powered intentCommitted
/-- LC_WIPE_DONE (R412). -/
def execLcWipeDone (s : State) : Host.Outcome State Fault Refusal := s.powered wipeDone
/-- LC_INSTALL_DONE (R412). -/
def execLcInstallDone (s : State) : Host.Outcome State Fault Refusal := s.powered installDone
/-- LC_TRANSITION_COMPLETE (R415). -/
def execLcTransitionComplete (s : State) : Host.Outcome State Fault Refusal := s.powered transitionComplete
/-- OTP_PROGRAM (R430). -/
def execOtpProgram (slot : Fin 4) (s : State) : Host.Outcome State Fault Refusal :=
  s.lcSlot slot 0x0001 fun s => otpProgram s (slotId 6 slot)
/-- ENROLL_LOAD (R420). -/
def execEnrollLoad (slot : Fin 4) (s : State) : Host.Outcome State Fault Refusal :=
  s.lcSlot slot 0x0002 fun s => s.setDev (enrollLoad s s.d slot)
/-- KEYHASH_REVOKE (R421). -/
def execKeyhashRevoke (slot : Fin 4) (s : State) : Host.Outcome State Fault Refusal :=
  s.lcSlot slot 0x0003 fun s => keyhashRevoke s (slotId 6 slot)
/-- DEBUG_CHALLENGE (R425). -/
def execDebugChallenge (slot : Fin 4) (s : State) : Host.Outcome State Fault Refusal :=
  s.lcSlot slot 0x0004 fun s => s.setDev (debugChallenge s.d slot)
/-- DEBUG_RESPOND (R426). -/
def execDebugRespond (slot : Fin 4) (s : State) : Host.Outcome State Fault Refusal :=
  s.lcSlot slot 0x0005 fun s => s.setDev (debugRespond s.otp s.d slot)
/-- DEBUG_CHALLENGE_EXPIRY (R425). -/
def execDebugChallengeExpiry (s : State) : Host.Outcome State Fault Refusal :=
  s.powered fun s => if s.d.on R.DEBUG_STATUS_CHALLENGE_OUT ∧ chalExpired s.d then s.setDev (chalDrop s.d) else s
/-- FULL_DEBUG_WIPE_DONE (R427). -/
def execFullDebugWipeDone (s : State) : Host.Outcome State Fault Refusal := s.powered fun s => s.setDev (fullDebugDone s.d)

end Sys2Proof.Machine
end

