-- ==== Sys2Proof/Machine/Boot.lean ====
section
/-! DEFINITION. The boot ROM (R367 to R373), the ascent log, boot completion and the sealed record (R374 to R379), and
attestation (R380). -/

namespace Sys2Proof.Machine

/-! ## The ascent log (R372) -/

/-- The log as 48 bytes. -/
def ascentLog (d : Dev) : List Byte := wordField (fun j => d.get (R.ASCENT_LOG j)) 0 11

/-- Extend the log by an event. -/
def ascentExtend (d : Dev) (t : Nat) (digest : List Byte) : Dev :=
  let n := d.get R.EXTEND_COUNT
  let ws := stringWords (Crypto.sha384 (ascentLog d ++ beBytes 1 t ++ digest)) 12
  (d.each 12 fun j d => d.set (R.ASCENT_LOG j) (ws.getD j 0)).setAll
    [(R.ASCENT_TYPE n, t), (L.ASCENT_DIGEST n, beVal digest), (R.EXTEND_COUNT, n + 1)]

/-- BOOT_STATUS bits [23:16]. -/
def bootFlags (d : Dev) : Nat :=
  d.get R.BOOT_STATUS_ALT_IMAGE + 2 * d.get R.BOOT_STATUS_TRANSITION_RESUMED + 4 * d.get R.BOOT_STATUS_EVIDENCE_COMMITTED +
    8 * d.get R.BOOT_STATUS_ROLLBACK_ADVANCED

/-- The tamper counts in the order mesh, case, supply, clock. -/
def tamperBytes (d : Dev) : List Byte := leBytes 4 (d.get R.TAMPER_COUNT)

/-- The configuration block of SECURITY_CONFIG. -/
def configBlock (d : Dev) : List Byte :=
  beBytes 1 (d.get R.LC_STATE) ++ beBytes 1 (d.get R.ROLLBACK_COUNT) ++ beBytes 1 (d.get R.KEYHASH_STATE_REVOKED) ++
    beBytes 1 (bootFlags d) ++ tamperBytes d ++ idBytes d ++ beBytes 16 0

/-! ## Stage 1 (R368, R369) -/

/-- A field of a header. -/
def hdr (h : List Byte) (i n : Nat) : Nat := beVal (bytesAt h i n)

/-- The copy of the image in on-die SRAM. -/
def imageCopy (f : FlashImage) : List Byte := bytesAt f.image 0 (hdr f.header 16 4)

/-- The cause for which a header is refused; 0 when it passes. -/
def headerCause (s : State) (f : FlashImage) : Nat :=
  let h := f.header
  let k := hdr h 6 1
  let lc := s.d.get R.LC_STATE
  if hdr h 0 4 ≠ 0x4948494D ∨ hdr h 4 1 ≠ 1 ∨ hdr h 5 1 ≠ 1 ∨ 1 < hdr h 8 4 ∨ hdr h 176 16 ≠ 0 ∨ hdr h 288 224 ≠ 0 then 1
  else if hdr h 12 4 < 512 ∨ hdr h 12 4 % 512 ≠ 0 ∨ hdr h 16 4 = 0 ∨ 786432 < hdr h 16 4 ∨ hdr h 16 4 ≤ hdr h 20 4 ∨ hdr h 20 4 % 4 ≠ 0 then 2
  else if 3 < k ∨ ¬ bitAt (slotsUsable s.otp lc) k then 3
  else if beVal (Crypto.sha384 (bytesAt h 80 96)) ≠ otpKeyHash s.otp k then 4
  else if !Crypto.ecdsaVerify (hdr h 80 48) (hdr h 128 48) (beVal (Crypto.sha384 (bytesAt h 0 192))) (hdr h 192 48) (hdr h 240 48) then 5
  else if beVal (Crypto.sha384 (imageCopy f)) ≠ hdr h 32 48 then 6
  else if hdr h 7 1 < otpRollback s.otp then 7
  else if hdr h 24 8 ≠ 0 ∧ hdr h 24 8 ≠ s.d.get R.DEVICE_ID then 8
  else if f.error then 9
  else 0

/-- Copy an image into SRAM at 0x3000_0000. -/
def sramLoad (d : Dev) (bs : List Byte) : Dev :=
  { d with sram := (List.zip (List.range bs.length) bs).foldl (fun c p => Cells.put c (sramBase + p.1) p.2.toNat) d.sram }

/-- The header that runs: the primary, or else the secondary with its own status and event; `none` when both fail. -/
def stage1 (s : State) (p q : FlashImage) : Dev × Option FlashImage :=
  let c1 := headerCause s p
  if c1 = 0 then (s.d, some p)
  else
    let d := s.d.set R.BOOT_STATUS_FAIL_PRIMARY c1
    let c2 := headerCause s q
    if c2 = 0 then ((d.set R.BOOT_STATUS_ALT_IMAGE 1).latch 0xD 9, some q)
    else (d.setAll [(R.BOOT_STATUS_FAIL_SECONDARY, c2), (R.BOOT_STATUS_STAGE, 3)], none)

/-- Digest of header bytes 0 to 191. -/
def headerDigest (f : FlashImage) : List Byte := Crypto.sha384 (bytesAt f.header 0 192)

/-- Stage 1 is verified, measured when the run state is BOOTING, and started. -/
def runStage1 (s : State) (p q : FlashImage) : State :=
  match stage1 s p q with
  | (d, none) => s.setDev d
  | (d, some f) =>
    let d := sramLoad d (imageCopy f)
    if s.run = .booting then
      s.setDev ((ascentExtend d 3 (headerDigest f)).setAll [(R.IMAGE_INFO_SVN, hdr f.header 7 1), (R.IMAGE_INFO_KEY_SLOT, hdr f.header 6 1),
        (L.COMMIT_SVN, hdr f.header 11 1), (R.BOOT_STATUS_STAGE, 1), (L.ROM_CLOSED, 1)])
    else if beVal (headerDigest f) = d.get (L.ASCENT_DIGEST 2) then s.setDev (d.set L.ROM_CLOSED 1)
    else s.setDev ((d.set R.BOOT_STATUS_FAIL_PRIMARY 10).latch 0xD 9)

/-! ## The boot ROM (R367) -/

/-- Step 3: interrupted transitions are completed. -/
def romResume : Nat → State → State
  | 0, s => s
  | fuel + 1, s =>
    match lcInterrupted s.otp s.d with
    | none => s
    | some t => let s := lcResume s t; romResume fuel (s.setDev ((s.d.set R.BOOT_STATUS_TRANSITION_RESUMED 1).latch 0xD 17))

/-- Step 3, last part: BC0 is installed when it is not VALID (R423). -/
def romVendor (s : State) : State :=
  if s.d.on (R.ROOT_VALID 0) then s else s.setDev (rootInstall s.d 0 (vendorKey s.otp (idBytes s.d)))

/-- Step 4: pending evidence is committed (R371). -/
def romEvidence (s : State) : State :=
  if s.d.get R.PENDING_EVIDENCE = 0 then s
  else
    let s := commitEvidence s
    s.setDev ((s.d.set R.BOOT_STATUS_EVIDENCE_COMMITTED 1).latch 0xD 16)

/-- Steps 1 to 8 after a reset, or after a restart in BOOTING (R373). -/
def romBoot (s : State) (p q : FlashImage) (gib : Nat) : State :=
  let s := s.setDev (s.d.setAll [(R.BOOT_ATTEMPTS, min 65535 (s.d.get R.BOOT_ATTEMPTS + 1)), (R.MGMT_STATUS_CORE_RUN, 15), (L.CORE_WAIT, 14), (L.ROM_RUN, 0)])
  if lcOdd s.otp ≠ 0 then s
  else
    let s := romResume 4 s
    if s.d.get R.LC_STATE = lcScrapped then s
    else
      let s := romEvidence (romVendor s)
      let d := s.d.set R.MGMT_STATUS_DRAM_GIB gib
      let d := ascentExtend d 1 (beBytes 48 Config.romId)
      runStage1 (s.setDev (ascentExtend d 2 (Crypto.sha384 (configBlock d)))) p q

/-- The boot ROM runs when the control island, the first tick and the vault's self-tests are there (R367, R373). -/
def romRun (s : State) (p q : FlashImage) (gib : Nat) : State :=
  if !s.d.on L.ROM_RUN || s.d.on R.MGMT_STATUS_RESTARTING || !s.d.on L.TB_RUN || s.d.tick == 0 || !s.d.on L.VAULT_TESTED then s
  else if s.run = .booting then romBoot s p q gib
  else runStage1 (s.setDev (s.d.set L.ROM_RUN 0)) p q

/-! ## The record (R374 to R379) -/

/-- The attestation root in use. -/
def attestRoot (d : Dev) : Nat := if d.get R.LC_STATE = lcOwned then 1 else 0
/-- KEY_ID of the attestation root in use; BC0 carries 0. -/
def attestKeyId (d : Dev) : Nat := if d.get R.LC_STATE = lcOwned then d.get R.ATTEST_KEY_ID else 0
/-- A key derived from the attestation root (R377). -/
def attestKey (d : Dev) (label : List Byte) : List Byte :=
  Crypto.kdfHmac (beBytes 32 (d.get (L.ROOT_KEY (attestRoot d)))) label (idBytes d ++ beBytes 4 (attestKeyId d)) 384
/-- "IH8256 RECORD" -/
def labelRecord : List Byte := asciiOf 13 0x494838323536205245434f5244
/-- "IH8256 CHALLENGE" -/
def labelChallenge : List Byte := asciiOf 16 0x494838323536204348414c4c454e4745

/-- A record held, as bytes. -/
def recordBytes (d : Dev) (n : Nat) : List Byte := beBytes 256 (d.get (L.RECORD (n % 64)))

/-- KEY_CHANGED: the root or its KEY_ID differs from the previous record's. -/
def keyChanged (d : Dev) : Bool :=
  let r := recordBytes d (d.get R.BOOT_COUNT)
  d.get R.BOOT_COUNT != 0 && (hdr r 53 1 != attestRoot d || hdr r 152 4 != attestKeyId d)

/-- FLAGS of a record that is sealed now. -/
def recordFlags (d : Dev) : Nat :=
  bootFlags d + 16 * d.get R.TB_STATUS_TIME_SET + 32 * d.get L.CONTAIN_AT_BOOT + 64 * b2n (d.get R.BOOT_COUNT == 0) + 128 * b2n (keyChanged d) +
    256 * d.get L.DEBUG_SINCE

/-- Bytes 0 to 207 of the record of `count`. -/
def recordBody (otp : List (Nat × Nat)) (d : Dev) (count : Nat) : List Byte :=
  beBytes 4 0x49484252 ++ beBytes 1 1 ++ beBytes 1 (d.get R.LC_STATE) ++ beBytes 2 (recordFlags d) ++ idBytes d ++ beBytes 8 count ++
    beBytes 6 (secOf d.time) ++ beBytes 4 (nsOf d.time) ++ beBytes 2 (fracOf d.time) ++ beBytes 1 (d.get R.ROLLBACK_COUNT) ++
    beBytes 1 (d.get R.IMAGE_INFO_SVN) ++ beBytes 1 (d.get R.IMAGE_INFO_KEY_SLOT) ++ beBytes 1 (d.get R.EXTEND_COUNT) ++ tamperBytes d ++
    beBytes 8 (d.get R.STICKY) ++ beBytes 1 (d.get L.RESET_CAUSE) ++ beBytes 1 (attestRoot d) ++ beBytes 2 (d.get R.BOOT_ATTEMPTS) ++
    ascentLog d ++ beBytes 48 (d.get L.LAST_MAC) ++ beBytes 4 (attestKeyId d) ++ beBytes 4 0 ++
    beBytes 48 (otpKeyHash otp (d.get R.IMAGE_INFO_KEY_SLOT))

/-- Write a 256-byte buffer of page 0x0D. -/
def recBufWrite (d : Dev) (s : Nat) (bs : List Byte) : Dev :=
  let ws := stringWords bs 64
  d.each 64 fun j d => d.set (R.RECORD_BUF s j) (ws.getD j 0)

/-- Why BOOT_COMPLETE is refused (R374): no firmware runs before the boot ROM's last step, so none can complete the boot. -/
def completeRefused (s : State) : Option Nat :=
  if s.run ≠ .booting then some 2
  else if s.anchors.toNat ≠ 1023 then some 3
  else if !s.d.on R.VAULT_STATUS_SELFTEST_PASS then some 7
  else if !s.d.on (R.ROOT_VALID (attestRoot s.d)) then some 9
  else if s.d.get R.BOOT_STATUS_STAGE ≠ 1 then some 2
  else none

/-- Rollback advances to the image's SVN (R374). -/
def rollbackAdvance (s : State) : State :=
  let svn := s.d.get R.IMAGE_INFO_SVN
  if s.d.on L.COMMIT_SVN ∧ otpRollback s.otp < svn then
    let s := otpCounts { s with otp := otpThermo s.otp 0x090 svn }
    s.setDev ((s.d.set R.BOOT_STATUS_ROLLBACK_ADVANCED 1).latch 0xD 24)
  else s

/-- The record is built, sealed and committed to Base Camp with the new count. -/
def sealRecord (s : State) : Dev × List Byte :=
  let d := s.d
  let count := d.get R.BOOT_COUNT + 1
  let body := recordBody s.otp d count
  let mac := Crypto.hmac384 (attestKey d labelRecord) body
  let held := min 64 (d.get R.RECORDS_HELD + 1)
  ((d.setAll [(R.BOOT_COUNT, count), (L.RECORD (count % 64), beVal (body ++ mac)), (L.LAST_MAC, beVal mac), (R.RECORDS_HELD, held),
    (R.RECORD_FIRST, count + 1 - held), (L.DEBUG_SINCE, 0), (R.BOOT_ATTEMPTS, 0), (L.RESTARTS, 0), (R.BOOT_STATUS_STAGE, 2)]).latch 0xD 8,
    body ++ mac)

/-- The run state after the seal (R26, R27). -/
def bootLeave (s : State) : State :=
  if s.d.on L.CONTAIN_AT_BOOT then containEnter s .booting
  else { s with run := .active, d := hwmAll s.d s.d .booting .active }

/-- BOOT_COMPLETE in slot `i`: the checks and the rollback counter (R374). DESIGN CHOICE: the seal's step of the vault engine and the atomic
commit fall into the next tick, behind its alarm response (log 45). -/
def bootComplete (s : State) (i : Nat) : State :=
  let id := slotId 0xD i
  match completeRefused s with
  | some x => s.setDev (slotFail s.d id codeState x)
  | none =>
    if zeroizing s.d then s.setDev (slotFail s.d id codeAbortedAlarm 0)
    else
      let s := rollbackAdvance s
      s.setDev ((s.d.set (L.SLOT_CODE id) codeRunning).post (.bootSeal i))

/-- The seal of the BOOT_COMPLETE in slot `i` (R374), unless an alarm response came before it (R375) or the command was abandoned (R373). -/
def bootSeal (s : State) (i : Nat) : State :=
  let id := slotId 0xD i
  if slotCode s.d id ≠ codeRunning ∨ slotOp s.d id ≠ 2 then s
  else if s.run.stopped ∨ zeroizing s.d then s.setDev (slotFail s.d id codeAbortedAlarm 0)
  else if s.run ≠ .booting then s.setDev (slotFail s.d id codeState 2)
  else
    let r := sealRecord s
    let n := r.1.get R.BOOT_COUNT
    bootLeave (s.setDev (slotEnd (recBufWrite r.1 i r.2) id codeOk [n % 2 ^ 32, n / 2 ^ 32]))

/-- ASCENT_EXTEND in slot `i` (R372, R381). -/
def ascentCommand (run : RunState) (d : Dev) (i : Nat) : Dev :=
  let id := slotId 0xD i
  let t := bitsOf (slotArg d id 0) 0 8
  if t < 0x10 then slotEnd d id codeArg []
  else if run ≠ .booting ∨ d.get R.BOOT_STATUS_STAGE = 2 then slotFail d id codeState 2
  else if 64 ≤ d.get R.EXTEND_COUNT then slotFail d id codeState 1
  else
    let d := ascentExtend d t (argString d id 1 12 48)
    slotEnd d id codeOk [d.get R.EXTEND_COUNT]

/-- RECORD_READ in slot `i` (R379). -/
def recordRead (d : Dev) (i : Nat) : Dev :=
  let id := slotId 0xD i
  let n := slotArg d id 0 + slotArg d id 1 * 2 ^ 32
  if d.get R.RECORDS_HELD = 0 ∨ n < d.get R.RECORD_FIRST ∨ d.get R.BOOT_COUNT < n then slotFail d id codeArg 1
  else slotEnd (recBufWrite d i (recordBytes d n)) id codeOk []

/-! ## Challenge (R380) -/

/-- Bytes 0 to 167 of a response. -/
def responseBody (run : RunState) (d : Dev) (nonce dev : List Byte) : List Byte :=
  beBytes 4 0x49484352 ++ beBytes 1 1 ++ beBytes 1 run.code ++ beBytes 1 (d.get R.LC_STATE) ++ beBytes 1 (attestRoot d) ++ idBytes d ++ nonce ++
    dev ++ beBytes 8 (d.get R.BOOT_COUNT) ++ beBytes 48 (d.get L.LAST_MAC) ++ beBytes 6 (secOf d.time) ++ beBytes 4 (nsOf d.time) ++
    beBytes 2 (fracOf d.time) ++ beBytes 4 (attestKeyId d) ++ beBytes 8 (d.get R.STICKY) ++ beBytes 2 (d.get L.RESTARTS) ++ beBytes 2 0 ++
    tamperBytes d

/-- The run states in which the part answers challenges. -/
def RunState.attests : RunState → Bool
  | .active => true
  | .contained => true
  | .booting => false
  | .alarmHold => false
  | .halted => false
  | .zeroized => false

/-- CHALLENGE in slot `i`. -/
def challenge (run : RunState) (d : Dev) (i : Nat) : Dev :=
  let id := slotId 0xD i
  if !run.attests then slotFail d id codeState 2
  else if !d.on (R.ROOT_VALID (attestRoot d)) then slotFail d id codeState 9
  else if !drbgIs d drbgReady then slotFail d id codeState 4
  else
    let r := drbgOut d 32
    let d := r.1
    let body := responseBody run d (argString d id 0 7 32) r.2
    let d := recBufWrite d i (body ++ Crypto.hmac384 (attestKey d labelChallenge) body)
    (slotEnd d id codeOk (nonceWords r.2)).set (L.SLOT_READ_ONCE id) 8

/-! ## Rows -/

/-- A CMD write to slot `i` of page 0x0D; a command of the management slots alone ends with ERR_ATTR in the host's. -/
def State.recSlot (s : State) (i op : Nat) (mgmtOnly : Bool) (f : State → State) : Host.Outcome State Fault Refusal :=
  .next (if s.live 0xD ∧ ¬ slotActive s.d (slotId 0xD i) then
    let s := s.setDev (slotAccept s.d (slotId 0xD i) op)
    if mgmtOnly ∧ i < 2 then s.setDev (slotEnd s.d (slotId 0xD i) codeAttr []) else f s
  else s)

/-- BOOT_ROM (R367): what the boot flash holds at its two places, and the DRAM that training finds. -/
def execBootRom (primary secondary : FlashImage) (dramGib : Fin 33) (s : State) : Host.Outcome State Fault Refusal :=
  .next (if s.frozen then s else romRun s primary secondary dramGib)
/-- ASCENT_EXTEND (R372). -/
def execAscentExtend (slot : Fin 4) (s : State) : Host.Outcome State Fault Refusal :=
  s.recSlot slot 0x0001 true fun s => s.setDev (ascentCommand s.run s.d slot)
/-- BOOT_COMPLETE (R374). -/
def execBootComplete (slot : Fin 4) (s : State) : Host.Outcome State Fault Refusal :=
  s.recSlot slot 0x0002 true fun s => bootComplete s slot
/-- RECORD_READ (R379). -/
def execRecordRead (slot : Fin 4) (s : State) : Host.Outcome State Fault Refusal :=
  s.recSlot slot 0x0003 false fun s => s.setDev (recordRead s.d slot)
/-- CHALLENGE (R380). -/
def execChallenge (slot : Fin 4) (s : State) : Host.Outcome State Fault Refusal :=
  s.recSlot slot 0x0004 false fun s => s.setDev (challenge s.run s.d slot)

end Sys2Proof.Machine
end

