-- ==== Sys2Proof/Machine/Layout.lean ====
section
/-! DEFINITION. Where each register field lies in its page's words and each table field in its entry, with its access, as the
register tables and table layouts of the spec state them. -/

namespace Sys2Proof.Machine

/-- Access of a field (R42). `special` fields have a rule of their own for every write. -/
inductive Acc where
  | ro
  | rw
  | rwa (group : Nat)
  | rc
  | wo
  | w1c
  | w1s
  | special
  deriving DecidableEq, Repr

/-- Part of a field in a 32-bit word: bits [lo + w − 1 : lo] hold the field's bits from `sh` on. -/
structure RegField where
  f : Fld
  lo : Nat
  w : Nat
  sh : Nat
  acc : Acc
  deriving DecidableEq, Repr

/-- A field of a table entry, at entry bit `lo`. -/
structure TblField where
  f : Fld
  lo : Nat
  w : Nat
  acc : Acc
  deriving DecidableEq, Repr

/-- Registers of page 0x0 after its header, part 0. -/
def regs00f0 (off : Nat) : List RegField :=
    (if off = 0x100 then [⟨R.DEV_CTRL_DEVICE_RESET, 0, 1, 0, .wo⟩, ⟨R.DEV_CTRL_RESET_KEY, 16, 16, 0, .wo⟩] else []) ++
    (if off = 0x104 then [⟨R.DEV_STATE_RUN_STATE, 0, 3, 0, .ro⟩, ⟨R.DEV_STATE_POWER_STATE, 4, 2, 0, .ro⟩] else []) ++
    (if off = 0x108 then [⟨R.ANCHOR_SUMMARY_GROUPS, 0, 16, 0, .ro⟩, ⟨R.ANCHOR_SUMMARY_ALL, 31, 1, 0, .ro⟩] else []) ++
    (if off = 0x10c then [⟨R.ANCHORED_WRITES, 0, 32, 0, .rc⟩] else []) ++
    (if off = 0x110 then [⟨R.HOST_ACCESS_ERRS, 0, 32, 0, .rc⟩] else []) ++
    (if off = 0x114 then [⟨R.SCRATCH, 0, 32, 0, .rw⟩] else [])

/-- Registers of page 0x0 after the header. -/
def regs00 (off : Nat) : List RegField :=
  regs00f0 off

/-- Registers of page 0x1 after its header, part 0. -/
def regs01f0 (off : Nat) : List RegField :=
    (if 0x100 ≤ off ∧ off < 0x900 ∧ (off - 0x100) % 4 = 0 then [⟨R.EV_CFG_VECTOR ((off - 0x100) / 4), 0, 6, 0, .rw⟩, ⟨R.EV_CFG_TO_HOST ((off - 0x100) / 4), 8, 1, 0, .rw⟩, ⟨R.EV_CFG_TO_MGMT ((off - 0x100) / 4), 9, 1, 0, .rw⟩] else []) ++
    (if 0x900 ≤ off ∧ off < 0x940 ∧ (off - 0x900) % 4 = 0 then [⟨R.EV_ACTIVE ((off - 0x900) / 4), 0, 32, 0, .ro⟩] else []) ++
    (if off = 0xa00 then [⟨R.VEC_SENT, 0, 32, 0, .w1c⟩] else []) ++
    (if off = 0xa04 then [⟨R.VEC_SENT, 0, 32, 32, .w1c⟩] else []) ++
    (if off = 0xb00 then [⟨R.EV_FIRST_SOURCE, 0, 9, 0, .ro⟩, ⟨R.EV_FIRST_VALID, 16, 1, 0, .w1c⟩, ⟨R.EV_FIRST_SIMULTANEOUS, 17, 1, 0, .ro⟩] else []) ++
    (if off = 0xb04 then [⟨R.EV_FIRST_TIME_SEC, 0, 32, 0, .ro⟩] else []) ++
    (if off = 0xb08 then [⟨R.EV_FIRST_TIME_NS, 0, 30, 0, .ro⟩] else []) ++
    (if off = 0xb0c then [⟨R.EV_FIRST_TIME_FRAC, 0, 16, 0, .ro⟩] else [])

/-- Registers of page 0x1 after the header. -/
def regs01 (off : Nat) : List RegField :=
  regs01f0 off

/-- Registers of page 0x2 after its header, part 0. -/
def regs02f0 (off : Nat) : List RegField :=
    (if off = 0x100 then [⟨R.TIME_NOW_FRAC, 0, 16, 0, .ro⟩] else []) ++
    (if off = 0x104 then [⟨R.TIME_NOW_NS, 0, 30, 0, .ro⟩] else []) ++
    (if off = 0x108 then [⟨R.TIME_NOW_SEC_LO, 0, 32, 0, .ro⟩] else []) ++
    (if off = 0x10c then [⟨R.TIME_NOW_SEC_HI, 0, 16, 0, .ro⟩] else []) ++
    (if off = 0x110 then [⟨R.RATE_ADJ, 0, 32, 0, .rw⟩] else []) ++
    (if off = 0x114 then [⟨R.RATE_ADJ, 0, 8, 32, .rw⟩] else []) ++
    (if off = 0x118 then [⟨R.TB_CTRL_DISCIPLINE_SRC, 0, 1, 0, .rw⟩, ⟨R.TB_CTRL_FORCE_HOLDOVER, 1, 1, 0, .rw⟩, ⟨R.TB_CTRL_PPS_OUT_EN, 8, 2, 0, .rw⟩, ⟨R.TB_CTRL_PPS_OUT_INV, 10, 2, 0, .rw⟩, ⟨R.TB_CTRL_PPS_IN_EN, 12, 2, 0, .rw⟩, ⟨R.TB_CTRL_PPS_IN_FALL, 14, 2, 0, .rw⟩] else []) ++
    (if off = 0x11c then [⟨R.HOLDOVER_TIMEOUT, 0, 16, 0, .rw⟩] else []) ++
    (if off = 0x120 then [⟨R.OFFSET_NS, 0, 32, 0, .rw⟩] else []) ++
    (if off = 0x124 then [⟨R.OFFSET_NS, 0, 32, 32, .rw⟩] else []) ++
    (if off = 0x128 then [⟨R.OFFSET_FRAC, 0, 16, 0, .rw⟩] else []) ++
    (if off = 0x12c then [⟨R.SLEW_RATE, 0, 32, 0, .rw⟩] else []) ++
    (if off = 0x130 then [⟨R.ADJ_CMD_MODE, 0, 2, 0, .wo⟩] else []) ++
    (if off = 0x134 then [⟨R.ADJ_REMAIN, 0, 32, 0, .ro⟩] else []) ++
    (if off = 0x138 then [⟨R.ADJ_REMAIN, 0, 32, 32, .ro⟩] else []) ++
    (if off = 0x13c then [⟨R.TB_STATUS_TIME_SET, 0, 1, 0, .ro⟩, ⟨R.TB_STATUS_HOLDOVER, 1, 1, 0, .ro⟩, ⟨R.TB_STATUS_REF_LOST, 2, 1, 0, .ro⟩, ⟨R.TB_STATUS_SLEWING, 3, 1, 0, .ro⟩, ⟨R.TB_STATUS_PLL_LOCKED, 4, 1, 0, .ro⟩, ⟨R.TB_STATUS_RATE_CLAMPED, 5, 1, 0, .ro⟩, ⟨R.TB_STATUS_ADJ_REFUSED, 6, 1, 0, .ro⟩, ⟨R.TB_STATUS_REF_25M, 8, 1, 0, .ro⟩] else []) ++
    (if off = 0x140 then [⟨R.PPS_IN0_TIME_FRAC, 0, 16, 0, .ro⟩] else []) ++
    (if off = 0x144 then [⟨R.PPS_IN0_TIME_NS, 0, 30, 0, .ro⟩] else []) ++
    (if off = 0x148 then [⟨R.PPS_IN0_TIME_SEC_LO, 0, 32, 0, .ro⟩] else []) ++
    (if off = 0x14c then [⟨R.PPS_IN0_TIME_SEC_HI, 0, 16, 0, .ro⟩] else []) ++
    (if off = 0x150 then [⟨R.PPS_IN1_TIME_FRAC, 0, 16, 0, .ro⟩] else []) ++
    (if off = 0x154 then [⟨R.PPS_IN1_TIME_NS, 0, 30, 0, .ro⟩] else []) ++
    (if off = 0x158 then [⟨R.PPS_IN1_TIME_SEC_LO, 0, 32, 0, .ro⟩] else []) ++
    (if off = 0x15c then [⟨R.PPS_IN1_TIME_SEC_HI, 0, 16, 0, .ro⟩] else []) ++
    (if 0x160 ≤ off ∧ off < 0x168 ∧ (off - 0x160) % 4 = 0 then [⟨R.PPS_IN_DELAY ((off - 0x160) / 4), 0, 32, 0, .rw⟩] else []) ++
    (if 0x168 ≤ off ∧ off < 0x170 ∧ (off - 0x168) % 4 = 0 then [⟨R.PPS_OUT_DELAY ((off - 0x168) / 4), 0, 32, 0, .rw⟩] else []) ++
    (if off = 0x170 then [⟨R.TOD_CTRL_BAUD, 0, 3, 0, .rw⟩, ⟨R.TOD_CTRL_ENABLE, 8, 1, 0, .rw⟩, ⟨R.TOD_CTRL_FREE_SEND, 9, 1, 0, .rw⟩] else []) ++
    (if off = 0x174 then [⟨R.TOD_TX_DATA, 0, 8, 0, .wo⟩] else []) ++
    (if off = 0x178 then [⟨R.TOD_RX_DATA_BYTE, 0, 8, 0, .rc⟩, ⟨R.TOD_RX_DATA_VALID, 8, 1, 0, .ro⟩] else []) ++
    (if off = 0x17c then [⟨R.TOD_STATUS_TX_LEVEL, 0, 7, 0, .ro⟩, ⟨R.TOD_STATUS_RX_LEVEL, 8, 7, 0, .ro⟩, ⟨R.TOD_STATUS_TX_BUSY, 16, 1, 0, .ro⟩] else []) ++
    (if off = 0x180 then [⟨R.DISCIPLINE_REFUSED, 0, 32, 0, .rc⟩] else []) ++
    (if off = 0x184 then [⟨R.STEP_COUNT, 0, 32, 0, .rc⟩] else [])

/-- Registers of page 0x2 after the header. -/
def regs02 (off : Nat) : List RegField :=
  regs02f0 off

/-- Registers of page 0x3 after its header, part 0. -/
def regs03f0 (off : Nat) : List RegField :=
    (if off = 0x100 then [⟨R.WP_STATUS_ARMED_COUNT, 0, 13, 0, .ro⟩, ⟨R.WP_STATUS_ROPE_LOCKED, 16, 1, 0, .ro⟩] else []) ++
    (if off = 0x104 then [⟨R.WP_LATE_COUNT, 0, 32, 0, .rc⟩] else []) ++
    (if off = 0x108 then [⟨R.WP_FAIL_COUNT, 0, 32, 0, .rc⟩] else []) ++
    (if off = 0x10c then [⟨R.WP_LAST_LATE, 0, 12, 0, .ro⟩] else []) ++
    (if off = 0x110 then [⟨R.WP_LAST_FAIL, 0, 12, 0, .ro⟩] else [])

/-- Registers of page 0x3 after the header. -/
def regs03 (off : Nat) : List RegField :=
  regs03f0 off

/-- Registers of page 0x4 after its header, part 0. -/
def regs04f0 (off : Nat) : List RegField :=
    (if off = 0x100 then [⟨R.BUDGET_CEILING, 0, 12, 0, (.rwa 3)⟩] else []) ++
    (if off = 0x104 then [⟨R.SLEW_LIMIT, 0, 9, 0, (.rwa 3)⟩] else []) ++
    (if off = 0x108 then [⟨R.ARB_TOTAL_FIXED_LOAD, 0, 12, 0, .ro⟩, ⟨R.ARB_TOTAL_ACCOUNTED, 16, 12, 0, .ro⟩] else []) ++
    (if off = 0x10c then [⟨R.ARB_STATUS_FREE, 0, 12, 0, .ro⟩, ⟨R.ARB_STATUS_CEILING_REFUSED, 16, 1, 0, .ro⟩, ⟨R.ARB_STATUS_FLOOR_REFUSED, 17, 1, 0, .ro⟩] else []) ++
    (if off = 0x110 then [⟨R.ARB_QUEUE_PENDING_COUNT, 0, 7, 0, .ro⟩, ⟨R.ARB_QUEUE_HEAD, 16, 7, 0, .ro⟩] else []) ++
    (if off = 0x114 then [⟨R.PWR_STATUS_TRANSITION, 0, 2, 0, .ro⟩] else []) ++
    (if off = 0x118 then [⟨R.GRANTS, 0, 32, 0, .rc⟩] else []) ++
    (if off = 0x11c then [⟨R.WAITS, 0, 32, 0, .rc⟩] else []) ++
    (if off = 0x120 then [⟨R.POWER_ERRORS, 0, 32, 0, .rc⟩] else []) ++
    (if off = 0x124 then [⟨R.MAX_WAIT_US, 0, 32, 0, .rc⟩] else []) ++
    (if off = 0x200 then [⟨R.AVS_CTRL_ENABLE, 0, 1, 0, .rw⟩, ⟨R.AVS_CTRL_MANUAL, 1, 1, 0, .rw⟩] else []) ++
    (if off = 0x204 then [⟨R.AVS_MANUAL_MV, 0, 10, 0, .rw⟩] else []) ++
    (if off = 0x208 then [⟨R.AVS_TARGET_MV, 0, 10, 0, .ro⟩] else []) ++
    (if off = 0x20c then [⟨R.AVS_READ_VOUT_MV, 0, 10, 0, .ro⟩, ⟨R.AVS_READ_IOUT, 16, 16, 0, .ro⟩] else []) ++
    (if off = 0x210 then [⟨R.AVS_CODE, 0, 6, 0, .ro⟩] else []) ++
    (if off = 0x214 then [⟨R.AVS_FAULTS, 0, 32, 0, .rc⟩] else [])

/-- Registers of page 0x4 after the header. -/
def regs04 (off : Nat) : List RegField :=
  regs04f0 off

/-- Registers of page 0x5 after its header, part 0. -/
def regs05f0 (off : Nat) : List RegField :=
    (if off = 0x100 then [⟨R.VAULT_STATUS_SLOTS_USED, 0, 11, 0, .ro⟩, ⟨R.VAULT_STATUS_DRBG_STATE, 16, 2, 0, .ro⟩, ⟨R.VAULT_STATUS_SELFTEST_PASS, 20, 1, 0, .ro⟩, ⟨R.VAULT_STATUS_ENGINE_GRANTED, 21, 1, 0, .ro⟩, ⟨R.VAULT_STATUS_CASCADE_ACTIVE, 22, 1, 0, .ro⟩] else []) ++
    (if off = 0x104 then [⟨R.RIGHTS_HOST_CLASSES, 0, 8, 0, (.rwa 9)⟩] else []) ++
    (if off = 0x108 then [⟨R.RIGHTS_HOST_RANGE_FIRST, 0, 10, 0, (.rwa 9)⟩, ⟨R.RIGHTS_HOST_RANGE_LAST, 16, 10, 0, (.rwa 9)⟩] else []) ++
    (if off = 0x10c then [⟨R.RIGHTS_MGMT_CLASSES, 0, 8, 0, (.rwa 9)⟩] else []) ++
    (if off = 0x110 then [⟨R.RIGHTS_MGMT_RANGE_FIRST, 0, 10, 0, (.rwa 9)⟩, ⟨R.RIGHTS_MGMT_RANGE_LAST, 16, 10, 0, (.rwa 9)⟩] else []) ++
    (if off = 0x114 then [⟨R.CEIL_HOST_CLASSES, 0, 8, 0, .ro⟩] else []) ++
    (if off = 0x118 then [⟨R.CEIL_HOST_RANGE_FIRST, 0, 10, 0, .ro⟩, ⟨R.CEIL_HOST_RANGE_LAST, 16, 10, 0, .ro⟩] else []) ++
    (if off = 0x11c then [⟨R.CEIL_MGMT_CLASSES, 0, 8, 0, .ro⟩] else []) ++
    (if off = 0x120 then [⟨R.CEIL_MGMT_RANGE_FIRST, 0, 10, 0, .ro⟩, ⟨R.CEIL_MGMT_RANGE_LAST, 16, 10, 0, .ro⟩] else []) ++
    (if off = 0x124 then [⟨R.ERASE_COUNT, 0, 32, 0, .rc⟩] else []) ++
    (if off = 0x128 then [⟨R.KEY_GONE_COUNT, 0, 32, 0, .rc⟩] else []) ++
    (if off = 0x12c then [⟨R.ALARM_ABORT_COUNT, 0, 32, 0, .rc⟩] else []) ++
    (if off = 0x130 then [⟨R.INTEGRITY_FAIL_COUNT, 0, 32, 0, .rc⟩] else []) ++
    (if off = 0x134 then [⟨R.USE_EXHAUSTED_COUNT, 0, 32, 0, .rc⟩] else []) ++
    (if off = 0x138 then [⟨R.DIRECT_SAK_COUNT, 0, 32, 0, .rc⟩] else []) ++
    (if off = 0x13c then [⟨R.DRBG_HEALTH_FAILS, 0, 32, 0, .rc⟩] else []) ++
    (if off = 0x140 then [⟨R.DRBG_REQUESTS, 0, 21, 0, .ro⟩] else []) ++
    (if 0x2000 ≤ off ∧ off < 0x2200 then [⟨R.BLOB_BUF ((off - 0x2000) / 128) ((off - 0x2000) % 128 / 4), 0, 32, 0, .rw⟩] else [])

/-- Registers of page 0x5 after the header. -/
def regs05 (off : Nat) : List RegField :=
  regs05f0 off

/-- Registers of page 0x6 after its header, part 0. -/
def regs06f0 (off : Nat) : List RegField :=
    (if off = 0x100 then [⟨R.LC_STATE, 0, 3, 0, .ro⟩] else []) ++
    (if off = 0x104 then [⟨R.LC_TRANSITION_TARGET, 0, 3, 0, .wo⟩, ⟨R.LC_TRANSITION_KEY, 16, 16, 0, .wo⟩] else []) ++
    (if off = 0x108 then [⟨R.LC_STATUS_CODE, 0, 8, 0, .ro⟩, ⟨R.LC_STATUS_DETAIL, 8, 4, 0, .ro⟩, ⟨R.LC_STATUS_PHASE, 12, 3, 0, .ro⟩, ⟨R.LC_STATUS_ENROLL_STAGED, 16, 1, 0, .ro⟩] else []) ++
    (if off = 0x10c then [⟨R.LC_LAST_FROM, 0, 3, 0, .ro⟩, ⟨R.LC_LAST_TO, 4, 3, 0, .ro⟩, ⟨R.LC_LAST_CODE, 8, 8, 0, .ro⟩, ⟨R.LC_LAST_ENROLL_LOST, 16, 1, 0, .ro⟩] else []) ++
    (if off = 0x110 then [⟨R.PRESENCE_STATUS_ASSERTED, 0, 1, 0, .ro⟩, ⟨R.PRESENCE_STATUS_RAW_LOW, 1, 1, 0, .ro⟩] else []) ++
    (if off = 0x114 then [⟨R.DEBUG_CTRL_LANE_EN, 0, 1, 0, (.rwa 6)⟩, ⟨R.DEBUG_CTRL_FULL_EN, 1, 1, 0, (.rwa 6)⟩] else []) ++
    (if off = 0x118 then [⟨R.DEBUG_STATUS_LANE_OPEN, 0, 1, 0, .ro⟩, ⟨R.DEBUG_STATUS_FULL_OPEN, 1, 1, 0, .ro⟩, ⟨R.DEBUG_STATUS_CHALLENGE_OUT, 2, 1, 0, .ro⟩, ⟨R.DEBUG_STATUS_FAILS, 8, 4, 0, .ro⟩] else []) ++
    (if off = 0x11c then [⟨R.DEVICE_ID, 0, 32, 0, .ro⟩] else []) ++
    (if off = 0x120 then [⟨R.DEVICE_ID, 0, 32, 32, .ro⟩] else []) ++
    (if off = 0x124 then [⟨R.OWNER_ID, 0, 32, 0, .ro⟩] else []) ++
    (if off = 0x128 then [⟨R.OWNER_ID, 0, 32, 32, .ro⟩] else []) ++
    (if off = 0x12c then [⟨R.KEYHASH_STATE_PROGRAMMED, 0, 4, 0, .ro⟩, ⟨R.KEYHASH_STATE_REVOKED, 4, 4, 0, .ro⟩, ⟨R.KEYHASH_STATE_PERMITTED, 8, 4, 0, .ro⟩, ⟨R.KEYHASH_STATE_SECRET_SET, 16, 1, 0, .ro⟩] else []) ++
    (if off = 0x130 then [⟨R.ATTEST_KEY_ID, 0, 32, 0, .ro⟩] else []) ++
    (if off = 0x134 then [⟨R.DEBUG_FAILS, 0, 32, 0, .rc⟩] else []) ++
    (if off = 0x138 then [⟨R.OTP_FAULTS, 0, 32, 0, .rc⟩] else []) ++
    (if 0x2000 ≤ off ∧ off < 0x3000 then [⟨R.LC_BUF ((off - 0x2000) / 1024) ((off - 0x2000) % 1024 / 4), 0, 32, 0, .rw⟩] else [])

/-- Registers of page 0x6 after the header. -/
def regs06 (off : Nat) : List RegField :=
  regs06f0 off

/-- Registers of page 0x7 after its header, part 0. -/
def regs07f0 (off : Nat) : List RegField :=
    (if off = 0x100 then [⟨R.ALARM_ACTIVE, 0, 32, 0, .ro⟩] else []) ++
    (if off = 0x104 then [⟨R.ALARM_ACTIVE, 0, 32, 32, .ro⟩] else []) ++
    (if off = 0x108 then [⟨R.ALARM_LATCH, 0, 32, 0, .w1c⟩] else []) ++
    (if off = 0x10c then [⟨R.ALARM_LATCH, 0, 32, 32, .w1c⟩] else []) ++
    (if off = 0x110 then [⟨R.STICKY, 0, 32, 0, .ro⟩] else []) ++
    (if off = 0x114 then [⟨R.STICKY, 0, 32, 32, .ro⟩] else []) ++
    (if off = 0x118 then [⟨R.STICKY_CLEAR, 0, 32, 0, .wo⟩] else []) ++
    (if off = 0x11c then [⟨R.STICKY_CLEAR, 0, 32, 32, .wo⟩] else []) ++
    (if off = 0x120 then [⟨R.CONTAIN_RELEASE, 0, 16, 0, .wo⟩] else []) ++
    (if off = 0x124 then [⟨R.RELEASE_STATUS_CODE, 0, 8, 0, .ro⟩] else []) ++
    (if off = 0x128 then [⟨R.ZEROIZE_REQUEST, 0, 16, 0, .wo⟩] else []) ++
    (if off = 0x12c then [⟨R.ZEROIZE_STATUS_ACTIVE, 0, 1, 0, .ro⟩, ⟨R.ZEROIZE_STATUS_KEYS_CLEAR, 1, 1, 0, .ro⟩, ⟨R.ZEROIZE_STATUS_MEMORY_CLEAR, 2, 1, 0, .ro⟩] else []) ++
    (if off = 0x130 then [⟨R.TAMPER_COUNT, 0, 32, 0, .ro⟩] else []) ++
    (if off = 0x134 then [⟨R.PENDING_EVIDENCE, 0, 32, 0, .ro⟩] else []) ++
    (if off = 0x138 then [⟨R.SUPPLY_MODE, 0, 8, 0, (.rwa 4)⟩] else []) ++
    (if off = 0x13c then [⟨R.BC_CFG_MESH_EN, 0, 4, 0, .special⟩, ⟨R.BC_CFG_CASE_EN, 4, 8, 0, .special⟩, ⟨R.BC_CFG_CASE_LEVEL, 12, 8, 0, .special⟩] else []) ++
    (if off = 0x140 then [⟨R.BC_BATT_ZEROIZE, 0, 19, 0, .special⟩] else []) ++
    (if off = 0x144 then [⟨R.BC_CFG_REFUSED, 0, 32, 0, .rc⟩] else []) ++
    (if off = 0x148 then [⟨R.STICKY_CLEAR_REFUSED, 0, 32, 0, .rc⟩] else []) ++
    (if off = 0x150 then [⟨R.BC_COUNT, 0, 32, 0, .ro⟩] else []) ++
    (if off = 0x154 then [⟨R.BC_COUNT, 0, 16, 32, .ro⟩] else []) ++
    (if off = 0x158 then [⟨R.BC_TIME_REF_REF_COUNT, 0, 32, 0, .ro⟩] else []) ++
    (if off = 0x15c then [⟨R.BC_TIME_REF_REF_COUNT, 0, 16, 32, .ro⟩] else []) ++
    (if off = 0x160 then [⟨R.BC_TIME_REF_REF_SEC, 0, 32, 0, .ro⟩] else []) ++
    (if off = 0x164 then [⟨R.BC_TIME_REF_REF_SEC, 0, 16, 32, .ro⟩, ⟨R.BC_TIME_REF_TIME_SET, 16, 1, 0, .ro⟩] else []) ++
    (if off = 0x168 then [⟨R.POWERUP_COUNT, 0, 32, 0, .ro⟩] else []) ++
    (if off = 0x16c then [⟨R.POWERUP_COUNT, 0, 16, 32, .ro⟩] else []) ++
    (if off = 0x170 then [⟨R.LOG_SEQ_NEWEST, 0, 32, 0, .ro⟩] else []) ++
    (if off = 0x174 then [⟨R.LOG_SEQ_NEWEST, 0, 32, 32, .ro⟩] else []) ++
    (if off = 0x178 then [⟨R.FSM_FAULT_MACHINE, 0, 5, 0, .ro⟩, ⟨R.FSM_FAULT_VALID, 8, 1, 0, .w1c⟩] else []) ++
    (if 0x200 ≤ off ∧ off < 0x300 ∧ (off - 0x200) % 4 = 0 then [⟨R.ALARM_CFG_SEVERITY ((off - 0x200) / 4), 0, 3, 0, .rw⟩, ⟨R.ALARM_CFG_FLOOR ((off - 0x200) / 4), 4, 3, 0, (.rwa 4)⟩, ⟨R.ALARM_CFG_EFFECTIVE ((off - 0x200) / 4), 8, 3, 0, .ro⟩, ⟨R.ALARM_CFG_LOWEST ((off - 0x200) / 4), 12, 3, 0, .ro⟩, ⟨R.ALARM_CFG_HIGHEST ((off - 0x200) / 4), 16, 3, 0, .ro⟩] else [])

/-- Registers of page 0x7 after the header. -/
def regs07 (off : Nat) : List RegField :=
  regs07f0 off

/-- Registers of page 0x8 after its header, part 0. -/
def regs08f0 (off : Nat) : List RegField :=
    (if off = 0x100 then [⟨R.MGMT_STATUS_CORE_RUN, 0, 4, 0, .ro⟩, ⟨R.MGMT_STATUS_RESTARTING, 8, 1, 0, .ro⟩, ⟨R.MGMT_STATUS_DRAM_GIB, 16, 6, 0, .ro⟩] else []) ++
    (if off = 0x104 then [⟨R.MGMT_CTRL_RESTART, 0, 1, 0, .wo⟩, ⟨R.MGMT_CTRL_KEY, 16, 16, 0, .wo⟩] else []) ++
    (if off = 0x108 then [⟨R.RESTART_COUNT, 0, 32, 0, .rc⟩] else []) ++
    (if off = 0x110 then [⟨R.WD_CTRL_ENABLE, 0, 1, 0, .w1s⟩, ⟨R.WD_CTRL_ACTION, 8, 3, 0, .rw⟩] else []) ++
    (if off = 0x114 then [⟨R.WD_TIMEOUT, 0, 16, 0, .rw⟩] else []) ++
    (if off = 0x118 then [⟨R.WD_GRACE, 0, 16, 0, .rw⟩] else []) ++
    (if off = 0x11c then [⟨R.WD_SERVICE, 0, 16, 0, .wo⟩] else []) ++
    (if off = 0x120 then [⟨R.WD_STATUS_STAGE, 0, 2, 0, .ro⟩, ⟨R.WD_STATUS_LAST_ACTION, 16, 3, 0, .ro⟩] else []) ++
    (if off = 0x124 then [⟨R.WD_LIMIT, 0, 3, 0, (.rwa 8)⟩] else []) ++
    (if off = 0x128 then [⟨R.WD_EXPIRIES, 0, 32, 0, .rc⟩] else []) ++
    (if off = 0x130 then [⟨R.PUNT_CEILING_RATE, 0, 27, 0, (.rwa 5)⟩] else []) ++
    (if off = 0x134 then [⟨R.PUNT_CEILING_BURST, 0, 21, 0, (.rwa 5)⟩] else []) ++
    (if off = 0x138 then [⟨R.PUNT_STATUS_RESERVE_REFUSED, 0, 1, 0, .ro⟩] else []) ++
    (if off = 0x13c then [⟨R.CEILING_DEFERRED, 0, 32, 0, .rc⟩] else []) ++
    (if 0x200 ≤ off ∧ off < 0x300 ∧ (off - 0x200) % 16 = 0 then [⟨R.CLASS_RATE ((off - 0x200) / 16), 0, 32, 0, .rw⟩] else []) ++
    (if 0x204 ≤ off ∧ off < 0x304 ∧ (off - 0x204) % 16 = 0 then [⟨R.CLASS_BURST ((off - 0x204) / 16), 0, 32, 0, .rw⟩] else []) ++
    (if 0x208 ≤ off ∧ off < 0x308 ∧ (off - 0x208) % 16 = 0 then [⟨R.CLASS_RESERVE ((off - 0x208) / 16), 0, 32, 0, .rw⟩] else []) ++
    (if 0x20c ≤ off ∧ off < 0x30c ∧ (off - 0x20c) % 16 = 0 then [⟨R.CLASS_POLICED ((off - 0x20c) / 16), 0, 32, 0, .rc⟩] else []) ++
    (if off = 0x400 then [⟨R.MGMT0_CTRL_ENABLE, 0, 1, 0, .rw⟩, ⟨R.MGMT0_CTRL_MODE, 1, 1, 0, .rw⟩, ⟨R.MGMT0_CTRL_AN_EN, 2, 1, 0, .rw⟩, ⟨R.MGMT0_CTRL_FILLER_EN, 3, 1, 0, .rw⟩] else []) ++
    (if off = 0x404 then [⟨R.MGMT0_STATUS_LINK, 0, 1, 0, .ro⟩, ⟨R.MGMT0_STATUS_AN_DONE, 1, 1, 0, .ro⟩, ⟨R.MGMT0_STATUS_ADAPT_FROZEN, 2, 1, 0, .ro⟩, ⟨R.MGMT0_STATUS_LOW_RUN, 8, 8, 0, .ro⟩] else []) ++
    (if off = 0x408 then [⟨R.MGMT0_CODE_VIOL, 0, 32, 0, .rc⟩] else []) ++
    (if off = 0x40c then [⟨R.MGMT0_DOORBELL_RX, 0, 16, 0, .wo⟩] else []) ++
    (if off = 0x410 then [⟨R.MGMT0_DOORBELL_TX, 0, 16, 0, .wo⟩] else []) ++
    (if off = 0x414 then [⟨R.MGMT0_ACK_RX, 0, 16, 0, .rw⟩] else []) ++
    (if off = 0x418 then [⟨R.MGMT0_ACK_TX, 0, 16, 0, .rw⟩] else []) ++
    (if 0x800 ≤ off ∧ off < 0xa00 ∧ (off - 0x800) % 4 = 0 then [⟨R.MGMT_DOORBELL ((off - 0x800) / 4), 0, 16, 0, .wo⟩] else []) ++
    (if off = 0xb00 then [⟨R.ACCESS_FAULTS, 0, 32, 0, .rc⟩] else []) ++
    (if off = 0xb04 then [⟨R.ACCESS_FAULT_ADDR, 0, 32, 0, .ro⟩] else []) ++
    (if off = 0xb08 then [⟨R.ACCESS_FAULT_ADDR, 0, 32, 32, .ro⟩] else []) ++
    (if off = 0xb0c then [⟨R.ACCESS_FAULT_INFO_CORE, 0, 2, 0, .ro⟩, ⟨R.ACCESS_FAULT_INFO_VALID, 8, 1, 0, .w1c⟩] else [])

/-- Registers of page 0x8 after the header. -/
def regs08 (off : Nat) : List RegField :=
  regs08f0 off

/-- Registers of one of the 8 slots of page 0x9 at offset `r` within the slot. -/
def regs09s0 (i r : Nat) : List RegField :=
    (if r = 0x0 then [⟨R.RANGE_CTRL_ENABLE i, 0, 1, 0, .w1s⟩, ⟨R.RANGE_CTRL_MODE i, 1, 2, 0, .rw⟩] else []) ++
    (if r = 0x4 then [⟨R.RANGE_BASE i, 0, 32, 0, .rw⟩] else []) ++
    (if r = 0x8 then [⟨R.RANGE_BASE i, 0, 32, 32, .rw⟩] else []) ++
    (if r = 0xc then [⟨R.RANGE_LIMIT i, 0, 32, 0, .rw⟩] else []) ++
    (if r = 0x10 then [⟨R.RANGE_LIMIT i, 0, 32, 32, .rw⟩] else []) ++
    (if r = 0x14 then [⟨R.META_BASE i, 0, 32, 0, .rw⟩] else []) ++
    (if r = 0x18 then [⟨R.META_BASE i, 0, 32, 32, .rw⟩] else []) ++
    (if r = 0x1c then [⟨R.RIGHTS i, 0, 12, 0, (.rwa 7)⟩] else []) ++
    (if r = 0x20 then [⟨R.RANGE_STATUS_STATE i, 0, 2, 0, .ro⟩, ⟨R.RANGE_STATUS_REENCRYPTING i, 2, 1, 0, .ro⟩, ⟨R.RANGE_STATUS_CFG_REFUSED i, 3, 1, 0, .ro⟩, ⟨R.RANGE_STATUS_ENABLE_CODE i, 8, 8, 0, .ro⟩] else []) ++
    (if r = 0x24 then [⟨R.META_PAGES i, 0, 18, 0, .ro⟩] else []) ++
    (if r = 0x28 then [⟨R.TREE_LEVELS i, 0, 3, 0, .ro⟩] else []) ++
    (if r = 0x2c then [⟨R.REENCRYPTIONS i, 0, 32, 0, .rc⟩] else [])

/-- Registers of page 0x9 after its header, part 0. -/
def regs09f0 (off : Nat) : List RegField :=
    (if off = 0x300 then [⟨R.MG_CTRL_SCRUB_EN, 0, 1, 0, .rw⟩, ⟨R.MG_CTRL_SCRUB_PERIOD, 8, 8, 0, .rw⟩] else []) ++
    (if off = 0x304 then [⟨R.MG_STATUS_ENGINE_GRANTED, 0, 1, 0, .ro⟩, ⟨R.MG_STATUS_SCRUB_ACTIVE, 1, 1, 0, .ro⟩, ⟨R.MG_STATUS_CACHE_DIRTY, 16, 13, 0, .ro⟩] else []) ++
    (if off = 0x308 then [⟨R.MG_REFUSED, 0, 32, 0, .rc⟩] else []) ++
    (if off = 0x30c then [⟨R.CE_DATA, 0, 32, 0, .rc⟩] else []) ++
    (if off = 0x310 then [⟨R.CE_META, 0, 32, 0, .rc⟩] else []) ++
    (if off = 0x314 then [⟨R.UE_DATA, 0, 32, 0, .rc⟩] else []) ++
    (if off = 0x320 then [⟨R.CACHE_HITS, 0, 32, 0, .rc⟩] else []) ++
    (if off = 0x324 then [⟨R.CACHE_HITS, 0, 32, 32, .rc⟩] else []) ++
    (if off = 0x328 then [⟨R.CACHE_MISSES, 0, 32, 0, .rc⟩] else []) ++
    (if off = 0x32c then [⟨R.CACHE_MISSES, 0, 32, 32, .rc⟩] else []) ++
    (if off = 0x330 then [⟨R.REFUSE_ADDR, 0, 32, 0, .ro⟩] else []) ++
    (if off = 0x334 then [⟨R.REFUSE_ADDR, 0, 32, 32, .ro⟩] else []) ++
    (if off = 0x338 then [⟨R.REFUSE_INFO_MASTER, 0, 3, 0, .ro⟩, ⟨R.REFUSE_INFO_WRITE, 4, 1, 0, .ro⟩, ⟨R.REFUSE_INFO_VALID, 8, 1, 0, .w1c⟩] else []) ++
    (if off = 0x340 then [⟨R.HALT_RECORD_CAUSE, 0, 4, 0, .ro⟩, ⟨R.HALT_RECORD_LEVEL, 4, 4, 0, .ro⟩, ⟨R.HALT_RECORD_RANGE, 8, 3, 0, .ro⟩, ⟨R.HALT_RECORD_VALID, 16, 1, 0, .w1c⟩] else []) ++
    (if off = 0x344 then [⟨R.HALT_ADDR, 0, 32, 0, .ro⟩] else []) ++
    (if off = 0x348 then [⟨R.HALT_ADDR, 0, 32, 32, .ro⟩] else []) ++
    (if off = 0x34c then [⟨R.HALT_TIME_NS, 0, 30, 0, .ro⟩] else []) ++
    (if off = 0x350 then [⟨R.HALT_TIME_SEC, 0, 32, 0, .ro⟩] else [])

/-- Registers of page 0x9 after the header. -/
def regs09 (off : Nat) : List RegField :=
  (if 0x100 ≤ off ∧ off < 0x300 then regs09s0 ((off - 0x100) / 0x40) ((off - 0x100) % 0x40) else []) ++
  regs09f0 off

/-- Registers of one of the 2 slots of page 0xa at offset `r` within the slot. -/
def regs0As0 (i r : Nat) : List RegField :=
    (if r = 0x0 then [⟨R.BELAY_CTRL_ENABLE i, 0, 1, 0, .rw⟩, ⟨R.BELAY_CTRL_TX_INV i, 1, 1, 0, .rw⟩, ⟨R.BELAY_CTRL_RX_INV i, 2, 1, 0, .rw⟩] else []) ++
    (if r = 0x4 then [⟨R.BELAY_STATUS_LINK i, 0, 3, 0, .ro⟩, ⟨R.BELAY_STATUS_PEER_POSITION i, 4, 3, 0, .ro⟩, ⟨R.BELAY_STATUS_PEER_ROLE i, 8, 2, 0, .ro⟩, ⟨R.BELAY_STATUS_CONFLICT i, 12, 1, 0, .ro⟩, ⟨R.BELAY_STATUS_ADAPT_FROZEN i, 13, 1, 0, .ro⟩, ⟨R.BELAY_STATUS_LOW_RUN i, 16, 8, 0, .ro⟩] else []) ++
    (if r = 0x8 then [⟨R.PEER_DEVICE_ID i, 0, 32, 0, .ro⟩] else []) ++
    (if r = 0xc then [⟨R.PEER_DEVICE_ID i, 0, 32, 32, .ro⟩] else []) ++
    (if r = 0x10 then [⟨R.BELAY_ASYM i, 0, 32, 0, .rw⟩] else []) ++
    (if r = 0x14 then [⟨R.LINK_DELAY i, 0, 32, 0, .ro⟩] else []) ++
    (if r = 0x18 then [⟨R.TX_COUNTER i, 0, 32, 0, .ro⟩] else []) ++
    (if r = 0x1c then [⟨R.TX_COUNTER i, 0, 32, 32, .ro⟩] else []) ++
    (if r = 0x20 then [⟨R.BELAY_AUTH_FAILS i, 0, 32, 0, .rc⟩] else []) ++
    (if r = 0x24 then [⟨R.BELAY_REPLAY_DROPS i, 0, 32, 0, .rc⟩] else []) ++
    (if r = 0x28 then [⟨R.BELAY_CODE_VIOL i, 0, 32, 0, .rc⟩] else []) ++
    (if r = 0x2c then [⟨R.BELAY_FRAMES_DISCARDED i, 0, 32, 0, .rc⟩] else []) ++
    (if r = 0x30 then [⟨R.BELAY_LINK_DOWNS i, 0, 32, 0, .rc⟩] else []) ++
    (if r = 0x38 then [⟨R.BELAY_FRAMES_RX i, 0, 32, 0, .rc⟩] else []) ++
    (if r = 0x3c then [⟨R.BELAY_FRAMES_RX i, 0, 32, 32, .rc⟩] else []) ++
    (if r = 0x40 then [⟨R.BELAY_FRAMES_TX i, 0, 32, 0, .rc⟩] else []) ++
    (if r = 0x44 then [⟨R.BELAY_FRAMES_TX i, 0, 32, 32, .rc⟩] else [])

/-- Registers of page 0xa after its header, part 0. -/
def regs0Af0 (off : Nat) : List RegField :=
    (if off = 0x100 then [⟨R.ROPE_CFG_ROLE, 0, 2, 0, .rw⟩, ⟨R.ROPE_CFG_POSITION, 4, 3, 0, .rw⟩, ⟨R.ROPE_CFG_TOPOLOGY, 8, 1, 0, .rw⟩, ⟨R.ROPE_CFG_EXPECTED_MASK, 16, 8, 0, .rw⟩, ⟨R.ROPE_CFG_REMOTE_ALLOW, 24, 1, 0, .rw⟩] else []) ++
    (if off = 0x104 then [⟨R.ROPE_CFG2_ALARM_SEND_MIN, 0, 3, 0, .rw⟩, ⟨R.ROPE_CFG2_LEAD_TIMEOUT, 8, 8, 0, .rw⟩, ⟨R.ROPE_CFG2_MEMBER_TIMEOUT, 16, 8, 0, .rw⟩] else []) ++
    (if off = 0x108 then [⟨R.ROPE_CMD_OP, 0, 2, 0, .wo⟩] else []) ++
    (if off = 0x10c then [⟨R.ROPE_STATUS_STATE, 0, 3, 0, .ro⟩, ⟨R.ROPE_STATUS_MEMBERS, 8, 8, 0, .ro⟩, ⟨R.ROPE_STATUS_KEY_PRESENT, 16, 1, 0, .ro⟩, ⟨R.ROPE_STATUS_CFG_REFUSED, 17, 1, 0, .ro⟩, ⟨R.ROPE_STATUS_TIME_LOCKED, 18, 1, 0, .ro⟩, ⟨R.ROPE_STATUS_UPSTREAM, 20, 2, 0, .ro⟩, ⟨R.ROPE_STATUS_HOPS_FROM_LEAD, 24, 8, 0, .ro⟩] else []) ++
    (if off = 0x110 then [⟨R.TIME_OFFSET, 0, 32, 0, .ro⟩] else []) ++
    (if off = 0x114 then [⟨R.REMOTE_EXECUTED, 0, 32, 0, .rc⟩] else []) ++
    (if off = 0x118 then [⟨R.REMOTE_REFUSED, 0, 32, 0, .rc⟩] else []) ++
    (if off = 0x11c then [⟨R.WP_DISTRIBUTED, 0, 32, 0, .rc⟩] else []) ++
    (if off = 0x120 then [⟨R.ROPE_ALARM_LAST_ORIGIN, 0, 3, 0, .ro⟩, ⟨R.ROPE_ALARM_LAST_SOURCE, 8, 6, 0, .ro⟩, ⟨R.ROPE_ALARM_LAST_SEVERITY, 16, 3, 0, .ro⟩, ⟨R.ROPE_ALARM_LAST_VALID, 24, 1, 0, .w1c⟩] else []) ++
    (if off = 0x124 then [⟨R.ROPE_ALARM_LAST_TIME_NS, 0, 30, 0, .ro⟩] else []) ++
    (if off = 0x128 then [⟨R.ROPE_ALARM_LAST_TIME_SEC, 0, 32, 0, .ro⟩] else []) ++
    (if off = 0x12c then [⟨R.ROPE_ALARMS_RX, 0, 32, 0, .rc⟩] else []) ++
    (if off = 0x130 then [⟨R.ROPE_ALARMS_TX, 0, 32, 0, .rc⟩] else [])

/-- Registers of page 0xa after the header. -/
def regs0A (off : Nat) : List RegField :=
  (if 0x200 ≤ off ∧ off < 0x300 then regs0As0 ((off - 0x200) / 0x80) ((off - 0x200) % 0x80) else []) ++
  regs0Af0 off

/-- Registers of page 0xb after its header, part 0. -/
def regs0Bf0 (off : Nat) : List RegField :=
    (if 0x100 ≤ off ∧ off < 0x300 ∧ (off - 0x100) % 4 = 0 then [⟨R.RING_ACK ((off - 0x100) / 4), 0, 16, 0, .rw⟩] else []) ++
    (if off = 0x300 then [⟨R.DOORBELL_REFUSED, 0, 32, 0, .rc⟩] else [])

/-- Registers of page 0xb after the header. -/
def regs0B (off : Nat) : List RegField :=
  regs0Bf0 off

/-- Registers of one of the 4 slots of page 0xc at offset `r` within the slot. -/
def regs0Cs0 (i r : Nat) : List RegField :=
    (if r = 0x0 then [⟨R.TRING_CFG_ENABLE i, 0, 1, 0, .rw⟩, ⟨R.TRING_CFG_OWNER i, 1, 1, 0, .rw⟩, ⟨R.TRING_CFG_SIZE_LOG i, 4, 5, 0, .rw⟩, ⟨R.TRING_CFG_ERROR i, 12, 1, 0, .ro⟩] else []) ++
    (if r = 0x4 then [⟨R.TRING_BASE i, 0, 32, 0, .rw⟩] else []) ++
    (if r = 0x8 then [⟨R.TRING_BASE i, 0, 32, 32, .rw⟩] else []) ++
    (if r = 0xc then [⟨R.PRODUCER i, 0, 15, 0, .ro⟩] else []) ++
    (if r = 0x10 then [⟨R.CONSUMER i, 0, 15, 0, .rw⟩] else []) ++
    (if r = 0x14 then [⟨R.TRING_LOST i, 0, 32, 0, .rc⟩] else []) ++
    (if r = 0x18 then [⟨R.TRING_RECORDS i, 0, 32, 0, .rc⟩] else [])

/-- Registers of page 0xc after its header, part 0. -/
def regs0Cf0 (off : Nat) : List RegField :=
    (if off = 0x100 then [⟨R.SAMPLE_CTRL_ENABLE, 0, 1, 0, .rw⟩, ⟨R.SAMPLE_CTRL_PERIOD_LOG, 8, 5, 0, .rw⟩, ⟨R.SAMPLE_CTRL_TRING, 16, 2, 0, .rw⟩] else []) ++
    (if off = 0x104 then [⟨R.SAMPLE_SWEEPS, 0, 32, 0, .rc⟩] else []) ++
    (if off = 0x108 then [⟨R.WINDOWS_SKIPPED, 0, 32, 0, .rc⟩] else []) ++
    (if off = 0x110 then [⟨R.THRESH_ABOVE, 0, 32, 0, .ro⟩] else []) ++
    (if off = 0x114 then [⟨R.THRESH_ABOVE, 0, 32, 32, .ro⟩] else [])

/-- Registers of page 0xc after the header. -/
def regs0C (off : Nat) : List RegField :=
  (if 0x400 ≤ off ∧ off < 0x480 then regs0Cs0 ((off - 0x400) / 0x20) ((off - 0x400) % 0x20) else []) ++
  regs0Cf0 off

/-- Registers of page 0xd after its header, part 0. -/
def regs0Df0 (off : Nat) : List RegField :=
    (if off = 0x100 then [⟨R.BOOT_STATUS_STAGE, 0, 2, 0, .ro⟩, ⟨R.BOOT_STATUS_FAIL_PRIMARY, 4, 4, 0, .ro⟩, ⟨R.BOOT_STATUS_FAIL_SECONDARY, 8, 4, 0, .ro⟩, ⟨R.BOOT_STATUS_ALT_IMAGE, 16, 1, 0, .ro⟩, ⟨R.BOOT_STATUS_TRANSITION_RESUMED, 17, 1, 0, .ro⟩, ⟨R.BOOT_STATUS_EVIDENCE_COMMITTED, 18, 1, 0, .ro⟩, ⟨R.BOOT_STATUS_ROLLBACK_ADVANCED, 19, 1, 0, .ro⟩] else []) ++
    (if off = 0x104 then [⟨R.BOOT_COUNT, 0, 32, 0, .ro⟩] else []) ++
    (if off = 0x108 then [⟨R.BOOT_COUNT, 0, 32, 32, .ro⟩] else []) ++
    (if off = 0x10c then [⟨R.EXTEND_COUNT, 0, 7, 0, .ro⟩] else []) ++
    (if 0x110 ≤ off ∧ off < 0x140 ∧ (off - 0x110) % 4 = 0 then [⟨R.ASCENT_LOG ((off - 0x110) / 4), 0, 32, 0, .ro⟩] else []) ++
    (if off = 0x140 then [⟨R.ROLLBACK_COUNT, 0, 8, 0, .ro⟩] else []) ++
    (if off = 0x144 then [⟨R.IMAGE_INFO_SVN, 0, 8, 0, .ro⟩, ⟨R.IMAGE_INFO_KEY_SLOT, 8, 2, 0, .ro⟩] else []) ++
    (if off = 0x148 then [⟨R.RECORDS_HELD, 0, 7, 0, .ro⟩] else []) ++
    (if off = 0x14c then [⟨R.RECORD_FIRST, 0, 32, 0, .ro⟩] else []) ++
    (if off = 0x150 then [⟨R.RECORD_FIRST, 0, 32, 32, .ro⟩] else []) ++
    (if off = 0x154 then [⟨R.BOOT_ATTEMPTS, 0, 16, 0, .ro⟩] else []) ++
    (if 0x400 ≤ off ∧ off < 0x500 ∧ (off - 0x400) % 4 = 0 then [⟨R.ASCENT_TYPE ((off - 0x400) / 4), 0, 8, 0, .ro⟩] else []) ++
    (if 0x2000 ≤ off ∧ off < 0x2400 then [⟨R.RECORD_BUF ((off - 0x2000) / 256) ((off - 0x2000) % 256 / 4), 0, 32, 0, .ro⟩] else [])

/-- Registers of page 0xd after the header. -/
def regs0D (off : Nat) : List RegField :=
  regs0Df0 off

/-- Registers of one of the 8 slots of page 0x10 at offset `r` within the slot. -/
def regs10s0 (i r : Nat) : List RegField :=
    (if r = 0x0 then [⟨R.LANE_CTRL_TEST_ENABLE i, 0, 1, 0, .rw⟩, ⟨R.LANE_CTRL_RATE i, 1, 2, 0, .rw⟩, ⟨R.LANE_CTRL_TRAIN_EN i, 3, 1, 0, .rw⟩, ⟨R.LANE_CTRL_TX_INV i, 4, 1, 0, .rw⟩, ⟨R.LANE_CTRL_RX_INV i, 5, 1, 0, .rw⟩, ⟨R.LANE_CTRL_TX_IDLE i, 6, 1, 0, .rw⟩] else []) ++
    (if r = 0x4 then [⟨R.LANE_STATUS_STAGE i, 0, 3, 0, .ro⟩, ⟨R.LANE_STATUS_PLL i, 3, 1, 0, .ro⟩, ⟨R.LANE_STATUS_NO_PLL i, 4, 1, 0, .ro⟩, ⟨R.LANE_STATUS_SIGNAL i, 5, 1, 0, .ro⟩, ⟨R.LANE_STATUS_ADAPT_FROZEN i, 6, 1, 0, .ro⟩, ⟨R.LANE_STATUS_TRAINED i, 7, 1, 0, .ro⟩, ⟨R.LANE_STATUS_FIR_REFUSED i, 8, 1, 0, .ro⟩] else []) ++
    (if r = 0x8 then [⟨R.LANE_CMD_ADAPT_BURST i, 0, 1, 0, .wo⟩, ⟨R.LANE_CMD_RESTART i, 1, 1, 0, .wo⟩, ⟨R.LANE_CMD_SCAN_START i, 2, 1, 0, .wo⟩, ⟨R.LANE_CMD_SCAN_ABORT i, 3, 1, 0, .wo⟩, ⟨R.LANE_CMD_PROFILE i, 4, 4, 0, .wo⟩] else []) ++
    (if r = 0xc then [⟨R.TX_FIR_C_M3 i, 0, 6, 0, .rw⟩, ⟨R.TX_FIR_C_M2 i, 6, 6, 0, .rw⟩, ⟨R.TX_FIR_C_M1 i, 12, 6, 0, .rw⟩, ⟨R.TX_FIR_C_0 i, 18, 6, 0, .rw⟩, ⟨R.TX_FIR_C_P1 i, 24, 6, 0, .rw⟩] else []) ++
    (if r = 0x10 then [⟨R.RX_EQ_CTLE i, 0, 5, 0, .ro⟩, ⟨R.RX_EQ_GAIN i, 8, 6, 0, .ro⟩] else []) ++
    (if 0x14 ≤ r ∧ r < 0x20 ∧ (r - 0x14) % 4 = 0 then [⟨R.DFE_TAPS i ((r - 0x14) / 4), 0, 32, 0, .ro⟩] else []) ++
    (if r = 0x20 then [⟨R.RX_EQ_CTRL_ADAPT_HOLD i, 0, 1, 0, .rw⟩, ⟨R.RX_EQ_CTRL_CTLE_MANUAL i, 1, 1, 0, .rw⟩, ⟨R.RX_EQ_CTRL_CTLE_VALUE i, 8, 5, 0, .rw⟩] else []) ++
    (if r = 0x24 then [⟨R.RICH_CFG_TRANS_MIN i, 0, 8, 0, .rw⟩, ⟨R.RICH_CFG_LEVEL_MIN i, 8, 7, 0, .rw⟩, ⟨R.RICH_CFG_RUN_MAX i, 16, 6, 0, .rw⟩, ⟨R.RICH_CFG_RESUME_N i, 24, 4, 0, .rw⟩] else []) ++
    (if r = 0x28 then [⟨R.RICH_STATUS_LAST_RICH i, 0, 1, 0, .ro⟩, ⟨R.RICH_STATUS_LOW_RUN i, 8, 8, 0, .ro⟩] else []) ++
    (if r = 0x2c then [⟨R.FREEZE_COUNT i, 0, 32, 0, .rc⟩] else []) ++
    (if r = 0x30 then [⟨R.PRBS_CTRL_GEN_PATTERN i, 0, 4, 0, .rw⟩, ⟨R.PRBS_CTRL_GEN_EN i, 4, 1, 0, .rw⟩, ⟨R.PRBS_CTRL_GEN_INV i, 5, 1, 0, .rw⟩, ⟨R.PRBS_CTRL_CHK_PATTERN i, 8, 4, 0, .rw⟩, ⟨R.PRBS_CTRL_CHK_EN i, 12, 1, 0, .rw⟩, ⟨R.PRBS_CTRL_CHK_INV i, 13, 1, 0, .rw⟩, ⟨R.PRBS_CTRL_SQ_HALF i, 16, 6, 0, .rw⟩, ⟨R.PRBS_CTRL_USER_LEN i, 24, 6, 0, .rw⟩] else []) ++
    (if r = 0x34 then [⟨R.INJ_CTRL_MODE i, 0, 2, 0, .rw⟩, ⟨R.INJ_CTRL_TARGET i, 2, 1, 0, .rw⟩, ⟨R.INJ_CTRL_GO i, 3, 1, 0, .w1s⟩, ⟨R.INJ_CTRL_BURST_LEN i, 8, 7, 0, .rw⟩] else []) ++
    (if r = 0x38 then [⟨R.INJ_PERIOD i, 0, 32, 0, .rw⟩] else []) ++
    (if r = 0x3c then [⟨R.PRBS_STATUS_CHK_LOCKED i, 0, 1, 0, .ro⟩, ⟨R.PRBS_STATUS_GEN_RUNNING i, 1, 1, 0, .ro⟩, ⟨R.PRBS_STATUS_GEN_REFUSED i, 2, 1, 0, .ro⟩] else []) ++
    (if r = 0x40 then [⟨R.CHK_BITS i, 0, 32, 0, .ro⟩] else []) ++
    (if r = 0x44 then [⟨R.CHK_BITS i, 0, 32, 32, .ro⟩] else []) ++
    (if r = 0x48 then [⟨R.CHK_ERRORS i, 0, 32, 0, .ro⟩] else []) ++
    (if r = 0x4c then [⟨R.CHK_ERRORS i, 0, 32, 32, .ro⟩] else []) ++
    (if r = 0x50 then [⟨R.CHK_LOCK_LOSS i, 0, 32, 0, .ro⟩] else []) ++
    (if r = 0x54 then [⟨R.BRINGUP_FAILS i, 0, 32, 0, .rc⟩] else []) ++
    (if r = 0x58 then [⟨R.LOCK_LOSS_COUNT i, 0, 32, 0, .rc⟩] else []) ++
    (if 0x60 ≤ r ∧ r < 0x80 ∧ (r - 0x60) % 4 = 0 then [⟨R.USER_PATTERN i ((r - 0x60) / 4), 0, 32, 0, .rw⟩] else []) ++
    (if r = 0x80 then [⟨R.SCAN_STATUS_STATE i, 0, 2, 0, .ro⟩, ⟨R.SCAN_STATUS_PROFILE i, 4, 4, 0, .ro⟩, ⟨R.SCAN_STATUS_REFUSED i, 8, 1, 0, .ro⟩, ⟨R.SCAN_STATUS_WAIT_GRANT i, 9, 1, 0, .ro⟩, ⟨R.SCAN_STATUS_POINTS_DONE i, 16, 14, 0, .ro⟩] else []) ++
    (if r = 0x84 then [⟨R.SCAN_START_TIME_NS i, 0, 30, 0, .ro⟩] else []) ++
    (if r = 0x88 then [⟨R.SCAN_START_TIME_SEC i, 0, 32, 0, .ro⟩] else [])

/-- Registers of one of the 16 slots of page 0x10 at offset `r` within the slot. -/
def regs10s1 (i r : Nat) : List RegField :=
    (if r = 0x0 then [⟨R.SCANP_PH_START i, 0, 6, 0, .rw⟩, ⟨R.SCANP_PH_STOP i, 8, 6, 0, .rw⟩, ⟨R.SCANP_PH_STEP_LOG i, 16, 3, 0, .rw⟩] else []) ++
    (if r = 0x4 then [⟨R.SCANP_V_START i, 0, 7, 0, .rw⟩, ⟨R.SCANP_V_STOP i, 8, 7, 0, .rw⟩, ⟨R.SCANP_V_STEP_LOG i, 16, 3, 0, .rw⟩] else []) ++
    (if r = 0x8 then [⟨R.SCANP_DWELL_EXP i, 0, 6, 0, .rw⟩, ⟨R.SCANP_ERR_LIMIT i, 8, 10, 0, .rw⟩, ⟨R.SCANP_EYE_MASK i, 24, 3, 0, .rw⟩, ⟨R.SCANP_HOLD_ADAPT i, 28, 1, 0, .rw⟩] else [])

/-- Registers of page 0x10 after its header, part 0. -/
def regs10f0 (pg off : Nat) : List RegField :=
    (if off = 0x900 then [⟨R.OCT_REF_SEL (pg - 0x10), 0, 2, 0, .rw⟩] else []) ++
    (if off = 0x904 then [⟨R.OCT_PLL_A_VCO (pg - 0x10), 0, 2, 0, .rw⟩] else []) ++
    (if off = 0x908 then [⟨R.OCT_PLL_B_VCO (pg - 0x10), 0, 2, 0, .rw⟩] else []) ++
    (if off = 0x90c then [⟨R.OCT_STATUS_PLL_A_LOCKED (pg - 0x10), 0, 1, 0, .ro⟩, ⟨R.OCT_STATUS_PLL_B_LOCKED (pg - 0x10), 1, 1, 0, .ro⟩, ⟨R.OCT_STATUS_REF_PRESENT (pg - 0x10), 2, 1, 0, .ro⟩, ⟨R.OCT_STATUS_CFG_REFUSED (pg - 0x10), 3, 1, 0, .ro⟩] else [])

/-- Registers of page 0x10 to 0x2f after the header. -/
def regs10 (pg off : Nat) : List RegField :=
  (if 0x100 ≤ off ∧ off < 0x900 then regs10s0 ((pg - 0x10) * 8 + (off - 0x100) / 0x100) ((off - 0x100) % 0x100) else []) ++
  (if 0xa00 ≤ off ∧ off < 0xb00 then regs10s1 ((pg - 0x10) * 16 + (off - 0xa00) / 0x10) ((off - 0xa00) % 0x10) else []) ++
  regs10f0 pg off

/-- Registers of one of the 8 slots of page 0x30 at offset `r` within the slot. -/
def regs30s0 (i r : Nat) : List RegField :=
    (if r = 0x0 then [⟨R.TS_CTRL_ENABLE i, 0, 1, 0, .rw⟩, ⟨R.TS_CTRL_STAMP_ALL i, 1, 1, 0, .rw⟩] else []) ++
    (if r = 0x4 then [⟨R.TS_RX_DELAY i, 0, 32, 0, .rw⟩] else []) ++
    (if r = 0x8 then [⟨R.TS_TX_DELAY i, 0, 32, 0, .rw⟩] else []) ++
    (if r = 0xc then [⟨R.TS_CAL_STATUS_CALIBRATED i, 0, 1, 0, .ro⟩, ⟨R.TS_CAL_STATUS_LANE_MASK i, 8, 8, 0, .ro⟩] else [])

/-- Registers of one of the 8 slots of page 0x30 at offset `r` within the slot. -/
def regs30s1 (i r : Nat) : List RegField :=
    (if r = 0x0 then [⟨R.PORT_CTRL_ENABLE i, 0, 1, 0, .rw⟩, ⟨R.PORT_CTRL_AN_EN i, 1, 1, 0, .rw⟩, ⟨R.PORT_CTRL_FEC_MODE i, 2, 1, 0, .rw⟩, ⟨R.PORT_CTRL_RATE i, 4, 3, 0, .rw⟩, ⟨R.PORT_CTRL_LOOPBACK i, 8, 1, 0, .rw⟩, ⟨R.PORT_CTRL_TX_FORCE i, 12, 2, 0, .rw⟩] else []) ++
    (if r = 0x4 then [⟨R.PORT_CTRL_LANE_HOLDOFF i, 0, 10, 0, .rw⟩] else []) ++
    (if r = 0x8 then [⟨R.PORT_CFG_MAX_LEN i, 0, 14, 0, .rw⟩] else []) ++
    (if r = 0xc then [⟨R.PORT_STATUS_STATE i, 0, 3, 0, .ro⟩, ⟨R.PORT_STATUS_POWER_PENDING i, 3, 1, 0, .ro⟩, ⟨R.PORT_STATUS_ENABLE_CODE i, 8, 8, 0, .ro⟩, ⟨R.PORT_STATUS_LOCAL_FAULT i, 16, 1, 0, .ro⟩, ⟨R.PORT_STATUS_RF_RECEIVED i, 17, 1, 0, .ro⟩, ⟨R.PORT_STATUS_ALIGNED i, 18, 1, 0, .ro⟩, ⟨R.PORT_STATUS_HI_BER i, 19, 1, 0, .ro⟩, ⟨R.PORT_STATUS_AN_DONE i, 20, 1, 0, .ro⟩, ⟨R.PORT_STATUS_AN_NO_HCD i, 21, 1, 0, .ro⟩, ⟨R.PORT_STATUS_FEC_ACTIVE i, 22, 1, 0, .ro⟩, ⟨R.PORT_STATUS_LANES_DOWN i, 24, 8, 0, .ro⟩] else []) ++
    (if r = 0x10 then [⟨R.FEC_CORRECTED_CW i, 0, 32, 0, .rc⟩] else []) ++
    (if r = 0x14 then [⟨R.FEC_CORRECTED_CW i, 0, 32, 32, .rc⟩] else []) ++
    (if r = 0x18 then [⟨R.FEC_UNCORRECTED_CW i, 0, 32, 0, .rc⟩] else []) ++
    (if r = 0x1c then [⟨R.FEC_UNCORRECTED_CW i, 0, 32, 32, .rc⟩] else []) ++
    (if r = 0x20 then [⟨R.FEC_CORRECTED_SYMBOLS i, 0, 32, 0, .rc⟩] else []) ++
    (if r = 0x24 then [⟨R.FEC_CORRECTED_SYMBOLS i, 0, 32, 32, .rc⟩] else []) ++
    (if r = 0x28 then [⟨R.PCS_ERR_BLOCKS i, 0, 32, 0, .rc⟩] else []) ++
    (if r = 0x2c then [⟨R.HI_BER_COUNT i, 0, 32, 0, .rc⟩] else []) ++
    (if r = 0x30 then [⟨R.AM_LOCK_LOSS i, 0, 32, 0, .rc⟩] else []) ++
    (if r = 0x34 then [⟨R.DESKEW_FAILS i, 0, 32, 0, .rc⟩] else []) ++
    (if r = 0x38 then [⟨R.HOLDOFF_RECOVERED i, 0, 32, 0, .rc⟩] else []) ++
    (if r = 0x3c then [⟨R.HOLDOFF_EXPIRED i, 0, 32, 0, .rc⟩] else []) ++
    (if r = 0x40 then [⟨R.LINK_DOWN_COUNT i, 0, 32, 0, .rc⟩] else []) ++
    (if r = 0x44 then [⟨R.RX_FCS_ERR i, 0, 32, 0, .rc⟩] else []) ++
    (if r = 0x48 then [⟨R.RX_RUNT i, 0, 32, 0, .rc⟩] else []) ++
    (if r = 0x4c then [⟨R.RX_OVERSIZE i, 0, 32, 0, .rc⟩] else []) ++
    (if r = 0x50 then [⟨R.RX_ENDED_ERROR i, 0, 32, 0, .rc⟩] else []) ++
    (if r = 0x54 then [⟨R.RX_PAUSE i, 0, 32, 0, .rc⟩] else []) ++
    (if r = 0x58 then [⟨R.RX_MAC_CTRL_OTHER i, 0, 32, 0, .rc⟩] else []) ++
    (if r = 0x5c then [⟨R.TX_DISCARD_DOWN i, 0, 32, 0, .rc⟩] else []) ++
    (if r = 0x60 then [⟨R.TX_DISCARD_FAULT i, 0, 32, 0, .rc⟩] else []) ++
    (if r = 0x64 then [⟨R.TX_ABORTED i, 0, 32, 0, .rc⟩] else []) ++
    (if r = 0x68 then [⟨R.AN_RESTARTS i, 0, 32, 0, .rc⟩] else []) ++
    (if r = 0x6c then [⟨R.TX_MAC_CTRL_DROPS i, 0, 32, 0, .rc⟩] else []) ++
    (if r = 0x80 then [⟨R.CD_CTRL_ENABLE i, 0, 1, 0, .rw⟩, ⟨R.CD_CTRL_REQUIRE_CAL i, 1, 1, 0, .rw⟩] else []) ++
    (if r = 0x84 then [⟨R.REKEY_TIME_ERROR i, 0, 16, 0, .rw⟩] else []) ++
    (if r = 0x88 then [⟨R.REKEY_OVERLAP i, 0, 18, 0, .ro⟩] else []) ++
    (if r = 0x8c then [⟨R.PLAN_LEAD i, 0, 8, 0, .ro⟩] else []) ++
    (if r = 0x90 then [⟨R.CD_SENT i, 0, 32, 0, .rc⟩] else []) ++
    (if r = 0x94 then [⟨R.CD_MISS_PORT i, 0, 32, 0, .rc⟩] else []) ++
    (if r = 0x98 then [⟨R.CD_MISS_TIME i, 0, 32, 0, .rc⟩] else []) ++
    (if r = 0x9c then [⟨R.CD_MISS_CAL i, 0, 32, 0, .rc⟩] else []) ++
    (if r = 0xa0 then [⟨R.CD_MISS_FORMAT i, 0, 32, 0, .rc⟩] else []) ++
    (if r = 0xa4 then [⟨R.SWITCH_TAKEN i, 0, 32, 0, .rc⟩] else []) ++
    (if r = 0xa8 then [⟨R.SWITCH_CANCELLED i, 0, 32, 0, .rc⟩] else [])

/-- Registers of page 0x30 after its header, part 0. -/
def regs30f0 (pg off : Nat) : List RegField :=
    (if off = 0x900 then [⟨R.OCT_PORT_MODE_MODE (pg - 0x30), 0, 4, 0, .rw⟩] else []) ++
    (if off = 0x904 then [⟨R.OCT_PORT_STATUS_CFG_REFUSED (pg - 0x30), 0, 1, 0, .ro⟩, ⟨R.OCT_PORT_STATUS_PORTS_UP (pg - 0x30), 8, 8, 0, .ro⟩] else [])

/-- Registers of page 0x30 to 0x4f after the header. -/
def regs30 (pg off : Nat) : List RegField :=
  (if 0xf00 ≤ off ∧ off < 0xf80 then regs30s0 ((pg - 0x30) * 8 + (off - 0xf00) / 0x10) ((off - 0xf00) % 0x10) else []) ++
  (if 0x100 ≤ off ∧ off < 0x900 then regs30s1 ((pg - 0x30) * 8 + (off - 0x100) / 0x100) ((off - 0x100) % 0x100) else []) ++
  regs30f0 pg off

/-- Registers of one of the 8 slots of page 0x50 at offset `r` within the slot. -/
def regs50s0 (i r : Nat) : List RegField :=
    (if r = 0x0 then [⟨R.STOMP_ICV i, 0, 32, 0, .rc⟩] else []) ++
    (if r = 0x4 then [⟨R.STOMP_REPLAY i, 0, 32, 0, .rc⟩] else []) ++
    (if r = 0x8 then [⟨R.STOMP_CHECK i, 0, 32, 0, .rc⟩] else []) ++
    (if r = 0xc then [⟨R.STOMP_FCS i, 0, 32, 0, .rc⟩] else []) ++
    (if r = 0x10 then [⟨R.STOMP_RUNT i, 0, 32, 0, .rc⟩] else []) ++
    (if r = 0x14 then [⟨R.STOMP_OVERSIZE i, 0, 32, 0, .rc⟩] else []) ++
    (if r = 0x18 then [⟨R.STOMP_RX_ERROR i, 0, 32, 0, .rc⟩] else []) ++
    (if r = 0x1c then [⟨R.STOMP_POLICY i, 0, 32, 0, .rc⟩] else []) ++
    (if r = 0x20 then [⟨R.RX_STOMP_SEEN i, 0, 32, 0, .rc⟩] else [])

/-- Registers of page 0x50 after its header, part 0. -/
def regs50f0 (pg off : Nat) : List RegField :=
    (if off = 0x100 then [⟨R.CC_STATUS_STATE (pg - 0x50), 0, 2, 0, .ro⟩, ⟨R.CC_STATUS_RX_AWAKE (pg - 0x50), 4, 3, 0, .ro⟩, ⟨R.CC_STATUS_TX_AWAKE (pg - 0x50), 8, 3, 0, .ro⟩, ⟨R.CC_STATUS_NEEDED (pg - 0x50), 12, 3, 0, .ro⟩, ⟨R.CC_STATUS_SHARE (pg - 0x50), 16, 7, 0, .ro⟩] else []) ++
    (if off = 0x104 then [⟨R.CC_FENCE_RX (pg - 0x50), 0, 5, 0, .rw⟩, ⟨R.CC_FENCE_TX (pg - 0x50), 8, 5, 0, .rw⟩] else []) ++
    (if off = 0x108 then [⟨R.CC_FENCE_STATUS_RX_FENCED (pg - 0x50), 0, 5, 0, .ro⟩, ⟨R.CC_FENCE_STATUS_TX_FENCED (pg - 0x50), 8, 5, 0, .ro⟩, ⟨R.CC_FENCE_STATUS_FENCE_PENDING (pg - 0x50), 16, 1, 0, .ro⟩, ⟨R.CC_FENCE_STATUS_FENCE_REFUSED (pg - 0x50), 17, 1, 0, .ro⟩] else []) ++
    (if off = 0x110 then [⟨R.CHECK_LAST_DIR (pg - 0x50), 0, 1, 0, .ro⟩, ⟨R.CHECK_LAST_SET (pg - 0x50), 1, 3, 0, .ro⟩, ⟨R.CHECK_LAST_KIND (pg - 0x50), 4, 2, 0, .ro⟩, ⟨R.CHECK_LAST_VALID (pg - 0x50), 8, 1, 0, .w1c⟩] else []) ++
    (if off = 0x114 then [⟨R.CHECK_LAST_SA_INDEX (pg - 0x50), 0, 17, 0, .ro⟩] else []) ++
    (if off = 0x118 then [⟨R.CHECK_LAST_TIME_NS (pg - 0x50), 0, 30, 0, .ro⟩] else []) ++
    (if off = 0x11c then [⟨R.CHECK_LAST_TIME_SEC (pg - 0x50), 0, 32, 0, .ro⟩] else []) ++
    (if off = 0x120 then [⟨R.RX_FRAMES (pg - 0x50), 0, 32, 0, .rc⟩] else []) ++
    (if off = 0x124 then [⟨R.RX_FRAMES (pg - 0x50), 0, 32, 32, .rc⟩] else []) ++
    (if off = 0x128 then [⟨R.RX_BLOCKS (pg - 0x50), 0, 32, 0, .rc⟩] else []) ++
    (if off = 0x12c then [⟨R.RX_BLOCKS (pg - 0x50), 0, 32, 32, .rc⟩] else []) ++
    (if off = 0x130 then [⟨R.TX_FRAMES (pg - 0x50), 0, 32, 0, .rc⟩] else []) ++
    (if off = 0x134 then [⟨R.TX_FRAMES (pg - 0x50), 0, 32, 32, .rc⟩] else []) ++
    (if off = 0x138 then [⟨R.TX_BLOCKS (pg - 0x50), 0, 32, 0, .rc⟩] else []) ++
    (if off = 0x13c then [⟨R.TX_BLOCKS (pg - 0x50), 0, 32, 32, .rc⟩] else []) ++
    (if off = 0x140 then [⟨R.RX_ZERO_OVERWRITES (pg - 0x50), 0, 32, 0, .rc⟩] else []) ++
    (if off = 0x144 then [⟨R.RX_CHECK_SUPPRESSED (pg - 0x50), 0, 32, 0, .rc⟩] else []) ++
    (if off = 0x148 then [⟨R.TX_CHECK_SUPPRESSED (pg - 0x50), 0, 32, 0, .rc⟩] else []) ++
    (if 0x150 ≤ off ∧ off < 0x168 ∧ (off - 0x150) % 4 = 0 then [⟨R.RX_SET_MISMATCH (pg - 0x50) ((off - 0x150) / 4), 0, 32, 0, .rc⟩] else []) ++
    (if 0x170 ≤ off ∧ off < 0x188 ∧ (off - 0x170) % 4 = 0 then [⟨R.TX_SET_MISMATCH (pg - 0x50) ((off - 0x170) / 4), 0, 32, 0, .rc⟩] else [])

/-- Registers of page 0x50 to 0x6f after the header. -/
def regs50 (pg off : Nat) : List RegField :=
  (if 0x400 ≤ off ∧ off < 0x600 then regs50s0 ((pg - 0x50) * 8 + (off - 0x400) / 0x40) ((off - 0x400) % 0x40) else []) ++
  regs50f0 pg off

/-- Registers of page 0x70 after its header, part 0. -/
def regs70f0 (off : Nat) : List RegField :=
    (if off = 0x100 then [⟨R.SA_CMD_INDEX, 0, 17, 0, .wo⟩, ⟨R.SA_CMD_DIR, 20, 1, 0, .wo⟩, ⟨R.SA_CMD_OP, 24, 2, 0, .wo⟩] else []) ++
    (if off = 0x104 then [⟨R.SA_CMD_STATUS_CODE, 0, 8, 0, .ro⟩, ⟨R.SA_CMD_STATUS_BUSY, 8, 1, 0, .ro⟩] else []) ++
    (if off = 0x108 then [⟨R.SAK_POLICY_DIRECT_SAK_WRITE, 0, 1, 0, (.rwa 2)⟩] else []) ++
    (if off = 0x10c then [⟨R.SA_EVT_POP_INDEX, 0, 17, 0, .rc⟩, ⟨R.SA_EVT_POP_DIR, 17, 1, 0, .rc⟩, ⟨R.SA_EVT_POP_KIND, 20, 3, 0, .rc⟩, ⟨R.SA_EVT_POP_VALID, 31, 1, 0, .rc⟩] else []) ++
    (if off = 0x110 then [⟨R.SA_EVT_STATUS_LEVEL, 0, 9, 0, .ro⟩, ⟨R.SA_EVT_STATUS_OVERFLOW, 16, 1, 0, .w1c⟩] else []) ++
    (if off = 0x114 then [⟨R.SA_EVT_LOST, 0, 32, 0, .rc⟩] else [])

/-- Registers of page 0x70 after the header. -/
def regs70 (off : Nat) : List RegField :=
  regs70f0 off

/-- Registers of page 0x71 after its header, part 0. -/
def regs71f0 (off : Nat) : List RegField :=
    (if off = 0x100 then [⟨R.CT_CLASS_EN, 0, 16, 0, .rw⟩] else []) ++
    (if off = 0x104 then [⟨R.CLS_NO_MATCH, 0, 32, 0, .rc⟩] else []) ++
    (if 0x400 ≤ off ∧ off < 0x800 ∧ (off - 0x400) % 4 = 0 then [⟨R.PCP_QUEUE_MAP ((off - 0x400) / 4), 0, 32, 0, .rw⟩] else [])

/-- Registers of page 0x71 after the header. -/
def regs71 (off : Nat) : List RegField :=
  regs71f0 off

/-- Registers of page 0x72 after its header, part 0. -/
def regs72f0 (off : Nat) : List RegField :=
    (if off = 0x100 then [⟨R.FDB_KEY_MAC_LO, 0, 32, 0, .rw⟩] else []) ++
    (if off = 0x104 then [⟨R.FDB_KEY_MAC_HI, 0, 16, 0, .rw⟩, ⟨R.FDB_KEY_FID, 16, 12, 0, .rw⟩] else []) ++
    (if off = 0x108 then [⟨R.FDB_OP_DATA_DEST, 0, 14, 0, .rw⟩, ⟨R.FDB_OP_DATA_DEST_TYPE, 16, 2, 0, .rw⟩, ⟨R.FDB_OP_DATA_STATIC, 18, 1, 0, .rw⟩] else []) ++
    (if off = 0x10c then [⟨R.FDB_OP_OP, 0, 2, 0, .wo⟩] else []) ++
    (if off = 0x110 then [⟨R.FDB_OP_STATUS_CODE, 0, 8, 0, .ro⟩, ⟨R.FDB_OP_STATUS_HIT, 8, 1, 0, .ro⟩, ⟨R.FDB_OP_STATUS_FULL, 9, 1, 0, .ro⟩, ⟨R.FDB_OP_STATUS_BUSY, 10, 1, 0, .ro⟩, ⟨R.FDB_OP_STATUS_INDEX, 12, 18, 0, .ro⟩] else []) ++
    (if off = 0x114 then [⟨R.AGE_PERIOD, 0, 16, 0, .rw⟩] else []) ++
    (if off = 0x118 then [⟨R.FDB_COUNT, 0, 19, 0, .ro⟩] else []) ++
    (if off = 0x11c then [⟨R.LEARNED, 0, 32, 0, .rc⟩] else []) ++
    (if off = 0x120 then [⟨R.LEARN_FAILS, 0, 32, 0, .rc⟩] else []) ++
    (if off = 0x124 then [⟨R.MOVES, 0, 32, 0, .rc⟩] else []) ++
    (if off = 0x128 then [⟨R.AGED, 0, 32, 0, .rc⟩] else [])

/-- Registers of page 0x72 after the header. -/
def regs72 (off : Nat) : List RegField :=
  regs72f0 off

/-- Registers of page 0x74 after its header, part 0. -/
def regs74f0 (off : Nat) : List RegField :=
    (if 0x100 ≤ off ∧ off < 0x120 ∧ (off - 0x100) % 4 = 0 then [⟨R.POOL_SIZE ((off - 0x100) / 4), 0, 19, 0, .rw⟩] else []) ++
    (if 0x120 ≤ off ∧ off < 0x140 ∧ (off - 0x120) % 4 = 0 then [⟨R.POOL_CHARGE ((off - 0x120) / 4), 0, 20, 0, .ro⟩] else []) ++
    (if off = 0x140 then [⟨R.RESERVE_TOTAL, 0, 19, 0, .ro⟩] else []) ++
    (if off = 0x144 then [⟨R.CELLS_FREE, 0, 19, 0, .ro⟩] else []) ++
    (if off = 0x148 then [⟨R.ARRIVAL_MARGIN, 0, 14, 0, .ro⟩] else []) ++
    (if off = 0x14c then [⟨R.BUF_STATUS_CFG_REFUSED, 0, 1, 0, .ro⟩, ⟨R.BUF_STATUS_ZERO_FILL, 1, 1, 0, .ro⟩] else [])

/-- Registers of page 0x74 after the header. -/
def regs74 (off : Nat) : List RegField :=
  regs74f0 off

/-- Registers of page 0x80 after its header, part 0. -/
def regs80f0 (pg off : Nat) : List RegField :=
    (if off = 0x100 then [⟨R.GATE_CMD_PORT (pg - 0x80), 0, 5, 0, .wo⟩, ⟨R.GATE_CMD_OP (pg - 0x80), 8, 2, 0, .wo⟩] else []) ++
    (if off = 0x104 then [⟨R.GATE_CMD_STATUS_CODE (pg - 0x80), 0, 8, 0, .ro⟩, ⟨R.GATE_CMD_STATUS_BUSY (pg - 0x80), 8, 1, 0, .ro⟩, ⟨R.GATE_CMD_STATUS_PORT (pg - 0x80), 16, 5, 0, .ro⟩] else [])

/-- Registers of page 0x80 to 0x87 after the header. -/
def regs80 (pg off : Nat) : List RegField :=
  regs80f0 pg off

/-- Fields of the word at offset `off` of page `pg`, after the page header. -/
def pageRegs (pg off : Nat) : List RegField :=
  if pg = 0x0 then regs00 off
  else if pg = 0x1 then regs01 off
  else if pg = 0x2 then regs02 off
  else if pg = 0x3 then regs03 off
  else if pg = 0x4 then regs04 off
  else if pg = 0x5 then regs05 off
  else if pg = 0x6 then regs06 off
  else if pg = 0x7 then regs07 off
  else if pg = 0x8 then regs08 off
  else if pg = 0x9 then regs09 off
  else if pg = 0xa then regs0A off
  else if pg = 0xb then regs0B off
  else if pg = 0xc then regs0C off
  else if pg = 0xd then regs0D off
  else if 0x10 ≤ pg ∧ pg ≤ 0x2f then regs10 pg off
  else if 0x30 ≤ pg ∧ pg ≤ 0x4f then regs30 pg off
  else if 0x50 ≤ pg ∧ pg ≤ 0x6f then regs50 pg off
  else if pg = 0x70 then regs70 off
  else if pg = 0x71 then regs71 off
  else if pg = 0x72 then regs72 off
  else if pg = 0x74 then regs74 off
  else if 0x80 ≤ pg ∧ pg ≤ 0x87 then regs80 pg off
  else []

/-- Fields of entry `i` of table 0 of page 0x3. -/
def tbl03x0 (i : Nat) : List TblField :=
  [⟨R.WP_TIME_SEC_LO i, 0, 32, .rw⟩,
   ⟨R.WP_TIME_SEC_HI i, 32, 16, .rw⟩,
   ⟨R.WP_TIME_FRAC i, 48, 16, .rw⟩,
   ⟨R.WP_TIME_NS i, 64, 30, .rw⟩,
   ⟨R.WP_ACTION i, 96, 8, .rw⟩,
   ⟨R.WP_LATE_POLICY i, 104, 2, .rw⟩,
   ⟨R.WP_NOTIFY i, 106, 1, .rw⟩,
   ⟨R.WP_ENABLE i, 107, 1, .rw⟩,
   ⟨R.WP_MEMBER_MASK i, 112, 8, .rw⟩,
   ⟨R.WP_TARGET i, 128, 24, .rw⟩,
   ⟨R.WP_ARG0 i, 160, 32, .rw⟩,
   ⟨R.WP_ARG1 i, 192, 32, .rw⟩,
   ⟨R.WP_PERIOD_NS i, 224, 40, .rw⟩,
   ⟨R.WP_PERIOD_FRAC i, 264, 16, .rw⟩,
   ⟨R.WP_STATE i, 288, 2, .ro⟩,
   ⟨R.WP_LATE i, 290, 1, .ro⟩,
   ⟨R.WP_FAILED i, 291, 1, .ro⟩,
   ⟨R.WP_DELAYED i, 292, 1, .ro⟩,
   ⟨R.WP_FAIL_CODE i, 296, 8, .ro⟩,
   ⟨R.WP_EXEC_COUNT i, 304, 16, .ro⟩,
   ⟨R.WP_MISSED i, 320, 16, .ro⟩,
   ⟨R.WP_LAST_EXEC_SEC i, 336, 16, .ro⟩,
   ⟨R.WP_LAST_EXEC_NS i, 352, 30, .ro⟩]

/-- Fields of entry `i` of table 0 of page 0x4. -/
def tbl04x0 (i : Nat) : List TblField :=
  [⟨R.REQ_FLOOR i, 0, 12, .rw⟩,
   ⟨R.REQ_CEILING i, 16, 12, .rw⟩,
   ⟨R.REQ_GRANTED i, 32, 12, .ro⟩,
   ⟨R.REQ_PENDING_UNITS i, 48, 12, .ro⟩,
   ⟨R.REQ_WAITING i, 60, 1, .ro⟩,
   ⟨R.REQ_HEAD_CLASS i, 61, 3, .ro⟩]

/-- Fields of entry `i` of table 0 of page 0x5. -/
def tbl05x0 (i : Nat) : List TblField :=
  [⟨R.SLOT_TYPE i, 0, 4, .ro⟩,
   ⟨R.SLOT_LENGTH i, 4, 2, .ro⟩,
   ⟨R.SLOT_EXPIRE_AT_RESET i, 6, 1, .ro⟩,
   ⟨R.SLOT_EXPORTABLE_WRAPPED i, 7, 1, .ro⟩,
   ⟨R.SLOT_PRESENCE_REQUIRED i, 8, 1, .ro⟩,
   ⟨R.SLOT_ON_PARENT_LOSS i, 9, 2, .ro⟩,
   ⟨R.SLOT_OPS i, 16, 8, .ro⟩,
   ⟨R.SLOT_STATE i, 32, 3, .ro⟩,
   ⟨R.SLOT_PARENT_LOST i, 35, 1, .ro⟩,
   ⟨R.SLOT_CREATOR i, 36, 1, .ro⟩,
   ⟨R.SLOT_PARENT i, 40, 11, .ro⟩,
   ⟨R.SLOT_PARENT_VALID i, 51, 1, .ro⟩,
   ⟨R.SLOT_ERASE_AT_WP i, 52, 12, .ro⟩,
   ⟨R.SLOT_USE_LIMIT i, 64, 32, .ro⟩,
   ⟨R.SLOT_LABEL i, 96, 32, .ro⟩]

/-- Fields of entry `i` of table 1 of page 0x5. -/
def tbl05x1 (i : Nat) : List TblField :=
  [⟨R.ROOT_VALID i, 0, 1, .ro⟩,
   ⟨R.ROOT_SYSTEM i, 1, 1, .ro⟩,
   ⟨R.ROOT_ORIGIN i, 2, 2, .ro⟩,
   ⟨R.ROOT_GENERATION i, 32, 32, .ro⟩]

/-- Fields of entry `i` of table 0 of page 0x7. -/
def tbl07x0 (i : Nat) : List TblField :=
  [⟨R.ALOG_SOURCE i, 0, 6, .ro⟩,
   ⟨R.ALOG_KIND i, 6, 2, .ro⟩,
   ⟨R.ALOG_SEVERITY i, 8, 3, .ro⟩,
   ⟨R.ALOG_RESPONSE i, 12, 3, .ro⟩,
   ⟨R.ALOG_BATTERY i, 15, 1, .ro⟩,
   ⟨R.ALOG_VALID i, 16, 1, .ro⟩,
   ⟨R.ALOG_TIME_NS i, 64, 30, .ro⟩,
   ⟨R.ALOG_TIME_SEC i, 96, 32, .ro⟩,
   ⟨R.ALOG_BC_COUNT i, 128, 48, .ro⟩,
   ⟨R.ALOG_SEQ i, 192, 64, .ro⟩]

/-- Fields of entry `i` of table 0 of page 0xa. -/
def tbl0Ax0 (i : Nat) : List TblField :=
  [⟨R.MEMBER_VALID i, 0, 1, .ro⟩,
   ⟨R.MEMBER_STATE i, 1, 3, .ro⟩,
   ⟨R.MEMBER_RUN_STATE i, 4, 3, .ro⟩,
   ⟨R.MEMBER_HOLDOVER i, 7, 1, .ro⟩,
   ⟨R.MEMBER_TIME_LOCKED i, 8, 1, .ro⟩,
   ⟨R.MEMBER_DEVICE_ID i, 32, 64, .ro⟩,
   ⟨R.MEMBER_STICKY i, 96, 64, .ro⟩,
   ⟨R.MEMBER_EVENT_SUMMARY i, 160, 16, .ro⟩,
   ⟨R.MEMBER_OFFSET i, 176, 32, .ro⟩,
   ⟨R.MEMBER_LAST_SEEN_NS i, 208, 30, .ro⟩,
   ⟨R.MEMBER_LAST_SEEN_SEC i, 240, 32, .ro⟩]

/-- Fields of entry `i` of table 0 of page 0xb. -/
def tbl0Bx0 (i : Nat) : List TblField :=
  [⟨R.RING_ENABLE i, 0, 1, .rw⟩,
   ⟨R.RING_DIR i, 1, 1, .rw⟩,
   ⟨R.RING_OWNER i, 2, 1, .rw⟩,
   ⟨R.RING_SIZE_LOG i, 3, 5, .rw⟩,
   ⟨R.RING_TRAP_CLASS i, 8, 4, .rw⟩,
   ⟨R.RING_BUF_SIZE i, 16, 14, .rw⟩,
   ⟨R.RING_BASE_ADDR i, 32, 64, .rw⟩,
   ⟨R.RING_QUANTUM i, 96, 20, .rw⟩]

/-- Fields of entry `i` of table 1 of page 0xb. -/
def tbl0Bx1 (i : Nat) : List TblField :=
  [⟨R.RINGST_HEAD i, 0, 16, .ro⟩,
   ⟨R.RINGST_TAIL i, 32, 16, .ro⟩,
   ⟨R.RINGST_ERROR i, 48, 1, .ro⟩]

/-- Fields of entry `i` of table 2 of page 0xb. -/
def tbl0Bx2 (i : Nat) : List TblField :=
  [⟨R.RING_STATS i 0, 0, 64, .rc⟩,
   ⟨R.RING_STATS i 1, 64, 64, .rc⟩,
   ⟨R.RING_STATS i 2, 128, 64, .rc⟩,
   ⟨R.RING_STATS i 3, 192, 64, .rc⟩,
   ⟨R.RING_STATS i 4, 256, 64, .rc⟩]

/-- Fields of entry `i` of table 0 of page 0xc. -/
def tbl0Cx0 (i : Nat) : List TblField :=
  [⟨R.QTEL_TO_RING i, 0, 1, .rw⟩,
   ⟨R.QTEL_FORCE_HWM i, 1, 1, .rw⟩,
   ⟨R.QTEL_HWM_MODE i, 2, 1, .ro⟩,
   ⟨R.QTEL_DEPTH i, 32, 19, .ro⟩,
   ⟨R.QTEL_HEAD_AGE i, 64, 32, .ro⟩,
   ⟨R.QTEL_MAX_DEPTH i, 96, 19, .ro⟩,
   ⟨R.QTEL_MAX_SOJOURN i, 128, 32, .ro⟩,
   ⟨R.QTEL_SAMPLE_NS i, 160, 30, .ro⟩,
   ⟨R.QTEL_SAMPLE_SEC i, 192, 32, .ro⟩]

/-- Fields of entry `i` of table 1 of page 0xc. -/
def tbl0Cx1 (i : Nat) : List TblField :=
  [⟨R.PTEL_WINDOW_GROUP i, 0, 6, .rw⟩,
   ⟨R.PTEL_WINDOW_EN i, 6, 1, .rw⟩,
   ⟨R.PTEL_TRING i, 8, 2, .rw⟩,
   ⟨R.PTEL_TO_RING i, 10, 1, .rw⟩,
   ⟨R.PTEL_LAST_END_NS i, 32, 30, .ro⟩,
   ⟨R.PTEL_LAST_END_SEC i, 64, 32, .ro⟩,
   ⟨R.PTEL_LAST_SPAN i, 96, 16, .ro⟩,
   ⟨R.PTEL_LAST_RX_BYTES i, 128, 64, .ro⟩,
   ⟨R.PTEL_LAST_RX_FRAMES i, 192, 32, .ro⟩,
   ⟨R.PTEL_LAST_TX_FRAMES i, 224, 32, .ro⟩,
   ⟨R.PTEL_LAST_TX_BYTES i, 256, 64, .ro⟩,
   ⟨R.PTEL_LAST_RX_ERRORED i, 320, 32, .ro⟩,
   ⟨R.PTEL_LAST_TX_POISONED i, 352, 32, .ro⟩]

/-- Fields of entry `i` of table 2 of page 0xc. -/
def tbl0Cx2 (i : Nat) : List TblField :=
  [⟨R.THR_KIND i, 0, 3, .rw⟩,
   ⟨R.THR_TO_RING i, 3, 1, .rw⟩,
   ⟨R.THR_ABOVE i, 4, 1, .ro⟩,
   ⟨R.THR_INDEX i, 16, 13, .rw⟩,
   ⟨R.THR_N i, 32, 32, .rw⟩,
   ⟨R.THR_COUNT i, 64, 64, .ro⟩,
   ⟨R.THR_CROSSINGS i, 128, 32, .ro⟩]

/-- Fields of entry `i` of table 0 of page 0x10 to 0x2f, entries counted across the pages. -/
def tbl10x0 (i : Nat) : List TblField :=
  [⟨R.SCANRES_ERRORS i, 0, 10, .ro⟩,
   ⟨R.SCANRES_BITS_EXP i, 10, 6, .ro⟩,
   ⟨R.SCANRES_VOLT i, 16, 7, .ro⟩,
   ⟨R.SCANRES_PHASE i, 24, 6, .ro⟩,
   ⟨R.SCANRES_EYE i, 30, 2, .ro⟩]

/-- Fields of entry `i` of table 0 of page 0x70. -/
def tbl70x0 (i : Nat) : List TblField :=
  [⟨R.SECY_VALID i, 0, 1, .rw⟩,
   ⟨R.SECY_PROTECT_FRAMES i, 1, 1, .rw⟩,
   ⟨R.SECY_CONFIDENTIALITY i, 2, 1, .rw⟩,
   ⟨R.SECY_INCLUDE_SCI i, 3, 1, .rw⟩,
   ⟨R.SECY_USE_ES i, 4, 1, .rw⟩,
   ⟨R.SECY_USE_SCB i, 5, 1, .rw⟩,
   ⟨R.SECY_VALIDATE_FRAMES i, 6, 2, .rw⟩,
   ⟨R.SECY_REPLAY_PROTECT i, 8, 1, .rw⟩,
   ⟨R.SECY_LIMIT_MODE i, 9, 1, .rw⟩,
   ⟨R.SECY_CIPHER_SUITE i, 10, 2, .rw⟩,
   ⟨R.SECY_CONF_OFFSET i, 12, 2, .rw⟩,
   ⟨R.SECY_ENCODING_AN i, 14, 2, .rw⟩,
   ⟨R.SECY_PORT i, 16, 8, .rw⟩,
   ⟨R.SECY_REPLAY_WINDOW i, 32, 31, .rw⟩,
   ⟨R.SECY_BYPASS_MASK i, 64, 16, (.rwa 1)⟩,
   ⟨R.SECY_DEFAULT_RXSC i, 80, 14, .rw⟩,
   ⟨R.SECY_DEFAULT_RXSC_VALID i, 94, 1, .rw⟩,
   ⟨R.SECY_TX_MAX_LEN i, 96, 16, .rw⟩,
   ⟨R.SECY_PENDING_AN i, 112, 2, .ro⟩,
   ⟨R.SECY_SWITCH_PENDING i, 114, 1, .ro⟩,
   ⟨R.SECY_SCI i, 128, 64, .rw⟩]

/-- Fields of entry `i` of table 1 of page 0x70. -/
def tbl70x1 (i : Nat) : List TblField :=
  [⟨R.TXSA_STATE i, 0, 3, .ro⟩,
   ⟨R.TXSA_ROLLOVER i, 3, 1, .rw⟩,
   ⟨R.TXSA_KEY_PRESENT i, 4, 1, .ro⟩,
   ⟨R.TXSA_THRESHOLD_HIT i, 5, 1, .ro⟩,
   ⟨R.TXSA_LIMIT_REACHED i, 6, 1, .ro⟩,
   ⟨R.TXSA_PARENT_LOST i, 7, 1, .ro⟩,
   ⟨R.TXSA_ON_PARENT_LOSS i, 8, 2, .rw⟩,
   ⟨R.TXSA_ERASE_AT_WP i, 10, 12, .rw⟩,
   ⟨R.TXSA_PARENT i, 22, 11, .ro⟩,
   ⟨R.TXSA_PARENT_VALID i, 33, 1, .ro⟩,
   ⟨R.TXSA_NEXT_PN i, 64, 64, .rw⟩,
   ⟨R.TXSA_PN_THRESHOLD i, 128, 64, .rw⟩,
   ⟨R.TXSA_SSCI i, 192, 32, .rw⟩,
   ⟨R.TXSA_FRAME_LIMIT i, 224, 32, .rw⟩]

/-- Fields of entry `i` of table 2 of page 0x70. -/
def tbl70x2 (i : Nat) : List TblField :=
  [⟨R.RXSC_VALID i, 0, 1, .rw⟩,
   ⟨R.RXSC_SECY i, 16, 12, .rw⟩,
   ⟨R.RXSC_SCI i, 64, 64, .rw⟩]

/-- Fields of entry `i` of table 3 of page 0x70. -/
def tbl70x3 (i : Nat) : List TblField :=
  [⟨R.RXSA_STATE i, 0, 3, .ro⟩,
   ⟨R.RXSA_KEY_PRESENT i, 4, 1, .ro⟩,
   ⟨R.RXSA_PARENT_LOST i, 7, 1, .ro⟩,
   ⟨R.RXSA_ON_PARENT_LOSS i, 8, 2, .rw⟩,
   ⟨R.RXSA_ERASE_AT_WP i, 10, 12, .rw⟩,
   ⟨R.RXSA_PARENT i, 22, 11, .ro⟩,
   ⟨R.RXSA_PARENT_VALID i, 33, 1, .ro⟩,
   ⟨R.RXSA_NEXT_PN i, 64, 64, .rw⟩,
   ⟨R.RXSA_SSCI i, 128, 32, .rw⟩,
   ⟨R.RXSA_LOWEST_PN i, 160, 64, .rw⟩]

/-- Fields of entry `i` of table 4 of page 0x70. -/
def tbl70x4 (i : Nat) : List TblField :=
  [⟨R.PORT_CLASS_SECY i, 0, 12, .rw⟩,
   ⟨R.PORT_CLASS_SECY_VALID i, 12, 1, .rw⟩,
   ⟨R.PORT_CLASS_POLICY i, 16, 2, (.rwa 0)⟩,
   ⟨R.PORT_CLASS_GUARD_MASK i, 32, 16, (.rwa 1)⟩]

/-- Fields of entry `i` of table 5 of page 0x70. -/
def tbl70x5 (i : Nat) : List TblField :=
  [⟨R.VID_CLASS_CLASS i, 0, 4, (.rwa 0)⟩]

/-- Fields of entry `i` of table 6 of page 0x70. -/
def tbl70x6 (i : Nat) : List TblField :=
  [⟨R.BYPASS_ETHERTYPE i, 0, 16, (.rwa 1)⟩,
   ⟨R.BYPASS_ETHERTYPE_EN i, 16, 1, (.rwa 1)⟩,
   ⟨R.BYPASS_DA_EN i, 17, 1, (.rwa 1)⟩,
   ⟨R.BYPASS_VALID i, 18, 1, (.rwa 1)⟩,
   ⟨R.BYPASS_DA i, 32, 48, (.rwa 1)⟩,
   ⟨R.BYPASS_DA_MASK i, 80, 48, (.rwa 1)⟩]

/-- Fields of entry `i` of table 0 of page 0x71. -/
def tbl71x0 (i : Nat) : List TblField :=
  [⟨R.CLSKEY_INGRESS_PORT i, 0, 8, .rw⟩,
   ⟨R.CLSKEY_SRC_IS_RING i, 8, 1, .rw⟩,
   ⟨R.CLSKEY_SEC_STATUS i, 9, 2, .rw⟩,
   ⟨R.CLSKEY_BYPASS_CLASS i, 11, 4, .rw⟩,
   ⟨R.CLSKEY_INGRESS_SECY i, 15, 12, .rw⟩,
   ⟨R.CLSKEY_TAGGED i, 27, 1, .rw⟩,
   ⟨R.CLSKEY_DOUBLE_TAGGED i, 28, 1, .rw⟩,
   ⟨R.CLSKEY_OUTER_VID i, 29, 12, .rw⟩,
   ⟨R.CLSKEY_OUTER_PCP i, 41, 3, .rw⟩,
   ⟨R.CLSKEY_OUTER_DEI i, 44, 1, .rw⟩,
   ⟨R.CLSKEY_INNER_VID i, 45, 12, .rw⟩,
   ⟨R.CLSKEY_ETHERTYPE i, 64, 16, .rw⟩,
   ⟨R.CLSKEY_DA i, 80, 48, .rw⟩,
   ⟨R.CLSKEY_SA i, 128, 48, .rw⟩,
   ⟨R.CLSKEY_L3_TYPE i, 176, 2, .rw⟩,
   ⟨R.CLSKEY_DSCP i, 178, 6, .rw⟩,
   ⟨R.CLSKEY_IP_PROTO i, 184, 8, .rw⟩,
   ⟨R.CLSKEY_FRAGMENT i, 192, 1, .rw⟩,
   ⟨R.CLSKEY_ADDR_SEL i, 193, 3, .rw⟩,
   ⟨R.CLSKEY_L4_SRC i, 196, 16, .rw⟩,
   ⟨R.CLSKEY_TCP_FLAGS i, 212, 8, .rw⟩,
   ⟨R.CLSKEY_IP_ADDR i, 224, 128, .rw⟩,
   ⟨R.CLSKEY_L4_DST i, 352, 16, .rw⟩]

/-- Fields of entry `i` of table 1 of page 0x71. -/
def tbl71x1 (i : Nat) : List TblField :=
  [⟨R.CLSMASK_INGRESS_PORT i, 0, 8, .rw⟩,
   ⟨R.CLSMASK_SRC_IS_RING i, 8, 1, .rw⟩,
   ⟨R.CLSMASK_SEC_STATUS i, 9, 2, .rw⟩,
   ⟨R.CLSMASK_BYPASS_CLASS i, 11, 4, .rw⟩,
   ⟨R.CLSMASK_INGRESS_SECY i, 15, 12, .rw⟩,
   ⟨R.CLSMASK_TAGGED i, 27, 1, .rw⟩,
   ⟨R.CLSMASK_DOUBLE_TAGGED i, 28, 1, .rw⟩,
   ⟨R.CLSMASK_OUTER_VID i, 29, 12, .rw⟩,
   ⟨R.CLSMASK_OUTER_PCP i, 41, 3, .rw⟩,
   ⟨R.CLSMASK_OUTER_DEI i, 44, 1, .rw⟩,
   ⟨R.CLSMASK_INNER_VID i, 45, 12, .rw⟩,
   ⟨R.CLSMASK_ETHERTYPE i, 64, 16, .rw⟩,
   ⟨R.CLSMASK_DA i, 80, 48, .rw⟩,
   ⟨R.CLSMASK_SA i, 128, 48, .rw⟩,
   ⟨R.CLSMASK_L3_TYPE i, 176, 2, .rw⟩,
   ⟨R.CLSMASK_DSCP i, 178, 6, .rw⟩,
   ⟨R.CLSMASK_IP_PROTO i, 184, 8, .rw⟩,
   ⟨R.CLSMASK_FRAGMENT i, 192, 1, .rw⟩,
   ⟨R.CLSMASK_ADDR_SEL i, 193, 3, .rw⟩,
   ⟨R.CLSMASK_L4_SRC i, 196, 16, .rw⟩,
   ⟨R.CLSMASK_TCP_FLAGS i, 212, 8, .rw⟩,
   ⟨R.CLSMASK_IP_ADDR i, 224, 128, .rw⟩,
   ⟨R.CLSMASK_L4_DST i, 352, 16, .rw⟩]

/-- Fields of entry `i` of table 2 of page 0x71. -/
def tbl71x2 (i : Nat) : List TblField :=
  [⟨R.CLSACT_VALID i, 0, 1, .rw⟩,
   ⟨R.CLSACT_FWD i, 1, 2, .rw⟩,
   ⟨R.CLSACT_PUNT i, 3, 1, .rw⟩,
   ⟨R.CLSACT_PUNT_RING i, 4, 7, .rw⟩,
   ⟨R.CLSACT_QUEUE_SET i, 11, 1, .rw⟩,
   ⟨R.CLSACT_QUEUE i, 12, 4, .rw⟩,
   ⟨R.CLSACT_FWD_TARGET i, 16, 14, .rw⟩,
   ⟨R.CLSACT_POLICER_SET i, 30, 1, .rw⟩,
   ⟨R.CLSACT_NOTIFY i, 31, 1, .rw⟩,
   ⟨R.CLSACT_POLICER i, 32, 12, .rw⟩,
   ⟨R.CLSACT_COLOUR i, 44, 2, .rw⟩,
   ⟨R.CLSACT_NO_LEARN i, 46, 1, .rw⟩,
   ⟨R.CLSACT_VID_SET i, 47, 1, .rw⟩,
   ⟨R.CLSACT_NEW_VID i, 48, 12, .rw⟩,
   ⟨R.CLSACT_PCP_SET i, 60, 1, .rw⟩,
   ⟨R.CLSACT_NEW_PCP i, 61, 3, .rw⟩,
   ⟨R.CLSACT_CD_OP i, 64, 3, .rw⟩,
   ⟨R.CLSACT_FLOW_CLASS i, 68, 4, .rw⟩]

/-- Fields of entry `i` of table 0 of page 0x72. -/
def tbl72x0 (i : Nat) : List TblField :=
  [⟨R.VLAN_VALID i, 0, 1, .rw⟩,
   ⟨R.VLAN_LEARN_EN i, 1, 1, .rw⟩,
   ⟨R.VLAN_FLOOD_UNKNOWN_UC i, 2, 1, .rw⟩,
   ⟨R.VLAN_FID i, 16, 12, .rw⟩]

/-- Fields of entry `i` of table 1 of page 0x72. -/
def tbl72x1 (i : Nat) : List TblField :=
  [⟨R.VLAN_MEMBER_MEMBERS i, 0, 256, .rw⟩]

/-- Fields of entry `i` of table 2 of page 0x72. -/
def tbl72x2 (i : Nat) : List TblField :=
  [⟨R.VLAN_UNTAG_UNTAG i, 0, 256, .rw⟩]

/-- Fields of entry `i` of table 3 of page 0x72. -/
def tbl72x3 (i : Nat) : List TblField :=
  [⟨R.FDB_MAC i, 0, 48, .ro⟩,
   ⟨R.FDB_FID i, 48, 12, .ro⟩,
   ⟨R.FDB_VALID i, 60, 1, .ro⟩,
   ⟨R.FDB_STATIC i, 61, 1, .ro⟩,
   ⟨R.FDB_HIT i, 62, 1, .ro⟩,
   ⟨R.FDB_DEST_TYPE i, 64, 2, .ro⟩,
   ⟨R.FDB_DEST i, 66, 14, .ro⟩]

/-- Fields of entry `i` of table 4 of page 0x72. -/
def tbl72x4 (i : Nat) : List TblField :=
  [⟨R.MCG_PORTS i, 0, 256, .rw⟩]

/-- Fields of entry `i` of table 5 of page 0x72. -/
def tbl72x5 (i : Nat) : List TblField :=
  [⟨R.PORT_FWD_STATS i 0, 0, 64, .rc⟩,
   ⟨R.PORT_FWD_STATS i 1, 64, 64, .rc⟩,
   ⟨R.PORT_FWD_STATS i 2, 128, 64, .rc⟩,
   ⟨R.PORT_FWD_STATS i 3, 192, 64, .rc⟩]

/-- Fields of entry `i` of table 6 of page 0x72. -/
def tbl72x6 (i : Nat) : List TblField :=
  [⟨R.FWDPORT_PVID i, 0, 12, .rw⟩,
   ⟨R.FWDPORT_INGRESS_FILTER i, 12, 1, .rw⟩,
   ⟨R.FWDPORT_LEARN_EN i, 13, 1, .rw⟩,
   ⟨R.FWDPORT_DROP_UNTAGGED i, 14, 1, .rw⟩,
   ⟨R.FWDPORT_DEFAULT_PCP i, 16, 3, .rw⟩]

/-- Fields of entry `i` of table 0 of page 0x74. -/
def tbl74x0 (i : Nat) : List TblField :=
  [⟨R.QCFG_POOL i, 0, 3, .rw⟩,
   ⟨R.QCFG_MIN_CELLS i, 4, 17, .rw⟩,
   ⟨R.QCFG_DT_EXP i, 24, 4, .rw⟩,
   ⟨R.QCFG_WRED_PROFILE i, 32, 6, .rw⟩,
   ⟨R.QCFG_WRED_EN i, 38, 1, .rw⟩,
   ⟨R.QCFG_PUSH_CLASS i, 40, 3, .rw⟩]

/-- Fields of entry `i` of table 1 of page 0x74. -/
def tbl74x1 (i : Nat) : List TblField :=
  [⟨R.WRED_MIN_TH i 0, 0, 19, .rw⟩,
   ⟨R.WRED_MIN_TH i 1, 96, 19, .rw⟩,
   ⟨R.WRED_MIN_TH i 2, 192, 19, .rw⟩,
   ⟨R.WRED_MAX_TH i 0, 32, 19, .rw⟩,
   ⟨R.WRED_MAX_TH i 1, 128, 19, .rw⟩,
   ⟨R.WRED_MAX_TH i 2, 224, 19, .rw⟩,
   ⟨R.WRED_MAX_P i 0, 64, 8, .rw⟩,
   ⟨R.WRED_MAX_P i 1, 160, 8, .rw⟩,
   ⟨R.WRED_MAX_P i 2, 256, 8, .rw⟩,
   ⟨R.WRED_ENABLE i 0, 72, 1, .rw⟩,
   ⟨R.WRED_ENABLE i 1, 168, 1, .rw⟩,
   ⟨R.WRED_ENABLE i 2, 264, 1, .rw⟩,
   ⟨R.WRED_AVG_WEIGHT i, 288, 4, .rw⟩]

/-- Fields of entry `i` of table 2 of page 0x74. -/
def tbl74x2 (i : Nat) : List TblField :=
  [⟨R.QSTAT_CHARGE i, 0, 19, .ro⟩,
   ⟨R.QSTAT_AVERAGE i, 32, 19, .ro⟩,
   ⟨R.QSTAT_ADMITTED i, 64, 64, .rc⟩,
   ⟨R.QSTAT_WRED_DROPS i, 128, 64, .rc⟩,
   ⟨R.QSTAT_THRESHOLD_DROPS i, 192, 64, .rc⟩,
   ⟨R.QSTAT_PUSHED_OUT i, 256, 64, .rc⟩]

/-- Fields of entry `i` of table 3 of page 0x74. -/
def tbl74x3 (i : Nat) : List TblField :=
  [⟨R.PORT_BUF_STATS i 0, 0, 64, .rc⟩,
   ⟨R.PORT_BUF_STATS i 1, 64, 64, .rc⟩,
   ⟨R.PORT_BUF_STATS i 2, 128, 64, .rc⟩,
   ⟨R.PORT_BUF_STATS i 3, 192, 64, .rc⟩]

/-- Fields of entry `i` of table 0 of page 0x78 to 0x7f, entries counted across the pages. -/
def tbl78x0 (i : Nat) : List TblField :=
  [⟨R.QSCHED_TIER i, 0, 2, .rw⟩,
   ⟨R.QSCHED_CBS_EN i, 2, 1, .rw⟩,
   ⟨R.QSCHED_PREEMPTABLE i, 3, 1, .rw⟩,
   ⟨R.QSCHED_QUANTUM i, 4, 21, .rw⟩,
   ⟨R.QSCHED_IDLE_SLOPE i, 32, 32, .rw⟩]

/-- Fields of entry `i` of table 1 of page 0x78 to 0x7f, entries counted across the pages. -/
def tbl78x1 (i : Nat) : List TblField :=
  [⟨R.PSCHED_SHAPER_RATE i, 0, 20, .rw⟩,
   ⟨R.PSCHED_SHAPER_BURST i, 32, 24, .rw⟩,
   ⟨R.PSCHED_PREEMPT_EN i, 64, 1, .rw⟩,
   ⟨R.PSCHED_VERIFY_EN i, 65, 1, .rw⟩,
   ⟨R.PSCHED_ADD_FRAG_SIZE i, 66, 2, .rw⟩,
   ⟨R.PSCHED_VERIFY_TIME i, 68, 8, .rw⟩,
   ⟨R.PSCHED_VERIFY_STATUS i, 80, 3, .ro⟩,
   ⟨R.PSCHED_PREEMPT_ACTIVE i, 83, 1, .ro⟩,
   ⟨R.PSCHED_SHAPER_TOKENS i, 96, 32, .ro⟩]

/-- Fields of entry `i` of table 2 of page 0x78 to 0x7f, entries counted across the pages. -/
def tbl78x2 (i : Nat) : List TblField :=
  [⟨R.QSTATE_DEFICIT i, 0, 21, .ro⟩,
   ⟨R.QSTATE_CREDIT i, 32, 32, .ro⟩,
   ⟨R.QSTATE_TX_COPIES i, 64, 64, .rc⟩,
   ⟨R.QSTATE_TX_LINE_BYTES i, 128, 64, .rc⟩,
   ⟨R.QSTATE_GATE_OVERSIZE_DROPS i, 192, 64, .rc⟩]

/-- Fields of entry `i` of table 3 of page 0x78 to 0x7f, entries counted across the pages. -/
def tbl78x3 (i : Nat) : List TblField :=
  [⟨R.POL_CIR i, 0, 32, .rw⟩,
   ⟨R.POL_PIR i, 32, 32, .rw⟩,
   ⟨R.POL_CBS i, 64, 24, .rw⟩,
   ⟨R.POL_PBS i, 96, 24, .rw⟩,
   ⟨R.POL_COLOUR_AWARE i, 128, 1, .rw⟩,
   ⟨R.POL_RED_DROP i, 129, 1, .rw⟩,
   ⟨R.POL_MARK_DEI i, 130, 1, .rw⟩,
   ⟨R.POL_TC i, 160, 32, .ro⟩,
   ⟨R.POL_TP i, 192, 32, .ro⟩]

/-- Fields of entry `i` of table 4 of page 0x78 to 0x7f, entries counted across the pages. -/
def tbl78x4 (i : Nat) : List TblField :=
  [⟨R.POLICER_STATS i 0, 0, 64, .rc⟩,
   ⟨R.POLICER_STATS i 1, 64, 64, .rc⟩,
   ⟨R.POLICER_STATS i 2, 128, 64, .rc⟩,
   ⟨R.POLICER_STATS i 3, 192, 64, .rc⟩]

/-- Fields of entry `i` of table 5 of page 0x78 to 0x7f, entries counted across the pages. -/
def tbl78x5 (i : Nat) : List TblField :=
  [⟨R.PORT_MM_STATS i 0, 0, 64, .rc⟩,
   ⟨R.PORT_MM_STATS i 1, 64, 64, .rc⟩,
   ⟨R.PORT_MM_STATS i 2, 128, 64, .rc⟩,
   ⟨R.PORT_MM_STATS i 3, 192, 64, .rc⟩,
   ⟨R.PORT_MM_STATS i 4, 256, 64, .rc⟩,
   ⟨R.PORT_MM_STATS i 5, 320, 64, .rc⟩]

/-- Fields of entry `i` of table 0 of page 0x80 to 0x87, entries counted across the pages. -/
def tbl80x0 (i : Nat) : List TblField :=
  [⟨R.ADMIN_GATE_STATES i, 0, 16, .rw⟩,
   ⟨R.ADMIN_OP i, 16, 2, .rw⟩,
   ⟨R.ADMIN_INTERVAL i, 32, 32, .rw⟩]

/-- Fields of entry `i` of table 1 of page 0x80 to 0x87, entries counted across the pages. -/
def tbl80x1 (i : Nat) : List TblField :=
  [⟨R.GATE_GATE_ENABLE i, 0, 1, .rw⟩,
   ⟨R.GATE_ADMIN_GATE_STATES i, 16, 16, .rw⟩,
   ⟨R.GATE_ADMIN_BASE_SEC i, 32, 48, .rw⟩,
   ⟨R.GATE_ADMIN_BASE_NS i, 80, 30, .rw⟩,
   ⟨R.GATE_ADMIN_CYCLE_NS i, 112, 30, .rw⟩,
   ⟨R.GATE_ADMIN_CYCLE_FRAC i, 144, 16, .rw⟩,
   ⟨R.GATE_ADMIN_LIST_LENGTH i, 160, 9, .rw⟩,
   ⟨R.GATE_CONFIG_PENDING i, 176, 1, .ro⟩,
   ⟨R.GATE_PAST_BASE i, 177, 1, .ro⟩,
   ⟨R.GATE_CONFIG_ERROR i, 178, 1, .ro⟩,
   ⟨R.GATE_OPER_LIST_LENGTH i, 180, 9, .ro⟩,
   ⟨R.GATE_OPER_GATE_STATES i, 192, 16, .ro⟩,
   ⟨R.GATE_CONFIG_CHANGE_SEC i, 208, 48, .ro⟩,
   ⟨R.GATE_CONFIG_CHANGE_NS i, 256, 30, .ro⟩,
   ⟨R.GATE_OPER_CYCLE_NS i, 288, 30, .ro⟩,
   ⟨R.GATE_OPER_CYCLE_FRAC i, 320, 16, .ro⟩]

/-- Fields of entry `i` of table 2 of page 0x80 to 0x87, entries counted across the pages. -/
def tbl80x2 (i : Nat) : List TblField :=
  [⟨R.OPER_GATE_STATES i, 0, 16, .ro⟩,
   ⟨R.OPER_OP i, 16, 2, .ro⟩,
   ⟨R.OPER_INTERVAL i, 32, 32, .ro⟩]

/-- Fields of entry `i` of table 3 of page 0x80 to 0x87, entries counted across the pages. -/
def tbl80x3 (i : Nat) : List TblField :=
  [⟨R.GATE_STATS i 0, 0, 64, .rc⟩,
   ⟨R.GATE_STATS i 1, 64, 64, .rc⟩,
   ⟨R.GATE_STATS i 2, 128, 64, .rc⟩]

/-- One 64-bit counter per place of 64 bits. -/
def counters (f : Nat → Fld) (n : Nat) : List TblField := (List.range n).map fun k => ⟨f k, 64 * k, 64, .rc⟩

/-- Tables of counters that are not listed field by field: the codeword histogram and the lane errors of a port page, the
SecY statistics and the classifier's hits. -/
def counterTable (pg t i : Nat) : Option (Nat × List TblField) :=
  if 0x30 ≤ pg ∧ pg ≤ 0x4F ∧ t = 0 then some (256, [⟨tblFld pg 0 i 0 64 0, 0, 64, .rc⟩])
  else if 0x30 ≤ pg ∧ pg ≤ 0x4F ∧ t = 1 then some (8, [⟨tblFld pg 1 i 0 64 0, 0, 64, .rc⟩, ⟨tblFld pg 1 i 64 32 0, 64, 32, .rc⟩])
  else if pg = 0x70 ∧ t = 8 then some (16384, counters (secStat 8 i) 2)
  else if pg = 0x70 ∧ t = 9 then some (65536, counters (secStat 9 i) 6)
  else if pg = 0x70 ∧ t = 10 then some (16384, counters (secStat 10 i) 3)
  else if pg = 0x70 ∧ (t = 11 ∨ t = 12) then some (4096, counters (secStat t i) 6)
  else if pg = 0x70 ∧ t = 13 then some (256, counters (secStat 13 i) 6)
  else if pg = 0x71 ∧ t = 3 then some (8192, [⟨clsHits i, 0, 64, .rc⟩])
  else none

/-- RING_CFG layout of the two MGMT0 rings (R363). -/
def m0Ring (i : Nat) : List TblField :=
  [⟨ringF R.RING_ENABLE 0 1 0 (128 + i), 0, 1, .rw⟩, ⟨ringF R.RING_DIR 1 1 0 (128 + i), 1, 1, .rw⟩,
   ⟨ringF R.RING_OWNER 2 1 0 (128 + i), 2, 1, .rw⟩, ⟨ringF R.RING_SIZE_LOG 3 5 0 (128 + i), 3, 5, .rw⟩,
   ⟨ringF R.RING_TRAP_CLASS 8 4 0 (128 + i), 8, 4, .rw⟩, ⟨ringF R.RING_BUF_SIZE 16 14 0 (128 + i), 16, 14, .rw⟩,
   ⟨ringF R.RING_BASE_ADDR 32 64 0 (128 + i), 32, 64, .rw⟩, ⟨ringF R.RING_QUANTUM 96 20 1536 (128 + i), 96, 20, .rw⟩]

/-- Number of entries and the fields of entry `i` of table `t` of page `pg`. -/
def tableAt (pg t i : Nat) : Option (Nat × List TblField) :=
  if pg = 0x3 ∧ t = 0 then some (4096, tbl03x0 i)
  else if pg = 0x4 ∧ t = 0 then some (67, tbl04x0 i)
  else if pg = 0x5 ∧ t = 0 then some (1024, tbl05x0 i)
  else if pg = 0x5 ∧ t = 1 then some (64, tbl05x1 i)
  else if pg = 0x7 ∧ t = 0 then some (128, tbl07x0 i)
  else if pg = 0xa ∧ t = 0 then some (8, tbl0Ax0 i)
  else if pg = 0xb ∧ t = 0 then some (128, tbl0Bx0 i)
  else if pg = 0xb ∧ t = 1 then some (128, tbl0Bx1 i)
  else if pg = 0xb ∧ t = 2 then some (128, tbl0Bx2 i)
  else if pg = 0xc ∧ t = 0 then some (4224, tbl0Cx0 i)
  else if pg = 0xc ∧ t = 1 then some (256, tbl0Cx1 i)
  else if pg = 0xc ∧ t = 2 then some (64, tbl0Cx2 i)
  else if 0x10 ≤ pg ∧ pg ≤ 0x2f ∧ t = 0 then some (65536, tbl10x0 ((pg - 0x10) * 65536 + i))
  else if pg = 0x70 ∧ t = 0 then some (4096, tbl70x0 i)
  else if pg = 0x70 ∧ t = 1 then some (16384, tbl70x1 i)
  else if pg = 0x70 ∧ t = 2 then some (16384, tbl70x2 i)
  else if pg = 0x70 ∧ t = 3 then some (65536, tbl70x3 i)
  else if pg = 0x70 ∧ t = 4 then some (4096, tbl70x4 i)
  else if pg = 0x70 ∧ t = 5 then some (4096, tbl70x5 i)
  else if pg = 0x70 ∧ t = 6 then some (16, tbl70x6 i)
  else if pg = 0x71 ∧ t = 0 then some (8192, tbl71x0 i)
  else if pg = 0x71 ∧ t = 1 then some (8192, tbl71x1 i)
  else if pg = 0x71 ∧ t = 2 then some (8192, tbl71x2 i)
  else if pg = 0x72 ∧ t = 0 then some (4096, tbl72x0 i)
  else if pg = 0x72 ∧ t = 1 then some (4096, tbl72x1 i)
  else if pg = 0x72 ∧ t = 2 then some (4096, tbl72x2 i)
  else if pg = 0x72 ∧ t = 3 then some (262144, tbl72x3 i)
  else if pg = 0x72 ∧ t = 4 then some (16384, tbl72x4 i)
  else if pg = 0x72 ∧ t = 5 then some (256, tbl72x5 i)
  else if pg = 0x72 ∧ t = 6 then some (256, tbl72x6 i)
  else if pg = 0x74 ∧ t = 0 then some (4224, tbl74x0 i)
  else if pg = 0x74 ∧ t = 1 then some (64, tbl74x1 i)
  else if pg = 0x74 ∧ t = 2 then some (4224, tbl74x2 i)
  else if pg = 0x74 ∧ t = 3 then some (256, tbl74x3 i)
  else if 0x78 ≤ pg ∧ pg ≤ 0x7f ∧ t = 0 then some (512, tbl78x0 ((pg - 0x78) * 512 + i))
  else if 0x78 ≤ pg ∧ pg ≤ 0x7f ∧ t = 1 then some (32, tbl78x1 ((pg - 0x78) * 32 + i))
  else if 0x78 ≤ pg ∧ pg ≤ 0x7f ∧ t = 2 then some (512, tbl78x2 ((pg - 0x78) * 512 + i))
  else if 0x78 ≤ pg ∧ pg ≤ 0x7f ∧ t = 3 then some (512, tbl78x3 ((pg - 0x78) * 512 + i))
  else if 0x78 ≤ pg ∧ pg ≤ 0x7f ∧ t = 4 then some (512, tbl78x4 ((pg - 0x78) * 512 + i))
  else if 0x78 ≤ pg ∧ pg ≤ 0x7f ∧ t = 5 then some (32, tbl78x5 ((pg - 0x78) * 32 + i))
  else if 0x80 ≤ pg ∧ pg ≤ 0x87 ∧ t = 0 then some (8192, tbl80x0 ((pg - 0x80) * 8192 + i))
  else if 0x80 ≤ pg ∧ pg ≤ 0x87 ∧ t = 1 then some (32, tbl80x1 ((pg - 0x80) * 32 + i))
  else if 0x80 ≤ pg ∧ pg ≤ 0x87 ∧ t = 2 then some (8192, tbl80x2 ((pg - 0x80) * 8192 + i))
  else if 0x80 ≤ pg ∧ pg ≤ 0x87 ∧ t = 3 then some (32, tbl80x3 ((pg - 0x80) * 32 + i))
  else if pg = 8 ∧ t = 0 then some (2, m0Ring i)
  else if pg = 0x70 ∧ t = 7 then some (81920, [])
  else if pg = 0xD ∧ t = 0 then some (64, [⟨L.ASCENT_DIGEST i, 0, 384, .ro⟩])
  else counterTable pg t i

end Sys2Proof.Machine
end

