-- ==== Sys2Proof/Machine/View.lean ====
section
/-! DEFINITION. Reading BAR0 (R4, R34 to R37, R42 to R54, R68): the fields that are computed when they are read, the page header, the
table window's registers, the command slots and their buffers, the 64-bit latch, read-clear and read-once. Masters have the numbers 0
host, 1 management complex, 2 a device of the rope (R476). -/

namespace Sys2Proof.Machine

/-! ## Fields computed at the read -/

/-- ARB_QUEUE: requesters with a waiting request, and the first of R493. -/
def arbQueue (d : Dev) : Nat × Nat :=
  (countBelow (fun q => d.waiting.any (·.requester == q)) numRequesters,
   match reqOrder d with
   | r :: _ => r.requester
   | [] => 0)

/-- REKEY_OVERLAP (R234): F is one frame of MAX_LEN with its overhead of 52 bytes (R233), rounded up to a whole nanosecond. -/
def rekeyOverlap (d : Dev) (p : Nat) : Nat :=
  2 * (d.get (R.REKEY_TIME_ERROR p) + ((maxLen d p + 52) * 8 + portGbps d p - 1) / portGbps d p + 1000)

/-- The registers of port slot `p` that follow others (R160, R246). -/
def shownPort (d : Dev) (p : Nat) : Dev :=
  let down := sumBelow (fun n => if laneStage d (p + n) = stActive then 0 else 2 ^ n) (portWidth d p)
  d.setAll [(R.PORT_STATUS_LANES_DOWN p, down), (R.REKEY_OVERLAP p, rekeyOverlap d p), (R.PLAN_LEAD p, planLead d p)]

/-- Slots of the vault that are not EMPTY (R271). -/
def slotsUsed (d : Dev) : Nat :=
  ((d.listedEntries 5 0 32).filter fun i => !vEmpty d i).length +
    (((List.range 8).flatMap fun c => [d.get (L.V_DST c 0), d.get (L.V_DST c 1)]).filter fun i => i != 0 && vEmpty d (i - 1)).length

/-- Register fields of page `pg` brought up to date for a read at `off`. -/
def shown (s : State) (pg off : Nat) : Dev :=
  let d := s.d
  if pg = 0x00 then d.setAll [(R.DEV_STATE_RUN_STATE, s.run.code), (R.DEV_STATE_POWER_STATE, s.power.code),
      (R.ANCHOR_SUMMARY_GROUPS, s.anchors.toNat), (R.ANCHOR_SUMMARY_ALL, b2n (s.anchors.toNat == 1023))]
  else if pg = 0x01 then (if 0x900 ≤ off ∧ off < 0x940 then d.set (R.EV_ACTIVE ((off - 0x900) / 4)) (evActiveWord d ((off - 0x900) / 4)) else d)
  else if pg = 0x02 then
    let w := timeGroup d 0
    d.setAll [(R.TIME_NOW_FRAC, w.1), (R.TIME_NOW_NS, w.2.1), (R.TIME_NOW_SEC_LO, w.2.2.1), (R.TIME_NOW_SEC_HI, w.2.2.2),
      (R.TOD_STATUS_TX_LEVEL, d.todTx.length), (R.TOD_STATUS_RX_LEVEL, d.todRx.length), (R.TOD_STATUS_TX_BUSY, d.get L.TOD_TX_BUSY)]
  else if pg = 0x03 then d.setAll [(R.WP_STATUS_ARMED_COUNT, (wpArmedList d).length), (R.WP_STATUS_ROPE_LOCKED, b2n (ropeLocked d))]
  else if pg = 0x04 then
    let q := arbQueue d
    d.setAll [(R.ARB_TOTAL_ACCOUNTED, arbAccounted d), (R.ARB_STATUS_FREE, arbFree d), (R.ARB_QUEUE_PENDING_COUNT, q.1), (R.ARB_QUEUE_HEAD, q.2)]
  else if pg = 0x05 then d.set R.VAULT_STATUS_SLOTS_USED (slotsUsed d)
  else if pg = 0x06 then d.setAll [(R.ATTEST_KEY_ID, attestKeyId d), (R.DEBUG_CTRL_LANE_EN, b2n (debugEnable d 1)), (R.DEBUG_CTRL_FULL_EN, b2n (debugEnable d 2))]
  else if pg = 0x07 then
    if 0x200 ≤ off ∧ off < 0x300 then
      let n := (off - 0x200) / 4
      d.setAll [(R.ALARM_CFG_EFFECTIVE n, alarmEff d n), (R.ALARM_CFG_LOWEST n, alarmLowest n), (R.ALARM_CFG_HIGHEST n, alarmHighest n)]
    else d
  else if pg = 0x09 then
    (d.set R.MG_STATUS_CACHE_DIRTY (mgDirtyCount d)).each 8 fun r d =>
      let up := decide (d.get (R.RANGE_BASE r) < d.get (R.RANGE_LIMIT r))
      d.setAll [(R.META_PAGES r, if up then mgMetaPages d r else 0), (R.TREE_LEVELS r, if up then mgTop d r else 0)]
  else if pg = 0x0A then
    let d := d.set R.ROPE_STATUS_HOPS_FROM_LEAD (ropeHops d)
    if isLead d then d.set R.ROPE_CFG_POSITION 0 else d
  else if pg = 0x0C then thrSync d
  else if 0x30 ≤ pg ∧ pg ≤ 0x4F then
    let k := pg - 0x30
    let up := sumBelow (fun j => if portState d (8 * k + j) = psUp then 2 ^ j else 0) 8
    (d.set (R.OCT_PORT_STATUS_PORTS_UP k) up).each 8 fun j d => if served d (8 * k + j) then shownPort d (8 * k + j) else d
  else if 0x50 ≤ pg ∧ pg ≤ 0x6F then ccShow d (pg - 0x50)
  else if pg = 0x70 then d.set R.SA_EVT_STATUS_LEVEL d.saEvents.length
  else d

/-- Fields of entry `i` of table `t` of page `pg` brought up to date for a READ. -/
def shownEntry (s : State) (pg t i : Nat) : Dev :=
  let d := s.d
  if pg = 0x04 then
    let rs := d.waiting.filter (·.requester == i)
    d.setAll [(R.REQ_PENDING_UNITS i, (rs.map (requestUnits d)).sum), (R.REQ_WAITING i, b2n !rs.isEmpty),
      (R.REQ_HEAD_CLASS i, match rs with
        | r :: _ => r.cls + 1
        | [] => 0)]
  else if pg = 0x05 ∧ t = 0 then d.set (R.SLOT_STATE i) (slotShownState d i)
  else if pg = 0x05 ∧ t = 1 then d.set (R.ROOT_SYSTEM i) (b2n (decide (i < 8)))
  else if pg = 0x0C ∧ t = 0 then d.setB (R.QTEL_HWM_MODE i) (hwmMode s.run d i)
  else if pg = 0x0C ∧ t = 2 then thrSync d
  else if 0x78 ≤ pg ∧ pg ≤ 0x7F then
    if t = 1 then
      let p := (pg - 0x78) * 32 + i
      let d := shaperFill d p
      let d := if 3 < iface d p then d.set (R.PSCHED_PREEMPT_EN p) 0 else d
      d.setS (R.PSCHED_SHAPER_TOKENS p) (bucketBytes d (L.SHP_DEF p) (shaperBurst d p))
    else if t = 2 then
      let g := (pg - 0x78) * 512 + i
      let d := cbsSync d g
      d.setS (R.QSTATE_CREDIT g) (creditBits d g)
    else if t = 3 then
      let n := (pg - 0x78) * 512 + i
      let d := policerFill d n
      (d.setS (R.POL_TC n) (bucketBytes d (L.POL_TC_DEF n) (d.get (R.POL_CBS n)))).setS (R.POL_TP n)
        (bucketBytes d (L.POL_TP_DEF n) (d.get (R.POL_PBS n)))
    else d
  else if 0x80 ≤ pg ∧ pg ≤ 0x87 ∧ t = 1 then
    let p := (pg - 0x80) * 32 + i
    d.set (R.GATE_OPER_GATE_STATES p) (gateStates d p)
  else d

/-! ## Slots that serve no port (R134, R221, R246) -/

/-- The port slot that a register of a port or cluster page belongs to. -/
def slotPort (pg off : Nat) : Option Nat :=
  if 0x30 ≤ pg ∧ pg ≤ 0x4F then
    if 0x100 ≤ off ∧ off < 0x900 then some (8 * (pg - 0x30) + (off - 0x100) / 0x100)
    else if 0xF00 ≤ off ∧ off < 0xF80 then some (8 * (pg - 0x30) + (off - 0xF00) / 0x10)
    else none
  else if 0x50 ≤ pg ∧ pg ≤ 0x6F ∧ 0x400 ≤ off ∧ off < 0x600 then some (8 * (pg - 0x50) + (off - 0x400) / 0x40)
  else none

/-- The registers there read zero and ignore writes, but for the code of a refused enable. -/
def slotHidden (d : Dev) (pg off : Nat) (f : Fld) : Bool :=
  match slotPort pg off with
  | some p => !served d p && f != R.PORT_STATUS_ENABLE_CODE p
  | none => false

/-- A table entry that belongs to a port that the octet's mode does not have (R334): tables 0 and 1 of the scheduler pages. -/
def entryUnserved (d : Dev) (pg t i : Nat) : Bool :=
  decide (0x78 ≤ pg) && decide (pg ≤ 0x7F) &&
    ((t == 0 && !served d (((pg - 0x78) * 512 + i) / 16)) || (t == 1 && !served d ((pg - 0x78) * 32 + i)))

/-! ## Page header (R42) -/

/-- Conditions of a page that hold for a time, as a mask of its event bits. DESIGN CHOICE: of the events that the spec defines by a state,
these read 1 in EVT_RAW while the state lasts, and every other event in the tick in which it happens alone; the spec says only "live level
of each event condition" (log 16). -/
def evtHeld (d : Dev) (pg : Nat) : Nat :=
  if pg = 0x02 then 2 ^ 4 * d.get R.TB_STATUS_REF_LOST + 2 ^ 8 * d.get R.TB_STATUS_RATE_CLAMPED
  else if pg = 0x04 then 2 ^ 8 * b2n (d.waiting.any (·.waits))
  else if 0x10 ≤ pg ∧ pg ≤ 0x2F then 2 ^ 26 * d.get (L.OCT_REF_ABSENT (pg - 0x10))
  else if pg = 0x74 then sumBelow (fun k => if poolFree d k ≤ 0 then 2 ^ k else 0) 8
  else 0

/-- EVT_RAW. -/
def evtRaw (d : Dev) (pg : Nat) : Nat :=
  evtHeld d pg ||| sumBelow (fun b => if bitAt (evtLive d pg) b && evtBitServed d pg b then 2 ^ b else 0) 32

/-- The block is executing a window or command operation. -/
def pageBusy (d : Dev) (pg : Nat) : Bool :=
  d.on (L.WIN_BUSY 0 pg) || d.on (L.WIN_BUSY 1 pg) || (hasSlots pg && (List.range 4).any fun i => slotActive d (slotId pg i)) ||
    (pg == 0x72 && d.on R.FDB_OP_STATUS_BUSY) || (pg == 0x70 && d.on L.SECY_RST)

/-- PAGE_STATUS. READY is DEDUCED: a page that responds is powered, and it serves; page 0x74 does not while its zero fill runs. -/
def pageStatus (d : Dev) (pg : Nat) : Nat :=
  b2n (!(pg == 0x74 && d.on R.BUF_STATUS_ZERO_FILL)) + 2 * b2n (pageBusy d pg) + 4 * d.get (L.PAGE_FAULT pg) + 8 * b2n (powerPending d pg)

/-- A word of the table window of master `m` (R45 to R47). DESIGN CHOICE: the TBL_DATA words are registers that read back what was last
written to them or copied into them, a key image that the master wrote for table 7 of page 0x70 included; a READ of the table itself
shows no key (R17, R48). The spec says of no operation that it empties the words (log 14). -/
def windowWord (d : Dev) (m pg off : Nat) : Nat :=
  if off = 0x40 then d.get (L.WIN_TABLE m pg)
  else if off = 0x44 then d.get (L.WIN_INDEX m pg)
  else if off = 0x4C then d.get (L.WIN_BUSY m pg) + 2 * d.get (L.WIN_COLLIDE m pg) + 256 * d.get (L.WIN_CODE m pg)
  else if 0x50 ≤ off ∧ ¬ d.on (L.WIN_BUSY m pg) then bitsOf (d.get (L.WIN_DATA m pg)) (32 * ((off - 0x50) / 4)) 32
  else 0

/-- A word of the page header. -/
def headerWord (s : State) (m pg off : Nat) : Nat :=
  let d := s.d
  match pageInfo pg with
  | none => 0
  | some p =>
    if off = 0x00 then 1 + 256 * p.inst + 65536 * p.blockType
    else if off = 0x04 then p.evtBits + 256 * b2n p.window + 512 * b2n p.anchor + 4096 * p.slots + 65536 * p.tables
    else if off = 0x08 then (if p.enableFixed then 1 else d.get (L.PAGE_ENABLE pg)) + 16 * d.get (L.PAGE_FREEZE pg)
    else if off = 0x0C then pageStatus d pg
    else if off = 0x10 then evtRaw d pg
    else if off = 0x14 then d.get (L.EVT_LATCH pg)
    else if off = 0x18 then d.get (L.EVT_ENABLE pg)
    else if off = 0x20 then d.get (L.EVT_FIRST_BIT pg) + 256 * d.get (L.EVT_FIRST_VALID pg) + 512 * d.get (L.EVT_FIRST_SIM pg)
    else if off = 0x24 then d.get (L.EVT_FIRST_SEC pg)
    else if off = 0x28 then d.get (L.EVT_FIRST_NS pg)
    else if off = 0x30 then anchorStatusWord s.anchors pg
    else if 0x40 ≤ off ∧ p.window ∧ m < 2 then windowWord d m pg off
    else 0

/-! ## Command slots and their buffers (R50 to R54, R261) -/

/-- A master sees the slots of a page: page 0x05 belongs to the host and those of page 0x08 to the management complex (R35). -/
def slotSeen (m pg : Nat) : Bool := !(pg == 0x05 && m != 0) && !(pg == 0x08 && m == 0)

/-- RESULT word `j` of a slot as read now. -/
def resultWord (d : Dev) (id j : Nat) : Nat := if slotActive d id || slotCode d id == codeConsumed then 0 else d.get (L.SLOT_RESULT id j)

/-- A word of a slot. -/
def slotWord (d : Dev) (id r : Nat) : Nat :=
  if 0x04 ≤ r ∧ r ≤ 0x40 then d.get (L.SLOT_ARG id ((r - 4) / 4))
  else if r = 0x44 then slotCode d id + 65536 * d.get (L.SLOT_STATUS_SEQ id)
  else if r = 0x48 then d.get (L.SLOT_SEQ id)
  else if 0x4C ≤ r ∧ r ≤ 0x88 then resultWord d id ((r - 0x4C) / 4)
  else 0

/-- The read of the last word of a read-once result consumes the result (R54). -/
def slotReadEffect (d : Dev) (id r : Nat) : Dev :=
  if d.get (L.SLOT_READ_ONCE id) ≠ 0 ∧ r + 4 = 0x4C + 4 * d.get (L.SLOT_READ_ONCE id) ∧ slotCode d id = codeOk then d.set (L.SLOT_CODE id) codeConsumed
  else d

/-- Bytes of the slot buffers of a page, and of one slot's buffer. -/
def bufferSize (pg : Nat) : Nat := if pg = 0x05 ∨ pg = 0x08 then 128 else if pg = 0x06 then 1024 else if pg = 0x0D then 256 else 0

/-- A word of a slot buffer: it reads zero as the results do, a blob buffer only under a command that writes it. -/
def bufferWord (d : Dev) (pg sl j : Nat) : Nat :=
  let id := slotId pg sl
  let writes := !(pg == 0x05 || pg == 0x08) || writesBlob (slotOp d id)
  if writes && (slotActive d id || slotCode d id == codeConsumed) then 0
  else if pg = 0x05 then d.get (blobF sl j)
  else if pg = 0x08 then d.get (blobF (4 + sl) j)
  else if pg = 0x06 then d.get (R.LC_BUF sl j)
  else if pg = 0x0D then d.get (R.RECORD_BUF sl j)
  else 0

/-! ## Registers after the header -/

/-- Value of the fields of a word; a write-only field reads zero. -/
def fieldsWord (d : Dev) (pg off : Nat) (fs : List RegField) : Nat :=
  (fs.map fun f => if f.acc == .wo || slotHidden d pg off f.f then 0 else bitsOf (d.get f.f) f.sh f.w * 2 ^ f.lo).sum

/-- The word at `off` of a page as it stands. -/
def liveWord (s : State) (pg off : Nat) : Nat := fieldsWord (shown s pg off) pg off (pageRegs pg off)

/-- The word is the low word of a 64-bit register (R4). -/
def lowWord (pg off : Nat) : Bool := (pageRegs pg off).any fun f => f.sh == 0 && (pageRegs pg (off + 4)).any fun g => g.f == f.f && g.sh == 32
/-- The word is the high word of a 64-bit register. -/
def highWord (pg off : Nat) : Bool := (pageRegs pg off).any fun f => f.sh == 32

/-- Read-clear fields of a word that is read: a 64-bit counter clears in full with its low word (R37). -/
def readClears (d : Dev) (pg off : Nat) : Dev :=
  d.setAll (((pageRegs pg off).filter fun f => f.acc == .rc && f.sh == 0 && !slotHidden d pg off f.f).map fun f => (f.f, 0))

/-- The group of latched times that a word of page 0x02 belongs to, and its place in the group: 0 fraction, 1 to 3 (R68). -/
def timeWord (off : Nat) : Option (Nat × Nat) :=
  if 0x100 ≤ off ∧ off < 0x110 then some (0, (off - 0x100) / 4)
  else if 0x140 ≤ off ∧ off < 0x150 then some (1, (off - 0x140) / 4)
  else if 0x150 ≤ off ∧ off < 0x160 then some (2, (off - 0x150) / 4)
  else none

/-- A read of a word of a latched time (R68). -/
def timeRead (d : Dev) (m g k : Nat) : Dev × Nat :=
  let w := timeGroup d g
  let lat := d.get (L.TLATCH_LAST m) = g + 1
  if k = 0 then
    (d.setAll [(L.TLATCH_NS m g, w.2.1), (L.TLATCH_SEC_LO m g, w.2.2.1), (L.TLATCH_SEC_HI m g, w.2.2.2), (L.TLATCH_LAST m, g + 1)], w.1)
  else
    let v := if k = 1 then (if lat then d.get (L.TLATCH_NS m g) else w.2.1)
      else if k = 2 then (if lat then d.get (L.TLATCH_SEC_LO m g) else w.2.2.1)
      else (if lat then d.get (L.TLATCH_SEC_HI m g) else w.2.2.2)
    (if lat then d else d.set (L.TLATCH_LAST m) 0, v)

/-- A read of a register after the header: the latches, and what a read takes away. -/
def regRead (s : State) (m pg off : Nat) : Dev × Nat :=
  let d := s.d
  if pg = 0x02 ∧ (timeWord off).isSome then
    match timeWord off with
    | some (g, k) => timeRead d m g k
    | none => (d, 0)
  else
    let d := if pg = 0x02 then d.set (L.TLATCH_LAST m) 0 else d
    if pg = 0x02 ∧ off = 0x178 then ({ d with todRx := d.todRx.drop 1 }, todRxWord d)
    else if pg = 0x70 ∧ off = 0x10C then ({ d with saEvents := d.saEvents.drop 1 }, d.saEvents.headD 0)
    else
      let v := liveWord s pg off
      if lowWord pg off then
        (readClears (d.setAll [(L.LATCH_HI m pg, liveWord s pg (off + 4)), (L.LATCH_REG m pg, off + 1)]) pg off, v)
      else if highWord pg off && d.get (L.LATCH_REG m pg) + 4 == off + 1 then (d, d.get (L.LATCH_HI m pg))
      else (readClears d pg off, v)

/-! ## The whole read -/

/-- A debug page is open (R424). -/
def debugPageOpen (d : Dev) (pg : Nat) : Bool :=
  d.on R.DEBUG_STATUS_FULL_OPEN || (decide (pg < 0xF8) && d.on R.DEBUG_STATUS_LANE_OPEN)

/-- A read of one word of BAR0 by master `m` (R34 to R36). Of an opened debug page the manual gives only the page's identity: every other
word of it is free. -/
def busRead (s : State) (m addr : Nat) : State × Nat :=
  let pg := addr / 65536
  let off := addr % 65536 / 4 * 4
  let sl := (off - 0x1000) / 0x100
  let r := off % 0x100
  if s.power = .baseCampOnly then (s, 0)
  else if 0xF0 ≤ pg then
    if !debugPageOpen s.d pg || s.run.stopped then (s, 0)
    else if off = 0 then (s, 1 + 256 * (pg - 0xF0) + 65536 * 0xF0)
    else (s.setDev s.d.tookFree, s.d.freeVal 32)
  else if !s.live pg then (s, 0)
  else
    let s := if pg = 0x02 ∧ off < 0x80 then s.setDev (s.d.set (L.TLATCH_LAST m) 0) else s
    if off < 0x80 then (s, headerWord s m pg off)
    else if hasSlots pg ∧ 0x1000 ≤ off ∧ off < 0x1400 then
      if slotSeen m pg then (s.setDev (slotReadEffect s.d (slotId pg sl) r), slotWord s.d (slotId pg sl) r) else (s, 0)
    else if bufferSize pg ≠ 0 ∧ 0x2000 ≤ off ∧ off < 0x2000 + 4 * bufferSize pg then
      if slotSeen m pg then (s, bufferWord s.d pg ((off - 0x2000) / bufferSize pg) ((off - 0x2000) % bufferSize pg / 4)) else (s, 0)
    else
      let x := regRead s m pg off
      (s.setDev x.1, x.2)

/-- A read by the host or the management complex: the answer leaves the part. -/
def State.readRow (s : State) (m : Master) (addr : Nat) : State :=
  let x := busRead s m.num addr
  if s.power = .baseCampOnly then s else x.1.setDev (x.1.d.emit (.read m addr x.2))

/-- TIME_LATCH_READ (R68): a read of the group's fraction word. -/
def execTimeLatchRead (m : Master) (group : Fin 3) (s : State) : Host.Outcome State Fault Refusal :=
  .next (s.readRow m (2 * 65536 + timeGroupOff group))
/-- TOD_RX_READ (R76). -/
def execTodRxRead (m : Master) (s : State) : Host.Outcome State Fault Refusal := .next (s.readRow m 0x20178)
/-- SA_EVT_POP_READ (R198). -/
def execSaEvtPopRead (m : Master) (s : State) : Host.Outcome State Fault Refusal := .next (s.readRow m 0x70010C)
/-- RESULT_READ_ONCE (R54): the last RESULT word of the slot's read-once result; RESULT0 when the slot holds none. -/
def execResultReadOnce (m : Master) (pg : Fin 256) (slot : Fin 4) (s : State) : Host.Outcome State Fault Refusal :=
  .next (s.readRow m (pg.val * 65536 + 0x1000 + 0x100 * slot.val + 0x4C + 4 * (s.d.get (L.SLOT_READ_ONCE (slotId pg.val slot.val)) - 1)))

end Sys2Proof.Machine
end

