-- ==== Sys2Proof/Machine/PcieConfig.lean ====
section
/-! DEFINITION. What the PCIe function shows besides BAR0: its configuration values (R29, R30), Bus Master Enable and the D-state (R31),
and the reads of BAR2 (R32); and the rows that read a register. -/

namespace Sys2Proof.Machine

/-! ## Configuration values (R29, R30) -/

/-- The items of R29 that are numbers. -/
inductive ConfigItem where
  | vendor
  | device
  | revision
  | classCode
  | subsystemVendor
  | subsystem
  | serialNumber
  | msixVectors
  | maxPayload
  | maxReadRequest
  | outstanding
  deriving DecidableEq, Repr

/-- OTP word 0x042: Subsystem Vendor ID and Subsystem ID, which TEST and SCRAPPED do not show (R29, R408, R418). -/
def subsystemIds (s : State) : Nat :=
  if s.d.get R.LC_STATE = lcTest ∨ s.d.get R.LC_STATE = lcScrapped then 0 else otpWord s.otp 0x042

/-- Value of an item. The device identity and the subsystem IDs are those of OTP from PROVISIONED on, and zero before. -/
def configValue (s : State) : ConfigItem → Nat
  | .vendor => 0x1E58
  | .device => 0x8256
  | .revision => 0x01
  | .classCode => 0x028000
  | .subsystemVendor => subsystemIds s % 65536
  | .subsystem => subsystemIds s / 65536
  | .serialNumber => s.d.get R.DEVICE_ID
  | .msixVectors => 64
  | .maxPayload => 512
  | .maxReadRequest => 4096
  | .outstanding => 768

/-- A word of configuration space. PRESUMED: the type 0 header of PCI has the identifiers at their places, the command register at 0x04,
64-bit BARs at 0x10 and 0x18 and nothing at 0x20 and 0x30. DESIGN CHOICE: the capabilities stand at power management 0x40, MSI-X 0x50 and
device serial number 0x100; every other word, which R29 does not give, is free (log 29). -/
def configWord (s : State) (off : Nat) : Option Nat :=
  let v := configValue s
  if off = 0x00 then some (v .vendor + v .device * 65536)
  else if off = 0x04 then some (2 + 4 * b2n !(s.d.on L.PCI_BM_OFF) + 2 ^ 20)
  else if off = 0x08 then some (v .revision + v .classCode * 256)
  else if off = 0x20 ∨ off = 0x24 ∨ off = 0x30 then some 0
  else if off = 0x2C then some (v .subsystemVendor + v .subsystem * 65536)
  else if off = 0x34 then some 0x40
  else if off = 0x44 then some (3 * s.d.get L.PCI_D3HOT)
  else if off = 0x50 then some (0x11 + (v .msixVectors - 1) * 65536 + b2n (s.d.on L.MSIX_FMASK) * 2 ^ 30)
  else if off = 0x104 then some (v .serialNumber % 2 ^ 32)
  else if off = 0x108 then some (v .serialNumber / 2 ^ 32)
  else none

/-- A read of a word of configuration space by the host. -/
def configRead (s : State) (off : Nat) : State × Nat :=
  match configWord s off with
  | some w => (s, w)
  | none => (s.setDev s.d.tookFree, s.d.freeVal 32)

/-- A write of a word of configuration space: Bus Master Enable, the D-state, and the function mask of MSI-X (R31, R59). Host-ring DMA
follows the first two. -/
def configWrite (s : State) (off v : Nat) : State :=
  let d := s.d
  if s.power = .baseCampOnly then s
  else if off = 0x04 then s.setDev (d.setB L.PCI_BM_OFF !(bitAt v 2))
  else if off = 0x44 then (if v % 4 = 0 ∨ v % 4 = 3 then s.setDev (d.set L.PCI_D3HOT (v % 4 / 3)) else s)
  else if off = 0x50 then s.setDev (msixPendingEval (d.setB L.MSIX_FMASK (bitAt v 30)))
  else s

/-! ## Reading BAR2 (R32) -/

/-- A word of BAR2: the MSI-X table and the pending bit array; doorbells and every other offset read zero. -/
def bar2Word (d : Dev) (off : Nat) : Nat :=
  if 0x8000 ≤ off ∧ off < 0x8400 then
    let n := (off - 0x8000) / 16
    let r := off % 16
    if r = 0 then d.get (L.MSIX_ADDR n) % 2 ^ 32
    else if r = 4 then d.get (L.MSIX_ADDR n) / 2 ^ 32
    else if r = 8 then d.get (L.MSIX_DATA n)
    else d.get (L.MSIX_MASK n)
  else if off = 0x9000 then d.get L.MSIX_PENDING % 2 ^ 32
  else if off = 0x9004 then d.get L.MSIX_PENDING / 2 ^ 32
  else 0

/-- A read of one word in a space; BAR2 and configuration space are the host's. -/
def spaceRead (s : State) (m : Master) (bar : Bar) (addr : Nat) : State × Nat :=
  match bar with
  | .bar0 => busRead s m.num addr
  | .bar2 => (s, if m = .host then bar2Word s.d (addr / 4 * 4) else 0)
  | .config => if m = .host then configRead s (addr / 4 * 4) else (s, 0)

/-- The answer to a read leaves the part. -/
def State.answerRead (s : State) (m : Master) (bar : Bar) (addr : Nat) : State :=
  let x := spaceRead s m bar addr
  if s.power = .baseCampOnly then s else x.1.setDev (x.1.d.emit (.read m addr x.2))

/-! ## Rows -/

/-- REG64_LOW_READ (R37): an aligned 8-byte access reads the low word and then the high one (R33). -/
def execReg64LowRead (m : Master) (place : ReadPlace) (s : State) : Host.Outcome State Fault Refusal :=
  let t := s.answerRead m .bar0 place.addr.toNat
  .next (if place.wide then t.answerRead m .bar0 (place.addr.toNat + 4) else t)
/-- READ_CLEAR (R37, R42): a read of one word, which takes away what such a read takes away. -/
def execReadClear (m : Master) (place : SpacePlace) (s : State) : Host.Outcome State Fault Refusal :=
  .next (s.answerRead m place.bar place.addr.toNat)

end Sys2Proof.Machine
end

