-- ==== Sys2Proof/Machine/Remote.lean ====
section
/-! DEFINITION. Remote register access on the lead (R476): the two commands, their answer and their timeout. The member's side is in
RopeBus.lean. -/

namespace Sys2Proof.Machine

def opRemoteRead : Nat := 0x0010
def opRemoteWrite : Nat := 0x0011

/-- Payload of the REMOTE_REQ of a command: tag, operation, page, offset and value. -/
def remotePayload (d : Dev) (id op tag : Nat) : List Byte :=
  let a := slotArg d id 1
  beBytes 4 tag ++ [if op = opRemoteWrite then 2#8 else 1#8, 0#8, 0#8, 0#8, BitVec.ofNat 8 (a / 65536), 0#8] ++
    beBytes 2 (a % 65536 / 4 * 4) ++ beBytes 4 (if op = opRemoteWrite then slotArg d id 2 else 0)

/-- An accepted REMOTE_READ or REMOTE_WRITE of slot `i`: its refusals on the lead, then the request. -/
def remoteIssue (d : Dev) (i op : Nat) : Dev :=
  let id := slotId 0xA i
  let pos := slotArg d id 0 % 8
  if !isLead d || ropeState d != rpFormed then slotFail d id codeState 1
  else if pos = 0 ∨ ¬ bitAt (d.get R.ROPE_STATUS_MEMBERS) pos then slotEnd d id codeArg []
  else
    let tag := (d.get L.REM_TAG + 1) % 2 ^ 32
    let d := d.setAll [(L.REM_TAG, tag), (L.REM_SLOT_TAG i, tag), (L.REM_AT i, d.cyc), (L.SLOT_CODE id, codeRunning)]
    ropeSend d 0x30 (2 ^ pos) (remotePayload d id op tag)

/-- A remote command of slot `i` waits for its answer. -/
def remoteWaits (d : Dev) (i : Nat) : Bool :=
  let id := slotId 0xA i
  slotCode d id == codeRunning && (slotOp d id == opRemoteRead || slotOp d id == opRemoteWrite)

/-- A REMOTE_RESP from `origin` ends the command whose tag it carries. -/
def remoteResp (d : Dev) (origin : Nat) (p : List Byte) : Dev :=
  let tag := beVal (bytesAt p 0 4)
  let code := beVal (bytesAt p 5 1)
  match findBelow (fun i => remoteWaits d i && d.get (L.REM_SLOT_TAG i) == tag && slotArg d (slotId 0xA i) 0 % 8 == origin) 4 with
  | none => d
  | some i =>
    let id := slotId 0xA i
    if code ≠ codeOk then slotEnd d id code []
    else slotEnd d id codeOk (if slotOp d id = opRemoteRead then [beVal (bytesAt p 12 4)] else [])

/-- No answer has come for 100 µs. -/
def remoteTimeout (d : Dev) (i : Nat) : Dev :=
  if remoteWaits d i && decide (d.get (L.REM_AT i) + 100000 ≤ d.cyc) then slotFail d (slotId 0xA i) codeState 3 else d

/-- REMOTE_READ (R476). -/
def execRemoteRead (slot : Fin 4) (s : State) : Host.Outcome State Fault Refusal :=
  s.page 0xA fun d => slotRun d (slotId 0xA slot) opRemoteRead fun d => remoteIssue d slot opRemoteRead
/-- REMOTE_WRITE (R476). -/
def execRemoteWrite (slot : Fin 4) (s : State) : Host.Outcome State Fault Refusal :=
  s.page 0xA fun d => slotRun d (slotId 0xA slot) opRemoteWrite fun d => remoteIssue d slot opRemoteWrite
/-- REMOTE_TIMEOUT (R476). -/
def execRemoteTimeout (slot : Fin 4) (s : State) : Host.Outcome State Fault Refusal := s.lanes fun d => remoteTimeout d slot
/-- BELAY_REMOTE_RESP (R476). -/
def execBelayRemoteResp (b : Fin 2) (bytes : List Byte) (err : Bool) (violations : Nat) (s : State) : Host.Outcome State Fault Refusal :=
  s.lanes (belayRow 0x31 b bytes err violations fun d o p => (remoteResp d o p, false))

end Sys2Proof.Machine
end

