-- ==== Sys2Proof/Machine/Window.lean ====
section
/-! DEFINITION. The table window (R45 to R48): starting an operation, and what READ, WRITE and CLEAR do to each table at completion,
with the codes that the chapters refuse them with. -/

namespace Sys2Proof.Machine

/-! ## Writing several fields at once (R62) -/

/-- A field written with a value. -/
structure FieldWrite where
  f : Fld
  acc : Acc
  v : Nat
  deriving DecidableEq, Repr

/-- Store one written field: read-only fields keep their value, and so does a field of an anchored group. -/
def storeField (a : BitVec 10) (d : Dev) (x : FieldWrite) : Dev :=
  match x.acc with
  | .rw => d.set x.f x.v
  | .rwa g => if anchored a g then d else d.set x.f x.v
  | .w1s => if x.v % 2 ^ x.f.w = 0 then d else d.set x.f x.v
  | _ => d

/-- The write would have changed an anchored field. -/
def anchorHits (a : BitVec 10) (d : Dev) (x : FieldWrite) : Bool :=
  match x.acc with
  | .rwa g => anchored a g && x.v % 2 ^ x.f.w != d.get x.f
  | _ => false

/-- The fields of one register word or one table entry are written: DEDUCED, a write that differs in several anchored fields counts
once. -/
def putFields (a : BitVec 10) (d : Dev) (xs : List FieldWrite) : Dev :=
  let e := xs.foldl (storeField a) d
  if xs.any (anchorHits a d) then anchoredWrite e else e

/-- The fields of an entry with the values that an entry image gives them. -/
def entryFields (fs : List TblField) (v : Nat) : List FieldWrite := fs.map fun f => ⟨f.f, f.acc, bitsOf v f.lo f.w⟩
/-- The fields of an entry with their reset values. -/
def entryReset (fs : List TblField) : List FieldWrite := fs.map fun f => ⟨f.f, f.acc, f.f.reset⟩
/-- Entry image of an entry. -/
def entryImage (d : Dev) (fs : List TblField) : Nat := (fs.map fun f => d.get f.f % 2 ^ f.w * 2 ^ f.lo).sum
/-- Counters of an entry read zero. -/
def clearCounters (d : Dev) (fs : List TblField) : Dev := d.setAll ((fs.filter (·.acc == .rc)).map fun f => (f.f, 0))
/-- Every field of an entry, the read-only ones included, takes its reset value. -/
def clearAll (d : Dev) (fs : List TblField) : Dev := d.setAll (fs.map fun f => (f.f, f.f.reset))

/-- An operation that ends well. -/
def ok (d : Dev) : Dev × Nat := (d, codeOk)

/-! ## Waypoints (R85 to R88, R95) -/

/-- A target that a REG_WRITE may name (R88). -/
def regTargetOk (t : Nat) : Bool :=
  let pg := t / 65536
  let off := t % 65536
  off % 4 == 0 && (pageInfo pg).isSome && !(pg == 0x03 || pg == 0x05 || pg == 0x06 || pg == 0x07 || pg == 0x09 || pg == 0x0D) &&
    off != 0x30 && !(decide (0x40 ≤ off) && decide (off < 0x80)) && !(hasSlots pg && decide (0x1000 ≤ off))

/-- TARGET, ARG0 and ARG1 are in range for an action (R88). DEDUCED: where the column gives a field of ARG0, the other bits of ARG0 are
zero; where it gives 0, both words are zero; an argument that it does not name takes any value. -/
def wpArgsOk (a target a0 a1 period : Nat) : Bool :=
  if a = wpTxSaSwitch then decide (target < 4096) && decide (a0 < 4)
  else if a = wpSaEnable ∨ a = wpSaRetire then decide (a0 < 2) && decide (target < (if a0 = 1 then 65536 else 16384))
  else if a = wpGateListSwap then decide (target < 256) && a0 == 0 && a1 == 0
  else if a = wpWindowEdge then decide (target < 64) && decide (a0 ≤ 20)
  else if a = wpPpsEdge then decide (target < 2) && decide (10 ≤ a0) && decide (a0 ≤ 999999999) && (period == 0 || decide (a0 * fineNs < period))
  else if a = wpEyeScanStart then decide (target < 256) && decide (a0 < 16)
  else if a = wpTodSend ∨ a = wpMark then target == 0 && a0 == 0 && a1 == 0
  else if a = wpTimeStep then target == 0
  else if a = wpRegWrite then regTargetOk target
  else false

/-- The period suits the action (R85, R88). -/
def wpPeriodOk (a a0 period t : Nat) : Bool :=
  let unit := 2 ^ a0 * 1000 * fineNs
  if a = wpWindowEdge then (period == 0 || period == unit) && t % unit == 0
  else if a = wpPpsEdge ∨ a = wpEyeScanStart ∨ a = wpTodSend ∨ a = wpRegWrite ∨ a = wpMark then period == 0 || decide (1000 * fineNs ≤ period)
  else period == 0

/-- The entry has a cycle wherever its policy needs one (R88). -/
def wpCycleOk (a pol period : Nat) : Bool :=
  let p := if pol = 0 then wpDefaultPolicy a else pol
  p != 3 || a == wpGateListSwap || a == wpWindowEdge || a == wpPpsEdge || a == wpTodSend ||
    (decide (period ≠ 0) && (a == wpEyeScanStart || a == wpRegWrite || a == wpMark))

/-- The image can be stored (R85, R86, R88). -/
def wpImageOk (v : Nat) : Bool :=
  let a := bitsOf v 96 8
  let period := bitsOf v 224 40 * fineNs + bitsOf v 264 16 * 2 ^ 32
  let t := timeOf (bitsOf v 0 48) (bitsOf v 64 30) (bitsOf v 48 16)
  decide (bitsOf v 64 30 < 1000000000) &&
    (if a = 0 then !bitAt v 107 && (period == 0 || decide (1000 * fineNs ≤ period))
     else wpArgsOk a (bitsOf v 128 24) (bitsOf v 160 32) (bitsOf v 192 32) period && wpPeriodOk a (bitsOf v 160 32) period t &&
       wpCycleOk a (bitsOf v 104 2) period)

/-- An ARMED entry that the running engine is about to execute: it refuses a WRITE or CLEAR (R86). -/
def wpHeld (d : Dev) (n : Nat) : Bool :=
  d.on (L.PAGE_ENABLE 3) && d.get (R.WP_STATE n) == wpArmed && (d.on (L.WP_DUE n) || decide (wpT d n < d.time + wpMargin))

/-- A device in a rope executes a rope entry only when its own bit of MEMBER_MASK is set (R95). -/
def wpMine (d : Dev) (n mask : Nat) : Bool := decide (n < ropeFirst) || ropeState d == rpIdle || bitAt mask (ropePos d)

/-- An image is stored in entry `n` and committed now (R86, R87, R95). -/
def wpStore (d : Dev) (n v : Nat) : Dev :=
  let v := if n < ropeFirst then v - bitsOf v 112 8 * 2 ^ 112 else v
  let d := (entryFields (tbl03x0 n) v).foldl (storeField 0) d
  let d := d.setAll [(L.WP_DUE n, 0), (L.WP_CARRY n, 0)]
  if bitAt v 107 then
    let d := d.setAll [(R.WP_LATE n, 0), (R.WP_FAILED n, 0), (R.WP_DELAYED n, 0), (R.WP_FAIL_CODE n, 0), (R.WP_EXEC_COUNT n, 0), (R.WP_MISSED n, 0),
      (R.WP_LAST_EXEC_SEC n, 0), (R.WP_LAST_EXEC_NS n, 0)]
    if wpMine d n (bitsOf v 112 8) then
      let d := d.set (R.WP_STATE n) wpArmed
      if d.on (L.PAGE_ENABLE 3) then wpCommit d n d.time else d
    else d.set (R.WP_STATE n) wpEmpty
  else d.set (R.WP_STATE n) wpEmpty

/-- A window WRITE or CLEAR by this device's own masters: a member of a rope refuses the rope region (R95). DESIGN CHOICE: an image that
R85 or R88 refuses ends with ERR_ARG also where R86 gives ERR_STATE; the spec gives no order between the two (log 13). -/
def wpWindow (d : Dev) (n : Nat) (image : Option Nat) : Dev × Nat :=
  if decide (ropeFirst ≤ n) && ropeLocked d then (d.latch 3 5, codeState)
  else
    match image with
    | some v =>
      if !wpImageOk v then (d, codeArg)
      else if wpHeld d n then (d, codeState)
      else ok (ropeCommit (wpStore d n v) n (v % 2 ^ 288))
    | none =>
      if wpHeld d n then (d, codeState)
      else ok (ropeCommit ((clearAll d (tbl03x0 n)).setAll [(L.WP_DUE n, 0), (L.WP_CARRY n, 0)]) n 0)

/-! ## The SecY tables (R172 to R178, R190, R235, R280) -/

/-- Some SA of the SecY, on either side, is not EMPTY. -/
def secySas (d : Dev) (i : Nat) : Bool :=
  ((List.range 4).any fun a => saState d false (4 * i + a) != saEmpty) || (saListed d true).any fun j => rxSecy d j == i
/-- A PORT_CLASS entry names the SecY. -/
def secyClassed (d : Dev) (i : Nat) : Bool :=
  (d.listedEntries 0x70 4 12).any fun c => d.on (R.PORT_CLASS_SECY_VALID c) && d.get (R.PORT_CLASS_SECY c) == i
/-- VALID receive SCs. -/
def scListed (d : Dev) : List Nat := (d.listedEntries 0x70 2 0).filter fun c => d.on (R.RXSC_VALID c)

/-- WRITE of a SecY entry (R173, R174, R235). -/
def secyWrite (a : BitVec 10) (d : Dev) (i v : Nat) : Dev × Nat :=
  let port := bitsOf v 16 8 != d.get (R.SECY_PORT i)
  let id := port || bitsOf v 10 2 != d.get (R.SECY_CIPHER_SUITE i) || bitsOf v 128 64 != d.get (R.SECY_SCI i)
  let an := bitsOf v 14 2
  let switch := an != d.get (R.SECY_ENCODING_AN i) && (secyInService d i || d.on (R.SECY_SWITCH_PENDING i))
  if bitsOf v 6 2 = 3 ∨ bitsOf v 12 2 = 3 ∨ (bitAt v 3 ∧ (bitAt v 4 ∨ bitAt v 5)) then (d, codeArg)
  else if (id && secySas d i) || (port && secyClassed d i) then (d, codeState)
  else if switch && (d.on (R.SECY_SWITCH_PENDING i) || saState d false (4 * i + an) != saLoaded) then (d, codeState)
  else
    let old := d.get (R.SECY_ENCODING_AN i)
    let e := putFields a d (entryFields (tbl70x0 i) v)
    ok (if switch then e.setAll [(R.SECY_ENCODING_AN i, old), (R.SECY_PENDING_AN i, an), (R.SECY_SWITCH_PENDING i, 1), (L.SW_AT_V i, 0)] else e)

/-- CLEAR of a SecY entry (R174). -/
def secyClear (a : BitVec 10) (d : Dev) (i : Nat) : Dev × Nat :=
  let id := d.get (R.SECY_PORT i) != 0 || d.get (R.SECY_CIPHER_SUITE i) != 0 || d.get (R.SECY_SCI i) != 0
  if (id && secySas d i) || secyClassed d i || (scListed d).any (fun c => d.get (R.RXSC_SECY c) == i) then (d, codeState)
  else ok ((switchClear (putFields a d (entryReset (tbl70x0 i))) i).set (R.SECY_PENDING_AN i) 0)

/-- One of the SC's four receive SAs is not EMPTY. -/
def scSas (d : Dev) (i : Nat) : Bool := (List.range 4).any fun a => saState d true (4 * i + a) != saEmpty

/-- WRITE of a receive SC entry (R175). -/
def scWrite (d : Dev) (i v : Nat) : Dev × Nat :=
  let secy := bitsOf v 16 12
  let sci := bitsOf v 64 64
  let port (s : Nat) : Nat := d.get (R.SECY_PORT s)
  if (secy ≠ d.get (R.RXSC_SECY i) ∨ sci ≠ d.get (R.RXSC_SCI i)) ∧ scSas d i then (d, codeState)
  else if bitAt v 0 ∧ ¬ secyValid d secy then (d, codeState)
  else if bitAt v 0 ∧ (scListed d).any (fun c => c != i && d.get (R.RXSC_SCI c) == sci && port (d.get (R.RXSC_SECY c)) == port secy) then (d, codeArg)
  else ok (putFields 0 d (entryFields (tbl70x2 i) v))

/-- WRITE of an SA entry (R176, R177, R190). -/
def saWrite (d : Dev) (rx : Bool) (i v : Nat) : Dev × Nat :=
  let st := saState d rx i
  let suite := d.get (R.SECY_CIPHER_SUITE (saSecy d rx i))
  let next := bitsOf v 64 64
  if st = saInService then (d, codeSaInService)
  else if st ≠ saEmpty ∧ st ≠ saLoaded then (d, codeState)
  else if (if rx then !d.on (R.RXSC_VALID (i / 4)) else !secyValid d (i / 4)) then (d, codeState)
  else if bitsOf v 8 2 = 3 ∨ (suite < 2 ∧ 2 ^ 32 ≤ next) ∨ (¬ rx ∧ next = 0) ∨ (rx ∧ max 1 next < max 1 (bitsOf v 160 64)) then (d, codeArg)
  else ok (putFields 0 d (entryFields (if rx then tbl70x3 i else tbl70x1 i) v))

/-- CLEAR of an SA entry (R190, R192): an SA that drains keeps the operation open, which code RUNNING says. -/
def saWindowClear (d : Dev) (rx : Bool) (i : Nat) : Dev × Nat :=
  let st := saState d rx i
  (saClear d rx i, if st = saInService ∨ st = saDraining then codeRunning else codeOk)

/-- WRITE of a PORT_CLASS entry (R164, R172): a written POLICY of 3 leaves the field unchanged. -/
def portClassWrite (a : BitVec 10) (d : Dev) (i v : Nat) : Dev × Nat :=
  let secy := bitsOf v 0 12
  if bitAt v 12 ∧ ¬ secyValid d secy then (d, codeState)
  else if bitAt v 12 ∧ d.get (R.SECY_PORT secy) ≠ i / 16 then (d, codeArg)
  else
    let pol := d.get (R.PORT_CLASS_POLICY i)
    let e := putFields a d (entryFields (tbl70x4 i) v)
    ok (if bitsOf v 16 2 = 3 then e.set (R.PORT_CLASS_POLICY i) pol else e)

/-- The SA has an owner: its receive SC, or the SecY of its transmit SC, is VALID (R177). -/
def saOwned (d : Dev) (rx : Bool) (i : Nat) : Bool := if rx then d.on (R.RXSC_VALID (i / 4)) else secyValid d (i / 4)

/-- WRITE of table 7: a key without a vault parent (R178, R280). -/
def directKeyWrite (d : Dev) (i v : Nat) : Dev × Nat :=
  let rx := decide (16384 ≤ i)
  let j := if rx then i - 16384 else i
  let suite := d.get (R.SECY_CIPHER_SUITE (saSecy d rx j))
  let key := bitsOf v 0 256
  let salt := bitsOf v 256 96
  if !d.on R.SAK_POLICY_DIRECT_SAK_WRITE || !saOwned d rx j then (d, codeState)
  else if (suite % 2 = 0 ∧ 2 ^ 128 ≤ key) ∨ (suite < 2 ∧ salt ≠ 0) then (d, codeArg)
  else
    let x := saLoadKey d rx j key salt none
    if x.2 = codeOk then ok ((x.1.count 5 R.DIRECT_SAK_COUNT).latch 5 11) else x

/-! ## Rings (R345, R363) -/

/-- WRITE of a RING_CFG entry; rings 128 and 129 are those of MGMT0. -/
def ringEntryWrite (run : RunState) (d : Dev) (n v : Nat) (fs : List TblField) : Dev × Nat :=
  let cur := ringEnabled d n
  let changes := fs.any fun f => f.lo != 0 && bitsOf v f.lo f.w != d.get f.f
  let size := bitsOf v 3 5
  let buf := bitsOf v 16 14
  if cur && changes then (d, codeState)
  else if bitAt v 0 ∧ (size < 4 ∨ 16 < size ∨ buf < 256 ∨ 16128 < buf ∨ buf % 64 ≠ 0 ∨ bitsOf v 32 64 % 4096 ≠ 0) then (d, codeArg)
  else
    let d := d.setAll ((fs.filter (·.lo != 0)).map fun f => (f.f, bitsOf v f.lo f.w))
    ok (if bitAt v 0 then (if cur then d else ringStart run d n) else ringDisable d n)

/-- CLEAR of a RING_CFG entry: the ring stops, and the other fields take their reset values. -/
def ringEntryClear (d : Dev) (n : Nat) (fs : List TblField) : Dev :=
  (ringDisable d n).setAll ((fs.filter (·.lo != 0)).map fun f => (f.f, f.f.reset))

/-! ## Telemetry (R508 to R519, R525) -/

/-- WRITE of a QUEUE_TELEM entry: FORCE_HWM can change the queue's mode (R514, R517). -/
def queueTelWrite (run : RunState) (d : Dev) (g v : Nat) : Dev :=
  let was := hwmMode run d g
  let d := putFields 0 d (entryFields (tbl0Cx0 g) v)
  hwmChange d g was (hwmMode run d g)

/-- WRITE of a PORT_TELEM entry (R510). -/
def portTelWrite (d : Dev) (p v : Nat) : Dev × Nat :=
  if d.on (R.PTEL_WINDOW_EN p) ∧ bitsOf v 0 6 ≠ d.get (R.PTEL_WINDOW_GROUP p) then (d, codeState)
  else
    let d := putFields 0 d (entryFields (tbl0Cx1 p) v)
    ok (if d.on (R.PTEL_WINDOW_EN p) then d else winDiscard d p)

/-- WRITE of a THRESHOLD entry (R518). -/
def thresholdWrite (d : Dev) (i v : Nat) : Dev × Nat :=
  let kind := bitsOf v 0 3
  let ix := bitsOf v 16 13
  let limit := if kind = 1 ∨ kind = 5 then numQueues else if kind = 2 then 8 else if kind = 3 then 256 else 8192
  if 6 ≤ kind ∨ limit ≤ ix then (d, codeArg)
  else
    let d := thrSync d
    let changed := kind != d.get (R.THR_KIND i) || ix != d.get (R.THR_INDEX i) || bitsOf v 32 32 != d.get (R.THR_N i)
    let d := (putFields 0 d (entryFields (tbl0Cx2 i) v)).set (L.THR_SINCE i) d.cyc
    ok (if changed then (d.setAll [(R.THR_COUNT i, 0), (R.THR_CROSSINGS i, 0), (R.THR_ABOVE i, 0)]).setBit R.THRESH_ABOVE i false else d)

/-! ## Classifier and forwarding (R285, R307) -/

/-- WRITE of an ACTION entry (R284). -/
def actionWrite (d : Dev) (i v : Nat) : Dev × Nat :=
  if (bitsOf v 1 2 = 1 ∧ 255 < bitsOf v 16 14) ∨ (bitAt v 47 ∧ (bitsOf v 48 12 = 0 ∨ bitsOf v 48 12 = 4095)) then (d, codeArg)
  else ok (putFields 0 d (entryFields (tbl71x2 i) v))

/-! ## The buffer's queues (R297) -/

/-- WRITE or CLEAR of a QUEUE_CFG entry: the reserve follows MIN_CELLS, and so does the part of the charge that draws on the pool. -/
def queueCfgWrite (d : Dev) (g v : Nat) : Dev × Nat :=
  let charge := d.get (R.QSTAT_CHARGE g)
  let old := d.get (R.QCFG_MIN_CELLS g)
  let new := bitsOf v 4 17
  let k := d.get (R.QCFG_POOL g)
  if 11 ≤ bitsOf v 24 4 then (d, codeArg)
  else if bitsOf v 0 3 ≠ k ∧ charge ≠ 0 then (d, codeState)
  else if cellBudget < poolTotal d + d.get R.RESERVE_TOTAL - old + new then (d.set R.BUF_STATUS_CFG_REFUSED 1, codeArg)
  else
    let d := thrSync d
    let before := poolFree d k
    let d := d.setAll [(R.RESERVE_TOTAL, d.get R.RESERVE_TOTAL - old + new), (R.POOL_CHARGE k, d.get (R.POOL_CHARGE k) + (charge - new) - (charge - old)),
      (R.BUF_STATUS_CFG_REFUSED, 0)]
    let d := d.latchIf (decide (0 < before) && decide (poolFree d k ≤ 0)) 0x74 k
    ok (putFields 0 d (entryFields (tbl74x0 g) v))

/-- WRITE of a WRED profile (R302). -/
def wredWrite (d : Dev) (i v : Nat) : Dev × Nat :=
  if (List.range 3).any fun c => decide (bitsOf v (96 * c + 32) 19 < bitsOf v (96 * c) 19) then (d, codeArg)
  else ok (putFields 0 d (entryFields (tbl74x1 i) v))

/-! ## Schedulers (R312 to R319, R329, R334) -/

/-- Written values of a QUEUE_SCHED entry (R315, R316). -/
def queueSchedPut (d : Dev) (g : Nat) (xs : List FieldWrite) : Dev :=
  let was := d.on (R.QSCHED_CBS_EN g)
  let d := putFields 0 (cbsSync d g) xs
  if !was && d.on (R.QSCHED_CBS_EN g) then d.setAll [(L.CBS_FINE g, 0), (L.CBS_SINCE g, d.time)] else d

/-- Written values of a PORT_SCHED entry (R317, R329). -/
def portSchedPut (d : Dev) (p : Nat) (xs : List FieldWrite) : Dev :=
  let en := d.get (R.PSCHED_PREEMPT_EN p)
  let ver := d.get (R.PSCHED_VERIFY_EN p)
  let e := putFields 0 d xs
  let e := if 3 < iface d p then e.set (R.PSCHED_PREEMPT_EN p) en else e
  let e := e.setAll [(L.SHP_DEF p, 0), (L.SHP_SINCE p, e.time)]
  if en = e.get (R.PSCHED_PREEMPT_EN p) ∧ ver = e.get (R.PSCHED_VERIFY_EN p) then e else preemptConfig e p

/-- Written values of a POLICER entry: both buckets are full (R319). -/
def policerPut (d : Dev) (i : Nat) (xs : List FieldWrite) : Dev :=
  (putFields 0 d xs).setAll [(L.POL_TC_DEF i, 0), (L.POL_TP_DEF i, 0), (L.POL_SINCE i, d.time)]

/-! ## Gates (R321, R325, R336) -/

/-- WRITE of an admin list entry; `i` counts across the pages. -/
def adminListWrite (d : Dev) (i v : Nat) : Dev × Nat :=
  if d.on (R.GATE_CONFIG_PENDING (i / 256)) then (d, codeState)
  else if bitsOf v 16 2 = 3 ∨ (1 ≤ bitsOf v 32 32 ∧ bitsOf v 32 32 ≤ 15) then (d, codeArg)
  else ok (putFields 0 d (entryFields (tbl80x0 i) v))

/-- The gates of a port follow what its entry of table 1 now says, with no list in operation (R321). -/
def gateFollow (d : Dev) (p : Nat) : Dev := if d.on (L.GATE_RUN p) then d else gateStatesSet d p (gateStates d p)

/-- An admin field of the port's entry of table 1 would change. -/
def adminChanges (d : Dev) (p v : Nat) : Bool :=
  (tbl80x1 p).any fun f => f.acc == .rw && f.lo != 0 && bitsOf v f.lo f.w != d.get f.f

/-- WRITE of a GATE_PORT entry. DEDUCED: while a change is pending, a WRITE of GATE_ENABLE 0 that leaves the admin fields as they are
is the withdrawal of R321, and every other WRITE is refused under R325. -/
def gatePortWrite (d : Dev) (p v : Nat) : Dev × Nat :=
  if d.on (R.GATE_CONFIG_PENDING p) && (bitAt v 0 || adminChanges d p v) then (d, codeState)
  else if 1000000000 ≤ bitsOf v 80 30 then (d, codeArg)
  else
    let was := d.on (R.GATE_GATE_ENABLE p)
    let d := putFields 0 (cbsSyncPort d p) (entryFields (tbl80x1 p) v)
    ok (if bitAt v 0 then gateFollow d p else if was then d.post (.gateOff p) else d)

/-! ## READ, WRITE and CLEAR of any table -/

/-- Fields of an entry, when the page lists the table and the table has the entry (R45). -/
def windowEntry (pg t i : Nat) : Option (List TblField) :=
  match tableAt pg t i with
  | some (n, fs) => if i < n then some fs else none
  | none => none

/-- An entry of a scheduler page that no port slot serves reads zero (R334). -/
def entryBlank (d : Dev) (pg t i : Nat) : Bool :=
  entryUnserved d pg t i || (decide (0x78 ≤ pg) && decide (pg ≤ 0x7F) &&
    ((t == 2 && !served d (((pg - 0x78) * 512 + i) / 16)) || (t == 5 && !served d ((pg - 0x78) * 32 + i))))

/-- READ (R47, R48): table 7 of page 0x70 holds keys. -/
def tblRead (s : State) (pg t i : Nat) (fs : List TblField) : Nat :=
  if entryBlank s.d pg t i then 0 else entryImage (shownEntry s pg t i) fs

/-- WRITE of an image (R47). -/
def tblWrite (s : State) (pg t i : Nat) (fs : List TblField) (v : Nat) : Dev × Nat :=
  let d := s.d
  let a := s.anchors
  let plain := ok (putFields a d (entryFields fs v))
  if pg = 0x03 then wpWindow d i (some v)
  else if pg = 0x04 then ok (requesterWrite d i (bitsOf v 0 12) (bitsOf v 16 12))
  else if pg = 0x08 then ringEntryWrite s.run d (128 + i) v fs
  else if pg = 0x0B ∧ t = 0 then ringEntryWrite s.run d i v fs
  else if pg = 0x0C then (if t = 0 then ok (queueTelWrite s.run d i v) else if t = 1 then portTelWrite d i v else thresholdWrite d i v)
  else if pg = 0x70 ∧ t < 8 then
    if t = 0 then secyWrite a d i v
    else if t = 1 then saWrite d false i v
    else if t = 2 then scWrite d i v
    else if t = 3 then saWrite d true i v
    else if t = 4 then portClassWrite a d i v
    else if t = 5 then plain
    else if t = 6 then (if i < 2 then ok d else plain)
    else directKeyWrite d i v
  else if pg = 0x71 ∧ t < 3 then
    if t = 2 then actionWrite d i v
    else if d.on (R.CLSACT_VALID i) then (d, codeState)
    else if t = 0 ∧ 3 ≤ bitsOf v 193 3 then (d, codeArg)
    else plain
  else if pg = 0x72 ∧ t ≠ 3 ∧ t ≠ 5 then
    if t = 6 ∧ (bitsOf v 0 12 = 0 ∨ bitsOf v 0 12 = 4095) then (d, codeArg) else plain
  else if pg = 0x74 ∧ t < 2 then (if t = 0 then queueCfgWrite d i v else wredWrite d i v)
  else if 0x78 ≤ pg ∧ pg ≤ 0x7F ∧ (t = 0 ∨ t = 1 ∨ t = 3) then
    if entryUnserved d pg t i then ok d
    else if t = 0 then ok (queueSchedPut d ((pg - 0x78) * 512 + i) (entryFields fs v))
    else if t = 1 then ok (portSchedPut d ((pg - 0x78) * 32 + i) (entryFields fs v))
    else if bitsOf v 32 32 < bitsOf v 0 32 then (d, codeArg)
    else ok (policerPut d ((pg - 0x78) * 512 + i) (entryFields fs v))
  else if 0x80 ≤ pg ∧ t = 0 then adminListWrite d ((pg - 0x80) * 8192 + i) v
  else if 0x80 ≤ pg ∧ t = 1 then gatePortWrite d ((pg - 0x80) * 32 + i) v
  else (d, codeArg)

/-- CLEAR (R47). Where the spec gives a CLEAR no rule of its own it writes the reset values of the entry's fields and zeroes its
counters; DEDUCED: live values that the entry only shows stay. -/
def tblClear (s : State) (pg t i : Nat) (fs : List TblField) : Dev × Nat :=
  let d := s.d
  let a := s.anchors
  let plain := ok (clearCounters (putFields a d (entryReset fs)) fs)
  if pg = 0x03 then wpWindow d i none
  else if pg = 0x04 ∨ pg = 0x05 ∨ pg = 0x07 ∨ pg = 0x0D ∨ (0x10 ≤ pg ∧ pg ≤ 0x2F) then (d, codeArg)
  else if pg = 0x08 then ok (ringEntryClear d (128 + i) fs)
  else if pg = 0x0A then ok (clearAll d fs)
  else if pg = 0x0B ∧ t = 0 then ok (ringEntryClear d i fs)
  else if pg = 0x0C then
    if t = 0 then ok (d.setAll [(R.QTEL_MAX_DEPTH i, 0), (R.QTEL_MAX_SOJOURN i, 0)])
    else if t = 1 then ok (d.setAll [(R.PTEL_LAST_RX_BYTES i, 0), (R.PTEL_LAST_RX_FRAMES i, 0), (R.PTEL_LAST_TX_FRAMES i, 0),
      (R.PTEL_LAST_TX_BYTES i, 0), (R.PTEL_LAST_RX_ERRORED i, 0), (R.PTEL_LAST_TX_POISONED i, 0)])
    else ok ((thrSync d).setAll [(R.THR_COUNT i, 0), (R.THR_CROSSINGS i, 0)])
  else if pg = 0x70 ∧ t < 8 then
    if t = 0 then secyClear a d i
    else if t = 1 then saWindowClear d false i
    else if t = 2 then (if scSas d i then (d, codeState) else plain)
    else if t = 3 then saWindowClear d true i
    else if t = 6 ∧ i < 2 then ok d
    else if t = 7 then (d, codeArg)
    else plain
  else if pg = 0x71 ∧ t < 2 ∧ d.on (R.CLSACT_VALID i) then (d, codeState)
  else if pg = 0x72 ∧ t = 3 then ok (fdbRemove d i)
  else if pg = 0x74 ∧ t = 0 then queueCfgWrite d i (entryImage Dev.empty fs)
  else if 0x78 ≤ pg ∧ pg ≤ 0x7F ∧ entryUnserved d pg t i then ok d
  else if 0x78 ≤ pg ∧ pg ≤ 0x7F ∧ t = 0 then ok (queueSchedPut d ((pg - 0x78) * 512 + i) (entryReset fs))
  else if 0x78 ≤ pg ∧ pg ≤ 0x7F ∧ t = 1 then ok (portSchedPut d ((pg - 0x78) * 32 + i) (entryReset fs))
  else if 0x78 ≤ pg ∧ pg ≤ 0x7F ∧ t = 3 then ok (policerPut d ((pg - 0x78) * 512 + i) (entryReset fs))
  else if 0x80 ≤ pg ∧ t = 1 then
    let p := (pg - 0x80) * 32 + i
    let e := clearCounters (putFields a (cbsSyncPort d p) (entryReset fs)) fs
    ok (if d.on (R.GATE_GATE_ENABLE p) then e.post (.gateOff p) else e)
  else if 0x80 ≤ pg ∧ t = 2 then (d, codeArg)
  else plain

/-! ## The window of a master on a page -/

/-- The master has a table window on the page: the host and the management complex do (R35). -/
def hasWindow (m pg : Nat) : Bool :=
  match pageInfo pg with
  | some p => p.window && decide (m < 2)
  | none => false

/-- TBL_CMD is written (R45, R46). -/
def windowStart (d : Dev) (m pg op : Nat) : Dev :=
  if d.on (L.WIN_BUSY m pg) then d.set (L.WIN_COLLIDE m pg) 1
  else if op = 0 then d
  else d.setAll [(L.WIN_BUSY m pg, 1), (L.WIN_CODE m pg, codeRunning), (L.WIN_COLLIDE m pg, 0), (L.WIN_OP m pg, op)]

/-- The operation ends. -/
def windowEnd (d : Dev) (m pg code : Nat) : Dev := d.setAll [(L.WIN_BUSY m pg, 0), (L.WIN_CODE m pg, code), (L.WIN_OP m pg, 0)]

/-- The SA that a CLEAR waits for has not drained (R192). -/
def clearWaits (d : Dev) (pg t i : Nat) : Bool := pg == 0x70 && (t == 1 || t == 3) && saState d (t == 3) i == saDraining

/-- The operation of a window completes (R45): it is here that it reads or changes the entry. -/
def windowDone (s : State) (m pg : Nat) : Dev :=
  let d := s.d
  let t := d.get (L.WIN_TABLE m pg)
  let i := d.get (L.WIN_INDEX m pg)
  let op := d.get (L.WIN_OP m pg)
  if !d.on (L.WIN_BUSY m pg) then d
  else if op = 0 then (if clearWaits d pg t i then d else windowEnd d m pg codeOk)
  else
    match windowEntry pg t i with
    | none => windowEnd d m pg codeArg
    | some fs =>
      if op = 1 then windowEnd (d.set (L.WIN_DATA m pg) (tblRead s pg t i fs)) m pg codeOk
      else
        let x := if op = 2 then tblWrite s pg t i fs (d.get (L.WIN_DATA m pg)) else tblClear s pg t i fs
        if x.2 = codeRunning then x.1.set (L.WIN_OP m pg) 0 else windowEnd x.1 m pg x.2

/-- A row of the window: the page responds and has a window. -/
def State.window (s : State) (m : Master) (pg : Fin 256) (f : Dev → Dev) : Host.Outcome State Fault Refusal :=
  s.page pg.val fun d => if hasWindow m.num pg.val then f d else d

/-- TBL_READ (R45, R47). -/
def execTblRead (m : Master) (pg : Fin 256) (s : State) : Host.Outcome State Fault Refusal := s.window m pg fun d => windowStart d m.num pg.val 1
/-- TBL_WRITE (R45, R47). -/
def execTblWrite (m : Master) (pg : Fin 256) (s : State) : Host.Outcome State Fault Refusal := s.window m pg fun d => windowStart d m.num pg.val 2
/-- TBL_CLEAR (R45, R47). -/
def execTblClear (m : Master) (pg : Fin 256) (s : State) : Host.Outcome State Fault Refusal := s.window m pg fun d => windowStart d m.num pg.val 3
/-- TBL_OP_DONE (R45). -/
def execTblOpDone (m : Master) (pg : Fin 256) (s : State) : Host.Outcome State Fault Refusal :=
  s.window m pg fun _ => windowDone s m.num pg.val

end Sys2Proof.Machine
end

