-- ==== Sys2Proof/Machine/Bus.lean ====
section
/-! DEFINITION. Writing BAR0, BAR2 and configuration space (R31 to R38, R42, R45, R50 to R52, R62): the held low word, the page header with its enables and
soft resets (R544), the command slots, and what a write does to each register. Masters have the numbers of View.lean. -/

namespace Sys2Proof.Machine

/-- The rights with which a master acts: a device of the rope has those of the management complex (R476). -/
def actsAs (m : Nat) : Master := if m = 0 then .host else .mgmt

/-! ## Fields of a word -/

/-- The fields of a word with the values that a write gives them. -/
def wordWrites (d : Dev) (pg off v : Nat) : List FieldWrite :=
  (pageRegs pg off).map fun x => ⟨x.f, x.acc, setBits (d.get x.f) x.sh x.w (bitsOf v x.lo x.w)⟩

/-- A one-bit W1C field that is written 1 clears. -/
def wordClears (d : Dev) (pg off v : Nat) : Dev :=
  d.setAll (((pageRegs pg off).filter fun x => x.acc == .w1c && x.w == 1 && bitAt v x.lo).map fun x => (x.f, 0))

/-- The fields of a word that `keep` selects take what is written to them (R62). -/
def wordSome (a : BitVec 10) (d : Dev) (pg off v : Nat) (keep : Fld → Bool) : Dev :=
  wordClears (putFields a d ((wordWrites d pg off v).filter fun x => keep x.f)) pg off v

/-- A word with no rule of its own. -/
def wordPut (a : BitVec 10) (d : Dev) (pg off v : Nat) : Dev := wordSome a d pg off v fun _ => true

/-- The fields of an anchored group are compared as written; before the anchor they are stored as `adj` gives them (R62). -/
def wordAnchored (a : BitVec 10) (g : Nat) (d : Dev) (pg off v : Nat) (adj : FieldWrite → FieldWrite) : Dev :=
  let xs := wordWrites d pg off v
  putFields a d (if anchored a g then xs else xs.map adj)

/-! ## 64-bit registers (R38) -/

/-- The word is the low word of a 64-bit RW register. -/
def wideLow (pg off : Nat) : Bool :=
  (pageRegs pg off).any fun f => f.acc == .rw && f.sh == 0 && (pageRegs pg (off + 4)).any fun g => g.f == f.f && g.sh == 32
/-- The word is the high word of a 64-bit RW register. -/
def wideHigh (pg off : Nat) : Bool := (pageRegs pg off).any fun f => f.acc == .rw && f.sh == 32

/-- A write of the master to another register of the page discards its held low word. -/
def heldDrop (d : Dev) (m pg off : Nat) : Dev :=
  let h := d.get (L.HELD_REG m pg)
  if h = 0 ∨ h = off + 1 ∨ h + 4 = off + 1 then d else d.setAll [(L.HELD_REG m pg, 0), (L.HELD_LO m pg, 0)]

/-- BASE, LIMIT or META_BASE of range `r` is committed: locked from the enable request on (R436). -/
def rangeLocked (d : Dev) (r : Nat) : Dev := (d.set (R.RANGE_STATUS_CFG_REFUSED r) 1).latch 9 1
def rangeWide (d : Dev) (r : Nat) (f : Fld) (v : Nat) : Dev :=
  if d.on (R.RANGE_CTRL_ENABLE r) then rangeLocked d r else d.set f (v / 4096 * 4096)

/-- Both words of a 64-bit register are committed; `off` is its low word. -/
def wideCommit (d : Dev) (pg off v : Nat) : Dev :=
  match pageRegs pg off with
  | x :: _ =>
    if pg = 0x02 ∧ off = 0x110 then rateCommit d v
    else if pg = 0x09 then rangeWide d ((off - 0x100) / 0x40) x.f v
    else if pg = 0x0C then
      let r := (off - 0x400) / 0x20
      if d.on (R.TRING_CFG_ENABLE r) then d else d.set x.f (v / 4096 * 4096)
    else d.set x.f v
  | [] => d

/-- The low word is held. -/
def wideHold (d : Dev) (m pg off v : Nat) : Dev := d.setAll [(L.HELD_LO m pg, v), (L.HELD_REG m pg, off + 1)]

/-- The high word is written: with the held low word, or with the current one. -/
def wideWrite (d : Dev) (m pg off v : Nat) : Dev :=
  match pageRegs pg off with
  | x :: _ =>
    let lo := if d.get (L.HELD_REG m pg) + 4 = off + 1 then d.get (L.HELD_LO m pg) else d.get x.f % 2 ^ 32
    wideCommit (d.setAll [(L.HELD_REG m pg, 0), (L.HELD_LO m pg, 0)]) pg (off - 4) (lo + bitsOf v x.lo x.w * 2 ^ 32)
  | [] => d

/-! ## Soft reset (R544, R165, R333, R525) -/

/-- The counters among the registers of a page read zero. -/
def zeroCounters (d : Dev) (pg : Nat) : Dev :=
  { d with cells := d.cells.filter fun c =>
      !(decide (pageKey pg ≤ c.1) && decide (c.1 < pageKey (pg + 1)) &&
        (pageRegs pg (c.1 / 64 % 65536)).any fun x => x.acc == .rc && x.f.key == c.1) }

/-- The cells of the entries of a table whose field lies in `[lo, hi)` go, but for those that `keep` names. -/
def dropTable (d : Dev) (pg t lo hi : Nat) (keep : Nat → Bool) : Dev :=
  let k := tblKey pg t 0
  { d with cells := d.cells.filter fun c =>
      !(decide (k ≤ c.1) && decide (c.1 < tblKey pg (t + 1) 0) && decide (lo ≤ (c.1 - k) % 512) && decide ((c.1 - k) % 512 < hi) &&
        !keep ((c.1 - k) % 512)) }

/-- An SA is DRAINING. -/
def anyDraining (d : Dev) : Bool := [false, true].any fun rx => (saListed d rx).any fun i => saState d rx i == saDraining

/-- The last part of the soft reset of page 0x70, once no SA drains: the tables return to their reset values, but for the fields of
anchor groups 0 to 2 (R165). -/
def secyResetEnd (d : Dev) : Dev :=
  if !d.on L.SECY_RST || anyDraining d then d
  else
    let d := [false, true].foldl (fun d rx => (saListed d rx).foldl (fun d i => saToEmpty d rx i) d) d
    let d := dropTable d 0x70 0 0 512 (fun lo => lo == 64)
    let d := [1, 2, 3, 8, 9, 10, 11, 12, 13].foldl (fun d n => dropTable d 0x70 n 0 512 fun _ => false) d
    (dropTable d 0x70 4 0 512 (fun lo => lo == 16 || lo == 32)).set L.SECY_RST 0

/-- Soft reset of page 0x70 (R165): the event queue is emptied, pending switches go without a count on the port's page (R544), and SAs in
service drain while the others empty; the block is busy until the tables have followed. -/
def secyReset (d : Dev) : Dev :=
  let d := ({ d with saEvents := [], txHeld := [] }).setAll [(R.SA_EVT_STATUS_OVERFLOW, 0), (R.SA_EVT_LOST, 0), (L.SECY_RST, 1)]
  let d := (d.listedEntries 0x70 0 ((R.SECY_SWITCH_PENDING 0).key % 512)).foldl switchClear d
  let d := (d.clearGroup (L.SW_AT_V 0)).clearGroup (L.SW_AT 0)
  let go (rx : Bool) (d : Dev) : Dev := (saListed d rx).foldl (fun d i =>
    let st := saState d rx i
    if st = saInService then saToDraining d rx i else if st = saLoaded ∨ st = saExhausted then saToEmpty d rx i else d) d
  secyResetEnd (go true (go false d))

/-- Soft reset of a traffic-manager page: deficits, credits and counters zero, and every bucket full. -/
def schedReset (d : Dev) (k : Nat) : Dev :=
  let d := (List.range 512).foldl (fun d i =>
    let g := 512 * k + i
    d.setAll [(R.QSTATE_DEFICIT g, 0), (R.QSTATE_CREDIT g, 0), (L.CBS_FINE g, 0), (L.CBS_SINCE g, d.time), (L.POL_TC_DEF g, 0),
      (L.POL_TP_DEF g, 0), (L.POL_SINCE g, d.time)]) d
  let d := (List.range 32).foldl (fun d i => d.setAll [(L.SHP_DEF (32 * k + i), 0), (L.SHP_SINCE (32 * k + i), d.time)]) d
  let zero (d : Dev) (t n i : Nat) : Dev := match tableAt 0x78 t (n * k + i) with
    | some (_, fs) => clearCounters d fs
    | none => d
  let all (t n : Nat) (d : Dev) : Dev := (List.range n).foldl (fun d i => zero d t n i) d
  all 5 32 (all 4 512 (all 3 512 (all 2 512 (all 1 32 (all 0 512 d)))))

/-- Soft reset of page 0x0C. -/
def telReset (d : Dev) : Dev :=
  let d := zeroCounters (thrSync d) 0xC
  let d := d.each 256 fun p d => winZero (winZero d p 0) p 1
  let d := dropTable d 0xC 0 0 512 fun lo => lo != (R.QTEL_MAX_DEPTH 0).key % 512 && lo != (R.QTEL_MAX_SOJOURN 0).key % 512
  let d := d.each 64 fun i d => d.setAll [(R.THR_COUNT i, 0), (R.THR_CROSSINGS i, 0)]
  d.each 4 fun r d => d.set (R.TRING_CFG_ENABLE r) 0

/-- The buckets of page 0x08 are full. -/
def puntRefill (d : Dev) : Dev :=
  (d.each 16 fun c d => d.setAll [(L.CLS_DEF c, 0), (L.CLS_SINCE c, d.time), (L.RES_DEF c, 0), (L.RES_SINCE c, d.time)]).setAll
    [(L.CEIL_DEF, 0), (L.CEIL_SINCE, d.time)]

/-- The event registers of a page. -/
def eventFields (pg : Nat) : List Fld :=
  [L.EVT_LATCH pg, L.EVT_ENABLE pg, L.EVT_FIRST_VALID pg, L.EVT_FIRST_SIM pg, L.EVT_FIRST_BIT pg, L.EVT_FIRST_SEC pg, L.EVT_FIRST_NS pg,
    L.EVT_TICK pg, L.EVT_LIVE pg, L.EVT_LIVE_TICK pg] ++ (List.range 32).map (L.EVT_RISE_TICK pg)

/-- `e` with the event registers of a page, the capture of the event controller and the holdover state as they stand in `d`: a soft reset
changes no header field and no other page (R544). -/
def keepEvents (d e : Dev) (pg : Nat) : Dev :=
  e.setAll ((eventFields pg ++ eventFields 2 ++ [R.EV_FIRST_VALID, R.EV_FIRST_SIMULTANEOUS, R.EV_FIRST_SOURCE, R.EV_FIRST_TIME_SEC,
    R.EV_FIRST_TIME_NS, R.EV_FIRST_TIME_FRAC, L.EV_TICK, R.TB_STATUS_HOLDOVER]).map fun f => (f, d.get f))

/-- PAGE_CTRL.SOFT_RESET of a page, written 1 a tick ago, acts (R544). -/
def softReset (d : Dev) (pg : Nat) : Dev :=
  let z := zeroCounters d pg
  if pg = 0x02 then { z with todTx := [], todRx := [] }.set L.TOD_LEFT 0
  else if pg = 0x03 then z.setAll [(R.WP_LAST_LATE, 0), (R.WP_LAST_FAIL, 0)]
  else if pg = 0x04 then z
  else if pg = 0x08 then keepEvents d (zeroCounters (puntRefill (m0Reset d)) 8) 8
  else if pg = 0x0A then keepEvents d (zeroCounters (ropeSoftReset d) 0xA) 0xA
  else if pg = 0x0B then z.clearTable 0xB 2
  else if pg = 0x0C then telReset d
  else if 0x10 ≤ pg ∧ pg ≤ 0x2F then z
  else if 0x30 ≤ pg ∧ pg ≤ 0x4F then (z.clearTable pg 0).clearTable pg 1
  else if 0x50 ≤ pg ∧ pg ≤ 0x6F then
    let k := pg - 0x50
    z.setAll [(R.CHECK_LAST_DIR k, 0), (R.CHECK_LAST_SET k, 0), (R.CHECK_LAST_KIND k, 0), (R.CHECK_LAST_VALID k, 0),
      (R.CHECK_LAST_SA_INDEX k, 0), (R.CHECK_LAST_TIME_NS k, 0), (R.CHECK_LAST_TIME_SEC k, 0)]
  else if pg = 0x70 then secyReset d
  else if pg = 0x71 then z.clearTable 0x71 3
  else if pg = 0x72 then z.clearTable 0x72 5
  else if pg = 0x74 then (dropTable z 0x74 2 64 512 fun _ => false).clearTable 0x74 3
  else if 0x78 ≤ pg ∧ pg ≤ 0x7F then schedReset z (pg - 0x78)
  else if 0x80 ≤ pg ∧ pg ≤ 0x87 then
    (List.range 32).foldl (fun d i => (gateDisable d (32 * (pg - 0x80) + i)).set (R.GATE_GATE_ENABLE (32 * (pg - 0x80) + i)) 0) d
  else d

/-! ## The page header (R42) -/

/-- The waypoint engine starts: every ARMED entry is judged as committed now (R93). -/
def wpEngineOn (d : Dev) : Dev :=
  if d.on (L.PAGE_ENABLE 3) then d
  else let d := d.set (L.PAGE_ENABLE 3) 1; (wpArmedList d).foldl (fun d n => wpCommit d n d.time) d

/-- A gate page is switched on or off (R321): its ports' gates follow their lists, or open. -/
def gatePageEnable (d : Dev) (pg : Nat) (v : Bool) : Dev :=
  let ps := (List.range 32).map (32 * (pg - 0x80) + ·)
  let d := ps.foldl cbsSyncPort d
  let d := d.setB (L.PAGE_ENABLE pg) v
  ps.foldl (fun d p =>
    if v && d.on (L.GATE_RUN p) then gateApply d p
    else gateStatesSet (d.set (L.GATE_HOLD p) 0) p (gateStates d p)) d

/-- PAGE_CTRL.ENABLE of a page is written. -/
def pageEnable (run : RunState) (d : Dev) (pg : Nat) (v : Bool) : Dev :=
  match pageInfo pg with
  | none => d
  | some p =>
    if p.enableFixed || v == d.on (L.PAGE_ENABLE pg) then d
    else if pg = 0x03 ∧ v then wpEngineOn d
    else if pg = 0x08 ∧ ¬ v then m0Reset (d.set (L.PAGE_ENABLE 8) 0)
    else if pg = 0x09 ∧ ¬ v ∧ (List.range 8).any (fun r => d.get (R.RANGE_STATUS_STATE r) != rangeOff) then d
    else if pg = 0x0A then ropePageEnable d v
    else if pg = 0x0C then
      let d := (thrSync d).setB (L.PAGE_ENABLE 0xC) v
      if v then d.each 64 fun i d => d.set (L.THR_SINCE i) d.cyc else d
    else if 0x10 ≤ pg ∧ pg ≤ 0x2F ∧ ¬ v then lanePageOff run d (pg - 0x10)
    else if 0x30 ≤ pg ∧ pg ≤ 0x4F ∧ ¬ v then (d.set (L.PAGE_ENABLE pg) 0).each 8 fun j d => portOff d (8 * (pg - 0x30) + j)
    else if 0x80 ≤ pg then gatePageEnable d pg v
    else d.setB (L.PAGE_ENABLE pg) v

/-- FREEZE_COUNTERS is written: what counts with time is counted up to now first. -/
def pageFreeze (d : Dev) (pg v : Nat) : Dev :=
  let d := if pg = 0x0C then thrSync d else if pg = 0x08 then ceilDeferred d else d
  d.set (L.PAGE_FREEZE pg) v

/-- PAGE_CTRL is written: a soft reset acts in the next tick. -/
def pageCtrl (run : RunState) (d : Dev) (pg v : Nat) : Dev :=
  let d := pageEnable run (pageFreeze d pg (bitsOf v 4 1)) pg (bitAt v 0)
  if bitAt v 1 then d.post (.softReset pg) else d

/-- TBL_SELECT, TBL_INDEX, TBL_CMD or TBL_DATA is written (R45, R46). -/
def windowPut (d : Dev) (m pg off v : Nat) : Dev :=
  if off = 0x4C then d
  else if d.on (L.WIN_BUSY m pg) then d.set (L.WIN_COLLIDE m pg) 1
  else if off = 0x40 then d.set (L.WIN_TABLE m pg) v
  else if off = 0x44 then d.set (L.WIN_INDEX m pg) v
  else if off = 0x48 then windowStart d m pg (v % 4)
  else d.set (L.WIN_DATA m pg) (setBits (d.get (L.WIN_DATA m pg)) (32 * ((off - 0x50) / 4)) 32 v)

/-- A word of the page header is written. -/
def headerPut (s : State) (m pg off v : Nat) : State :=
  let d := s.d
  if off = 0x08 then s.setDev (pageCtrl s.run d pg v)
  else if off = 0x14 then s.setDev (evtLatchClear d pg v)
  else if off = 0x18 then s.setDev (evtEnableWrite d pg (v &&& evtMask pg))
  else if off = 0x1C then s.setDev (d.post (.evtForce pg v))
  else if off = 0x20 then (if bitAt v 8 then s.setDev (evtFirstRearm d pg) else s)
  else if off = 0x30 then { s with anchors := anchorSet s.anchors pg v 8 }
  else if (off = 0x40 ∨ off = 0x44 ∨ off = 0x48 ∨ 0x50 ≤ off) ∧ hasWindow m pg then s.setDev (windowPut d m pg off v)
  else s

/-! ## Command slots (R50 to R52) -/

/-- The state of an outcome that every path of which goes on. -/
def outState (s : State) : Host.Outcome State Fault Refusal → State
  | .next t => t
  | _ => s

/-- The opcode of a CMD write to page 0x04, 0x0A or any other page with commands that touch only the device; `none` where it is not
listed. -/
def slotCommand (s : State) (pg i op : Nat) : Option State :=
  let id := slotId pg i
  let run (f : Dev → Dev) : Option State := some (s.setDev (slotRun s.d id op f))
  if pg = 0x04 then (if op = 1 then run fun d => setPowerState s.power d id else none)
  else if pg = 0x06 then
    if op = 1 then some (outState s (s.lcSlot i op fun s => otpProgram s id))
    else if op = 2 then some (outState s (s.lcSlot i op fun s => s.setDev (enrollLoad s s.d i)))
    else if op = 3 then some (outState s (s.lcSlot i op fun s => keyhashRevoke s id))
    else if op = 4 then some (outState s (s.lcSlot i op fun s => s.setDev (debugChallenge s.d i)))
    else if op = 5 then some (outState s (s.lcSlot i op fun s => s.setDev (debugRespond s.otp s.d i)))
    else none
  else if pg = 0x0A then
    if op = 1 then run fun d => ropeInstall s.run d id
    else if op = 2 then run fun d => slotEnd (ropeKeyClear d) id codeOk []
    else if op = opRemoteRead ∨ op = opRemoteWrite then run fun d => remoteIssue d i op
    else none
  else if pg = 0x0D then
    if op = 1 then some (outState s (s.recSlot i op true fun s => s.setDev (ascentCommand s.run s.d i)))
    else if op = 2 then some (outState s (s.recSlot i op true fun s => bootComplete s i))
    else if op = 3 then some (outState s (s.recSlot i op false fun s => s.setDev (recordRead s.d i)))
    else if op = 4 then some (outState s (s.recSlot i op false fun s => s.setDev (challenge s.run s.d i)))
    else none
  else none

/-- CMD is written: ignored from the master that does not own the slot, refused at once when the opcode is not listed. -/
def slotIssue (s : State) (m pg i op : Nat) : State :=
  let id := slotId pg i
  if slotMaster id ≠ actsAs m ∨ 2 ≤ m then s
  else if pg = 0x05 then s.setDev (vaultIssue s.d i op)
  else if pg = 0x08 then s.setDev (vaultIssue s.d (4 + i) op)
  else match slotCommand s pg i op with
    | some t => t
    | none => s.setDev (slotRun s.d id op fun d => slotEnd d id codeArg [])

/-- A word of a slot or of a slot buffer is written. -/
def slotPut (s : State) (m pg off v : Nat) : State :=
  let i := (off - 0x1000) / 0x100
  let r := off % 0x100
  if !slotSeen m pg then s
  else if off < 0x1400 then
    if r = 0 then slotIssue s m pg i (v % 65536)
    else if r ≤ 0x40 then s.setDev (s.d.set (L.SLOT_ARG (slotId pg i) ((r - 4) / 4)) v)
    else s
  else
    let n := bufferSize pg
    if 0x2000 ≤ off ∧ off < 0x2000 + 4 * n ∧ pg ≠ 0x0D then
      let sl := (off - 0x2000) / n
      let j := (off - 0x2000) % n / 4
      s.setDev (s.d.set (if pg = 0x05 then blobF sl j else if pg = 0x08 then blobF (4 + sl) j else R.LC_BUF sl j) v)
    else s

/-! ## Registers of each page -/

/-- Registers of pages 0x00 to 0x02. -/
def put00 (s : State) (pg off v : Nat) : State :=
  let d := s.d
  if pg = 0x00 then
    if off = 0x100 then (if bitAt v 0 ∧ bitsOf v 16 16 = 0xD1E5 then deviceReset s 2 else s)
    else s.setDev (wordPut s.anchors d pg off v)
  else if pg = 0x01 then
    if off = 0xA00 ∨ off = 0xA04 then s.setDev (vecSentAck d ((off - 0xA00) / 4) v)
    else if off = 0xB00 then (if bitAt v 16 then s.setDev (evFirstRearm d) else s)
    else s.setDev (wordPut s.anchors d pg off v)
  else s.setDev
    (if off = 0x118 then tbCtrlWrite d v
     else if off = 0x130 then adjCmd d (v % 4)
     else if off = 0x170 then todCtrlWrite d v
     else if off = 0x174 then todTxWrite d (BitVec.ofNat 8 v)
     else wordPut s.anchors d pg off v)

/-- Registers of page 0x04. -/
def put04 (s : State) (off v : Nat) : Dev :=
  let d := s.d
  if off = 0x100 then
    let x := v % 2 ^ 12
    if anchored s.anchors 3 then (if x = d.get R.BUDGET_CEILING then d else anchoredWrite d) else budgetWrite d x
  else if off = 0x200 then avsCtrlWrite d v
  else if off = 0x204 then avsManualWrite d (v % 2 ^ 10)
  else wordPut s.anchors d 4 off v

/-- Registers of page 0x05: rights within the ceilings (R260). -/
def put05 (s : State) (off v : Nat) : Dev :=
  let d := s.d
  let adj (mask first last : Fld) (x : FieldWrite) : FieldWrite :=
    if x.f = R.RIGHTS_HOST_CLASSES ∨ x.f = R.RIGHTS_MGMT_CLASSES then { x with v := x.v &&& d.get mask }
    else if x.f = R.RIGHTS_HOST_RANGE_FIRST ∨ x.f = R.RIGHTS_MGMT_RANGE_FIRST then { x with v := max x.v (d.get first) }
    else { x with v := min x.v (d.get last) }
  if off = 0x104 ∨ off = 0x108 then wordAnchored s.anchors 9 d 5 off v (adj R.CEIL_HOST_CLASSES R.CEIL_HOST_RANGE_FIRST R.CEIL_HOST_RANGE_LAST)
  else wordAnchored s.anchors 9 d 5 off v (adj R.CEIL_MGMT_CLASSES R.CEIL_MGMT_RANGE_FIRST R.CEIL_MGMT_RANGE_LAST)

/-- DEBUG_CTRL is written: in TEST and RETURNED it reads 1 and no write would change it, anchored or not (R62, R424). -/
def debugCtrlWrite (a : BitVec 10) (d : Dev) (v : Nat) : Dev :=
  let fixed := d.get R.LC_STATE == lcTest || d.get R.LC_STATE == lcReturned
  if fixed then d
  else if anchored a 6 then
    if bitsOf v 0 2 = b2n (debugEnable d 1) + 2 * b2n (debugEnable d 2) then d else anchoredWrite d
  else wordPut a d 6 0x114 v

/-- SUPPLY_MODE is written: a pair of value 0 keeps its rail's mode (R387). -/
def supplyMode (old v : Nat) : Nat :=
  sumBelow (fun i => (if bitsOf v (2 * i) 2 = 0 then bitsOf old (2 * i) 2 else bitsOf v (2 * i) 2) * 4 ^ i) 4

/-- Registers of page 0x07. -/
def put07 (s : State) (off v : Nat) : State :=
  let d := s.d
  if off = 0x120 then (if v % 65536 = 0x5245 then containRelease s else s)
  else s.setDev
    (if off = 0x108 ∨ off = 0x10C then alarmLatchClear d (v * 2 ^ (32 * ((off - 0x108) / 4)))
     else if off = 0x118 ∨ off = 0x11C then stickyClear d (v * 2 ^ (32 * ((off - 0x118) / 4)))
     else if off = 0x128 then (if v % 65536 = 0x5A5A then d.alarm 61 else d)
     else if off = 0x138 then wordAnchored s.anchors 4 d 7 off v fun x => { x with v := supplyMode (d.get R.SUPPLY_MODE) x.v }
     else if off = 0x13C then bcCfgWrite d v
     else if off = 0x140 then bcBattWrite d v
     else if 0x200 ≤ off ∧ off < 0x300 then alarmCfgWrite s.anchors d ((off - 0x200) / 4) v
     else wordPut s.anchors d 7 off v)

/-- A bucket keeps its tokens, as far as they fit, when its capacity changes. -/
def capMove (d : Dev) (f : Fld) (old new : Nat) : Dev := d.set f (d.get f + new - old)

/-- PUNT_CEILING_RATE or PUNT_CEILING_BURST is written: the buckets are filled at the old rate first (R352, R354). -/
def ceilingWrite (a : BitVec 10) (d : Dev) (off v : Nat) : Dev :=
  let old := puntFill d
  let new := wordPut a old 8 off v
  let x := ceilBurst old * tokUnit
  let y := ceilBurst new * tokUnit
  (capMove new L.CEIL_DEF x y).each 16 fun c d => capMove d (L.RES_DEF c) (x * classReserve d c) (y * classReserve d c)

/-- CLASS_RATE or CLASS_BURST of a class is written (R351). -/
def classWrite (a : BitVec 10) (d : Dev) (c off v : Nat) : Dev :=
  let old := fillBucket d (L.CLS_DEF c) (L.CLS_SINCE c) (d.get (R.CLASS_RATE c))
  let new := wordPut a old 8 off v
  capMove new (L.CLS_DEF c) (classBurst old c * tokUnit) (classBurst new c * tokUnit)

/-- Registers of page 0x08. -/
def put08 (s : State) (m off v : Nat) : Dev :=
  let d := s.d
  let a := s.anchors
  if off = 0x104 then (if bitAt v 0 ∧ bitsOf v 16 16 = 0x4D52 then restartStart s.run d else d)
  else if off = 0x110 then
    let d := if bitAt v 0 then wdEnable d else d
    if wdActionOk (bitsOf v 8 3) then d.set R.WD_CTRL_ACTION (bitsOf v 8 3) else d
  else if off = 0x11C then (if actsAs m = .mgmt ∧ v % 65536 = 0xA5C3 then wdService d else d)
  else if off = 0x124 then (if anchored a 8 || wdActionOk (v % 8) then wordPut a d 8 off v else d)
  else if off = 0x130 ∨ off = 0x134 then ceilingWrite a d off v
  else if 0x200 ≤ off ∧ off < 0x300 then
    let c := (off - 0x200) / 16
    if off % 16 = 0 then classWrite a d c off v
    else if off % 16 = 4 then classWrite a d c off (v % 2 ^ 21)
    else if off % 16 = 8 then reserveWrite d c (v % 2 ^ 7)
    else d
  else if off = 0x400 then
    let was := d.on R.MGMT0_CTRL_ENABLE
    let e := wordPut a d 8 off v
    if was ∧ ¬ bitAt v 0 then m0Reset e else e
  else if off = 0x40C ∨ off = 0x410 then doorbell d (actsAs m) (128 + (off - 0x40C) / 4) (v % 65536)
  else if off = 0x414 ∨ off = 0x418 then ringAck d (actsAs m) (128 + (off - 0x414) / 4) (v % 65536)
  else if 0x800 ≤ off ∧ off < 0xA00 then doorbell d (actsAs m) ((off - 0x800) / 4) (v % 65536)
  else wordPut a d 8 off v

/-- The halt record is cleared. -/
def haltClear (d : Dev) : Dev :=
  d.setAll [(R.HALT_RECORD_CAUSE, 0), (R.HALT_RECORD_LEVEL, 0), (R.HALT_RECORD_RANGE, 0), (R.HALT_RECORD_VALID, 0), (R.HALT_ADDR, 0),
    (R.HALT_TIME_NS, 0), (R.HALT_TIME_SEC, 0)]

/-- RANGE_CTRL of a range is written: MODE is locked from the enable request on (R435, R436). -/
def rangeCtrl (d : Dev) (r v : Nat) : Dev :=
  let d := if !d.on (R.RANGE_CTRL_ENABLE r) then d.set (R.RANGE_CTRL_MODE r) (bitsOf v 1 2)
    else if bitsOf v 1 2 = d.get (R.RANGE_CTRL_MODE r) then d
    else rangeLocked d r
  if bitAt v 0 then rangeRequest d r else d

/-- Registers of page 0x09. -/
def put09 (s : State) (off v : Nat) : Dev :=
  if 0x100 ≤ off ∧ off < 0x300 ∧ off % 0x40 = 0 then rangeCtrl s.d ((off - 0x100) / 0x40) v
  else if off = 0x340 then (if bitAt v 16 then haltClear s.d else s.d)
  else if off = 0x300 then scrubStop (wordPut s.anchors s.d 9 off v)
  else wordPut s.anchors s.d 9 off v

/-- Registers of page 0x0A. -/
def put0A (s : State) (off v : Nat) : Dev :=
  let d := s.d
  if off = 0x100 then ropeCfgWrite d v
  else if off = 0x104 then wordSome s.anchors d 0xA off v fun f => f != R.ROPE_CFG2_ALARM_SEND_MIN || decide (v % 8 < 5)
  else if off = 0x108 then (if v % 4 = 1 then ropeStart d else if v % 4 = 2 then ropeLeave d else if v % 4 = 3 then ropeForce d else d)
  else if off = 0x120 then
    if bitAt v 24 then d.setAll [(R.ROPE_ALARM_LAST_VALID, 0), (R.ROPE_ALARM_LAST_ORIGIN, 0), (R.ROPE_ALARM_LAST_SOURCE, 0),
      (R.ROPE_ALARM_LAST_SEVERITY, 0), (R.ROPE_ALARM_LAST_TIME_NS, 0), (R.ROPE_ALARM_LAST_TIME_SEC, 0)]
    else d
  else if off = 0x200 ∨ off = 0x280 then linkEnable (wordPut s.anchors d 0xA off v) ((off - 0x200) / 0x80)
  else wordPut s.anchors d 0xA off v

/-- TRING_CFG of a ring is written: a write that changes another field while ENABLE is 1 is ignored; the enable clears ERROR (R523). -/
def tringCfg (a : BitVec 10) (d : Dev) (r off v : Nat) : Dev :=
  let was := d.on (R.TRING_CFG_ENABLE r)
  if was ∧ (bitsOf v 1 1 ≠ d.get (R.TRING_CFG_OWNER r) ∨ bitsOf v 4 5 ≠ d.get (R.TRING_CFG_SIZE_LOG r)) then d
  else
    let d := wordPut a d 0xC off v
    if bitAt v 0 ∧ ¬ was then d.set (R.TRING_CFG_ERROR r) 0 else d

/-- Registers of page 0x0C. -/
def put0C (s : State) (m off v : Nat) : Dev :=
  let d := s.d
  if 0x400 ≤ off ∧ off < 0x480 then
    let r := (off - 0x400) / 0x20
    let x := (off - 0x400) % 0x20
    if x = 0 then tringCfg s.anchors d r off v
    else if x = 0x10 then
      if (actsAs m == .mgmt) == d.on (R.TRING_CFG_OWNER r) && decide (v % 2 ^ 15 < tringSize d r) then d.set (R.CONSUMER r) v else d
    else wordPut s.anchors d 0xC off v
  else wordPut s.anchors d 0xC off v

/-- Registers of a lane (R129) at offset `r` of its slot. DESIGN CHOICE: the ones of one LANE_CMD write act in the order RESTART,
ADAPT_BURST, SCAN_START, SCAN_ABORT; the spec gives none (log 20). -/
def laneWrite (s : State) (l off r v : Nat) : Dev :=
  let d := s.d
  let a := s.anchors
  let pg := lanePage l
  if r = 0 then
    let d := wordSome a d pg off v fun f => f != R.LANE_CTRL_TEST_ENABLE l && (f != R.LANE_CTRL_RATE l || laneStage d l == stOff)
    testEnable d l (bitAt v 0)
  else if r = 8 then
    if laneStage d l = stOff then d
    else
      let d := if bitAt v 1 then laneRestart s.run d l else d
      let d := if bitAt v 0 then adaptBurst d l else d
      let d := if bitAt v 2 then (scanStart d l (bitsOf v 4 4) none).1 else d
      if bitAt v 3 then scanEnd d l scAborted else d
  else if r = 0x0C then firWrite d l v
  else if r = 0x20 then
    let d := wordPut a d pg off v
    if bitAt v 1 then d.set (R.RX_EQ_CTLE l) (bitsOf v 8 5) else d
  else if r = 0x30 then
    let d := wordSome a d pg off v fun f =>
      f != R.PRBS_CTRL_GEN_EN l && f != R.PRBS_CTRL_CHK_EN l && (f != R.PRBS_CTRL_GEN_PATTERN l || decide (bitsOf v 0 4 < 10)) &&
        (f != R.PRBS_CTRL_CHK_PATTERN l || decide (bitsOf v 8 4 < 10))
    chkEnable (genEnable s.run d l (bitAt v 4)) l (bitAt v 12)
  else if r = 0x34 then
    let d := injMode (wordSome a d pg off v fun f => f != R.INJ_CTRL_GO l) l (d.get (R.INJ_CTRL_MODE l))
    if bitAt v 3 ∧ (v % 4 = 1 ∨ v % 4 = 2) then inject d l (v % 4) else d
  else wordPut a d pg off v

/-- Registers of a lane page. -/
def put10 (s : State) (pg off v : Nat) : Dev :=
  let k := pg - 0x10
  if 0x100 ≤ off ∧ off < 0x900 then laneWrite s (8 * k + (off - 0x100) / 0x100) off ((off - 0x100) % 0x100) v
  else if off = 0x900 then refSelWrite s.d k (v % 4)
  else if off = 0x904 ∨ off = 0x908 then pllVcoWrite s.d k ((off - 0x904) / 4) (v % 4)
  else wordPut s.anchors s.d pg off v

/-- PORT_CTRL of a port is written: AN_EN, FEC_MODE and RATE keep while ENABLE is 1 (R141, R160). -/
def portCtrl (s : State) (p off v : Nat) : Dev :=
  let d := s.d
  let fixed := d.on (R.PORT_CTRL_ENABLE p)
  let e := wordSome s.anchors d (portPage p) off v fun f =>
    f != R.PORT_CTRL_ENABLE p && (f != R.PORT_CTRL_AN_EN p || !fixed) && (f != R.PORT_CTRL_FEC_MODE p || !fixed) &&
      (f != R.PORT_CTRL_RATE p || (!fixed && decide (bitsOf v 4 3 < 4)))
  let e := hwmPort s.run d (if e.on (R.PORT_CTRL_LOOPBACK p) then e else loopClear e p) p
  if bitAt v 0 then portOn s.run s.power e p else portOff e p

/-- Registers of a port page. -/
def put30 (s : State) (pg off v : Nat) : Dev :=
  let d := s.d
  if off = 0x900 then portMode d (pg - 0x30) (v % 16)
  else match slotPort pg off with
    | some p =>
      if !served d p then (if off % 0x100 = 0 ∧ off < 0x900 ∧ bitAt v 0 then portEnable s.run s.power d p else d)
      else if off % 0x100 = 0 ∧ off < 0x900 then portCtrl s p off v
      else wordPut s.anchors d pg off v
    | none => wordPut s.anchors d pg off v

/-- Registers of the switch pages, the cluster pages and the gate pages. -/
def putFabric (s : State) (pg off v : Nat) : Dev :=
  let d := s.d
  if 0x50 ≤ pg ∧ pg ≤ 0x6F ∧ off = 0x104 then fenceWrite d (pg - 0x50) (bitsOf v 0 5) (bitsOf v 8 5)
  else if pg = 0x70 ∧ off = 0x100 then
    if bitsOf v 24 2 = 1 then saCmd d true (bitAt v 20) (bitsOf v 0 17)
    else if bitsOf v 24 2 = 2 then saCmd d false (bitAt v 20) (bitsOf v 0 17)
    else d
  else if pg = 0x72 ∧ off = 0x10C then
    if v % 4 = 1 then fdbLookup d else if v % 4 = 2 then fdbInsert d else if v % 4 = 3 then fdbDelete d else d
  else if pg = 0x74 ∧ 0x100 ≤ off ∧ off < 0x120 then poolSizeWrite d ((off - 0x100) / 4) (v % 2 ^ 19)
  else if 0x80 ≤ pg ∧ off = 0x100 then
    let p := 32 * (pg - 0x80) + v % 32
    if bitsOf v 8 2 = 1 then gateCmd d p false else if bitsOf v 8 2 = 2 then gateCmd d p true else d
  else wordPut s.anchors d pg off v

/-- A register after the header is written, 64-bit registers apart. -/
def regPut (s : State) (m pg off v : Nat) : State :=
  if pg ≤ 0x02 then put00 s pg off v
  else if pg = 0x04 then s.setDev (put04 s off v)
  else if pg = 0x05 then s.setDev (put05 s off v)
  else if pg = 0x06 then
    if off = 0x104 then (if bitsOf v 16 16 = 0x4C43 then s.setDev (lcWrite s.d (v % 8)) else s)
    else if off = 0x114 then s.setDev (debugCtrlWrite s.anchors s.d v)
    else s
  else if pg = 0x07 then put07 s off v
  else if pg = 0x08 then s.setDev (put08 s m off v)
  else if pg = 0x09 then s.setDev (put09 s off v)
  else if pg = 0x0A then s.setDev (put0A s off v)
  else if pg = 0x0B then
    if 0x100 ≤ off ∧ off < 0x300 then s.setDev (ringAck s.d (actsAs m) ((off - 0x100) / 4) (v % 65536)) else s
  else if pg = 0x0C then s.setDev (put0C s m off v)
  else if pg < 0x10 then s
  else if pg ≤ 0x2F then s.setDev (put10 s pg off v)
  else if pg ≤ 0x4F then s.setDev (put30 s pg off v)
  else s.setDev (putFabric s pg off v)

/-! ## The whole write -/

/-- A write that R34 counts. -/
def accessError (d : Dev) : Dev := d.count 0 R.HOST_ACCESS_ERRS

/-- A word of RATE_ADJ, OFFSET or ADJ_CMD under ROPE discipline: every write to it is ignored and counted (R72). -/
def steeringIgnored (d : Dev) (pg off : Nat) : Bool :=
  pg == 0x02 && ropeDisciplined d && (off == 0x110 || off == 0x114 || off == 0x120 || off == 0x124 || off == 0x128 || off == 0x130)

/-- A write of one word of BAR0 by master `m`. -/
def busWrite (s : State) (m addr v : Nat) : State :=
  let pg := addr / 65536
  let off := addr % 65536 / 4 * 4
  if s.power = .baseCampOnly then s
  else if 0xF0 ≤ pg then (if debugPageOpen s.d pg then s else s.setDev (accessError s.d))
  else if !s.live pg then s
  else
    let s := s.setDev (heldDrop s.d m pg off)
    if off < 0x80 then headerPut s m pg off v
    else if hasSlots pg ∧ 0x1000 ≤ off then slotPut s m pg off v
    else if steeringIgnored s.d pg off then s.setDev (disciplineRefused s.d)
    else if wideLow pg off then s.setDev (wideHold s.d m pg off v)
    else if wideHigh pg off then s.setDev (wideWrite s.d m pg off v)
    else regPut s m pg off v

/-- A write of one word of BAR2 by the host (R32): doorbells and the MSI-X table. DESIGN CHOICE: a doorbell is ignored while page 0x0B does
not respond; the spec says so of the rings' registers in BAR0 alone (log 24). -/
def bar2Write (s : State) (off v : Nat) : State :=
  let d := s.d
  if s.power = .baseCampOnly then s
  else if off < 0x2000 then
    (if off % 0x40 = 0 ∧ s.live 0xB then s.setDev (doorbell d .host (off / 0x40) (v % 65536)) else s)
  else if 0x8000 ≤ off ∧ off < 0x8400 then
    let n := (off - 0x8000) / 16
    let r := off % 16
    s.setDev
      (if r = 0 then d.set (L.MSIX_ADDR n) (setBits (d.get (L.MSIX_ADDR n)) 0 32 v)
       else if r = 4 then d.set (L.MSIX_ADDR n) (setBits (d.get (L.MSIX_ADDR n)) 32 32 v)
       else if r = 8 then d.set (L.MSIX_DATA n) v
       else msixPendingEval (d.set (L.MSIX_MASK n) (v % 2)))
  else s

/-! ## Rows -/

/-- A write of one word in a space: in BAR0 a write whose byte enables do not cover the word is ignored and counted (R33). -/
def spaceWrite (s : State) (m : Master) (bar : Bar) (addr be v : Nat) : State :=
  match bar with
  | .bar0 =>
    if be = 15 then busWrite s m.num addr v
    else if s.power = .baseCampOnly then s
    else s.setDev (accessError s.d)
  | .bar2 => if be = 15 ∧ m = .host then bar2Write s (addr / 4 * 4) v else s
  | .config => if be = 15 ∧ m = .host then configWrite s (addr / 4 * 4) v else s

/-- REGISTER_WRITE (R33): an aligned 8-byte access writes its low word first. -/
def execRegisterWrite (m : Master) (bar : Bar) (addr : BitVec 24) (be : BitVec 8) (v : WriteWords) (s : State) :
    Host.Outcome State Fault Refusal :=
  let t := spaceWrite s m bar addr.toNat (be.toNat % 16) v.lo.toNat
  .next (match v.hi with
    | some w => spaceWrite t m bar (addr.toNat + 4) (be.toNat / 16) w.toNat
    | none => t)
/-- REG64_LOW_WRITE (R38). -/
def execReg64LowWrite (m : Master) (addr : BitVec 24) (v : Word) (s : State) : Host.Outcome State Fault Refusal :=
  .next (busWrite s m.num addr.toNat v.toNat)
/-- REG64_HIGH_WRITE (R38). -/
def execReg64HighWrite (m : Master) (addr : BitVec 24) (v : Word) (s : State) : Host.Outcome State Fault Refusal :=
  .next (busWrite s m.num addr.toNat v.toNat)
/-- SOFT_RESET (R544): it acts in the next tick. -/
def execSoftReset (pg : Fin 256) (s : State) : Host.Outcome State Fault Refusal := s.page pg.val fun d => d.post (.softReset pg.val)
/-- WAYPOINT_ENGINE_ENABLE (R93). -/
def execWaypointEngineEnable (s : State) : Host.Outcome State Fault Refusal := s.page 3 wpEngineOn

end Sys2Proof.Machine
end

