-- ==== Sys2Proof/Machine/CorePages.lean ====
section
/-! DEFINITION. The accesses of the cores, DMA masters and JTAG to memory and, through the cores' address map, to the register pages (R340,
R341, R447). -/

namespace Sys2Proof.Machine

/-- Words of the register pages from BAR0 offset `o` on, as the management complex reads them (R33, R341). -/
def pagesRead (s : State) (o : Nat) : Nat → State × List Byte
  | 0 => (s, [])
  | k + 1 =>
    let x := spaceRead s .mgmt .bar0 o
    let y := pagesRead x.1 (o + 4) k
    (y.1, leBytes 4 x.2 ++ y.2)

/-- Bytes written to the register pages from offset `o` on, word by word: one that is not covered whole is ignored and counted (R33). -/
def pagesWrite (s : State) (o : Nat) (bs : List Byte) : Nat → Nat → State
  | _, 0 => s
  | i, k + 1 =>
    let w := o / 4 * 4 + 4 * i
    let whole := decide (o ≤ w) && decide (w + 4 ≤ o + bs.length)
    pagesWrite (spaceWrite s .mgmt .bar0 w (if whole then 15 else 0) (leVal ((bs.drop (w - o)).take 4))) o bs (i + 1) k

/-- A core's access to the register pages: a read with partial byte enables reads whole words (R33). -/
def corePages (s : State) (core a n : Nat) (data : Option (List Byte)) : State :=
  let o := a - 0x10000000
  match data with
  | none =>
    let x := pagesRead s (o / 4 * 4) ((o % 4 + n + 3) / 4)
    x.1.setDev (x.1.d.emit (.mem core a (some ((x.2.drop (o % 4)).take n))))
  | some bs =>
    let x := pagesWrite s o bs 0 ((o % 4 + bs.length + 3) / 4)
    x.setDev (x.d.emit (.mem core a (some [])))

/-- The access goes to the register pages. -/
def onPages (u a n : Nat) (data : Option (List Byte)) : Bool :=
  decide (u < 4) && (coreRegion a (match data with
    | some bs => bs.length
    | none => n) == some .pages)

/-- MEMORY_ACCESS (R447): a read of `n` bytes by master `u`, or a write of `data`; `findings` names lines of the transfer. -/
def execMemoryAccess (u : Fin 6) (addr : BitVec 36) (n : Nat) (data : Option (List Byte)) (findings : List (Nat × Finding)) (s : State) :
    Host.Outcome State Fault Refusal :=
  if onPages u addr.toNat n data && !s.frozen then .next (corePages s u addr.toNat n data)
  else s.lanes fun d => anyAccess d u addr.toNat n data findings

end Sys2Proof.Machine
end

