-- ==== Sys2Proof/Machine/Package.lean ====
section
/-! DEFINITION. What the board sees of the part and no command changes: the JTAG port (R429), the ball map (R527 to R531), the supplies and
limits of the package (R533, R537, R538, R540 to R543). Straps, resets, supplies failing, PRESENCE_N and SMBus are commands and stand with their
chapters. -/

namespace Sys2Proof.Machine

/-! ## JTAG (R429) -/

/-- IDCODE: version, part, manufacturer, 1. -/
def jtagIdcode : Nat := 1 * 2 ^ 28 + 0x8256 * 2 ^ 12 + 0x539 * 2 + 1

/-- Instructions of the JTAG port; `privateUse` stands for the private ones, the core debug module among them. -/
inductive JtagInstr where
  | idcode
  | bypass
  | samplePreload
  | extest
  | privateUse
  deriving DecidableEq, Repr

/-- The port implements an instruction; any other selects BYPASS (IEEE 1149.1). -/
def jtagImplements (d : Dev) : JtagInstr → Bool
  | .idcode => true
  | .bypass => true
  | .samplePreload => true
  | .extest => d.on R.DEBUG_STATUS_FULL_OPEN
  | .privateUse => d.on R.DEBUG_STATUS_FULL_OPEN

/-! ## The ball map (R527 to R531) -/

/-- A ball by row and column, 1 to 72 each. -/
structure Ball where
  row : Nat
  col : Nat
  deriving DecidableEq, Repr

/-- Centre of a ball from the package centre, in micrometres: x to the right, y up, seen from the lid (R527). -/
def Ball.place (b : Ball) : Int × Int := (1000 * b.col - 36500, 36500 - 1000 * b.row)

/-- The ball at local row `i` and column `j` of octet tile `k` (R528). -/
def tileBall (k i j : Nat) : Ball :=
  let m := k % 8
  if k / 8 = 0 then ⟨1 + i, 1 + 8 * m + j⟩
  else if k / 8 = 1 then ⟨1 + 8 * m + j, 72 - i⟩
  else if k / 8 = 2 then ⟨72 - i, 72 - 8 * m - j⟩
  else ⟨72 - 8 * m - j, 1 + i⟩

/-- What a ball carries besides the signals of R530. -/
inductive BallUse where
  | txp (lane : Nat)
  | txn (lane : Nat)
  | rxp (lane : Nat)
  | rxn (lane : Nat)
  | gnd
  | vddSerdes
  | vddSram
  | vddIo
  | vddqDram
  | vddCore
  deriving DecidableEq, Repr

/-- The assignment of a tile's ball; lanes count within the device (R529). -/
def tileUse (k i j : Nat) : BallUse :=
  let lane := 8 * k + (if i = 2 ∨ i = 6 then 4 else 0) + j / 2
  if i = 0 ∨ i = 2 then (if j % 2 = 0 then .txp lane else .txn lane)
  else if i = 4 ∨ i = 6 then (if j % 2 = 0 then .rxp lane else .rxn lane)
  else if i = 7 ∧ j < 6 then .vddSerdes
  else .gnd

/-- TXP, TXN, RXP and RXN of a lane (R529). -/
def laneBalls (l : Nat) : List Ball :=
  let i := 2 * (l % 8 / 4)
  let j := 2 * (l % 4)
  [tileBall (l / 8) i j, tileBall (l / 8) i (j + 1), tileBall (l / 8) (4 + i) j, tileBall (l / 8) (4 + i) (j + 1)]

/-- Balls of one row from a column on, and of one column from a row on. -/
def alongRow (r c n : Nat) : List Ball := (List.range n).map fun x => ⟨r, c + x⟩
def alongCol (r c n : Nat) : List Ball := (List.range n).map fun x => ⟨r + x, c⟩

/-- Signals of the inner square with their balls in the order in which R530 names them: references, PCIe, Belay and MGMT0. -/
def serialSignals : List (String × List Ball) :=
  [("REFQ0", [⟨9, 31⟩, ⟨9, 32⟩]), ("REFQ1", [⟨44, 64⟩, ⟨45, 64⟩]), ("REFQ2", [⟨64, 42⟩, ⟨64, 41⟩]), ("REFQ3", [⟨42, 9⟩, ⟨41, 9⟩]),
    ("PCIE_TX", alongCol 13 61 16), ("PCIE_RX", alongCol 13 63 16), ("PCIE_REFCLK", alongCol 29 61 2)] ++
  [("BELAY_E TX", alongCol 33 61 2), ("BELAY_E RX", alongCol 33 63 2), ("BELAY_W TX", alongCol 36 61 2), ("BELAY_W RX", alongCol 36 63 2),
    ("MGMT0 TX", alongCol 39 61 2), ("MGMT0 RX", alongCol 39 63 2)]

/-- Control, timing, SMBus, AVSBus, JTAG, boot flash and thermal diode, along row 11. -/
def controlSignals : List (String × List Ball) :=
  [("RESET_N", alongRow 11 13 1), ("PERST_N", alongRow 11 14 1), ("PRESENCE_N", alongRow 11 15 1), ("TREF", alongRow 11 16 1),
    ("TREF_SEL", alongRow 11 17 1), ("LEAD_SEL", alongRow 11 18 1), ("SMB_ADDR", alongRow 11 19 2), ("PPS_IN", alongRow 11 21 2)] ++
  [("PPS_OUT", alongRow 11 23 2), ("TOD_TX", alongRow 11 25 1), ("TOD_RX", alongRow 11 26 1), ("SMB_SCL", alongRow 11 27 1),
    ("SMB_SDA", alongRow 11 28 1), ("SMB_ALERT_N", alongRow 11 29 1), ("AVS", alongRow 11 30 3), ("JTAG", alongRow 11 33 5)] ++
  [("XSPI_CLK", alongRow 11 38 1), ("XSPI_CS_N", alongRow 11 39 1), ("XSPI_DQS", alongRow 11 40 1), ("XSPI_IO", alongRow 11 41 8),
    ("XSPI_RESET_N", alongRow 11 49 1), ("TDIODE", alongRow 11 50 2)]

/-- One DRAM sub-channel: data in row `r`, strobes, command and clock in the next. -/
def dramSignals (name : String) (r : Nat) : List (String × List Ball) :=
  [(name ++ "_DQ", alongRow r 13 40), (name ++ "_DQS", alongRow (r + 1) 13 20), (name ++ "_CA", alongRow (r + 1) 33 14),
    (name ++ "_CS_N", alongRow (r + 1) 47 2), (name ++ "_CK", alongRow (r + 1) 49 2)]

/-- Base Camp's balls, along column 11. -/
def campSignals : List (String × List Ball) :=
  [("MESH_DRV", alongCol 17 11 4), ("MESH_SNS", alongCol 21 11 4), ("CASE", alongCol 25 11 8), ("VBAT", alongCol 33 11 2), ("VBC", alongCol 35 11 1)]

/-- The signals of R530. -/
def innerSignals : List (String × List Ball) :=
  serialSignals ++ controlSignals ++ dramSignals "DRAM_A" 57 ++ dramSignals "DRAM_B" 59 ++
    [("DRAM_RESET_N", [⟨58, 51⟩]), ("DRAM_ALERT_N", [⟨58, 52⟩]), ("DRAM_ZQ", [⟨60, 51⟩])] ++ campSignals

/-- The balls that R530 names as ground. -/
def namedGround : List Ball :=
  alongRow 10 13 39 ++ alongRow 12 13 39 ++ alongRow 56 13 40 ++ alongRow 61 13 40 ++ [⟨60, 52⟩] ++ alongCol 13 62 28 ++ alongCol 13 64 28 ++
    alongCol 17 10 19 ++ alongCol 17 12 19

/-- An inner ball that R530 does not name: ground where row and column sum to an odd number, else a rail by its depth (R531). -/
def innerUse (b : Ball) : BallUse :=
  let depth := min (min (b.row - 9) (64 - b.row)) (min (b.col - 9) (64 - b.col))
  if (b.row + b.col) % 2 = 1 then .gnd
  else if depth ≤ 3 then .vddSerdes
  else if depth ≤ 5 then .vddSram
  else if depth = 6 then .vddIo
  else if depth = 7 then .vddqDram
  else .vddCore

/-! ## Supplies (R533, R541) -/

/-- A rail: nominal and operating range in mV, the current it takes at most in µA, its glitch and absolute limits in mV, its under- and
over-voltage sources. -/
structure Supply where
  name : String
  nominal : Nat
  low : Nat
  high : Nat
  current : Nat
  absolute : Nat
  sources : List Nat
  deriving DecidableEq, Repr

/-- The core rail's range is 3 % about its AVS target, in units of 10 µV. -/
def coreRange (target : Nat) : Nat × Nat := (97 * target, 103 * target)
/-- The other rails; VDD_CORE is listed with the range of its start-up voltage. -/
def supplies : List Supply :=
  [⟨"VDD_CORE", 750, 728, 772, 420000000, 1000, [20, 21]⟩, ⟨"VDD_SRAM", 850, 825, 875, 35000000, 1100, [22, 23]⟩,
    ⟨"VDD_SERDES", 900, 873, 927, 128000000, 1150, [24, 25]⟩, ⟨"VDD_IO", 1800, 1710, 1890, 3000000, 2250, [26, 27]⟩,
    ⟨"VDDQ_DRAM", 1100, 1067, 1133, 3000000, 1400, []⟩, ⟨"VBAT", 3000, 2500, 3600, 30, 4200, [12, 13]⟩]

/-- Supply thresholds in mV: glitch under and over, slow under and over, of core, SRAM, SerDes and I/O (R387). -/
def supplyThresholds : List (Nat × Nat × Nat × Nat) :=
  [(580, 980, 630, 900), (700, 1050, 760, 960), (740, 1100, 810, 1000), (1450, 2100, 1640, 1980)]
/-- A rail's level in mV is beyond a threshold of its mode; `n` is the source, 20 to 27, even for under-voltage. -/
def beyond (n : Nat) (glitch : Bool) (mv : Nat) : Bool :=
  let t := supplyThresholds.getD ((n - 20) / 2) (0, 0, 0, 0)
  if n % 2 = 0 then decide (mv < if glitch then t.1 else t.2.2.1) else decide ((if glitch then t.2.1 else t.2.2.2) < mv)

/-! ## Limits (R536 to R538, R540, R542, R543) -/

/-- A parameter's least, typical and greatest value in a unit; none where the manual gives none. -/
structure Limit where
  name : String
  least : Option Int
  typical : Option Int
  most : Option Int
  unit : String
  deriving DecidableEq, Repr

/-- DC characteristics (R537). -/
def dcLimits : List Limit :=
  [⟨"VIL CMOS", none, none, some 630, "mV"⟩, ⟨"VIH CMOS", some 1170, none, none, "mV"⟩, ⟨"input hysteresis", some 150, none, none, "mV"⟩,
    ⟨"input leakage", some (-10), none, some 10, "uA"⟩, ⟨"strap pull-down", some 30, some 50, some 80, "kOhm"⟩, ⟨"VOL at 8 mA", none, none, some 400, "mV"⟩,
    ⟨"VOH at -8 mA", some 1400, none, none, "mV"⟩, ⟨"VIL Base Camp", none, none, some 300, "mV"⟩] ++
  [⟨"VIH Base Camp", some 900, none, none, "mV"⟩, ⟨"case pull-up", some 5, some 10, some 20, "MOhm"⟩, ⟨"VOH Base Camp", some 1000, none, none, "mV"⟩,
    ⟨"reference swing", some 300, none, some 1200, "mV"⟩, ⟨"REFQ termination", some 90, some 100, some 110, "Ohm"⟩,
    ⟨"TREF swing", some 500, none, some 1800, "mV"⟩, ⟨"diode ideality", none, some 1008, none, "1/1000"⟩]

/-- AC characteristics (R538). -/
def acLimits : List Limit :=
  [⟨"REFQ frequency error", some (-100), none, some 100, "ppm"⟩, ⟨"REFQ duty cycle", some 45, none, some 55, "%"⟩, ⟨"REFQ phase jitter", none, none, some 150, "fs"⟩,
    ⟨"TREF frequency error", some (-46), none, some 46, "ppm/10"⟩, ⟨"TREF duty cycle", some 40, none, some 60, "%"⟩, ⟨"TREF phase jitter", none, none, some 1, "ps"⟩,
    ⟨"PPS_IN width", some 10, none, none, "ns"⟩, ⟨"PPS_IN edge", none, none, some 2, "ns"⟩] ++
  [⟨"PPS_OUT edge", none, none, some 600, "ps"⟩, ⟨"TCK", none, none, some 25000, "kHz"⟩, ⟨"SMB_SCL", some 10, none, some 1000, "kHz"⟩,
    ⟨"AVS_CLK", some 9900, some 10000, some 10100, "kHz"⟩, ⟨"XSPI_CLK", none, some 200000, none, "kHz"⟩]

/-- Reset, thermal and mechanical limits (R535, R536, R540, R541, R542). -/
def packageLimits : List Limit :=
  [⟨"RESET_N hold after supplies and clocks", some 10, none, none, "ms"⟩, ⟨"RESET_N pulse", some 1000, none, none, "ns"⟩,
    ⟨"rail rise", some 100, none, some 20000, "us"⟩, ⟨"junction to lid", none, none, some 45, "mC/W"⟩, ⟨"lid centre", some (-40), none, some 85, "C"⟩,
    ⟨"junction", none, none, some 110, "C"⟩, ⟨"junction, absolute", none, none, some 125, "C"⟩, ⟨"storage without VBAT", some (-65), none, some 150, "C"⟩] ++
  [⟨"lid load", none, none, some 600, "N"⟩, ⟨"body", some 74850, some 75000, some 75150, "um"⟩, ⟨"height", some 4550, some 4800, some 5050, "um"⟩,
    ⟨"lid", none, some 72000, none, "um"⟩, ⟨"ball diameter", none, some 600, none, "um"⟩, ⟨"coplanarity", none, none, some 200, "um"⟩,
    ⟨"signal ball voltage", some (-300), none, some 2250, "mV"⟩, ⟨"differential input", none, none, some 1600, "mV"⟩]

/-- Junction temperature at a dissipation in W and a lid temperature in °C, in m°C (R540). -/
def junctionAt (watts : Nat) (lid : Int) : Int := 1000 * lid + 45 * watts

/-- The orderable part (R543): part number, stepping, balls. -/
def orderedPart : String × String × Nat := ("IH8256-UZ1", "A1", 72 * 72)

end Sys2Proof.Machine
end

