-- ==== Sys2Proof/Machine/Patterns.lean ====
section
/-! DEFINITION. Test patterns, what a lane's transmitter puts on its line symbol by symbol, and what a checker compares (R107, R120 to R123,
R129). Symbols are numbered from the start of device time (`laneUi`). -/

namespace Sys2Proof.Machine

/-! ## The patterns (R120) -/

/-- Taps of the binary patterns, the highest first, by their code; 6 and 7 are built on PRBS13 and PRBS31. PRESUMED from IEEE 802.3 Clause 120:
PRBS13Q and PRBS31Q are those sequences, Gray-coded two bits a symbol (log 36). -/
def prbsTaps (pat : Nat) : List Nat :=
  if pat = 0 then [7, 6] else if pat = 1 then [9, 5] else if pat = 2 ∨ pat = 6 then [13, 12, 2, 1] else if pat = 3 then [15, 14]
  else if pat = 4 then [23, 18] else [31, 28]

/-- One step of a shift register of `taps`, the latest bit lowest. -/
def lfsrStep (taps : List Nat) (r : Nat) : Nat :=
  (2 * r + (taps.map fun t => r / 2 ^ (t - 1) % 2).sum % 2) % 2 ^ taps.headD 0

/-- The register after `n` steps. -/
def lfsrAfter (taps : List Nat) (r : Nat) : Nat → Nat
  | 0 => r
  | n + 1 => lfsrStep taps (lfsrAfter taps r n)

/-- Where the register of lane `l` starts: a value other than zero that the spec leaves open. -/
def lfsrSeed (taps : List Nat) (l : Nat) : Nat := 1 + Config.patternSeed l % (2 ^ taps.headD 0 - 1)

/-- Bit `i` of a binary pattern; `len` bytes of the user pattern `user` repeat. -/
def patternBit (pat l len user i : Nat) : Nat :=
  if pat = 9 then user / 2 ^ (i % (8 * len)) % 2 else lfsrAfter (prbsTaps pat) (lfsrSeed (prbsTaps pat) l) (i + 1) % 2

/-- Gray coding of two bits, the first the more significant, on the levels 0 to 3 (R120). -/
def grayLevel (m l : Nat) : Nat := if m = 0 then l else 3 - l
/-- The two bits of a level. -/
def grayBits (v : Nat) : List Nat := if v = 0 then [0, 0] else if v = 1 then [0, 1] else if v = 2 then [1, 1] else [1, 0]

/-- The highest level: 1 on an NRZ lane, 3 on a PAM4 lane. -/
def topLevel (pam4 : Bool) : Nat := if pam4 then 3 else 1

/-- Level of symbol `n` of a pattern. SQUARE holds each level for `half` symbols, the highest first. -/
def patternLevel (pam4 : Bool) (pat l half len user n : Nat) : Nat :=
  if pat = 8 then (if n / half % 2 = 0 then topLevel pam4 else 0)
  else if pam4 then grayLevel (patternBit pat l len user (2 * n)) (patternBit pat l len user (2 * n + 1))
  else patternBit pat l len user n

/-- SQ_HALF and USER_LEN in force (R129). -/
def sqHalf (d : Dev) (l : Nat) : Nat := min 32 (max 1 (d.get (R.PRBS_CTRL_SQ_HALF l)))
def userLen (d : Dev) (l : Nat) : Nat := min 32 (max 1 (d.get (R.PRBS_CTRL_USER_LEN l)))
/-- The user pattern as one number, bit b being bit b of the pattern. -/
def userPattern (d : Dev) (l : Nat) : Nat := sumBelow (fun j => d.get (R.USER_PATTERN l j) * 2 ^ (32 * j)) 8
def lanePam4 (d : Dev) (l : Nat) : Bool := ratePam4 (laneRate d l)

/-- Inverting a symbol turns its levels over: on a PAM4 lane the more significant bit of its symbol (R123, R129). -/
def turned (pam4 inv : Bool) (v : Nat) : Nat := if inv then topLevel pam4 - v else v

/-- Level `n` symbols into pattern `pat` on lane `l`, inverted where `inv` (R120, R129). -/
def lanePattern (d : Dev) (l pat : Nat) (inv : Bool) (n : Nat) : Nat :=
  turned (lanePam4 d l) inv (patternLevel (lanePam4 d l) pat l (sqHalf d l) (userLen d l) (userPattern d l) n)

/-! ## Error injection (R123) -/

/-- INJ_PERIOD in force: values below 64 act as 64 (R129). -/
def injPeriod (d : Dev) (l : Nat) : Nat := max 64 (d.get (R.INJ_PERIOD l))

/-- Symbol `k` holds the last bit of a period of mode RATE, `k` counted from the write of MODE. -/
def rateHit (d : Dev) (l k : Nat) : Bool :=
  if lanePam4 d l then 2 * k % injPeriod d l == injPeriod d l - 1 || (2 * k + 1) % injPeriod d l == injPeriod d l - 1
  else k % injPeriod d l == injPeriod d l - 1

/-- Injection inverts symbol `n` of a lane: those that SINGLE and BURST have taken, one bit in INJ_PERIOD under RATE. DESIGN CHOICE: BURST_LEN
counts symbols on a PAM4 lane, whose less significant bits are not inverted (log 36). -/
def injected (d : Dev) (l n : Nat) : Bool :=
  (decide (d.get (L.LANE_INJ_AT l) ≤ n) && decide (n < d.get (L.LANE_INJ_AT l) + d.get (L.LANE_INJ_LEN l))) ||
    (d.get (R.INJ_CTRL_MODE l) == 3 && decide (d.get (L.LANE_INJ_FROM l) ≤ n) && rateHit d l (n - d.get (L.LANE_INJ_FROM l)))

/-! ## What a lane sends (R107, R121, R129, R153) -/

/-- What the transmitter of a lane puts on its line in one symbol. -/
inductive LaneLine where
  /-- Electrical idle. -/
  | idle
  /-- A level of the lane's generator. -/
  | level (v : Nat)
  /-- The encoded stream of the lane's port, which carries `what`; `inv` when the symbol is inverted. -/
  | port (what : LineSend) (inv : Bool)
  /-- A test lane whose generator does not run: the spec does not say what it sends. -/
  | unstated
  deriving DecidableEq, Repr

/-- Symbol `n` of lane `l`. A generator replaces everything else (R121); TX_IDLE, an OFF lane and a stopped run state give electrical idle
(R107, R129). -/
def laneLine (s : State) (l n : Nat) : LaneLine :=
  let d := s.d
  let onLine := d.on (R.INJ_CTRL_TARGET l) && injected d l n
  let inv := d.on (R.LANE_CTRL_TX_INV l) != onLine
  if s.run.stopped || decide (laneStage d l ≤ stPowerWait) || d.on (R.LANE_CTRL_TX_IDLE l) then .idle
  else if d.on (R.PRBS_STATUS_GEN_RUNNING l) then
    let v := lanePattern d l (d.get (R.PRBS_CTRL_GEN_PATTERN l)) (d.on (R.PRBS_CTRL_GEN_INV l)) (n - d.get (L.LANE_GEN_FROM l))
    .level (turned (lanePam4 d l) (inv != (!d.on (R.INJ_CTRL_TARGET l) && injected d l n)) v)
  else match lanePortOn d l with
    | some p => .port (portSends s.run d p) inv
    | none => .unstated

/-! ## What a checker compares (R122) -/

/-- Bits of a received level, RX_INV applied and Gray decoding undone. -/
def rxBits (d : Dev) (l v : Nat) : List Nat :=
  let v := turned (lanePam4 d l) (d.on (R.LANE_CTRL_RX_INV l)) v
  if lanePam4 d l then grayBits v else [v]

/-- Bits that the checker of a lane expects in symbol `n` of the pattern to which it has synchronized itself. -/
def chkBits (d : Dev) (l n : Nat) : List Nat :=
  let v := lanePattern d l (d.get (R.PRBS_CTRL_CHK_PATTERN l)) (d.on (R.PRBS_CTRL_CHK_INV l)) n
  if lanePam4 d l then grayBits v else [v]

/-- Wrong bits of a received symbol. -/
def chkWrong (d : Dev) (l n v : Nat) : Nat := ((rxBits d l v).zip (chkBits d l n)).countP fun p => p.1 != p.2

/-- A checker locks: the last 256 bits compared, the latest first, were all correct; `true` stands for a wrong bit. -/
def chkLocks (wrong : List Bool) : Bool := decide (256 ≤ wrong.length) && (wrong.take 256).all (!·)
/-- A locked checker loses lock: 64 of the last 512 bits, or of all when there are fewer, were wrong. -/
def chkLoses (wrong : List Bool) : Bool := decide (64 ≤ (wrong.take 512).countP id)

end Sys2Proof.Machine
end

