-- ==== Sys2Proof/Machine/Posted.lean ====
section
/-! DEFINITION. Writes that act in the tick after theirs (R69 to R71, R143, R193, R321, R323, R411, R435, R544), in the order of a tick
that R83 gives: the alarm response, the waypoints, the writes in order of arrival. -/

namespace Sys2Proof.Machine

/-- The page on which a waiting write acts. -/
def Posted.page : Posted → Nat
  | .rate _ => 0x02
  | .adj _ _ => 0x02
  | .evtForce pg _ => pg
  | .softReset pg => pg
  | .portDisable p => portPage p
  | .portEnable p => portPage p
  | .holdoffEnd p => portPage p
  | .saCmd _ _ _ => 0x70
  | .gateCmd p _ => gatePage p
  | .gateOff p => gatePage p
  | .lifeCycle _ => 0x06
  | .rangeEnable _ => 0x09
  | .bootSeal _ => 0x0D

/-- A waiting write acts. -/
def postedAct (s : State) : Posted → State
  | .rate v => s.setDev (rateApply s.d v)
  | .adj mode off => s.setDev (adjApply s.d mode off)
  | .evtForce pg bits => s.setDev (evtForce s.d pg bits)
  | .softReset pg => s.setDev (softReset s.d pg)
  | .portDisable p => s.setDev (portDisable s.run s.d p)
  | .portEnable p => s.setDev (portEnable s.run s.power s.d p)
  | .holdoffEnd p => s.setDev (holdoffDown s.run s.d p)
  | .saCmd enable rx i => s.setDev (saCmdApply s.d enable rx i)
  | .gateCmd p cancel => s.setDev (if cancel then gateCancel s.d p else gateConfigChange s.d p)
  | .gateOff p => s.setDev (gateFollow (gateDisable s.d p) p)
  | .lifeCycle target => lcRequest s target
  | .rangeEnable r => s.setDev (rangeEnable s.run s.d r)
  | .bootSeal i => bootSeal s i

/-- A waiting write is lost with its page: an SA_CMD or GATE_CMD no longer waits. DEDUCED: a page that does not respond does not act on
what was written to it (log 15). -/
def postedDrop (d : Dev) : Posted → Dev
  | .saCmd _ _ _ => d.set R.SA_CMD_STATUS_BUSY 0
  | .gateCmd p _ => d.set (R.GATE_CMD_STATUS_BUSY (p / 32)) 0
  | _ => d

/-- A waiting write acts where its page responds. -/
def postedRun (s : State) (x : Posted) : State := if s.live x.page then postedAct s x else s.setDev (postedDrop s.d x)

/-- The waiting writes that `due` selects act, oldest first. -/
def State.actPosted (s : State) (due : Nat × Posted → Bool) : State :=
  let xs := s.d.posted.filter due
  let s := s.setDev { s.d with posted := s.d.posted.filter fun e => !due e }
  xs.foldl (fun s e => postedRun s e.2) s

/-- A write of an earlier tick, which acts in this one; a hold-off that ends acts at the end of its own. -/
def postedDue (d : Dev) (e : Nat × Posted) : Bool :=
  match e.2 with
  | .holdoffEnd _ => false
  | _ => e.1 != d.tick

/-- What acts at the end of a tick: hold-offs that ended in it, and writes of earlier ticks that something of the tick held up. -/
def postedLeft (d : Dev) (e : Nat × Posted) : Bool :=
  match e.2 with
  | .holdoffEnd _ => true
  | _ => e.1 != d.tick

/-- The waiting writes act once the tick's alarm response and its waypoints have (R83). -/
def State.flushDue (s : State) : State :=
  if s.d.on L.AL_NEW || (!s.run.stopped && wpAnyDue s.d) then s else s.actPosted (postedDue s.d)

/-- ALARM_RECORD (R393): the first thing of its tick (R83). -/
def execAlarmRecord (s : State) : Host.Outcome State Fault Refusal := .next (alarmTick s).flushDue

end Sys2Proof.Machine
end

