-- ==== Sys2Proof/Machine/RopeBus.lean ====
section
/-! DEFINITION. What a member of a rope does with the two frames that reach its registers: WAYPOINT (R474) and REMOTE_REQ (R476,
R477). -/

namespace Sys2Proof.Machine

/-- A WAYPOINT frame is delivered to a member: an all-zero entry clears, any other is stored and committed now (R95), and each is counted
(R484). An image that a window WRITE would refuse is not stored. -/
def waypointRx (d : Dev) (origin : Nat) (p : List Byte) : Dev :=
  let n := beVal (bytesAt p 0 2)
  let v := beVal (bytesAt p 4 36)
  if origin ≠ 0 ∨ ¬ isMember d ∨ ropeState d = rpIdle ∨ n < ropeFirst ∨ 4096 ≤ n then d
  else if v = 0 then ((clearAll d (tbl03x0 n)).setAll [(L.WP_DUE n, 0), (L.WP_CARRY n, 0)]).count 0xA R.WP_DISTRIBUTED
  else if wpImageOk v then (wpStore d n v).count 0xA R.WP_DISTRIBUTED
  else d

/-- BELAY_WAYPOINT (R474). -/
def execBelayWaypoint (b : Fin 2) (bytes : List Byte) (err : Bool) (violations : Nat) (s : State) : Host.Outcome State Fault Refusal :=
  s.lanes (belayRow 0x20 b bytes err violations fun d o p => (waypointRx d o p, false))

/-- The target of a remote access is one that a member refuses (R477). -/
def remoteExcluded (op pg off : Nat) : Bool :=
  (decide (0x40 ≤ off) && decide (off < 0x80)) || (hasSlots pg && decide (0x1000 ≤ off)) || (pageInfo pg).isNone || decide (0xF0 ≤ pg) ||
    (op == 2 && (pg == 0x03 || pg == 0x05 || pg == 0x06 || pg == 0x07 || pg == 0x09 || pg == 0x0A || pg == 0x0D || off == 0x30))

/-- The answer to a request; none from a device that the access itself has reset. -/
def remoteAnswer (d : Dev) (tag op code pg off v : Nat) : Dev :=
  if ropeState d = rpIdle then d
  else ropeSend d 0x31 1 (beBytes 4 tag ++ [BitVec.ofNat 8 op, BitVec.ofNat 8 code, 0#8, 0#8, BitVec.ofNat 8 pg, 0#8] ++ beBytes 2 off ++ beBytes 4 v)

/-- A request that has reached this member is executed or refused, and answered (R476, R477). -/
def remoteServe (s : State) (p : List Byte) : State :=
  let tag := beVal (bytesAt p 0 4)
  let op := beVal (bytesAt p 4 1)
  let pg := beVal (bytesAt p 8 1)
  let off := beVal (bytesAt p 10 2)
  let v := beVal (bytesAt p 12 4)
  if ¬ s.d.on R.ROPE_CFG_REMOTE_ALLOW ∨ ¬ (op = 1 ∨ op = 2) ∨ remoteExcluded op pg off then
    s.setDev (remoteAnswer (s.d.count 0xA R.REMOTE_REFUSED) tag op codeAttr pg off 0)
  else
    let s := s.setDev (s.d.count 0xA R.REMOTE_EXECUTED)
    let a := pg * 65536 + off
    if op = 1 then
      let r := busRead s 2 a
      r.1.setDev (remoteAnswer r.1.d tag op codeOk pg off r.2)
    else
      let s := busWrite s 2 a v
      s.setDev (remoteAnswer s.d tag op codeOk pg off 0)

/-- BELAY_REMOTE_REQ (R476): a member takes the request of its lead; it is served once the frame has been handled. -/
def execBelayRemoteReq (b : Fin 2) (bytes : List Byte) (err : Bool) (violations : Nat) (s : State) : Host.Outcome State Fault Refusal :=
  if s.frozen then .next s
  else
    let d := belayRow 0x30 b bytes err violations
      (fun d o p => (if o = 0 ∧ isMember d then d.set L.REM_RX (beVal p + 1) else d, false)) s.d
    let q := d.get L.REM_RX
    if q = 0 then .next (s.setDev d) else .next (remoteServe (s.setDev (d.set L.REM_RX 0)) (beBytes 16 (q - 1)))

end Sys2Proof.Machine
end

