-- ==== Sys2Proof/Machine/Tick.lean ====
section
/-! DEFINITION. What passes while no command waits: one tick of device time, or one Base Camp cycle when there is no tick. -/

namespace Sys2Proof.Machine

/-- One Base Camp cycle (R398, R403). -/
def bcCycle (d : Dev) : Dev :=
  let v := d.get L.BCA_LEVEL ||| d.get L.BCA_PULSE
  d.setAll [(R.BC_COUNT, d.get R.BC_COUNT + 1), (L.BCA_ACTIVE, d.get L.BCA_ACTIVE &&& v)]

/-- Base Camp's count over `n` timebase cycles, at its nominal 32,768 Hz. -/
def bcAdvance (d : Dev) (n : Nat) : Dev :=
  let p := d.get L.BC_PHASE + n * 32768
  d.setAll [(L.BC_PHASE, p % 1000000000), (R.BC_COUNT, d.get R.BC_COUNT + p / 1000000000)]

/-- The first tick after a power-on reset (R403). -/
def firstTick (d : Dev) : Dev :=
  if d.on L.PU_WANT then d.setAll [(L.PU_WANT, 0), (R.POWERUP_COUNT, d.get R.BC_COUNT)] else d

/-- The tick of a transition's acceptance has passed (R412). -/
def lcTick (d : Dev) : Dev := if d.get R.LC_STATUS_PHASE = 1 then d.set R.LC_STATUS_PHASE 2 else d

/-- The whole-buffer zero-fill of a power-on or device reset begins (R305). -/
def fillStart (d : Dev) : Dev := if d.on L.FILL_DUE then d.setAll [(L.FILL_DUE, 0), (R.BUF_STATUS_ZERO_FILL, 1)] else d

/-- One tick (R82). What the part samples at every tick is sampled: inactive alarm sources (R393), the interrupt controller's
gateways (R343), the punt ceiling (R352), the causes of holdover (R73) and the vectors (R59). Children of a waypoint that has left ARMED are
erased (R271), bytes of a time-of-day burst leave (R76), the 8b/10b lines send (R124), and a soft reset of page 0x70 that waited for its SAs ends (R165). -/
def mainTick (d : Dev) : Dev :=
  let c := d.cyc
  let d := linesRun d (tickDev d).cyc
  let d := (tickDev d).set L.TICK_FROM c
  let d := wpSweep (ceilDeferred (plicSample (alarmDrop (lcTick (firstTick (bcAdvance d (d.cyc - c)))))))
  msixTick (secyResetEnd (todPump (holdoverUpdate (fillStart d))))

/-- Device time has ticks: main power is on and the timebase runs (R66). -/
def State.ticks (s : State) : Bool := s.power != .baseCampOnly && s.d.on L.TB_RUN

/-- Steps of the vault engine that end in the present tick end. -/
def State.vaultEnd (s : State) : State := if s.frozen then s else s.setDev (vaultTick s.d s.power)

/-- The present tick ends: what is due and has been held up acts, register writes beyond the eighth are carried over (R91), hold-offs that
ended in it take their ports down (R150, R151), and steps of the vault engine end (R265, R269). -/
def State.endTick (s : State) : State :=
  let s := (s.actPosted (postedLeft s.d)).vaultEnd
  s.setDev (wpCarryRest s.d)

/-- One idle step: the present tick ends and the next begins, with its sample of the alarm sources; the writes that act in it act once
nothing that comes before them is left (R83). DESIGN CHOICE: without ticks it is one Base Camp cycle, in which waiting writes act (log 15). -/
def State.idle (s : State) : State :=
  if s.ticks then
    let s := s.endTick
    if s.ticks then
      let s := s.setDev (mainTick s.d)
      let s := s.setDev (alarmNew s)
      (if s.run.stopped then s else s.setDev (heldTick s.d)).flushDue
    else s.setDev (bcCycle s.d)
  else
    let s := (s.actPosted fun _ => true).vaultEnd
    s.setDev (bcCycle s.d)

end Sys2Proof.Machine
end

