-- ==== Sys2Proof/Machine/Waypoints.lean ====
section
/-! DEFINITION. The execution of waypoints (R82 to R92): what every execution records, and the eleven actions. Each command is one entry
that executes in the current tick; a command whose entry is not the next of the tick (WpCore.lean) has no effect. -/

namespace Sys2Proof.Machine

/-- The instant at which the action takes place: T, or the execution tick of a late entry. -/
def wpInstant (d : Dev) (n : Nat) : Nat := if d.on (L.WP_DUE n) then d.tickTime else wpT d n

/-- An execution is recorded at time `w` (R85, R87): the count, the time, NOTIFY, and the entry moves on. -/
def wpRecord (d : Dev) (n w : Nat) : Dev :=
  let late := d.on (L.WP_DUE n)
  let T := wpT d n
  let P := wpPeriod d n
  let d := (d.count 3 (R.WP_EXEC_COUNT n)).setAll [(R.WP_LAST_EXEC_SEC n, secOf w), (R.WP_LAST_EXEC_NS n, nsOf w), (L.WP_DUE n, 0), (L.WP_CARRY n, 0)]
  let d := if P = 0 then d.set (R.WP_STATE n) wpDone else if late then d else wpSetT d n (T + P)
  d.latchIf (d.on (R.WP_NOTIFY n)) 3 0

/-- The action ended with a code: one other than DONE_OK is a failure (R90). -/
def wpOutcome (d : Dev) (n code : Nat) : Dev :=
  if code = codeOk then d
  else
    let d := d.setAll [(R.WP_FAILED n, 1), (R.WP_FAIL_CODE n, code), (R.WP_LAST_FAIL, n)]
    (d.count 3 R.WP_FAIL_COUNT).latch 3 2

/-- Entry `n` executes: it is recorded, the action `act` runs with its instant and whether it is late, a failure is noted, and the
children that wait for the entry are erased (R92). An exact action that is on time records T itself, every other the tick. Behind the
tick's last entry the writes of the tick act (R83). -/
def wpExecute (s : State) (n : Nat) (exact : Bool) (act : State → Bool → Nat → State × Nat) : State :=
  let d := s.d
  let late := d.on (L.WP_DUE n)
  let t := wpInstant d n
  let r := act (s.setDev (wpRecord d n (if exact then t else d.tickTime))) late t
  (r.1.setDev (wpErase (wpOutcome r.1.d n r.2) n)).flushDue

/-- The row of one action: nothing happens where the engine does not run (R84) or the entry is not due. -/
def wpRow (s : State) (n a : Nat) (exact : Bool) (act : State → Bool → Nat → State × Nat) : Host.Outcome State Fault Refusal :=
  .next (if s.run.stopped ∨ ¬ wpReady s.d n a then s else wpExecute s n exact act)

/-- An action that touches the device contents only. -/
def onDev (f : Dev → Bool → Nat → Dev × Nat) (s : State) (late : Bool) (t : Nat) : State × Nat :=
  let r := f s.d late t
  (s.setDev r.1, r.2)

/-! ## The actions (R88) -/

/-- TX_SA_SWITCH (R226, R228). -/
def wpSwitch (n : Nat) (d : Dev) (late : Bool) (t : Nat) : Dev × Nat :=
  let i := d.get (R.WP_TARGET n)
  let an := d.get (R.WP_ARG0 n) % 4
  if saState d false (4 * i + an) = saLoaded ∧ ¬ d.on (R.SECY_SWITCH_PENDING i) then
    (d.setAll [(R.SECY_SWITCH_PENDING i, 1), (R.SECY_PENDING_AN i, an), (L.SW_AT_V i, b2n (!late)), (L.SW_AT i, if late then 0 else t)], codeOk)
  else (d, codeState)

/-- SA_ENABLE: of a receive SA by timestamps from T on (R231), of a transmit SA by starts from T on (R18), late at once (R190). -/
def wpEnable (n : Nat) (d : Dev) (late : Bool) (t : Nat) : Dev × Nat :=
  let i := d.get (R.WP_TARGET n)
  if bitAt (d.get (R.WP_ARG0 n)) 0 then saEnable d true i (some t) else if late then saEnable d false i none else saSchedule d true i t
/-- SA_RETIRE: likewise. -/
def wpRetire (n : Nat) (d : Dev) (late : Bool) (t : Nat) : Dev × Nat :=
  let i := d.get (R.WP_TARGET n)
  if bitAt (d.get (R.WP_ARG0 n)) 0 then saRetire d true i (some t) else if late then saRetire d false i none else saSchedule d false i t

/-- GATE_LIST_SWAP (R323): ConfigChangeTime is T, or the execution tick of a late entry plus 2 µs. -/
def wpSwap (n : Nat) (d : Dev) (late : Bool) (t : Nat) : Dev × Nat :=
  gateTrigger d (d.get (R.WP_TARGET n)) (some (if late then t + gateMargin else t))

/-- WINDOW_EDGE (R510). -/
def wpEdge (n : Nat) (d : Dev) (_ : Bool) (t : Nat) : Dev × Nat :=
  (winGroupEdge d (d.get (R.WP_TARGET n)) (d.get (R.WP_ARG0 n) % 32) t, codeOk)

/-- PPS_EDGE: the leading edge at T plus PPS_OUT_DELAY, on an output that TB_CTRL enables. -/
def wpPps (n : Nat) (d : Dev) (_ : Bool) (t : Nat) : Dev × Nat :=
  let o := d.get (R.WP_TARGET n)
  if bitAt (d.get R.TB_CTRL_PPS_OUT_EN) o then
    let z : Int := t + toSigned 32 (d.get (R.PPS_OUT_DELAY o)) * (2 ^ 32 : Nat)
    let e := if 0 ≤ z then z.toNat else d.freeVal 128
    let d := if 0 ≤ z then d else d.tookFree
    (d.emit (.pps o e (d.get (R.WP_ARG0 n)) (!bitAt (d.get R.TB_CTRL_PPS_OUT_INV) o)), codeOk)
  else (d, codeState)

/-- EYE_SCAN_START (R117). -/
def wpScan (n : Nat) (d : Dev) (_ : Bool) (_ : Nat) : Dev × Nat := scanStart d (d.get (R.WP_TARGET n)) (d.get (R.WP_ARG0 n) % 16) (some n)
/-- TOD_SEND (R76). DESIGN CHOICE: it ends well, without effect, where there is nothing to send, the UART is disabled or a transmission
is in progress; the spec names no precondition of the action (log 11). -/
def wpTod (d : Dev) (_ : Bool) (t : Nat) : Dev × Nat := (todStart d t, codeOk)

/-- TIME_STEP (R70, R90): refused under rope discipline, and where the new time would leave the range. DESIGN CHOICE: the latter fails with
ERR_STATE and leaves TB_STATUS.ADJ_REFUSED, which R70 gives to ADJ_CMD (log 12). -/
def wpStep (n : Nat) (d : Dev) (_ : Bool) (_ : Nat) : Dev × Nat :=
  let off : Int := toSigned 64 (d.get (R.WP_ARG0 n) + d.get (R.WP_ARG1 n) * 2 ^ 32) * (fineNs : Nat)
  if ropeDisciplined d || !stepInRange d off then (d, codeState) else (timeStepBy d off, codeOk)

/-- REG_WRITE: the register is written as the management master. -/
def wpWrite (n : Nat) (s : State) (_ : Bool) (_ : Nat) : State × Nat := (busWrite s 1 (s.d.get (R.WP_TARGET n)) (s.d.get (R.WP_ARG0 n)), codeOk)

/-- One more REG_WRITE has executed in this tick (R91). -/
def wpWriteCount (d : Dev) : Dev := d.setAll [(L.WP_TICK_COUNT, wpWrites d + 1), (L.WP_TICK, d.tick + 1)]

/-! ## The commands -/

/-- WP_TX_SA_SWITCH (R226). -/
def execWpTxSaSwitch (n : Fin 4096) (s : State) : Host.Outcome State Fault Refusal :=
  wpRow s n wpTxSaSwitch false (onDev (wpSwitch n))
/-- WP_SA_ENABLE (R231). -/
def execWpSaEnable (n : Fin 4096) (s : State) : Host.Outcome State Fault Refusal := wpRow s n wpSaEnable false (onDev (wpEnable n))
/-- WP_SA_RETIRE (R231). -/
def execWpSaRetire (n : Fin 4096) (s : State) : Host.Outcome State Fault Refusal := wpRow s n wpSaRetire false (onDev (wpRetire n))
/-- WP_GATE_LIST_SWAP (R323). -/
def execWpGateListSwap (n : Fin 4096) (s : State) : Host.Outcome State Fault Refusal :=
  wpRow s n wpGateListSwap false (onDev (wpSwap n))
/-- WP_WINDOW_EDGE (R510). -/
def execWpWindowEdge (n : Fin 4096) (s : State) : Host.Outcome State Fault Refusal := wpRow s n wpWindowEdge false (onDev (wpEdge n))
/-- WP_PPS_EDGE (R88, R89). -/
def execWpPpsEdge (n : Fin 4096) (s : State) : Host.Outcome State Fault Refusal := wpRow s n wpPpsEdge true (onDev (wpPps n))
/-- WP_EYE_SCAN_START (R117). -/
def execWpEyeScanStart (n : Fin 4096) (s : State) : Host.Outcome State Fault Refusal := wpRow s n wpEyeScanStart false (onDev (wpScan n))
/-- WP_TOD_SEND (R76, R89). -/
def execWpTodSend (n : Fin 4096) (s : State) : Host.Outcome State Fault Refusal := wpRow s n wpTodSend true (onDev wpTod)
/-- WP_TIME_STEP (R88, R89): after every other entry due at T. -/
def execWpTimeStep (n : Fin 4096) (s : State) : Host.Outcome State Fault Refusal := wpRow s n wpTimeStep true (onDev (wpStep n))
/-- WP_REG_WRITE (R91): the ninth of a tick is carried over. -/
def execWpRegWrite (n : Fin 4096) (s : State) : Host.Outcome State Fault Refusal :=
  if s.run.stopped ∨ ¬ wpReady s.d n wpRegWrite ∨ s.d.on (L.WP_CARRY n) then .next s
  else if 8 ≤ wpWrites s.d then .next (s.setDev (s.d.set (L.WP_CARRY n) (s.d.tick + 1)))
  else .next (wpExecute (s.setDev (wpWriteCount s.d)) n false (wpWrite n))
/-- WP_REG_WRITE_DEFERRED (R91): an entry carried over from an earlier tick. -/
def execWpRegWriteDeferred (n : Fin 4096) (s : State) : Host.Outcome State Fault Refusal :=
  let d := s.d
  if s.run.stopped ∨ ¬ wpArmedFor d n wpRegWrite ∨ ¬ d.on (L.WP_CARRY n) ∨ d.get (L.WP_CARRY n) = d.tick + 1 ∨ 8 ≤ wpWrites d ∨
      ¬ wpFirst d n then .next s
  else .next (wpExecute (s.setDev (((wpWriteCount d).set (R.WP_DELAYED n) 1).latch 3 4)) n false (wpWrite n))
/-- WP_MARK (R88): nothing beyond the record. -/
def execWpMark (n : Fin 4096) (s : State) : Host.Outcome State Fault Refusal := wpRow s n wpMark false fun s _ _ => (s, codeOk)

end Sys2Proof.Machine
end

