-- ==== Sys2Proof/Machine/Dispatch.lean ====
section
/-! DEFINITION. One arm per command: the command and its meaning. -/

namespace Sys2Proof.Machine

def exec (i : Instr) (s : State) : Host.Outcome State Fault Refusal :=
  match i with
  | .powerOnReset straps => Sys2Proof.Machine.execPowerOnReset straps s
  | .resetN heldNs => Sys2Proof.Machine.execResetN heldNs s
  | .deviceReset key => Sys2Proof.Machine.execDeviceReset key s
  | .mainSupplyLoss => Sys2Proof.Machine.execMainSupplyLoss s
  | .baseCampColdStart => Sys2Proof.Machine.execBaseCampColdStart s
  | .pcieConventionalReset => Sys2Proof.Machine.execPcieConventionalReset s
  | .functionLevelReset => Sys2Proof.Machine.execFunctionLevelReset s
  | .busMasterDisable => Sys2Proof.Machine.execBusMasterDisable s
  | .d3hotEntry => Sys2Proof.Machine.execD3hotEntry s
  | .msixMaskWrite vector mask => Sys2Proof.Machine.execMsixMaskWrite vector mask s
  | .registerWrite m bar addr be v => Sys2Proof.Machine.execRegisterWrite m bar addr be v s
  | .reg64LowRead m place => Sys2Proof.Machine.execReg64LowRead m place s
  | .reg64LowWrite m addr v => Sys2Proof.Machine.execReg64LowWrite m addr v s
  | .reg64HighWrite m addr v => Sys2Proof.Machine.execReg64HighWrite m addr v s
  | .readClear m place => Sys2Proof.Machine.execReadClear m place s
  | .softReset pg => Sys2Proof.Machine.execSoftReset pg s
  | .anchorWrite pg bits => Sys2Proof.Machine.execAnchorWrite pg bits s
  | .evtLatchClear pg bits => Sys2Proof.Machine.execEvtLatchClear pg bits s
  | .evtForce pg bits => Sys2Proof.Machine.execEvtForce pg bits s
  | .evtFirstRearm pg => Sys2Proof.Machine.execEvtFirstRearm pg s
  | .evFirstRearm => Sys2Proof.Machine.execEvFirstRearm s
  | .msixSend v => Sys2Proof.Machine.execMsixSend v s
  | .vecSentAck half bits => Sys2Proof.Machine.execVecSentAck half bits s
  | .tblRead m pg => Sys2Proof.Machine.execTblRead m pg s
  | .tblWrite m pg => Sys2Proof.Machine.execTblWrite m pg s
  | .tblClear m pg => Sys2Proof.Machine.execTblClear m pg s
  | .tblOpDone m pg => Sys2Proof.Machine.execTblOpDone m pg s
  | .resultReadOnce m pg slot => Sys2Proof.Machine.execResultReadOnce m pg slot s
  | .timebasePllLock => Sys2Proof.Machine.execTimebasePllLock s
  | .timeLatchRead m group => Sys2Proof.Machine.execTimeLatchRead m group s
  | .rateAdjCommit rate => Sys2Proof.Machine.execRateAdjCommit rate s
  | .adjStep => Sys2Proof.Machine.execAdjStep s
  | .adjSlew => Sys2Proof.Machine.execAdjSlew s
  | .adjAbort => Sys2Proof.Machine.execAdjAbort s
  | .slewDone => Sys2Proof.Machine.execSlewDone s
  | .disciplineSrcWrite rope => Sys2Proof.Machine.execDisciplineSrcWrite rope s
  | .holdoverTimeout => Sys2Proof.Machine.execHoldoverTimeout s
  | .refLost => Sys2Proof.Machine.execRefLost s
  | .refRestored => Sys2Proof.Machine.execRefRestored s
  | .ppsInEdge n rising edge => Sys2Proof.Machine.execPpsInEdge n rising edge s
  | .todTxWrite b => Sys2Proof.Machine.execTodTxWrite b s
  | .todRxByte b => Sys2Proof.Machine.execTodRxByte b s
  | .todRxRead m => Sys2Proof.Machine.execTodRxRead m s
  | .todTxEmpty => Sys2Proof.Machine.execTodTxEmpty s
  | .tsCalibrationDone p => Sys2Proof.Machine.execTsCalibrationDone p s
  | .tsRecalibration p => Sys2Proof.Machine.execTsRecalibration p s
  | .waypointEngineEnable => Sys2Proof.Machine.execWaypointEngineEnable s
  | .wpTxSaSwitch n => Sys2Proof.Machine.execWpTxSaSwitch n s
  | .wpSaEnable n => Sys2Proof.Machine.execWpSaEnable n s
  | .wpSaRetire n => Sys2Proof.Machine.execWpSaRetire n s
  | .wpGateListSwap n => Sys2Proof.Machine.execWpGateListSwap n s
  | .wpWindowEdge n => Sys2Proof.Machine.execWpWindowEdge n s
  | .wpPpsEdge n => Sys2Proof.Machine.execWpPpsEdge n s
  | .wpEyeScanStart n => Sys2Proof.Machine.execWpEyeScanStart n s
  | .wpTodSend n => Sys2Proof.Machine.execWpTodSend n s
  | .wpTimeStep n => Sys2Proof.Machine.execWpTimeStep n s
  | .wpRegWrite n => Sys2Proof.Machine.execWpRegWrite n s
  | .wpRegWriteDeferred n => Sys2Proof.Machine.execWpRegWriteDeferred n s
  | .wpMark n => Sys2Proof.Machine.execWpMark n s
  | .octRefSelWrite k sel => Sys2Proof.Machine.execOctRefSelWrite k sel s
  | .octPllVcoWrite k pll code => Sys2Proof.Machine.execOctPllVcoWrite k pll code s
  | .pllLock k pll => Sys2Proof.Machine.execPllLock k pll s
  | .octRefLost k => Sys2Proof.Machine.execOctRefLost k s
  | .octRefReturn k => Sys2Proof.Machine.execOctRefReturn k s
  | .lanePageDisable k => Sys2Proof.Machine.execLanePageDisable k s
  | .testEnableWrite l v => Sys2Proof.Machine.execTestEnableWrite l v s
  | .laneRxDetectDone l => Sys2Proof.Machine.execLaneRxDetectDone l s
  | .laneTrainingDone t => Sys2Proof.Machine.execLaneTrainingDone t s
  | .laneBitLockDone l => Sys2Proof.Machine.execLaneBitLockDone l s
  | .laneSymbolLockDone l => Sys2Proof.Machine.execLaneSymbolLockDone l s
  | .laneCapExchangeDone l => Sys2Proof.Machine.execLaneCapExchangeDone l s
  | .laneStageOverrun l why => Sys2Proof.Machine.execLaneStageOverrun l why s
  | .laneLockLoss l => Sys2Proof.Machine.execLaneLockLoss l s
  | .laneSignalLoss l => Sys2Proof.Machine.execLaneSignalLoss l s
  | .laneCmdRestart l => Sys2Proof.Machine.execLaneCmdRestart l s
  | .laneCmdAdaptBurst l => Sys2Proof.Machine.execLaneCmdAdaptBurst l s
  | .adaptBurstEnd l => Sys2Proof.Machine.execAdaptBurstEnd l s
  | .txFirWrite l v => Sys2Proof.Machine.execTxFirWrite l v s
  | .richnessWindow l flips level run => Sys2Proof.Machine.execRichnessWindow l flips level run s
  | .laneCmdScanStart l profile => Sys2Proof.Machine.execLaneCmdScanStart l profile s
  | .laneCmdScanAbort l => Sys2Proof.Machine.execLaneCmdScanAbort l s
  | .scanPointDone l m errors => Sys2Proof.Machine.execScanPointDone l m errors s
  | .genEnWrite l v => Sys2Proof.Machine.execGenEnWrite l v s
  | .chkEnWrite l v => Sys2Proof.Machine.execChkEnWrite l v s
  | .checkerLock r => Sys2Proof.Machine.execCheckerLock r s
  | .checkerLockLoss l bits errors => Sys2Proof.Machine.execCheckerLockLoss l bits errors s
  | .injectSingle l => Sys2Proof.Machine.execInjectSingle l s
  | .injectBurst l => Sys2Proof.Machine.execInjectBurst l s
  | .injectRate l => Sys2Proof.Machine.execInjectRate l s
  | .octPortModeWrite k mode => Sys2Proof.Machine.execOctPortModeWrite k mode s
  | .portEnable p => Sys2Proof.Machine.execPortEnable p s
  | .portDisable p => Sys2Proof.Machine.execPortDisable p s
  | .holdoffExpiry p => Sys2Proof.Machine.execHoldoffExpiry p s
  | .anResolved p far => Sys2Proof.Machine.execAnResolved p far s
  | .anRestart p => Sys2Proof.Machine.execAnRestart p s
  | .hiBerRise c => Sys2Proof.Machine.execHiBerRise c s
  | .fecUncorrectable r => Sys2Proof.Machine.execFecUncorrectable r s
  | .amLockLoss p => Sys2Proof.Machine.execAmLockLoss p s
  | .faultOrderedSets p lf rf => Sys2Proof.Machine.execFaultOrderedSets p lf rf s
  | .rxFrameHead p pmac ago bytes whole => Sys2Proof.Machine.execRxFrameHead p pmac ago bytes whole s
  | .rxFrameTail p pmac rest ended frags assemblyError smdErrors => Sys2Proof.Machine.execRxFrameTail p pmac rest ended frags assemblyError smdErrors s
  | .rxSaDraining index => Sys2Proof.Machine.execRxSaDraining index s
  | .saDrainComplete rx index => Sys2Proof.Machine.execSaDrainComplete rx index s
  | .copyIssue p ago => Sys2Proof.Machine.execCopyIssue p ago s
  | .copyStart p => Sys2Proof.Machine.execCopyStart p s
  | .saCmdEnable rx index => Sys2Proof.Machine.execSaCmdEnable rx index s
  | .saCmdRetire rx index => Sys2Proof.Machine.execSaCmdRetire rx index s
  | .saEvtPopRead m => Sys2Proof.Machine.execSaEvtPopRead m s
  | .cipherCheckMismatch site set kind => Sys2Proof.Machine.execCipherCheckMismatch site set kind s
  | .clusterRun k => Sys2Proof.Machine.execClusterRun k s
  | .pipeSetAwake k tx set => Sys2Proof.Machine.execPipeSetAwake k tx set s
  | .pipeSetSleep k tx set => Sys2Proof.Machine.execPipeSetSleep k tx set s
  | .ccFenceWrite k rx tx => Sys2Proof.Machine.execCcFenceWrite k rx tx s
  | .pipeSetFenced k tx set => Sys2Proof.Machine.execPipeSetFenced k tx set s
  | .blobLoad c => Sys2Proof.Machine.execBlobLoad c s
  | .blobSeal c => Sys2Proof.Machine.execBlobSeal c s
  | .keyGenerate c => Sys2Proof.Machine.execKeyGenerate c s
  | .keyDerive c => Sys2Proof.Machine.execKeyDerive c s
  | .mkaDerive c => Sys2Proof.Machine.execMkaDerive c s
  | .keyWrap c => Sys2Proof.Machine.execKeyWrap c s
  | .keyUnwrap c => Sys2Proof.Machine.execKeyUnwrap c s
  | .saLoad c => Sys2Proof.Machine.execSaLoad c s
  | .sakUnwrapToSa c => Sys2Proof.Machine.execSakUnwrapToSa c s
  | .cmacBegin c => Sys2Proof.Machine.execCmacBegin c s
  | .cmacUpdate c => Sys2Proof.Machine.execCmacUpdate c s
  | .cmacFinal c => Sys2Proof.Machine.execCmacFinal c s
  | .drbgRead c => Sys2Proof.Machine.execDrbgRead c s
  | .drbgReseed c => Sys2Proof.Machine.execDrbgReseed c s
  | .slotErase c => Sys2Proof.Machine.execSlotErase c s
  | .slotRestrict c => Sys2Proof.Machine.execSlotRestrict c s
  | .rootGenerate c => Sys2Proof.Machine.execRootGenerate c s
  | .rootSet c => Sys2Proof.Machine.execRootSet c s
  | .rootErase c => Sys2Proof.Machine.execRootErase c s
  | .vaultEngineStep c mismatch => Sys2Proof.Machine.execVaultEngineStep c mismatch s
  | .parentCascadeDone => Sys2Proof.Machine.execParentCascadeDone s
  | .vaultGrantIdleRelease => Sys2Proof.Machine.execVaultGrantIdleRelease s
  | .vaultSelftestDone pass => Sys2Proof.Machine.execVaultSelftestDone pass s
  | .entropyCollectionDone c => Sys2Proof.Machine.execEntropyCollectionDone c s
  | .entropyTestFail => Sys2Proof.Machine.execEntropyTestFail s
  | .fdbOpLookup => Sys2Proof.Machine.execFdbOpLookup s
  | .fdbOpInsert => Sys2Proof.Machine.execFdbOpInsert s
  | .fdbOpDelete => Sys2Proof.Machine.execFdbOpDelete s
  | .fdbAgingPass => Sys2Proof.Machine.execFdbAgingPass s
  | .poolSizeWrite k v => Sys2Proof.Machine.execPoolSizeWrite k v s
  | .bufferZeroFillDone => Sys2Proof.Machine.execBufferZeroFillDone s
  | .gateCmdConfigChange m n => Sys2Proof.Machine.execGateCmdConfigChange m n s
  | .gateCmdCancel m n => Sys2Proof.Machine.execGateCmdCancel m n s
  | .configChange p => Sys2Proof.Machine.execConfigChange p s
  | .gateEntryBoundary p => Sys2Proof.Machine.execGateEntryBoundary p s
  | .mmVerifyAttempt p responded => Sys2Proof.Machine.execMmVerifyAttempt p responded s
  | .preemptDisableDone p => Sys2Proof.Machine.execPreemptDisableDone p s
  | .ringDoorbell m n t => Sys2Proof.Machine.execRingDoorbell m n t s
  | .ringAckWrite m n v => Sys2Proof.Machine.execRingAckWrite m n v s
  | .rxRingDelivery words => Sys2Proof.Machine.execRxRingDelivery words s
  | .txDescriptorFetch n words data => Sys2Proof.Machine.execTxDescriptorFetch n words data s
  | .ringStop n => Sys2Proof.Machine.execRingStop n s
  | .classReserveWrite c v => Sys2Proof.Machine.execClassReserveWrite c v s
  | .watchdogEnable => Sys2Proof.Machine.execWatchdogEnable s
  | .wdService m key => Sys2Proof.Machine.execWdService m key s
  | .watchdogTimeout => Sys2Proof.Machine.execWatchdogTimeout s
  | .watchdogExpiry => Sys2Proof.Machine.execWatchdogExpiry s
  | .mgmtRestart key => Sys2Proof.Machine.execMgmtRestart key s
  | .mgmtRestartCoresStart => Sys2Proof.Machine.execMgmtRestartCoresStart s
  | .accessFault core addr write => Sys2Proof.Machine.execAccessFault core addr write s
  | .msipWrite core v => Sys2Proof.Machine.execMsipWrite core v s
  | .machineTimerInterrupt core => Sys2Proof.Machine.execMachineTimerInterrupt core s
  | .mgmt0RxFrame bytes ended violations => Sys2Proof.Machine.execMgmt0RxFrame bytes ended violations s
  | .mgmt0TxDescriptor => Sys2Proof.Machine.execMgmt0TxDescriptor s
  | .mgmt0LinkChange up anDone => Sys2Proof.Machine.execMgmt0LinkChange up anDone s
  | .bootRom primary secondary dramGib => Sys2Proof.Machine.execBootRom primary secondary dramGib s
  | .ascentExtend slot => Sys2Proof.Machine.execAscentExtend slot s
  | .bootComplete slot => Sys2Proof.Machine.execBootComplete slot s
  | .recordRead slot => Sys2Proof.Machine.execRecordRead slot s
  | .challenge slot => Sys2Proof.Machine.execChallenge slot s
  | .alarmCondition n on glitch machine => Sys2Proof.Machine.execAlarmCondition n on glitch machine s
  | .detectorDisagreement n => Sys2Proof.Machine.execDetectorDisagreement n s
  | .alarmRecord => Sys2Proof.Machine.execAlarmRecord s
  | .zeroizeKeysClear => Sys2Proof.Machine.execZeroizeKeysClear s
  | .zeroizeMemoryClear => Sys2Proof.Machine.execZeroizeMemoryClear s
  | .batteryAlarmRecord => Sys2Proof.Machine.execBatteryAlarmRecord s
  | .evidenceOtpCommit => Sys2Proof.Machine.execEvidenceOtpCommit s
  | .bcTimeRefCapture => Sys2Proof.Machine.execBcTimeRefCapture s
  | .containRelease key => Sys2Proof.Machine.execContainRelease key s
  | .alarmLatchClear half bits => Sys2Proof.Machine.execAlarmLatchClear half bits s
  | .stickyClear half bits => Sys2Proof.Machine.execStickyClear half bits s
  | .zeroizeRequest key => Sys2Proof.Machine.execZeroizeRequest key s
  | .bcCfgWrite v => Sys2Proof.Machine.execBcCfgWrite v s
  | .bcBattZeroizeWrite v => Sys2Proof.Machine.execBcBattZeroizeWrite v s
  | .alarmCfgWrite n v => Sys2Proof.Machine.execAlarmCfgWrite n v s
  | .presenceAsserted => Sys2Proof.Machine.execPresenceAsserted s
  | .presenceWithdrawn => Sys2Proof.Machine.execPresenceWithdrawn s
  | .lcTransition target key => Sys2Proof.Machine.execLcTransition target key s
  | .lcIntentCommitted => Sys2Proof.Machine.execLcIntentCommitted s
  | .lcWipeDone => Sys2Proof.Machine.execLcWipeDone s
  | .lcInstallDone => Sys2Proof.Machine.execLcInstallDone s
  | .lcTransitionComplete => Sys2Proof.Machine.execLcTransitionComplete s
  | .otpProgram slot => Sys2Proof.Machine.execOtpProgram slot s
  | .enrollLoad slot => Sys2Proof.Machine.execEnrollLoad slot s
  | .keyhashRevoke slot => Sys2Proof.Machine.execKeyhashRevoke slot s
  | .debugChallenge slot => Sys2Proof.Machine.execDebugChallenge slot s
  | .debugRespond slot => Sys2Proof.Machine.execDebugRespond slot s
  | .debugChallengeExpiry => Sys2Proof.Machine.execDebugChallengeExpiry s
  | .fullDebugWipeDone => Sys2Proof.Machine.execFullDebugWipeDone s
  | .rangeEnable r => Sys2Proof.Machine.execRangeEnable r s
  | .rangeInitDone r => Sys2Proof.Machine.execRangeInitDone r s
  | .memoryAccess u addr n data findings => Sys2Proof.Machine.execMemoryAccess u addr n data findings s
  | .reencryptStep r page finding => Sys2Proof.Machine.execReencryptStep r page finding s
  | .scrubRead finding => Sys2Proof.Machine.execScrubRead finding s
  | .belayEnable b v => Sys2Proof.Machine.execBelayEnable b v s
  | .belayAligned b => Sys2Proof.Machine.execBelayAligned b s
  | .belayAlignLoss b => Sys2Proof.Machine.execBelayAlignLoss b s
  | .belayHelloTimer b => Sys2Proof.Machine.execBelayHelloTimer b s
  | .belayHello b bytes err violations => Sys2Proof.Machine.execBelayHello b bytes err violations s
  | .belayConfirm b bytes err violations => Sys2Proof.Machine.execBelayConfirm b bytes err violations s
  | .belayConfirmTimeout b => Sys2Proof.Machine.execBelayConfirmTimeout b s
  | .belayTimeMarkerTx b off => Sys2Proof.Machine.execBelayTimeMarkerTx b off s
  | .belayTimeMarkerRx b mseq ago => Sys2Proof.Machine.execBelayTimeMarkerRx b mseq ago s
  | .belayTime b bytes err violations => Sys2Proof.Machine.execBelayTime b bytes err violations s
  | .belayMarkerTimeout b => Sys2Proof.Machine.execBelayMarkerTimeout b s
  | .belayAnnounce b bytes err violations => Sys2Proof.Machine.execBelayAnnounce b bytes err violations s
  | .belayFormed b bytes err violations => Sys2Proof.Machine.execBelayFormed b bytes err violations s
  | .belayWaypoint b bytes err violations => Sys2Proof.Machine.execBelayWaypoint b bytes err violations s
  | .belayRemoteReq b bytes err violations => Sys2Proof.Machine.execBelayRemoteReq b bytes err violations s
  | .belayRemoteResp b bytes err violations => Sys2Proof.Machine.execBelayRemoteResp b bytes err violations s
  | .belayStatus b bytes err violations => Sys2Proof.Machine.execBelayStatus b bytes err violations s
  | .belayAlarm b bytes err violations => Sys2Proof.Machine.execBelayAlarm b bytes err violations s
  | .belayUnknownType b bytes err violations => Sys2Proof.Machine.execBelayUnknownType b bytes err violations s
  | .announceTimer => Sys2Proof.Machine.execAnnounceTimer s
  | .statusTimer => Sys2Proof.Machine.execStatusTimer s
  | .memberTimeout pos => Sys2Proof.Machine.execMemberTimeout pos s
  | .leadTimeout => Sys2Proof.Machine.execLeadTimeout s
  | .ropeCmdStart => Sys2Proof.Machine.execRopeCmdStart s
  | .ropeCmdLeave => Sys2Proof.Machine.execRopeCmdLeave s
  | .ropeCmdForceForm => Sys2Proof.Machine.execRopeCmdForceForm s
  | .ropeCfgWrite v => Sys2Proof.Machine.execRopeCfgWrite v s
  | .ropeKeyInstall slot => Sys2Proof.Machine.execRopeKeyInstall slot s
  | .ropeKeyErase slot => Sys2Proof.Machine.execRopeKeyErase slot s
  | .remoteRead slot => Sys2Proof.Machine.execRemoteRead slot s
  | .remoteWrite slot => Sys2Proof.Machine.execRemoteWrite slot s
  | .remoteTimeout slot => Sys2Proof.Machine.execRemoteTimeout slot s
  | .setPowerState slot => Sys2Proof.Machine.execSetPowerState slot s
  | .powerStateTransitionDone => Sys2Proof.Machine.execPowerStateTransitionDone s
  | .arbiterGrant => Sys2Proof.Machine.execArbiterGrant s
  | .grantPortion => Sys2Proof.Machine.execGrantPortion s
  | .releasePortion => Sys2Proof.Machine.execReleasePortion s
  | .budgetCeilingWrite v => Sys2Proof.Machine.execBudgetCeilingWrite v s
  | .avsEnableWrite v => Sys2Proof.Machine.execAvsEnableWrite v s
  | .avsStep hot => Sys2Proof.Machine.execAvsStep hot s
  | .avsReadback response => Sys2Proof.Machine.execAvsReadback response s
  | .windowClose p => Sys2Proof.Machine.execWindowClose p s
  | .queueSampleSweep => Sys2Proof.Machine.execQueueSampleSweep s
  | .thresholdCrossing th => Sys2Proof.Machine.execThresholdCrossing th s
  | .perfCounterOverflow core n addr => Sys2Proof.Machine.execPerfCounterOverflow core n addr s
  | .smbReadDevState => Sys2Proof.Machine.execSmbReadDevState s
  | .smbReadTemperature hot => Sys2Proof.Machine.execSmbReadTemperature hot s
  | .smbReadTamperMeshCase => Sys2Proof.Machine.execSmbReadTamperMeshCase s
  | .smbReadTamperSupplyClock => Sys2Proof.Machine.execSmbReadTamperSupplyClock s
  | .smbReadStatusFlags => Sys2Proof.Machine.execSmbReadStatusFlags s
  | .smbReadAccounted => Sys2Proof.Machine.execSmbReadAccounted s
  | .smbReadVout => Sys2Proof.Machine.execSmbReadVout s
  | .smbReadLcState => Sys2Proof.Machine.execSmbReadLcState s
  | .smbReadDeviceId => Sys2Proof.Machine.execSmbReadDeviceId s
  | .smbAlertResponse => Sys2Proof.Machine.execSmbAlertResponse s
  | .smbOther => Sys2Proof.Machine.execSmbOther s
  | .pcsRealigned p => Sys2Proof.Machine.execPcsRealigned p s
  | .copyEnd p handed => Sys2Proof.Machine.execCopyEnd p handed s

end Sys2Proof.Machine
end

