-- ==== Sys2Proof/Safety.lean ====
section
/-! DEFINITION. The terms the statements use: a command that completes, what it leaves unchanged, and event bits. -/

namespace Sys2Proof.Machine

/-- A step that answers a next state. -/
def Advances (s : State) : Prop := ∃ t, step s = .next t

/-- Event bit `b` of page `pg` is latched (R42). -/
def Dev.evt (d : Dev) (pg b : Nat) : Bool := bitAt (d.get (L.EVT_LATCH pg)) b

/-- The keys that latching an event bit of page `pg` may write: the page's latch with the model's marks of this tick, its live conditions,
the page's first-event capture, and the event controller's (R42, R43, R58). -/
def eventKey (pg k : Nat) : Bool :=
  k == (L.EVT_LATCH pg).key || (decide ((L.EVT_RISE_TICK pg 0).key ≤ k) && decide (k < (L.EVT_RISE_TICK (pg + 1) 0).key)) ||
  k == (L.EVT_FIRST_BIT pg).key || k == (L.EVT_FIRST_VALID pg).key || k == (L.EVT_FIRST_SIM pg).key || k == (L.EVT_FIRST_SEC pg).key ||
  k == (L.EVT_FIRST_NS pg).key || k == (L.EVT_TICK pg).key || k == (L.EVT_LIVE pg).key || k == (L.EVT_LIVE_TICK pg).key ||
  k == R.EV_FIRST_SOURCE.key || k == R.EV_FIRST_VALID.key || k == R.EV_FIRST_SIMULTANEOUS.key || k == R.EV_FIRST_TIME_SEC.key ||
  k == R.EV_FIRST_TIME_NS.key || k == R.EV_FIRST_TIME_FRAC.key || k == L.EV_TICK.key

/-- The frame of a command: between `d` and `e` nothing differs but the fields `fs` and what latching events of the pages `evs` may write.
Queues, buffers, memories, times and every other field are the same. -/
def Dev.OnlyChanges (d e : Dev) (fs : List Fld) (evs : List Nat) : Prop :=
  e = { d with cells := e.cells } ∧
  ∀ g : Fld, (∀ f ∈ fs, g.key ≠ f.key) → (∀ pg ∈ evs, eventKey pg g.key = false) → e.get g = d.get g

/-- The command answers a next state that differs from `s` in the device's contents alone: these are `d0` but for the fields `fs` and the
events of the pages `evs`, and `post` holds of them. Run state, power state, anchors, fuses and the queue are the same. -/
def Becomes (c : Instr) (s : State) (d0 : Dev) (fs : List Fld) (evs : List Nat) (post : Dev → Prop) : Prop :=
  ∃ e : Dev, exec c s = .next (s.setDev e) ∧ d0.OnlyChanges e fs evs ∧ post e

/-- The command answers a next state in which only the fields `fs` and the events of the pages `evs` have moved, and `post` holds of the
contents. -/
def Completes (c : Instr) (s : State) (fs : List Fld) (evs : List Nat) (post : Dev → Prop) : Prop := Becomes c s s.d fs evs post

/-- The command answers a next state that differs from `s` in the device's contents alone, and `post` holds of them. -/
def Yields (c : Instr) (s : State) (post : Dev → Prop) : Prop := ∃ e : Dev, exec c s = .next (s.setDev e) ∧ post e

/-- The command is a write that acts in the tick after its own (R83): it joins the waiting writes as `x`, and until then only the fields
`fs` move. -/
def Defers (c : Instr) (s : State) (x : Posted) (fs : List Fld) (post : Dev → Prop) : Prop := Becomes c s (s.d.post x) fs [] post

/-- The waiting write `x` acts in the state `s`: the device's contents become `d0` but for the fields `fs` and the events of the pages `evs`,
and `post` holds of them. -/
def Acts (x : Posted) (s : State) (d0 : Dev) (fs : List Fld) (evs : List Nat) (post : Dev → Prop) : Prop :=
  ∃ e : Dev, postedAct s x = s.setDev e ∧ d0.OnlyChanges e fs evs ∧ post e

/-- The waiting write acts, and `post` holds of the contents. -/
def ActsSo (x : Posted) (s : State) (post : Dev → Prop) : Prop := ∃ e : Dev, postedAct s x = s.setDev e ∧ post e

/-- The command answers the same state: it has no effect here. -/
def NoEffect (c : Instr) (s : State) : Prop := exec c s = .next s

/-- A frame with whole entries and register groups in it: between `d` and `e` nothing differs but fields whose key passes `p`. -/
def Dev.KeepsBut (d e : Dev) (p : Nat → Bool) : Prop :=
  e = { d with cells := e.cells } ∧ ∀ g : Fld, p g.key = false → e.get g = d.get g

/-- The key of a field of entry `i` of table `t` of page `pg`. -/
def entryKey (pg t i k : Nat) : Bool := decide (tblKey pg t i ≤ k) && decide (k < tblKey pg t (i + 1))
/-- The key of an element of the same array of the model's own fields as `f`. -/
def groupKey (f : Fld) (k : Nat) : Bool := decide (latBase ≤ k) && (k - latBase) / 2 ^ 32 == (f.key - latBase) / 2 ^ 32
/-- The key of one of these fields. -/
def keyOf (fs : List Fld) (k : Nat) : Bool := fs.any fun f => f.key == k

/-- As `Becomes`, where the frame is the fields whose key passes `p`. -/
def BecomesBut (c : Instr) (s : State) (d0 : Dev) (p : Nat → Bool) (post : Dev → Prop) : Prop :=
  ∃ e : Dev, exec c s = .next (s.setDev e) ∧ d0.KeepsBut e p ∧ post e

/-! ## Waypoints -/

/-- No key slot and no SA that has lost its parent waits for entry `n` to be erased (R92, R271). -/
def NoWaits (d : Dev) (n : Nat) : Prop :=
  ∀ i : Nat,
    ¬ (d.on (R.SLOT_PARENT_LOST i) = true ∧ d.get (R.SLOT_ON_PARENT_LOSS i) = 2 ∧ d.get (R.SLOT_ERASE_AT_WP i) = n) ∧
    ∀ rx : Bool, ¬ (d.on (saParentLostF rx i) = true ∧ d.get (saOnLossF rx i) = 2 ∧ d.get (saEraseAtF rx i) = n)

/-- Entry `n` executes: the contents become `e`, which is `d0` but for the fields `fs` and the events of the pages `evs` and of which `post`
holds. Behind it the children that wait for the entry are erased (R92), and when it is the last of its tick the tick's waiting writes act
(R83). -/
def WpActs (c : Instr) (s : State) (n : Nat) (d0 : Dev) (fs : List Fld) (evs : List Nat) (post : Dev → Prop) : Prop :=
  ∃ e : Dev, exec c s = .next (s.setDev (wpErase e n)).flushDue ∧ d0.OnlyChanges e fs evs ∧ post e

/-- The fields of a waypoint entry that its execution moves. -/
def wpFields (n : Nat) : List Fld :=
  [R.WP_EXEC_COUNT n, R.WP_LAST_EXEC_SEC n, R.WP_LAST_EXEC_NS n, R.WP_STATE n, R.WP_TIME_SEC_LO n, R.WP_TIME_SEC_HI n, R.WP_TIME_NS n,
    R.WP_TIME_FRAC n, L.WP_DUE n, L.WP_CARRY n]

/-- Entry `n` has executed at the time `w` (R85, R87): it is counted and stamped, a one-shot entry is DONE, and NOTIFY latches event bit 0. -/
def WpRecorded (d e : Dev) (n w : Nat) : Prop :=
  (d.get (L.PAGE_FREEZE 3) = 0 → e.get (R.WP_EXEC_COUNT n) = min (d.get (R.WP_EXEC_COUNT n) + 1) (2 ^ 16 - 1)) ∧
  e.get (R.WP_LAST_EXEC_SEC n) = secOf w % 2 ^ 16 ∧ e.get (R.WP_LAST_EXEC_NS n) = nsOf w ∧
  (wpPeriod d n = 0 → e.get (R.WP_STATE n) = wpDone) ∧ (wpPeriod d n ≠ 0 → e.get (R.WP_STATE n) = wpArmed) ∧
  (d.get (R.WP_NOTIFY n) = 1 → e.evt 3 0 = true)

/-! ## Resets -/

/-- Fields of the main domain whose value after a reset comes from the straps, the cause and the fuses (R24, R260, R408, R532). -/
def startFields : List Fld :=
  [R.TB_STATUS_REF_25M, R.ROPE_CFG_ROLE, L.RESET_CAUSE, L.PU_WANT, R.LC_STATE, R.DEVICE_ID, R.OWNER_ID, R.DEBUG_STATUS_FULL_OPEN, R.AVS_CODE,
    R.CEIL_HOST_CLASSES, R.CEIL_HOST_RANGE_FIRST, R.CEIL_HOST_RANGE_LAST, R.CEIL_MGMT_CLASSES, R.CEIL_MGMT_RANGE_FIRST,
    R.CEIL_MGMT_RANGE_LAST, R.OTP_FAULTS, L.AL_PULSE, R.ROLLBACK_COUNT, R.TAMPER_COUNT, R.KEYHASH_STATE_PROGRAMMED,
    R.KEYHASH_STATE_REVOKED, R.KEYHASH_STATE_PERMITTED, R.KEYHASH_STATE_SECRET_SET]

/-- Every field of the main domain but `fs` and the events of page 0x06 reads its reset value, every queue, buffer and memory is empty and
device time is zero; what Base Camp keeps is as it was but for `bc`. -/
def MainCleared (d e : Dev) (fs bc : List Fld) : Prop :=
  e = { Dev.empty with cells := e.cells, freeCtr := d.freeCtr } ∧
  (∀ g : Fld, g.key < bcBase → (∀ f ∈ fs, g.key ≠ f.key) → eventKey 6 g.key = false → e.get g = g.reset) ∧
  (∀ g : Fld, bcBase ≤ g.key → (∀ f ∈ bc, g.key ≠ f.key) → e.get g = d.get g)

/-- The main domain has left reset with a cause of R376: STANDBY, BOOTING, no anchor set, the life-cycle state decoded from the fuses. -/
def MainStarts (s t : State) (cause : Nat) (bc : List Fld) : Prop :=
  t.run = .booting ∧ t.power = .standby ∧ t.anchors = 0 ∧ t.pending = s.pending ∧ MainCleared s.d t.d startFields bc ∧
  t.d.get L.RESET_CAUSE = cause ∧ t.d.get R.LC_STATE = lcDecode t.otp ∧
  t.d.get R.TB_STATUS_REF_25M = t.d.get L.STRAPS % 2 ∧ t.d.get R.ROPE_CFG_ROLE = t.d.get L.STRAPS / 2 % 2

/-- No life-cycle intent word is being programmed, so a reset cuts no fuse short (R412). -/
def State.intentQuiet (s : State) : Prop := s.d.get R.LC_STATUS_PHASE ≠ 1 ∧ s.d.get R.LC_STATUS_PHASE ≠ 2

/-! ## Command slots -/

/-- The fields of a slot that taking and ending a command write (R51, R53). -/
def slotFields (id : Nat) : List Fld :=
  [L.SLOT_SEQ id, L.SLOT_STATUS_SEQ id, L.SLOT_OPCODE id, L.SLOT_CODE id, L.SLOT_READ_ONCE id] ++
    (List.range 16).map (L.SLOT_CAP id) ++ (List.range 16).map (L.SLOT_RESULT id)

/-- The fields that the vault engine moves for the command of slot `c`: what it holds, its step, its code and its results (R51, R262, R265). -/
def vaultFields (c : Nat) : List Fld :=
  [L.V_SRC c 0, L.V_SRC c 1, L.V_DST c 0, L.V_DST c 1, L.V_LAST c, L.V_PAR c, L.V_PAR_ON c, L.V_DUE c, L.V_SERVED c, L.V_STEP c, L.V_NEEDS c,
    L.V_COLLECT c, L.V_FRESH c, L.V_BUF c, L.V_IDLE_AT, L.SLOT_CODE (vId c)] ++ (List.range 16).map (L.SLOT_RESULT (vId c))

/-- The present tick ends: the engine's steps that end in it leave the contents `d0` but for the fields `fs` and the events of the pages `evs`,
and `post` holds of them (R265). -/
def StepEnds (s : State) (d0 : Dev) (fs : List Fld) (evs : List Nat) (post : Dev → Prop) : Prop :=
  ∃ e : Dev, s.vaultEnd = s.setDev e ∧ d0.OnlyChanges e fs evs ∧ post e

/-- The engine's steps end, and `post` holds of the contents. -/
def StepEndsSo (s : State) (post : Dev → Prop) : Prop := ∃ e : Dev, s.vaultEnd = s.setDev e ∧ post e

/-- The one step that ends in the present tick is the command's of slot `c`; its two computations agree, or not (R265). -/
def OneStep (s : State) (c : Nat) (mismatch : Bool) : Prop :=
  s.frozen = false ∧ s.d.get (L.V_DUE c) = (if mismatch then 2 else 1) ∧ ∀ x < 8, x ≠ c → s.d.get (L.V_DUE x) = 0

/-- The step that ends is the first of a QUEUED command with opcode `op`, which passes the checks of R262. -/
def VaultStarts (s : State) (c op : Nat) : Prop :=
  OneStep s c false ∧ s.d.get (L.SLOT_CODE (vId c)) = codeQueued ∧ s.d.get (L.SLOT_OPCODE (vId c)) = op ∧
  vCheck s.d s.power c op = none

/-- The step that ends is the last of a running command with opcode `op`, which took no source's last use (R263, R264). -/
def VaultEnds (s : State) (c op : Nat) : Prop :=
  OneStep s c false ∧ s.d.get (L.SLOT_CODE (vId c)) = codeRunning ∧ s.d.get (L.SLOT_OPCODE (vId c)) = op ∧
  s.d.get (L.V_STEP c) + 1 = vSteps s.d c op ∧ s.d.get (L.V_LAST c) = 0

/-- The slot holds a command with this opcode and code, with the next sequence number and the arguments that `d` had (R51). -/
def SlotHolds (d e : Dev) (id op code : Nat) : Prop :=
  e.get (L.SLOT_OPCODE id) = op ∧ e.get (L.SLOT_CODE id) = code ∧ e.get (L.SLOT_STATUS_SEQ id) = e.get (L.SLOT_SEQ id) ∧
  (d.get (L.SLOT_SEQ id) < 0xFFFF → e.get (L.SLOT_SEQ id) = d.get (L.SLOT_SEQ id) + 1) ∧
  (d.get (L.SLOT_SEQ id) = 0xFFFF → e.get (L.SLOT_SEQ id) = 1) ∧
  ∀ j < 16, e.get (L.SLOT_CAP id j) = d.get (L.SLOT_ARG id j) % 2 ^ 32

/-! ## Belay frames -/

/-- Position of the frame's origin, its counter and its rope sequence (R462). -/
def belayOrigin (bs : List Byte) : Nat := beVal (bytesAt bs 1 1) % 8

/-- A sealed frame of type `typ` on port `b` is one that the device takes: its form, its tag under the link's key, its counter and the
zero bytes of its payload `p` are right (R462 to R465). -/
def BelayPasses (d : Dev) (b typ : Nat) (bs p : List Byte) : Prop :=
  lkConfirm ≤ link d b ∧ d.get L.ROPE_SILENT = 0 ∧ belayFormOk bs = true ∧ bs.head? = some (BitVec.ofNat 8 typ) ∧
  Crypto.gcmOpen 32 (d.get (L.B_RXKEY b)) (beVal (bytesAt bs 8 8)) (bs.take 28) (bytesAt bs 28 (beVal (bytesAt bs 4 2)))
    (beVal (bytesAt bs (28 + beVal (bytesAt bs 4 2)) 16)) = (p, true) ∧
  d.get (L.B_RXCTR b) < beVal (bytesAt bs 8 8) ∧ belayPayloadOk typ p = true

/-- A rope frame that the device takes, that is new, and that names this device alone (R464, R470). -/
def RopeDelivers (d : Dev) (b typ : Nat) (bs p : List Byte) : Prop :=
  BelayPasses d b typ bs p ∧ link d b = lkUp ∧ beVal (bytesAt bs 2 1) = 2 ^ ropePos d ∧
  (belayOrigin bs = 0 → foreignLead d b = false) ∧
  (d.get (L.O_EPOCH (belayOrigin bs)) ≠ beVal (bytesAt bs 16 4) ∨ d.get (L.O_SEQ (belayOrigin bs)) < beVal (bytesAt bs 20 8))

/-- What taking a sealed frame on port `b` records (R463). -/
def belayFields (b : Nat) : List Fld := [R.BELAY_FRAMES_RX b, L.B_TAGFAILS b, L.B_RXCTR b]
/-- What a new rope frame from origin `o` records besides (R464, R479). -/
def ropeFields (b o : Nat) : List Fld := belayFields b ++ [L.O_EPOCH o, L.O_SEQ o, L.LEAD_SEEN]
/-- The fields of port `b` that leaving or taking a state below UP writes (R459). -/
def linkFields (b : Nat) : List Fld :=
  [R.BELAY_STATUS_LINK b, L.B_AT b, L.B_TAGFAILS b, L.B_PEER_V b, L.B_TXKEY b, L.B_RXKEY b, R.BELAY_STATUS_CONFLICT b]

/-! ## Run states and fuses -/

/-- The moves of the table of run states, resets apart (R27). -/
def RunState.moves : RunState → RunState → Bool
  | .booting, t => t == .active || t == .contained || t == .halted || t == .alarmHold
  | .active, t => t == .contained || t == .halted || t == .zeroized
  | .contained, t => t == .active || t == .halted || t == .zeroized
  | .alarmHold, _ => false
  | .halted, _ => false
  | .zeroized, _ => false

/-- The OTP words are in canonical form and have 32 bits; without the main supply the run state is BOOTING. -/
def State.otpWf (s : State) : Prop :=
  Cells.wf s.otp = true ∧ (∀ p ∈ s.otp, p.2 < 2 ^ 32) ∧ (s.power = .baseCampOnly → s.run = .booting)

end Sys2Proof.Machine
end

