-- ==== Sys2Proof/Certificates/Slice0/Obligations.lean ====
section
/-! DEFINITION. The statements about the model. -/

open Sys2Proof Sys2Proof.Machine

/-- A step with a command in front runs that command with the rest of the queue; with none waiting a tick passes (DESIGN CHOICE, log entry
1). The order of a tick is R83's: alarms, waypoints, the writes that act in it; that a write is lost with its page is the model's (log entry
15). -/
def Obligations.StepRunsFrontCommand : Prop :=
  (∀ (s : State) (c : Instr) (rest : List Instr), s.pending = c :: rest → step s = exec c { s with pending := rest }) ∧
  (∀ s : State, s.pending = [] → step s = .next s.idle) ∧
  (∀ (s : State) (n : Nat) (x : Posted), s.d.posted = [(n, x)] → (∀ p, x ≠ .holdoffEnd p) →
    (s.d.get L.AL_NEW ≠ 0 ∨ (s.run.stopped = false ∧ wpAnyDue s.d = true) → s.flushDue = s) ∧
    (s.d.get L.AL_NEW = 0 → s.run.stopped = true ∨ wpAnyDue s.d = false →
      (n = s.d.tick → s.flushDue = s) ∧
      (n ≠ s.d.tick → s.live x.page = true → s.flushDue = postedAct (s.setDev { s.d with posted := [] }) x) ∧
      (n ≠ s.d.tick → s.live x.page = false → s.flushDue = s.setDev (postedDrop { s.d with posted := [] } x))))

/-- R43: clearing, forcing and rearming the events of a page, with their frames. A bit that rises in the tick of the write stays set. -/
def Obligations.EventRegisterRows : Prop :=
  ∀ (s : State) (pg : Fin 256) (bits : Word),
    (s.live pg = true →
      Completes (.evtLatchClear pg bits) s [] [pg] (fun e => ∀ i < 32, e.evt pg i =
        (s.d.evt pg i && (!bits.getLsbD i || decide (s.d.get (L.EVT_RISE_TICK pg i) = s.d.tick + 1)))) ∧
      exec (.evtForce pg bits) s = .next (s.setDev (s.d.post (.evtForce pg bits.toNat))) ∧
      Acts (.evtForce pg bits.toNat) s s.d [] [pg] (fun e => ∀ i < 32, e.evt pg i =
        (s.d.evt pg i || (bits.getLsbD i && bitAt (evtMask pg) i && evtBitServed s.d pg i))) ∧
      Completes (.evtFirstRearm pg) s [L.EVT_FIRST_VALID pg, L.EVT_FIRST_SIM pg] [] (fun e => e.get (L.EVT_FIRST_VALID pg) = 0)) ∧
    (s.live 1 = true →
      Completes .evFirstRearm s [R.EV_FIRST_VALID, R.EV_FIRST_SIMULTANEOUS] [] (fun e => e.get R.EV_FIRST_VALID = 0)) ∧
    (s.live pg = false → NoEffect (.evtLatchClear pg bits) s ∧ NoEffect (.evtForce pg bits) s ∧ NoEffect (.evtFirstRearm pg) s)

/-- R61: ones written to ANCHOR_STATUS anchor the groups of the page; zeros and other groups change nothing. -/
def Obligations.AnchorWriteSetsGroups : Prop :=
  ∀ (s : State) (pg : Fin 256) (bits : BitVec 8), s.live pg = true →
    ∃ a : BitVec 10, exec (.anchorWrite pg bits) s = .next { s with anchors := a } ∧
      ∀ g < 10, anchored a g = true ↔
        (anchored s.anchors g = true ∨ ∃ k < 8, (anchorGroup pg k).map Fin.val = some g ∧ bits.getLsbD k = true)

/-- R59: the life of a vector. -/
def Obligations.MsixRows : Prop :=
  ∀ (s : State) (v : Fin 64) (half : Fin 2) (bits : Word) (mask : Bool), s.power ≠ .baseCampOnly →
    (bitAt (s.d.get L.MSIX_PENDING) v = false → ackedNow s.d v = true → NoEffect (.msixSend v) s) ∧
    (bitAt (s.d.get L.MSIX_PENDING) v = false → bitAt (s.d.get R.VEC_SENT) v = false → ackedNow s.d v = false → vectorActive s.d v = true →
      vectorMasked s.d v = false →
      Becomes (.msixSend v) s (s.d.emit (.msix v (s.d.get (L.MSIX_ADDR v)) (s.d.get (L.MSIX_DATA v)))) [R.VEC_SENT] []
        (fun e => e.get R.VEC_SENT = (s.d.get R.VEC_SENT ||| 2 ^ v.val) % 2 ^ 64)) ∧
    (bitAt (s.d.get L.MSIX_PENDING) v = false → bitAt (s.d.get R.VEC_SENT) v = false → ackedNow s.d v = false → vectorActive s.d v = true →
      vectorMasked s.d v = true →
      Completes (.msixSend v) s [R.VEC_SENT, L.MSIX_PENDING] [] (fun e => e.get L.MSIX_PENDING = (s.d.get L.MSIX_PENDING ||| 2 ^ v.val) % 2 ^ 64 ∧
        e.get R.VEC_SENT = (s.d.get R.VEC_SENT ||| 2 ^ v.val) % 2 ^ 64)) ∧
    (bitAt (s.d.get L.MSIX_PENDING) v = true → vectorMasked s.d v = false →
      Becomes (.msixSend v) s (s.d.emit (.msix v (s.d.get (L.MSIX_ADDR v)) (s.d.get (L.MSIX_DATA v)))) [R.VEC_SENT, L.MSIX_PENDING] []
        (fun e => bitAt (e.get L.MSIX_PENDING) v = false ∧ bitAt (e.get R.VEC_SENT) v = true)) ∧
    (s.live 1 = true →
      Completes (.vecSentAck half bits) s (R.VEC_SENT :: (List.range 32).map fun j => L.VEC_ACK_TICK (32 * half.val + j)) [] (fun e => ∀ i < 64, bitAt (e.get R.VEC_SENT) i =
        (bitAt (s.d.get R.VEC_SENT) i && !(decide (32 * half.val ≤ i) && bits.getLsbD (i - 32 * half.val))))) ∧
    (s.d.get L.MSIX_PENDING = 0 →
      Completes (.msixMaskWrite (some v) mask) s [L.MSIX_MASK v] [] (fun e => e.get (L.MSIX_MASK v) = b2n mask) ∧
      Completes (.msixMaskWrite none mask) s [L.MSIX_FMASK] [] (fun e => e.get L.MSIX_FMASK = b2n mask)) ∧
    Completes .busMasterDisable s [L.PCI_BM_OFF] [] (fun e => e.get L.PCI_BM_OFF = 1) ∧
    Completes .d3hotEntry s [L.PCI_D3HOT] [] (fun e => e.get L.PCI_D3HOT = 1)

/-- R24, R26, R536: the resets of the whole part and their causes. The reset values of fields for which the spec states none are the
model's choice (log entry 3). -/
def Obligations.WholePartResets : Prop :=
  ∀ (s : State) (straps : BitVec 4) (ns : Nat) (key : BitVec 16),
    (∃ t, exec (.powerOnReset straps) s = .next t ∧ MainStarts s t 0 [L.STRAPS, R.POWERUP_COUNT] ∧ t.d.get L.STRAPS = straps.toNat ∧
      t.d.get R.POWERUP_COUNT = 0 ∧ (s.intentQuiet → t.otp = s.otp)) ∧
    (s.power ≠ .baseCampOnly → 1000 ≤ ns →
      ∃ t, exec (.resetN ns) s = .next t ∧ MainStarts s t 1 [] ∧ (s.intentQuiet → t.otp = s.otp)) ∧
    (s.live 0 = true → key.toNat = 0xD1E5 →
      ∃ t, exec (.deviceReset key) s = .next t ∧ MainStarts s t 2 [] ∧ (s.intentQuiet → t.otp = s.otp)) ∧
    (ns < 1000 → NoEffect (.resetN ns) s) ∧ (key.toNat ≠ 0xD1E5 → NoEffect (.deviceReset key) s)

/-- R28, R388, R378 and the PCIe resets of R24 and R31. -/
def Obligations.SupplyLossAndPcieResets : Prop :=
  ∀ s : State,
    (∃ t, exec .mainSupplyLoss s = .next t ∧ t.power = .baseCampOnly ∧ t.run = .booting ∧ t.anchors = s.anchors ∧ t.pending = s.pending ∧
      MainCleared s.d t.d [] [] ∧ (s.intentQuiet → t.otp = s.otp)) ∧
    (∃ t, exec .baseCampColdStart s = .next t ∧ t.power = .baseCampOnly ∧ t.pending = s.pending ∧
      (∀ g : Fld, g.key ≠ L.STRAPS.key → t.d.get g = g.reset) ∧ t.d.get L.STRAPS = s.d.get L.STRAPS % 16 ∧
      (s.intentQuiet → t.otp = s.otp)) ∧
    (s.power ≠ .baseCampOnly → ∀ c ∈ [Instr.pcieConventionalReset, Instr.functionLevelReset],
      Yields c s fun e => e.get L.PCI_BM_OFF = 0 ∧ e.get L.PCI_D3HOT = 0 ∧ e.get L.MSIX_PENDING = 0)

/-- R358 to R360: the stages of the watchdog. -/
def Obligations.WatchdogRows : Prop :=
  ∀ (s : State) (key : BitVec 16),
    (s.live 8 = true → s.d.get R.WD_CTRL_ENABLE = 0 →
      Completes .watchdogEnable s [R.WD_CTRL_ENABLE, R.WD_STATUS_STAGE, L.WD_SINCE] [] fun e =>
        e.get R.WD_CTRL_ENABLE = 1 ∧ e.get R.WD_STATUS_STAGE = 1 ∧ e.get L.WD_SINCE = s.d.cyc % 2 ^ 64) ∧
    (s.live 8 = true → key.toNat = 0xA5C3 → s.d.get R.WD_STATUS_STAGE ≠ 0 → bitAt (s.d.get L.AL_LEVEL) 56 = false →
      Completes (.wdService .mgmt key) s [R.WD_STATUS_STAGE, L.WD_SINCE] [] fun e =>
        e.get R.WD_STATUS_STAGE = 1 ∧ e.get L.WD_SINCE = s.d.cyc % 2 ^ 64) ∧
    NoEffect (.wdService .host key) s ∧ (key.toNat ≠ 0xA5C3 → NoEffect (.wdService .mgmt key) s) ∧
    (s.frozen = false → s.d.get R.WD_STATUS_STAGE = 1 → wdPassed s.d (s.d.get R.WD_TIMEOUT) = true →
      Completes .watchdogTimeout s [R.WD_STATUS_STAGE, L.WD_SINCE] [8] fun e =>
        e.get R.WD_STATUS_STAGE = 2 ∧ e.get L.WD_SINCE = s.d.cyc % 2 ^ 64 ∧ e.evt 8 4 = true) ∧
    (s.frozen = false → s.d.get R.WD_STATUS_STAGE = 2 → wdPassed s.d (s.d.get R.WD_GRACE) = true →
      let a := min (s.d.get R.WD_CTRL_ACTION) (s.d.get R.WD_LIMIT)
      (a = 1 ∨ a = 3 →
        Completes .watchdogExpiry s [R.WD_STATUS_STAGE, L.WD_SINCE, R.WD_STATUS_LAST_ACTION, R.WD_EXPIRIES, L.AL_LEVEL] [8] fun e =>
          e.get R.WD_STATUS_STAGE = 1 ∧ e.get R.WD_STATUS_LAST_ACTION = a ∧ e.evt 8 5 = true ∧
          (s.d.get (L.PAGE_FREEZE 8) = 0 → e.get R.WD_EXPIRIES = min (s.d.get R.WD_EXPIRIES + 1) (2 ^ 32 - 1)) ∧
          (a = 1 → e.get L.AL_LEVEL = s.d.get L.AL_LEVEL) ∧ (a = 3 → bitAt (e.get L.AL_LEVEL) 56 = true)) ∧
      (a = 4 → ∃ t, exec .watchdogExpiry s = .next t ∧ MainStarts s t 3 [] ∧ (s.intentQuiet → t.otp = s.otp)))

/-- R361: the two halves of a management restart. -/
def Obligations.ManagementRestartRows : Prop :=
  ∀ (s : State) (key : BitVec 16),
    (s.live 8 = true → key.toNat = 0x4D52 → s.d.get R.MGMT_STATUS_RESTARTING = 0 →
      Yields (.mgmtRestart key) s fun e => e.get R.MGMT_STATUS_RESTARTING = 1 ∧ e.get R.MGMT_STATUS_CORE_RUN = 0 ∧ e.get L.ROM_RUN = 0 ∧
        (s.run = .booting → e.get R.BOOT_STATUS_STAGE = 0 ∧ e.get R.EXTEND_COUNT = 0)) ∧
    (key.toNat ≠ 0x4D52 → NoEffect (.mgmtRestart key) s) ∧
    (s.frozen = false → s.d.get R.MGMT_STATUS_RESTARTING = 1 → s.d.get L.RESTART_AT + 10000 ≤ s.d.cyc →
      Completes .mgmtRestartCoresStart s [R.MGMT_STATUS_RESTARTING, R.MGMT_STATUS_CORE_RUN, L.CORE_WAIT, L.ROM_RUN, L.ROM_CLOSED] [8] fun e =>
        e.get L.CORE_WAIT = 14 ∧ e.get R.MGMT_STATUS_RESTARTING = 0 ∧ e.get R.MGMT_STATUS_CORE_RUN = 15 ∧ e.get L.ROM_RUN = 1 ∧ e.get L.ROM_CLOSED = 0 ∧
        e.evt 8 6 = true) ∧
    (s.d.cyc < s.d.get L.RESTART_AT + 10000 → NoEffect .mgmtRestartCoresStart s)

/-- R487 to R489: both directions of a power transition. -/
def Obligations.PowerTransitionRows : Prop :=
  ∀ (s : State) (slot : Fin 4),
    (s.live 4 = true → slotActive s.d slot.val = false → s.d.get R.PWR_STATUS_TRANSITION = 0 → s.power = .standby →
      s.d.get (L.SLOT_ARG slot 0) % 4 = 2 → arbExceeds s.d reqPowerState islandUnits = false →
      Becomes (.setPowerState slot) s
        { s.d with waiting := s.d.waiting ++ [⟨reqPowerState, islandUnits, classA, .powerState, s.d.cyc, false⟩] }
        (slotFields slot ++ [R.PWR_STATUS_TRANSITION, L.PWR_SLOT, L.PWR_GRANTED]) [] fun e =>
        SlotHolds s.d e slot 1 codeRunning ∧ e.get R.PWR_STATUS_TRANSITION = 1 ∧ e.get L.PWR_SLOT = slot.val + 1) ∧
    (s.live 4 = true → slotActive s.d slot.val = false → s.d.get R.PWR_STATUS_TRANSITION = 0 → s.power = .active →
      s.d.get (L.SLOT_ARG slot 0) % 4 = 1 → islandIdle s.d = true →
      Completes (.setPowerState slot) s (slotFields slot ++ [R.PWR_STATUS_TRANSITION, L.PWR_SLOT, L.PWR_GRANTED]) [] fun e =>
        SlotHolds s.d e slot 1 codeRunning ∧ e.get R.PWR_STATUS_TRANSITION = 2) ∧
    (s.frozen = false → s.d.get R.PWR_STATUS_TRANSITION = 1 → s.d.get L.PWR_GRANTED = 1 →
      ∃ t, exec .powerStateTransitionDone s = .next t ∧ t = { s with power := .active, d := t.d } ∧
        t.d.get R.ARB_TOTAL_FIXED_LOAD = 680 ∧ t.d.get R.PWR_STATUS_TRANSITION = 0 ∧ t.d.evt 4 16 = true) ∧
    (s.frozen = false → s.d.get R.PWR_STATUS_TRANSITION = 2 →
      ∃ t, exec .powerStateTransitionDone s = .next t ∧ t = { s with power := .standby, d := t.d } ∧
        t.d.get R.ARB_TOTAL_FIXED_LOAD = 40 ∧ t.d.get R.PWR_STATUS_TRANSITION = 0 ∧ t.d.evt 4 16 = true)

/-- R491 to R494 and the account of R497. -/
def Obligations.ArbiterRows : Prop :=
  ∀ (s : State) (v : BitVec 12) (r : PowerReq) (g : PowerGrant) (gs : List PowerGrant) (q u : Nat) (rest : List (Nat × Nat)),
    (s.frozen = false → (∀ x ∈ s.d.waiting, x.arrived = s.d.cyc) → NoEffect .arbiterGrant s) ∧
    (s.frozen = false → s.d.waiting = [r] → r.arrived ≠ s.d.cyc → r.action = .vault → r.requester = reqVault → s.d.issuing = [] →
      r.units ≤ arbFree s.d + unusedFloor s.d reqVault → r.units ≤ slewRoom s.d s.d.slewIssued → 0 < r.units →
      s.d.get (R.REQ_GRANTED reqVault) + r.units < 4096 →
      Becomes .arbiterGrant s
        { s.d with waiting := [], issuing := [], slewIssued := inWindow s.d s.d.slewIssued ++ [(s.d.tick, r.units)] }
        [R.REQ_GRANTED reqVault, R.GRANTS, R.MAX_WAIT_US, R.VAULT_STATUS_ENGINE_GRANTED] [] fun e =>
        e.get (R.REQ_GRANTED reqVault) = s.d.get (R.REQ_GRANTED reqVault) + r.units ∧ e.get R.VAULT_STATUS_ENGINE_GRANTED = 1 ∧
        (s.d.get (L.PAGE_FREEZE 4) = 0 → e.get R.GRANTS = min (s.d.get R.GRANTS + 1) (2 ^ 32 - 1))) ∧
    (s.frozen = false → s.d.issuing = g :: gs → 0 < slewRoom s.d s.d.slewIssued → slewRoom s.d s.d.slewIssued < g.left →
      exec .grantPortion s = .next (s.setDev { s.d with
        slewIssued := inWindow s.d s.d.slewIssued ++ [(s.d.tick, slewRoom s.d s.d.slewIssued)],
        issuing := { g with issued := g.issued + slewRoom s.d s.d.slewIssued, left := g.left - slewRoom s.d s.d.slewIssued } :: gs })) ∧
    (s.frozen = false → s.d.releasing = (q, u) :: rest → 0 < u → u ≤ slewRoom s.d s.d.slewAdmitted →
      Becomes .releasePortion s { s.d with releasing := rest, slewAdmitted := inWindow s.d s.d.slewAdmitted ++ [(s.d.tick, u)] }
        [R.REQ_GRANTED q] [] fun e => e.get (R.REQ_GRANTED q) = (s.d.get (R.REQ_GRANTED q) - u) % 2 ^ 12) ∧
    (s.live 4 = true → anchored s.anchors 3 = false → 64 ≤ v.toNat → arbAccounted s.d + unusedFloors s.d ≤ v.toNat →
      Completes (.budgetCeilingWrite v) s [R.BUDGET_CEILING, R.ARB_STATUS_CEILING_REFUSED] [] fun e =>
        e.get R.BUDGET_CEILING = v.toNat ∧ e.get R.ARB_STATUS_CEILING_REFUSED = 0) ∧
    (s.live 4 = true → anchored s.anchors 3 = false → ¬ (64 ≤ v.toNat ∧ arbAccounted s.d + unusedFloors s.d ≤ v.toNat) →
      Completes (.budgetCeilingWrite v) s [R.ARB_STATUS_CEILING_REFUSED] [4] fun e =>
        e.get R.ARB_STATUS_CEILING_REFUSED = 1 ∧ e.evt 4 9 = true) ∧
    (s.live 4 = true → anchored s.anchors 3 = true → v.toNat ≠ s.d.get R.BUDGET_CEILING →
      Completes (.budgetCeilingWrite v) s [R.ANCHORED_WRITES] [0] fun e => e.evt 0 0 = true) ∧
    (s.d.get R.ARB_TOTAL_FIXED_LOAD = 680 → (∀ k < 32, s.d.get (R.REQ_GRANTED (reqPorts k)) = fullOctet ∧ s.d.get (R.REQ_GRANTED (reqAux k)) = 0) →
      s.d.get (R.REQ_GRANTED reqVault) = 2 → s.d.get (R.REQ_GRANTED reqMemGuard) = 2 → s.d.get (R.REQ_GRANTED reqPowerState) = 0 →
      loadAccount = [832, 256, 600, 576, 64, 20] ∧ arbAccounted s.d = 2348 ∧ loadAccount.sum = 2348)

/-- R500, R501 and R521. -/
def Obligations.VoltageAndCounterRows : Prop :=
  ∀ (s : State) (w : Word) (hot : BitVec 16) (mv : BitVec 10) (iout : BitVec 16) (core : Fin 4) (n : Fin 8) (addr : BitVec 64),
    (s.live 4 = true →
      Completes (.avsEnableWrite w) s [R.AVS_CTRL_ENABLE, R.AVS_CTRL_MANUAL, L.AVS_STOP, L.AVS_BAD, L.AVS_FROM, R.AVS_TARGET_MV] [4] fun e =>
        e.get R.AVS_CTRL_ENABLE = bitsOf w.toNat 0 1 ∧ e.get R.AVS_CTRL_MANUAL = bitsOf w.toNat 1 1 ∧
        (bitsOf w.toNat 0 2 = 3 → e.get R.AVS_TARGET_MV = min 830 (max 670 (s.d.get R.AVS_MANUAL_MV))) ∧
        (bitsOf w.toNat 0 1 = 0 → e.get R.AVS_TARGET_MV = s.d.get R.AVS_TARGET_MV)) ∧
    (s.power ≠ .baseCampOnly → (toSigned 16 hot.toNat < 0 ↔ toSigned 16 (s.d.get L.TEMP_HOT) < 0) → s.d.get R.AVS_CTRL_ENABLE = 1 →
      s.d.get L.AVS_STOP = 0 → s.d.get L.AVS_AT + 100000 ≤ s.d.cyc → s.d.get L.AVS_NOW + 5 ≤ s.d.get R.AVS_TARGET_MV →
      s.d.get R.AVS_TARGET_MV < 1024 →
      Becomes (.avsStep hot) s (s.d.emit (.avs (s.d.get L.AVS_NOW + 5))) [L.TEMP_HOT, L.AVS_NOW, L.AVS_AT] [] fun e =>
        e.get L.AVS_NOW = s.d.get L.AVS_NOW + 5 ∧ e.get L.AVS_AT = s.d.cyc % 2 ^ 64) ∧
    (s.power ≠ .baseCampOnly → s.d.get R.AVS_CTRL_ENABLE = 1 → mv.toNat ≤ s.d.get R.AVS_TARGET_MV + 15 →
      s.d.get R.AVS_TARGET_MV ≤ mv.toNat + 15 →
      Completes (.avsReadback (some (mv, iout))) s [R.AVS_READ_VOUT_MV, R.AVS_READ_IOUT, L.AVS_FROM, L.AVS_BAD] [] fun e =>
        e.get R.AVS_READ_VOUT_MV = mv.toNat ∧ e.get R.AVS_READ_IOUT = iout.toNat ∧ e.get L.AVS_BAD = 0) ∧
    (s.power ≠ .baseCampOnly → s.d.get R.AVS_CTRL_ENABLE = 1 → s.d.get R.AVS_TARGET_MV + 15 < mv.toNat → 9 ≤ s.d.get L.AVS_BAD →
      s.d.get L.AVS_STOP = 0 →
      Completes (.avsReadback (some (mv, iout))) s
        [R.AVS_READ_VOUT_MV, R.AVS_READ_IOUT, L.AVS_FROM, L.AVS_BAD, L.AVS_STOP, R.AVS_FAULTS] [4] fun e =>
        e.get L.AVS_STOP = 1 ∧ e.evt 4 24 = true) ∧
    (s.frozen = false → bitAt (s.d.get R.MGMT_STATUS_CORE_RUN) core = true → s.d.get (L.PERF_EVT core n) < 2 ^ 63 →
      Completes (.perfCounterOverflow core n addr) s
        [L.PERF_CTR core (n + 2), L.PERF_EVT core n, L.LCOFI core, L.MHPMSAMPLE core] [] fun e =>
        e.get (L.PERF_CTR core (n + 2)) = 0 ∧ bitAt (e.get (L.PERF_EVT core n)) 63 = true ∧ e.get (L.LCOFI core) = 1 ∧
        e.get (L.MHPMSAMPLE core) = addr.toNat)

/-- R539: the answers of the SMBus target. The last bit of an alert response is a free value. -/
def Obligations.SmbusRows : Prop :=
  ∀ (s : State) (hot : BitVec 16), s.power ≠ .baseCampOnly →
    exec .smbReadDevState s = .next (s.setDev (s.d.emit (.smb 0x01 [BitVec.ofNat 8 (s.run.code + 16 * s.power.code)]))) ∧
    exec (.smbReadTemperature hot) s = .next (s.setDev (s.d.emit (.smb 0x02 [hot.truncate 8, (hot >>> 8).truncate 8]))) ∧
    (∀ w, s.d.get R.TAMPER_COUNT = w →
      exec .smbReadTamperMeshCase s = .next (s.setDev (s.d.emit (.smb 0x03 [BitVec.ofNat 8 w, BitVec.ofNat 8 (w / 256)]))) ∧
      exec .smbReadTamperSupplyClock s =
        .next (s.setDev (s.d.emit (.smb 0x04 [BitVec.ofNat 8 (w / 65536), BitVec.ofNat 8 (w / 65536 / 256)])))) ∧
    (s.d.get R.ZEROIZE_STATUS_ACTIVE ≤ 1 → s.d.get R.HALT_RECORD_VALID ≤ 1 →
      ∃ b : Byte, exec .smbReadStatusFlags s = .next (s.setDev (s.d.emit (.smb 0x05 [b, 0#8]))) ∧
        b.getLsbD 0 = decide (s.d.get R.STICKY ≠ 0) ∧ b.getLsbD 1 = decide (s.d.get R.ZEROIZE_STATUS_ACTIVE = 1) ∧
        b.getLsbD 2 = decide (s.d.get R.HALT_RECORD_VALID = 1) ∧ b.getLsbD 3 = powerPending s.d 4) ∧
    exec .smbReadAccounted s =
      .next (s.setDev (s.d.emit (.smb 0x06 [BitVec.ofNat 8 (arbAccounted s.d), BitVec.ofNat 8 (arbAccounted s.d / 256)]))) ∧
    exec .smbReadVout s =
      .next (s.setDev (s.d.emit (.smb 0x07 [BitVec.ofNat 8 (s.d.get R.AVS_READ_VOUT_MV), BitVec.ofNat 8 (s.d.get R.AVS_READ_VOUT_MV / 256)]))) ∧
    exec .smbReadLcState s = .next (s.setDev (s.d.emit (.smb 0x08 [BitVec.ofNat 8 (s.d.get R.LC_STATE)]))) ∧
    exec .smbReadDeviceId s = .next (s.setDev (s.d.emit (.smb 0x10 (beBytes 8 (s.d.get R.DEVICE_ID))))) ∧
    (smbAlert s.d = true → ∃ b : Byte, exec .smbAlertResponse s = .next (s.setDev (s.d.tookFree.emit (.smb 0x0C [b]))) ∧
      b.toNat / 2 = 0x58 + s.d.get L.STRAPS / 4 % 4) ∧
    (smbAlert s.d = false → NoEffect .smbAlertResponse s) ∧
    NoEffect .smbOther s

/-- R33, R37, R38, R31: how a master's accesses reach a register, shown on SCRATCH, EV_CFG, OFFSET_NS and HOST_ACCESS_ERRS. -/
def Obligations.RegisterAccessRows : Prop :=
  ∀ (s : State) (m : Master) (v w : Word) (be : BitVec 8) (addr : BitVec 24) (j : Fin 512) (core : Fin 6) (n : Nat),
    (s.live 0 = true →
      Completes (.registerWrite m .bar0 0x000114#24 0x0F#8 ⟨v, none⟩) s [R.SCRATCH, L.HELD_REG m.num 0, L.HELD_LO m.num 0] [] fun e =>
        e.get R.SCRATCH = v.toNat) ∧
    (s.live 1 = true →
      Completes (.registerWrite m .bar0 (BitVec.ofNat 24 (0x010100 + 4 * j)) 0x0F#8 ⟨v, none⟩) s
        [R.EV_CFG_VECTOR j, R.EV_CFG_TO_HOST j, R.EV_CFG_TO_MGMT j, L.HELD_REG m.num 1, L.HELD_LO m.num 1] [] fun e =>
        e.get (R.EV_CFG_VECTOR j) = bitsOf v.toNat 0 6 ∧ e.get (R.EV_CFG_TO_HOST j) = bitsOf v.toNat 8 1 ∧
        e.get (R.EV_CFG_TO_MGMT j) = bitsOf v.toNat 9 1) ∧
    (s.live 1 = true → j.val % 2 = 0 →
      Completes (.registerWrite m .bar0 (BitVec.ofNat 24 (0x010100 + 4 * j)) 0xFF#8 ⟨v, some w⟩) s
        [R.EV_CFG_VECTOR j, R.EV_CFG_TO_HOST j, R.EV_CFG_TO_MGMT j, R.EV_CFG_VECTOR (j + 1), R.EV_CFG_TO_HOST (j + 1), R.EV_CFG_TO_MGMT (j + 1),
          L.HELD_REG m.num 1, L.HELD_LO m.num 1] [] fun e =>
        e.get (R.EV_CFG_VECTOR j) = bitsOf v.toNat 0 6 ∧ e.get (R.EV_CFG_TO_MGMT j) = bitsOf v.toNat 9 1 ∧
        e.get (R.EV_CFG_VECTOR (j + 1)) = bitsOf w.toNat 0 6 ∧ e.get (R.EV_CFG_TO_MGMT (j + 1)) = bitsOf w.toNat 9 1) ∧
    (s.power ≠ .baseCampOnly →
      Completes (.registerWrite .host .config 0x000004#24 0x0F#8 ⟨v, none⟩) s [L.PCI_BM_OFF] [] fun e =>
        e.get L.PCI_BM_OFF = b2n (!v.getLsbD 2)) ∧
    (s.power ≠ .baseCampOnly → be.toNat % 16 ≠ 15 →
      Completes (.registerWrite m .bar0 addr be ⟨v, none⟩) s [R.HOST_ACCESS_ERRS] [] fun e =>
        s.d.get (L.PAGE_FREEZE 0) = 0 → e.get R.HOST_ACCESS_ERRS = min (s.d.get R.HOST_ACCESS_ERRS + 1) (2 ^ 32 - 1)) ∧
    (s.live 2 = true → ropeDisciplined s.d = false →
      Completes (.reg64LowWrite m 0x020120#24 v) s [L.HELD_REG m.num 2, L.HELD_LO m.num 2] [] (fun e =>
        e.get (L.HELD_REG m.num 2) = 0x121 ∧ e.get (L.HELD_LO m.num 2) = v.toNat) ∧
      (s.d.get (L.HELD_REG m.num 2) = 0x121 →
        Completes (.reg64HighWrite m 0x020124#24 v) s [R.OFFSET_NS, L.HELD_REG m.num 2, L.HELD_LO m.num 2] [] fun e =>
          e.get R.OFFSET_NS = (s.d.get (L.HELD_LO m.num 2) + v.toNat * 2 ^ 32) % 2 ^ 64 ∧ e.get (L.HELD_REG m.num 2) = 0) ∧
      (s.d.get (L.HELD_REG m.num 2) = 0 →
        Completes (.reg64HighWrite m 0x020124#24 v) s [R.OFFSET_NS, L.HELD_REG m.num 2, L.HELD_LO m.num 2] [] fun e =>
          e.get R.OFFSET_NS = s.d.get R.OFFSET_NS % 2 ^ 32 + v.toNat * 2 ^ 32)) ∧
    (s.live 2 = true →
      Becomes (.reg64LowRead m ⟨0x020120#24, false⟩) s (s.d.emit (.read m 0x020120 (s.d.get R.OFFSET_NS % 2 ^ 32)))
        [L.TLATCH_LAST m.num, L.LATCH_HI m.num 2, L.LATCH_REG m.num 2] [] fun e =>
        e.get (L.LATCH_HI m.num 2) = s.d.get R.OFFSET_NS / 2 ^ 32 % 2 ^ 32 ∧ e.get (L.LATCH_REG m.num 2) = 0x121) ∧
    (s.live 0 = true → s.frozen = false → core < 4 →
      Becomes (.memoryAccess core 0x010000114#36 n (some (leBytes 4 v.toNat)) []) s (s.d.emit (.mem core 0x010000114 (some [])))
        [R.SCRATCH, L.HELD_REG 1 0, L.HELD_LO 1 0] [] (fun e => e.get R.SCRATCH = v.toNat) ∧
      exec (.memoryAccess core 0x010000114#36 4 none []) s =
        .next (s.setDev (s.d.emit (.mem core 0x010000114 (some (leBytes 4 (s.d.get R.SCRATCH % 2 ^ 32))))))) ∧
    (s.live 0 = true →
      Becomes (.readClear m ⟨.bar0, 0x000110#24⟩) s (s.d.emit (.read m 0x000110 (s.d.get R.HOST_ACCESS_ERRS % 2 ^ 32))) [R.HOST_ACCESS_ERRS] [] fun e =>
        e.get R.HOST_ACCESS_ERRS = 0)

/-- R544 on pages 0x02 and 0x03, R25, and the start of the waypoint engine. -/
def Obligations.SoftResetAndEngineRows : Prop :=
  ∀ s : State,
    (∀ pg : Fin 256, s.live pg = true → exec (.softReset pg) s = .next (s.setDev (s.d.post (.softReset pg)))) ∧
    Acts (.softReset 3) s s.d [R.WP_LATE_COUNT, R.WP_FAIL_COUNT, R.WP_LAST_LATE, R.WP_LAST_FAIL] [] (fun e =>
      e.get R.WP_LATE_COUNT = 0 ∧ e.get R.WP_FAIL_COUNT = 0 ∧ e.get R.WP_LAST_LATE = 0 ∧ e.get R.WP_LAST_FAIL = 0) ∧
    Acts (.softReset 2) s { s.d with todTx := [], todRx := [] } [R.DISCIPLINE_REFUSED, R.STEP_COUNT, R.TOD_RX_DATA_BYTE, L.TOD_LEFT] [] (fun e =>
      e.get R.DISCIPLINE_REFUSED = 0 ∧ e.get R.STEP_COUNT = 0) ∧
    (∀ pg ∈ [0, 1, 5, 6, 7, 9, 13], postedAct s (.softReset pg) = s) ∧
    (s.live 3 = true → s.d.get (L.PAGE_ENABLE 3) = 0 → wpArmedList s.d = [] →
      Completes .waypointEngineEnable s [L.PAGE_ENABLE 3] [] fun e => e.get (L.PAGE_ENABLE 3) = 1) ∧
    (s.d.get (L.PAGE_ENABLE 3) = 1 → NoEffect .waypointEngineEnable s)

/-- R45 to R48 and R54. -/
def Obligations.TableWindowRows : Prop :=
  ∀ (s : State) (m : Master) (pg : Fin 256) (slot : Fin 4) (i : Fin 67) (n : Fin 16),
    let win := fun p => [L.WIN_BUSY m.num p, L.WIN_CODE m.num p, L.WIN_COLLIDE m.num p, L.WIN_OP m.num p]
    (s.live pg = true → hasWindow m.num pg = true → s.d.get (L.WIN_BUSY m.num pg) = 0 →
      ∀ x ∈ [(Instr.tblRead m pg, 1), (Instr.tblWrite m pg, 2), (Instr.tblClear m pg, 3)], Completes x.1 s (win pg) [] fun e =>
        e.get (L.WIN_BUSY m.num pg) = 1 ∧ e.get (L.WIN_CODE m.num pg) = codeRunning ∧ e.get (L.WIN_COLLIDE m.num pg) = 0 ∧
        e.get (L.WIN_OP m.num pg) = x.2) ∧
    (s.live pg = true → hasWindow m.num pg = true → s.d.get (L.WIN_BUSY m.num pg) = 1 →
      ∀ c ∈ [Instr.tblRead m pg, Instr.tblWrite m pg, Instr.tblClear m pg], Completes c s [L.WIN_COLLIDE m.num pg] [] fun e =>
        e.get (L.WIN_COLLIDE m.num pg) = 1) ∧
    (s.live 4 = true → s.d.get (L.WIN_BUSY m.num 4) = 1 → s.d.get (L.WIN_TABLE m.num 4) = 0 →
      (s.d.get (L.WIN_INDEX m.num 4) = i.val → s.d.get (L.WIN_OP m.num 4) = 1 →
        Completes (.tblOpDone m 4) s (L.WIN_DATA m.num 4 :: win 4) [] fun e =>
          e.get (L.WIN_BUSY m.num 4) = 0 ∧ e.get (L.WIN_CODE m.num 4) = codeOk ∧
          bitsOf (e.get (L.WIN_DATA m.num 4)) 0 12 = s.d.get (R.REQ_FLOOR i) % 2 ^ 12 ∧
          bitsOf (e.get (L.WIN_DATA m.num 4)) 16 12 = s.d.get (R.REQ_CEILING i) % 2 ^ 12 ∧
          bitsOf (e.get (L.WIN_DATA m.num 4)) 32 12 = s.d.get (R.REQ_GRANTED i) % 2 ^ 12) ∧
      (s.d.get (L.WIN_INDEX m.num 4) = i.val → s.d.get (L.WIN_OP m.num 4) = 2 →
        Completes (.tblOpDone m 4) s ([R.REQ_FLOOR i, R.REQ_CEILING i, R.ARB_STATUS_FLOOR_REFUSED] ++ win 4) [4] fun e =>
          e.get (L.WIN_BUSY m.num 4) = 0 ∧ e.get (L.WIN_CODE m.num 4) = codeOk ∧
          e.get (R.REQ_CEILING i) = bitsOf (s.d.get (L.WIN_DATA m.num 4)) 16 12 ∧
          (e.get R.ARB_STATUS_FLOOR_REFUSED = 0 →
            e.get (R.REQ_FLOOR i) = min (bitsOf (s.d.get (L.WIN_DATA m.num 4)) 0 12) (bitsOf (s.d.get (L.WIN_DATA m.num 4)) 16 12)) ∧
          (e.get R.ARB_STATUS_FLOOR_REFUSED ≠ 0 → e.get (R.REQ_FLOOR i) = s.d.get (R.REQ_FLOOR i) ∧ e.evt 4 9 = true)) ∧
      (67 ≤ s.d.get (L.WIN_INDEX m.num 4) → s.d.get (L.WIN_OP m.num 4) ≠ 0 →
        Completes (.tblOpDone m 4) s (win 4) [] fun e => e.get (L.WIN_CODE m.num 4) = codeArg)) ∧
    (s.live pg = true → hasSlots pg = true → slotSeen m.num pg = true → slotCode s.d (slotId pg slot) = codeOk →
      s.d.get (L.SLOT_READ_ONCE (slotId pg slot)) = n.val + 1 →
      Becomes (.resultReadOnce m pg slot) s
        (s.d.emit (.read m (pg.val * 65536 + 0x104C + 0x100 * slot.val + 4 * n.val) (s.d.get (L.SLOT_RESULT (slotId pg slot) n))))
        [L.SLOT_CODE (slotId pg slot)] [] fun e => slotCode e (slotId pg slot) = codeConsumed)

/-- R66, R73, R74 and the end of a slew. -/
def Obligations.TimebaseReferenceRows : Prop :=
  ∀ (s : State) (rope : Bool), s.power ≠ .baseCampOnly →
    (s.d.get L.TB_RUN = 0 →
      Becomes .timebasePllLock s { s.d with time := 0, cyc := 0, tick := 0, tickTime := 0, nextTick := 4 * fineNs }
        [L.TB_RUN, R.TB_STATUS_PLL_LOCKED, R.RATE_ADJ, R.TB_STATUS_TIME_SET, L.HO_SINCE] [] fun e =>
        e.get L.TB_RUN = 1 ∧ e.get R.TB_STATUS_PLL_LOCKED = 1 ∧ e.get R.RATE_ADJ = 0 ∧ e.get R.TB_STATUS_TIME_SET = 0) ∧
    (s.d.get R.TB_STATUS_REF_LOST = 0 →
      Completes .refLost s [L.AL_LEVEL, R.TB_STATUS_REF_LOST, R.TB_STATUS_PLL_LOCKED, R.TB_STATUS_HOLDOVER] [2] fun e =>
        e.get R.TB_STATUS_REF_LOST = 1 ∧ bitAt (e.get L.AL_LEVEL) 33 = true ∧ e.evt 2 4 = true ∧ e.on R.TB_STATUS_HOLDOVER = true ∧
        (s.d.get R.TB_STATUS_HOLDOVER = 0 → e.evt 2 2 = true)) ∧
    (s.d.get R.TB_STATUS_REF_LOST = 1 →
      Completes .refRestored s [L.AL_LEVEL, R.TB_STATUS_REF_LOST, R.TB_STATUS_PLL_LOCKED, R.TB_STATUS_HOLDOVER] [2] fun e =>
        e.get R.TB_STATUS_REF_LOST = 0 ∧ bitAt (e.get L.AL_LEVEL) 33 = false ∧ e.evt 2 5 = true ∧
        e.on R.TB_STATUS_HOLDOVER = holdoverCause e) ∧
    (s.live 2 = true → s.d.on R.TB_CTRL_DISCIPLINE_SRC ≠ rope →
      Completes (.disciplineSrcWrite rope) s [R.TB_CTRL_DISCIPLINE_SRC, L.HO_FW, L.HO_SINCE, R.TB_STATUS_HOLDOVER] [2] fun e =>
        e.get R.TB_CTRL_DISCIPLINE_SRC = b2n rope ∧ e.on R.TB_STATUS_HOLDOVER = holdoverCause e) ∧
    (ropeDisciplined s.d = false → s.d.get R.HOLDOVER_TIMEOUT ≠ 0 →
      s.d.get L.HO_SINCE + s.d.get R.HOLDOVER_TIMEOUT * 1000000 ≤ s.d.cyc →
      Completes .holdoverTimeout s [L.HO_FW, R.TB_STATUS_HOLDOVER] [2] fun e => e.get L.HO_FW = 1 ∧ e.on R.TB_STATUS_HOLDOVER = true) ∧
    (s.d.get R.TB_STATUS_SLEWING = 1 → s.d.get L.ADJ_FINE = 0 →
      Completes .slewDone s [R.TB_STATUS_SLEWING, L.RATE_MOVED] [2] fun e => e.get R.TB_STATUS_SLEWING = 0 ∧ e.evt 2 1 = true)

/-- R69 to R73; the clauses about a step are those with the waypoint engine off. -/
def Obligations.SteeringRows : Prop :=
  ∀ (s : State) (rate : BitVec 40) (off : Int),
    (s.live 2 = true → ropeDisciplined s.d = false →
      exec (.rateAdjCommit rate) s = .next (s.setDev (s.d.post (.rate rate.toNat))) ∧
      exec .adjStep s = .next (s.setDev (s.d.post (.adj 1 (adjOffset s.d)))) ∧
      exec .adjSlew s = .next (s.setDev (s.d.post (.adj 2 (adjOffset s.d)))) ∧
      exec .adjAbort s = .next (s.setDev (s.d.post (.adj 3 (adjOffset s.d))))) ∧
    (Acts (.rate rate.toNat) s s.d
        [R.RATE_ADJ, R.TB_STATUS_RATE_CLAMPED, L.RATE_MOVED, L.HO_FW, L.HO_SINCE, R.TB_STATUS_HOLDOVER] [2] (fun e =>
        toSigned 40 (e.get R.RATE_ADJ) = max (-rateLimit) (min rateLimit rate.toInt) ∧
        (e.get R.TB_STATUS_RATE_CLAMPED = 1 ↔ ¬ (-rateLimit ≤ rate.toInt ∧ rate.toInt ≤ rateLimit)) ∧
        (e.get R.TB_STATUS_RATE_CLAMPED = 1 → e.evt 2 8 = true) ∧ e.get L.HO_FW = 0 ∧ e.get L.HO_SINCE = s.d.cyc % 2 ^ 64) ∧
      (stepInRange s.d off = true → s.d.get (L.PAGE_ENABLE 3) = 0 →
        ActsSo (.adj 1 off) s fun e =>
          ({ s.d with time := ((s.d.time : Int) + off).toNat, nextTick := tickCeil ((s.d.time : Int) + off).toNat } : Dev).KeepsBut e (fun k =>
            keyOf [L.ADJ_FINE, R.ADJ_REMAIN, R.TB_STATUS_SLEWING, R.TB_STATUS_TIME_SET, R.TB_STATUS_ADJ_REFUSED, R.STEP_COUNT, L.STEP_SERIAL,
              L.HO_FW, L.HO_SINCE, R.TB_STATUS_HOLDOVER] k || eventKey 2 k || groupKey (L.CBS_HOLD 0) k) ∧
          e.get R.TB_STATUS_TIME_SET = 1 ∧ e.get R.TB_STATUS_SLEWING = 0 ∧ e.get R.ADJ_REMAIN = 0 ∧ e.get L.ADJ_FINE = 0 ∧ e.evt 2 0 = true ∧
          (s.d.get (L.PAGE_FREEZE 2) = 0 → e.get R.STEP_COUNT = min (s.d.get R.STEP_COUNT + 1) (2 ^ 32 - 1))) ∧
      (stepInRange s.d off = false →
        Acts (.adj 1 off) s s.d [R.TB_STATUS_ADJ_REFUSED] [] fun e => e.get R.TB_STATUS_ADJ_REFUSED = 1) ∧
      (s.d.get R.SLEW_RATE ≠ 0 →
        Acts (.adj 2 off) s s.d [L.ADJ_FINE, R.ADJ_REMAIN, R.TB_STATUS_SLEWING, R.TB_STATUS_ADJ_REFUSED, L.RATE_MOVED, L.HO_FW, L.HO_SINCE,
            R.TB_STATUS_HOLDOVER] [2] fun e =>
          e.get R.TB_STATUS_SLEWING = 1 ∧ e.get L.ADJ_FINE = ofSigned 128 off ∧ e.get R.TB_STATUS_ADJ_REFUSED = 0 ∧ e.get L.HO_FW = 0) ∧
      (s.d.get R.SLEW_RATE = 0 → Acts (.adj 2 off) s s.d [R.TB_STATUS_ADJ_REFUSED] [] fun e => e.get R.TB_STATUS_ADJ_REFUSED = 1) ∧
      Acts (.adj 3 off) s s.d [L.ADJ_FINE, R.ADJ_REMAIN, R.TB_STATUS_SLEWING, R.TB_STATUS_ADJ_REFUSED, L.RATE_MOVED, L.HO_FW, L.HO_SINCE,
          R.TB_STATUS_HOLDOVER] [2] fun e =>
        e.get R.TB_STATUS_SLEWING = 0 ∧ e.get L.ADJ_FINE = 0 ∧ e.get R.ADJ_REMAIN = 0) ∧
    (s.live 2 = true → ropeDisciplined s.d = true → ∀ c ∈ [Instr.rateAdjCommit rate, .adjStep, .adjSlew, .adjAbort],
      Completes c s [R.DISCIPLINE_REFUSED] [2] fun e => e.evt 2 9 = true ∧
        (s.d.get (L.PAGE_FREEZE 2) = 0 → e.get R.DISCIPLINE_REFUSED = min (s.d.get R.DISCIPLINE_REFUSED + 1) (2 ^ 32 - 1)))

/-- R68, R75 and R76. -/
def Obligations.TimeReadPpsTodRows : Prop :=
  ∀ (s : State) (m : Master) (n : Fin 2) (rising : Bool) (width ago : Nat) (b : Byte) (rest : List Byte), s.power ≠ .baseCampOnly →
    let f := ppsFields n
    let z : Int := (s.d.time : Int) - (ago * 2 ^ 32 : Nat) - toSigned 32 (s.d.get (R.PPS_IN_DELAY n)) * 2 ^ 32
    (s.live 2 = true →
      Becomes (.timeLatchRead m 0) s (s.d.emit (.read m 0x020100 (fracOf s.d.time)))
        [L.TLATCH_NS m.num 0, L.TLATCH_SEC_LO m.num 0, L.TLATCH_SEC_HI m.num 0, L.TLATCH_LAST m.num] [] fun e =>
        e.get (L.TLATCH_NS m.num 0) = nsOf s.d.time ∧ e.get (L.TLATCH_SEC_LO m.num 0) = secOf s.d.time % 2 ^ 32 ∧
        e.get (L.TLATCH_SEC_HI m.num 0) = secOf s.d.time / 2 ^ 32 % 2 ^ 16 ∧ e.get (L.TLATCH_LAST m.num) = 1) ∧
    (s.live 2 = true →
      Becomes (.timeLatchRead m ⟨n + 1, by omega⟩) s (s.d.emit (.read m (0x020140 + 16 * n) (s.d.get f.1)))
        [L.TLATCH_NS m.num (n + 1), L.TLATCH_SEC_LO m.num (n + 1), L.TLATCH_SEC_HI m.num (n + 1), L.TLATCH_LAST m.num] [] fun e =>
        e.get (L.TLATCH_NS m.num (n + 1)) = s.d.get f.2.1 % 2 ^ 30 ∧ e.get (L.TLATCH_LAST m.num) = n + 2) ∧
    (bitAt (s.d.get R.TB_CTRL_PPS_IN_EN) n = true → bitAt (s.d.get R.TB_CTRL_PPS_IN_FALL) n ≠ rising → 10 ≤ width →
      (s.d.get (L.PPS_LAST n) = 0 ∨ s.d.get (L.PPS_LAST n) + 1000 < s.d.cyc + 1) → 0 ≤ z →
      Completes (.ppsInEdge n rising ⟨width, ago⟩) s [f.1, f.2.1, f.2.2.1, f.2.2.2, L.PPS_LAST n] [2] fun e =>
        e.get f.1 = fracOf z.toNat ∧ e.get f.2.1 = nsOf z.toNat ∧ e.get f.2.2.1 = secOf z.toNat % 2 ^ 32 ∧
        e.get f.2.2.2 = secOf z.toNat / 2 ^ 32 % 2 ^ 16 ∧ e.evt 2 (6 + n) = true) ∧
    (width < 10 → NoEffect (.ppsInEdge n rising ⟨width, ago⟩) s) ∧
    (s.live 2 = true → s.d.todTx.length < 64 → s.d.get R.TOD_CTRL_FREE_SEND = 0 →
      exec (.todTxWrite b) s = .next (s.setDev { s.d with todTx := s.d.todTx ++ [b] })) ∧
    (s.live 2 = true → 64 ≤ s.d.todTx.length → s.d.get R.TOD_CTRL_FREE_SEND = 0 → NoEffect (.todTxWrite b) s) ∧
    (s.d.get R.TOD_CTRL_ENABLE = 1 → s.d.todRx.length < 64 →
      Becomes (.todRxByte b) s { s.d with todRx := s.d.todRx ++ [b] } [] [2] fun e => e.evt 2 10 = true) ∧
    (s.d.get R.TOD_CTRL_ENABLE = 0 ∨ 64 ≤ s.d.todRx.length → NoEffect (.todRxByte b) s) ∧
    (s.live 2 = true → s.d.todRx = b :: rest →
      Becomes (.todRxRead m) s ({ s.d with todRx := rest }.emit (.read m 0x020178 (b.toNat + 256))) [L.TLATCH_LAST m.num] [] fun _ => True) ∧
    (s.d.get L.TOD_TX_BUSY = 1 →
      (todPump s.d).todTx = s.d.todTx.drop (min (s.d.get L.TOD_LEFT)
        ((s.d.cyc - s.d.get L.TOD_AT) * todBaud s.d / 10000000000 + 1 - s.d.get L.TOD_SENT)) ∧
      (s.d.get L.TOD_LEFT = s.d.todTx.length → s.d.todTx ≠ [] →
        Becomes .todTxEmpty s ({ s.d with todTx := [] }.emit (.tod s.d.todTx)) [L.TOD_TX_BUSY, L.TOD_LEFT] [2] fun e =>
          e.get L.TOD_TX_BUSY = 0 ∧ e.evt 2 11 = true) ∧
      (s.d.get L.TOD_LEFT = 0 → Completes .todTxEmpty s [L.TOD_TX_BUSY, L.TOD_LEFT] [2] fun e =>
        e.get L.TOD_TX_BUSY = 0 ∧ (s.d.todTx = [] → e.evt 2 11 = true)))

/-- R85 to R91: six of the eleven actions and the carried register write. Where TOD_SEND has nothing to send it ends well (log entry 11), and a
TIME_STEP out of range leaves ADJ_REFUSED (log entry 12). -/
def Obligations.WaypointTimeRows : Prop :=
  (∀ s : State, s.d.posted = [] → s.flushDue = s) ∧ (∀ (d : Dev) (n : Nat), NoWaits d n → wpErase d n = d) ∧
  ∀ (s : State) (n : Fin 4096) (o : Fin 2), s.run.stopped = false →
    let d := s.d
    let t := wpInstant d n
    let tick := d.tickTime
    let pulse : Int := (t : Int) + toSigned 32 (d.get (R.PPS_OUT_DELAY o)) * 2 ^ 32
    let edge (at' : Nat) : Out := .pps o at' (d.get (R.WP_ARG0 n)) (!bitAt (d.get R.TB_CTRL_PPS_OUT_INV) o)
    let off : Int := toSigned 64 (d.get (R.WP_ARG0 n) + d.get (R.WP_ARG1 n) * 2 ^ 32) * (fineNs : Nat)
    let now := ((d.time : Int) + off).toNat
    let sends := d.todTx ≠ [] ∧ d.get R.TOD_CTRL_ENABLE = 1 ∧ d.get L.TOD_TX_BUSY = 0
    let failed := wpFields n ++ [R.WP_FAILED n, R.WP_FAIL_CODE n, R.WP_LAST_FAIL, R.WP_FAIL_COUNT]
    let fails (e : Dev) : Prop := e.get (R.WP_FAILED n) = 1 ∧ e.get (R.WP_FAIL_CODE n) = codeState ∧ e.get R.WP_LAST_FAIL = n.val ∧ e.evt 3 2 = true
    let writing := wpFields n ++ [L.WP_TICK, L.WP_TICK_COUNT]
    let writes (s' : State) : State := busWrite s' 1 (d.get (R.WP_TARGET n)) (d.get (R.WP_ARG0 n))
    (wpReady d n wpMark = true → WpActs (.wpMark n) s n d (wpFields n) [3] fun e => WpRecorded d e n tick) ∧
    (wpReady d n wpPpsEdge = true → d.get (R.WP_TARGET n) = o.val →
      (bitAt (d.get R.TB_CTRL_PPS_OUT_EN) o = true → 0 ≤ pulse →
        WpActs (.wpPpsEdge n) s n (d.emit (edge pulse.toNat)) (wpFields n) [3] fun e => WpRecorded d e n t) ∧
      (bitAt (d.get R.TB_CTRL_PPS_OUT_EN) o = true → pulse < 0 → ∃ free : Nat,
        WpActs (.wpPpsEdge n) s n (d.tookFree.emit (edge free)) (wpFields n) [3] fun e => WpRecorded d e n t) ∧
      (bitAt (d.get R.TB_CTRL_PPS_OUT_EN) o = false → WpActs (.wpPpsEdge n) s n d failed [3] fun e => WpRecorded d e n t ∧ fails e)) ∧
    (wpReady d n wpTodSend = true →
      (sends → WpActs (.wpTodSend n) s n d
        (wpFields n ++ [L.TOD_TX_BUSY, L.TOD_LEFT, L.TOD_SENT, L.TOD_AT, L.TOD_START_SEC, L.TOD_START_NS, L.TOD_START_FRAC]) [3] fun e =>
        WpRecorded d e n t ∧ e.get L.TOD_TX_BUSY = 1 ∧ e.get L.TOD_START_NS = nsOf t ∧ e.get L.TOD_START_SEC = secOf t % 2 ^ 48 ∧
        e.get L.TOD_LEFT = d.todTx.length % 2 ^ L.TOD_LEFT.w) ∧
      (¬ sends → WpActs (.wpTodSend n) s n d (wpFields n) [3] fun e => WpRecorded d e n t)) ∧
    (wpReady d n wpTimeStep = true →
      (ropeDisciplined d = false → stepInRange d off = true →
        ∃ e : Dev, exec (.wpTimeStep n) s = .next (s.setDev (wpErase e n)).flushDue ∧ WpRecorded d e n t ∧ e.time = now ∧
          e.nextTick = tickCeil now ∧ e.get R.TB_STATUS_TIME_SET = 1 ∧ e.get R.TB_STATUS_SLEWING = 0 ∧ e.get R.ADJ_REMAIN = 0 ∧ e.evt 2 0 = true ∧
          (d.get (L.PAGE_FREEZE 2) = 0 → e.get R.STEP_COUNT = min (d.get R.STEP_COUNT + 1) (2 ^ 32 - 1)) ∧
          (off ≤ 0 → ({ d with time := now, nextTick := tickCeil now } : Dev).KeepsBut e fun k =>
            keyOf (wpFields n ++ [L.ADJ_FINE, R.ADJ_REMAIN, R.TB_STATUS_SLEWING, R.TB_STATUS_TIME_SET, R.STEP_COUNT, L.STEP_SERIAL]) k ||
              eventKey 2 k || eventKey 3 k || groupKey (L.CBS_HOLD 0) k)) ∧
      (ropeDisciplined d = true ∨ stepInRange d off = false →
        WpActs (.wpTimeStep n) s n d failed [3] fun e => WpRecorded d e n t ∧ fails e)) ∧
    (wpReady d n wpRegWrite = true → d.get (L.WP_CARRY n) = 0 →
      (wpWrites d < 8 → ∃ e : Dev, d.OnlyChanges e writing [3] ∧ WpRecorded d e n tick ∧ e.get L.WP_TICK_COUNT = wpWrites d + 1 ∧
        exec (.wpRegWrite n) s =
          .next ((writes (s.setDev e)).setDev (wpErase (writes (s.setDev e)).d n)).flushDue) ∧
      (wpWrites d < 8 → s.live 0 = true → d.get (R.WP_TARGET n) = 0x000114 →
        WpActs (.wpRegWrite n) s n d (writing ++ [R.SCRATCH, L.HELD_REG 1 0, L.HELD_LO 1 0]) [3] fun e =>
          WpRecorded d e n tick ∧ e.get R.SCRATCH = d.get (R.WP_ARG0 n) % 2 ^ 32) ∧
      (8 ≤ wpWrites d → Completes (.wpRegWrite n) s [L.WP_CARRY n] [] fun e => e.get (L.WP_CARRY n) = (d.tick + 1) % 2 ^ 64)) ∧
    (wpArmedFor d n wpRegWrite = true → d.get (L.WP_CARRY n) ≠ 0 → d.get (L.WP_CARRY n) ≠ d.tick + 1 → wpFirst d n = true → wpWrites d < 8 →
      ∃ e : Dev, d.OnlyChanges e (R.WP_DELAYED n :: writing) [3] ∧ WpRecorded d e n tick ∧ e.get L.WP_TICK_COUNT = wpWrites d + 1 ∧
        e.get (R.WP_DELAYED n) = 1 ∧ e.evt 3 4 = true ∧
        exec (.wpRegWriteDeferred n) s =
          .next ((writes (s.setDev e)).setDev (wpErase (writes (s.setDev e)).d n)).flushDue)

/-- R88 to R90 with the chapters of the other five actions. That a scheduled action is kept until T is the model's form of R18 (log entry 30). -/
def Obligations.WaypointDataRows : Prop :=
  (∀ (d : Dev) (x : Nat) (enable : Bool) (t : Nat), d.txHeld = [(x, enable, t)] → t ≤ d.tickTime →
    (enable = true → saState d false x = saLoaded → secyInService d (x / 4) = false →
      ({ d with txHeld := [] } : Dev).OnlyChanges (heldTick d) [R.TXSA_STATE x, R.SECY_ENCODING_AN (x / 4), R.SECY_SWITCH_PENDING (x / 4),
        L.SW_AT_V (x / 4), L.SW_AT (x / 4)] [] ∧
      saState (heldTick d) false x = saInService ∧ (heldTick d).get (R.SECY_ENCODING_AN (x / 4)) = x % 4) ∧
    (enable = false → saState d false x = saInService →
      ({ d with txHeld := [] } : Dev).OnlyChanges (heldTick d) [R.TXSA_STATE x] [] ∧ saState (heldTick d) false x = saDraining)) ∧
  (∀ (d : Dev) (x t : Nat), (∀ y ∈ d.txHeld, y.1 / 4 ≠ x / 4) → heldApply d (heldFor (x / 4) t) = d) ∧
  ∀ (s : State) (n : Fin 4096) (q : Fin 256), s.run.stopped = false →
    let d := s.d
    let t := wpInstant d n
    let tick := d.tickTime
    let late := d.on (L.WP_DUE n)
    let x := d.get (R.WP_TARGET n)
    let a := d.get (R.WP_ARG0 n)
    let failing := wpFields n ++ [R.WP_FAILED n, R.WP_FAIL_CODE n, R.WP_LAST_FAIL, R.WP_FAIL_COUNT]
    let fails (e : Dev) (code : Nat) : Prop := WpRecorded d e n tick ∧ e.get (R.WP_FAILED n) = 1 ∧ e.get (R.WP_FAIL_CODE n) = code ∧
      e.get R.WP_LAST_FAIL = n.val ∧ e.evt 3 2 = true
    let then' := heldApply d (heldFor (x / 4) t)
    let loaded := saState d false (4 * x + a % 4) = saLoaded ∧ d.get (R.SECY_SWITCH_PENDING x) = 0
    (wpReady d n wpTxSaSwitch = true → x < 4096 →
      (loaded → WpActs (.wpTxSaSwitch n) s n d (wpFields n ++ [R.SECY_SWITCH_PENDING x, R.SECY_PENDING_AN x, L.SW_AT_V x, L.SW_AT x]) [3] fun e =>
        WpRecorded d e n tick ∧ e.get (R.SECY_SWITCH_PENDING x) = 1 ∧ e.get (R.SECY_PENDING_AN x) = a % 4 ∧
        e.get (L.SW_AT_V x) = b2n (!late) ∧ (late = false → e.get (L.SW_AT x) = t % 2 ^ 128)) ∧
      (¬ loaded → WpActs (.wpTxSaSwitch n) s n d failing [3] fun e => fails e codeState)) ∧
    (wpReady d n wpSaEnable = true → a % 2 = 1 → x < 65536 →
      (saState d true x = saLoaded →
        WpActs (.wpSaEnable n) s n d (wpFields n ++ [R.RXSA_STATE x, L.RXSA_FROM_V x, L.RXSA_FROM x, L.RXSA_UNTIL_V x, L.RXSA_UNTIL x]) [3] fun e =>
          WpRecorded d e n tick ∧ saState e true x = saInService ∧ e.get (L.RXSA_FROM_V x) = 1 ∧ e.get (L.RXSA_FROM x) = t % 2 ^ 128 ∧
          e.get (L.RXSA_UNTIL_V x) = 0) ∧
      (saState d true x ≠ saLoaded → WpActs (.wpSaEnable n) s n d failing [3] fun e => fails e codeState)) ∧
    (wpReady d n wpSaEnable = true → a % 2 = 0 → x < 16384 →
      (late = true → saState d false x = saLoaded → secyInService d (x / 4) = false →
        WpActs (.wpSaEnable n) s n d (wpFields n ++ [R.TXSA_STATE x, R.SECY_ENCODING_AN (x / 4), R.SECY_SWITCH_PENDING (x / 4), L.SW_AT_V (x / 4),
            L.SW_AT (x / 4)]) [3] fun e =>
          WpRecorded d e n tick ∧ saState e false x = saInService ∧ e.get (R.SECY_ENCODING_AN (x / 4)) = x % 4) ∧
      (late = true → (saState d false x ≠ saLoaded ∨ secyInService d (x / 4) = true) →
        WpActs (.wpSaEnable n) s n d failing [3] fun e => fails e codeState) ∧
      (late = false → saState then' false x = saLoaded → secyInService then' (x / 4) = false →
        WpActs (.wpSaEnable n) s n { d with txHeld := d.txHeld ++ [(x, true, t)] } (wpFields n) [3] fun e => WpRecorded d e n tick) ∧
      (late = false → (saState then' false x ≠ saLoaded ∨ secyInService then' (x / 4) = true) →
        WpActs (.wpSaEnable n) s n d failing [3] fun e => fails e codeState)) ∧
    (wpReady d n wpSaRetire = true → a % 2 = 1 → x < 65536 →
      (saState d true x = saInService → d.get (L.RXSA_UNTIL_V x) = 0 →
        WpActs (.wpSaRetire n) s n d (wpFields n ++ [L.RXSA_UNTIL_V x, L.RXSA_UNTIL x]) [3] fun e =>
          WpRecorded d e n tick ∧ e.get (L.RXSA_UNTIL_V x) = 1 ∧ e.get (L.RXSA_UNTIL x) = t % 2 ^ 128) ∧
      (saState d true x ≠ saInService ∨ d.get (L.RXSA_UNTIL_V x) ≠ 0 → WpActs (.wpSaRetire n) s n d failing [3] fun e => fails e codeState)) ∧
    (wpReady d n wpSaRetire = true → a % 2 = 0 → x < 16384 →
      (late = true → saState d false x = saInService →
        WpActs (.wpSaRetire n) s n d (R.TXSA_STATE x :: wpFields n) [3] fun e => WpRecorded d e n tick ∧ saState e false x = saDraining) ∧
      (late = true → saState d false x ≠ saInService → WpActs (.wpSaRetire n) s n d failing [3] fun e => fails e codeState) ∧
      (late = false → saState then' false x = saInService →
        WpActs (.wpSaRetire n) s n { d with txHeld := d.txHeld ++ [(x, false, t)] } (wpFields n) [3] fun e => WpRecorded d e n tick) ∧
      (late = false → saState then' false x ≠ saInService → WpActs (.wpSaRetire n) s n d failing [3] fun e => fails e codeState)) ∧
    (wpReady d n wpGateListSwap = true → x < 256 →
      (gateCheck d x = codeOk → WpActs (.wpGateListSwap n) s n d (wpFields n ++ [R.GATE_CONFIG_PENDING x, R.GATE_CONFIG_ERROR x, R.GATE_PAST_BASE x,
          L.GATE_AT x, R.GATE_CONFIG_CHANGE_SEC x, R.GATE_CONFIG_CHANGE_NS x]) [3] fun e =>
        WpRecorded d e n tick ∧ e.get (R.GATE_CONFIG_PENDING x) = 1 ∧ e.get (L.GATE_AT x) = (if late then t + gateMargin else t) % 2 ^ 128) ∧
      (gateCheck d x ≠ codeOk → WpActs (.wpGateListSwap n) s n d (failing ++ [R.GATE_CONFIG_ERROR x, R.GATE_STATS x 1]) [3, 0x80 + x / 32] fun e =>
        fails e (gateCheck d x) ∧ e.get (R.GATE_CONFIG_ERROR x) = 1 ∧ e.evt (0x80 + x / 32) (x % 32) = true)) ∧
    (wpReady d n wpWindowEdge = true →
      (∃ e : Dev, d.OnlyChanges e (wpFields n) [3] ∧ WpRecorded d e n tick ∧
        exec (.wpWindowEdge n) s = .next (s.setDev (wpErase (winGroupEdge e x (a % 32) t) n)).flushDue) ∧
      (d.get (L.PAGE_ENABLE 0xC) = 0 → WpActs (.wpWindowEdge n) s n d (wpFields n) [3] fun e => WpRecorded d e n tick) ∧
      (d.get (L.PAGE_ENABLE 0xC) = 1 → (∀ r < 256, r ≠ q.val → d.get (R.PTEL_WINDOW_EN r) = 0) → d.get (R.PTEL_WINDOW_EN q) = 1 →
        d.get (R.PTEL_WINDOW_GROUP q) = x → d.get (L.WIN_OPEN q 0) = 0 → d.get (L.WIN_OPEN q 1) = 0 →
        WpActs (.wpWindowEdge n) s n d (wpFields n ++ [L.WIN_OPEN q 0, L.WIN_START q 0, L.WIN_SKIPS q 0, L.WIN_STEPS q 0, L.WIN_RX_FRAMES q 0,
            L.WIN_RX_BYTES q 0, L.WIN_RX_ERRORED q 0, L.WIN_TX_FRAMES q 0, L.WIN_TX_BYTES q 0, L.WIN_TX_POISONED q 0]) [3] fun e =>
          WpRecorded d e n tick ∧ e.get (L.WIN_OPEN q 0) = 1 ∧ e.get (L.WIN_START q 0) = t % 2 ^ 128 ∧
          e.get (L.WIN_RX_BYTES q 0) = 0 ∧ e.get (L.WIN_TX_BYTES q 0) = 0)) ∧
    (wpReady d n wpEyeScanStart = true → x < 256 →
      (scanCheck d x (a % 16) = codeOk →
        WpActs (.wpEyeScanStart n) s n
          { d with waiting := d.waiting ++ [⟨reqAux (laneOct x), 1, classD, .eyeScan x (a % 16) (some n), d.cyc, false⟩] }
          (wpFields n ++ [R.SCAN_STATUS_WAIT_GRANT x, R.SCAN_STATUS_REFUSED x]) [3] fun e =>
          WpRecorded d e n tick ∧ e.get (R.SCAN_STATUS_WAIT_GRANT x) = 1) ∧
      (scanCheck d x (a % 16) ≠ codeOk →
        WpActs (.wpEyeScanStart n) s n d (failing ++ [R.SCAN_STATUS_REFUSED x, R.POWER_ERRORS]) [3, 0x10 + x / 8] fun e =>
          fails e (scanCheck d x (a % 16)) ∧ e.get (R.SCAN_STATUS_REFUSED x) = 1))

/-- R190 to R193 and R198. -/
def Obligations.SaRows : Prop :=
  ∀ (s : State) (m : Master) (i : Fin 16384) (j : Fin 65536) (k : BitVec 17) (ev : Nat) (rest : List Nat),
    let st := [R.SA_CMD_STATUS_CODE, R.SA_CMD_STATUS_BUSY]
    let ends (e : Dev) (code : Nat) : Prop := e.get R.SA_CMD_STATUS_CODE = code ∧ e.get R.SA_CMD_STATUS_BUSY = 0
    (s.live 0x70 = true → ∀ rx : Bool,
      (s.d.get R.SA_CMD_STATUS_BUSY = 0 → ∀ x ∈ [(Instr.saCmdEnable rx k, true), (.saCmdRetire rx k, false)],
        Defers x.1 s (.saCmd x.2 rx k.toNat) st fun e => e.get R.SA_CMD_STATUS_CODE = codeRunning ∧ e.get R.SA_CMD_STATUS_BUSY = 1) ∧
      (s.d.get R.SA_CMD_STATUS_BUSY ≠ 0 → NoEffect (.saCmdEnable rx k) s ∧ NoEffect (.saCmdRetire rx k) s)) ∧
    (saState s.d true j = saLoaded →
      Acts (.saCmd true true j) s s.d
        (st ++ [R.RXSA_STATE j, L.RXSA_FROM_V j, L.RXSA_FROM j, L.RXSA_UNTIL_V j, L.RXSA_UNTIL j]) [] fun e =>
        saState e true j = saInService ∧ ends e codeOk ∧ e.get (L.RXSA_FROM_V j) = 0) ∧
    (saState s.d false i = saLoaded → secyInService s.d (i / 4) = false →
      Acts (.saCmd true false i) s s.d
        (st ++ [R.TXSA_STATE i, R.SECY_ENCODING_AN (i / 4), R.SECY_SWITCH_PENDING (i / 4), L.SW_AT_V (i / 4), L.SW_AT (i / 4)]) []
        fun e => saState e false i = saInService ∧ e.get (R.SECY_ENCODING_AN (i / 4)) = i % 4 ∧ ends e codeOk) ∧
    (saState s.d true j ≠ saLoaded → Acts (.saCmd true true j) s s.d st [] fun e => ends e codeState) ∧
    (saState s.d false i ≠ saLoaded ∨ secyInService s.d (i / 4) = true → Acts (.saCmd true false i) s s.d st [] fun e => ends e codeState) ∧
    (saState s.d true j = saInService → s.d.get (L.RXSA_UNTIL_V j) = 0 →
      Acts (.saCmd false true j) s s.d (R.RXSA_STATE j :: st) [] fun e => saState e true j = saDraining ∧ ends e codeOk) ∧
    (saState s.d true j ≠ saInService ∨ s.d.get (L.RXSA_UNTIL_V j) ≠ 0 →
      Acts (.saCmd false true j) s s.d st [] fun e => ends e codeState) ∧
    (saState s.d false i = saInService →
      Acts (.saCmd false false i) s s.d (R.TXSA_STATE i :: st) [] fun e => saState e false i = saDraining ∧ ends e codeOk) ∧
    (saState s.d false i ≠ saInService → Acts (.saCmd false false i) s s.d st [] fun e => ends e codeState) ∧
    (s.frozen = false → saState s.d false i = saDraining → s.d.saEvents.length < 256 →
      BecomesBut (.saDrainComplete false (BitVec.ofNat 17 i)) s
        { s.d with saEvents := s.d.saEvents ++ [i.val + 3 * 2 ^ 20 + 2 ^ 31], txHeld := s.d.txHeld.filter (·.1 != i.val) }
        (fun k => entryKey 0x70 1 i k || keyOf [L.SA_KEY i, L.SA_SALT i, L.SA_FRAMES i] k || eventKey 0x70 k) fun e =>
        (∀ g : Fld, entryKey 0x70 1 i g.key = true → e.get g = g.reset) ∧ e.get (L.SA_KEY i) = 0 ∧ e.get (L.SA_SALT i) = 0 ∧
        e.evt 0x70 (i / 512) = true) ∧
    (s.frozen = false → saState s.d true j = saInService → s.d.get (L.RXSA_UNTIL_V j) = 1 →
      Completes (.rxSaDraining (BitVec.ofNat 16 j)) s [R.RXSA_STATE j] [] fun e => saState e true j = saDraining) ∧
    (s.live 0x70 = true → s.d.saEvents = ev :: rest →
      exec (.saEvtPopRead m) s = .next (s.setDev ({ s.d with saEvents := rest }.emit (.read m 0x70010C ev))))

/-- R323 and R325. -/
def Obligations.GateCommandRows : Prop :=
  ∀ (s : State) (m : Fin 8) (n : Fin 32),
    let p := 32 * m.val + n.val
    let st := [R.GATE_CMD_STATUS_CODE m, R.GATE_CMD_STATUS_BUSY m, R.GATE_CMD_STATUS_PORT m]
    let b := gateAdminBase s.d p
    let c := gateAdminCycle s.d p
    (s.live (0x80 + m) = true →
      (s.d.get (R.GATE_CMD_STATUS_BUSY m) = 0 →
        ∀ x ∈ [(Instr.gateCmdConfigChange m n, false), (.gateCmdCancel m n, true)], Defers x.1 s (.gateCmd p x.2) st fun e =>
          e.get (R.GATE_CMD_STATUS_CODE m) = codeRunning ∧ e.get (R.GATE_CMD_STATUS_BUSY m) = 1 ∧ e.get (R.GATE_CMD_STATUS_PORT m) = n.val) ∧
      (s.d.get (R.GATE_CMD_STATUS_BUSY m) ≠ 0 → NoEffect (.gateCmdConfigChange m n) s ∧ NoEffect (.gateCmdCancel m n) s)) ∧
    (gateCheck s.d p = codeOk → b < 2 ^ 127 → s.d.tickTime < 2 ^ 127 →
      Acts (.gateCmd p false) s s.d (st ++ [R.GATE_CONFIG_PENDING p, R.GATE_CONFIG_ERROR p, R.GATE_PAST_BASE p, L.GATE_AT p,
          R.GATE_CONFIG_CHANGE_SEC p, R.GATE_CONFIG_CHANGE_NS p]) [] fun e =>
        e.get (R.GATE_CONFIG_PENDING p) = 1 ∧ e.get (R.GATE_CMD_STATUS_CODE m) = codeOk ∧ e.get (R.GATE_CMD_STATUS_BUSY m) = 0 ∧ e.get (R.GATE_CMD_STATUS_PORT m) = n.val ∧
        s.d.tickTime + gateMargin ≤ e.get (L.GATE_AT p) ∧
        (s.d.tickTime + gateMargin ≤ b → e.get (L.GATE_AT p) = b ∧ e.get (R.GATE_PAST_BASE p) = 0) ∧
        (b < s.d.tickTime + gateMargin → e.get (R.GATE_PAST_BASE p) = 1 ∧ b ≤ e.get (L.GATE_AT p) ∧ (e.get (L.GATE_AT p) - b) % c = 0 ∧
          e.get (L.GATE_AT p) < s.d.tickTime + gateMargin + c)) ∧
    (gateCheck s.d p ≠ codeOk →
      Acts (.gateCmd p false) s s.d (st ++ [R.GATE_CONFIG_ERROR p, R.GATE_STATS p 1]) [0x80 + m.val] fun e =>
        e.get (R.GATE_CONFIG_ERROR p) = 1 ∧ e.get (R.GATE_CMD_STATUS_CODE m) = gateCheck s.d p ∧ e.evt (0x80 + m) n = true) ∧
    (s.d.get (R.GATE_CONFIG_PENDING p) = 1 → s.d.tickTime + gateMargin < s.d.get (L.GATE_AT p) →
      Acts (.gateCmd p true) s s.d (R.GATE_CONFIG_PENDING p :: st) [] fun e =>
        e.get (R.GATE_CONFIG_PENDING p) = 0 ∧ e.get (R.GATE_CMD_STATUS_CODE m) = codeOk) ∧
    (s.d.get (R.GATE_CONFIG_PENDING p) = 1 → s.d.get (L.GATE_AT p) ≤ s.d.tickTime + gateMargin →
      Acts (.gateCmd p true) s s.d st [] fun e => e.get (R.GATE_CMD_STATUS_CODE m) = codeState)

/-- R322, R324 and R329. -/
def Obligations.GateEffectRows : Prop :=
  ∀ (s : State) (p : Fin 256), s.frozen = false →
    (s.d.get (R.GATE_CONFIG_PENDING p) = 1 → s.d.get (L.GATE_AT p) ≤ s.d.time → s.d.get (R.GATE_ADMIN_LIST_LENGTH p) ≤ 256 →
      Yields (.configChange p) s fun e => e.get (R.GATE_CONFIG_PENDING p) = 0 ∧ e.get (L.GATE_RUN p) = 1 ∧
        e.get (L.GATE_BASE p) = s.d.get (L.GATE_AT p) % 2 ^ 128 ∧ e.get (R.GATE_OPER_LIST_LENGTH p) = s.d.get (R.GATE_ADMIN_LIST_LENGTH p) ∧
        ∀ k < s.d.get (R.GATE_ADMIN_LIST_LENGTH p),
          e.get (R.OPER_GATE_STATES (256 * p + k)) = s.d.get (R.ADMIN_GATE_STATES (256 * p + k)) % 2 ^ 16 ∧
          e.get (R.OPER_INTERVAL (256 * p + k)) = s.d.get (R.ADMIN_INTERVAL (256 * p + k)) % 2 ^ 32) ∧
    (gatesOn s.d p = true → s.d.get (L.GATE_RUN p) = 1 → preTx s.d p = none →
      Yields (.gateEntryBoundary p) s fun e =>
        e.get (L.GATE_ENTRY p) = ((operList s.d p).at s.d.time).1 % 2 ^ 9 ∧
        e.get (R.GATE_OPER_GATE_STATES p) = ((operList s.d p).at s.d.time).2.1 % 2 ^ 16) ∧
    (s.d.get (R.PSCHED_PREEMPT_EN p) = 1 → s.d.get (R.PSCHED_VERIFY_EN p) = 1 →
      s.d.get (R.PSCHED_VERIFY_STATUS p) = 1 ∨ s.d.get (R.PSCHED_VERIFY_STATUS p) = 2 →
      (iface s.d p ≤ 3 →
        Completes (.mmVerifyAttempt p true) s [L.MM_VERIFIED p, R.PSCHED_VERIFY_STATUS p, R.PSCHED_PREEMPT_ACTIVE p] [0x78 + p.val / 32] fun e =>
          e.get (L.MM_VERIFIED p) = 1 ∧ e.get (R.PSCHED_VERIFY_STATUS p) = 3 ∧ e.get (R.PSCHED_PREEMPT_ACTIVE p) = 1 ∧
          e.evt (0x78 + p / 32) 2 = true) ∧
      Completes (.mmVerifyAttempt p false) s [L.MM_TRIES p, R.PSCHED_VERIFY_STATUS p] [0x78 + p.val / 32] fun e =>
        e.get (L.MM_TRIES p) = (s.d.get (L.MM_TRIES p) + 1) % 2 ^ 8 ∧
        e.get (R.PSCHED_VERIFY_STATUS p) = if 2 ≤ s.d.get (L.MM_TRIES p) then 4 else 2) ∧
    (s.d.get (L.PREEMPT_WANT p) = 1 → suspendedTx s.d p = none → s.d.get (R.PSCHED_PREEMPT_EN p) = 0 →
      Completes (.preemptDisableDone p) s [R.PSCHED_PREEMPT_ACTIVE p, L.PREEMPT_WANT p, L.GATE_HOLD p] [] fun e =>
        e.get (R.PSCHED_PREEMPT_ACTIVE p) = 0 ∧ e.get (L.PREEMPT_WANT p) = 0)

/-- R99, R101 and R102. -/
def Obligations.LaneClockRows : Prop :=
  ∀ (s : State) (k : Fin 32) (i : Fin 8) (v : Fin 4) (j : Fin 2),
    let pg := 0x10 + k.val
    let st (d : Dev) (x : Nat) := laneStage d (8 * k + x)
    let vco := if j.val = 0 then R.OCT_PLL_A_VCO k else R.OCT_PLL_B_VCO k
    (s.live pg = true →
      ((∀ x < 8, st s.d x = stOff) → Completes (.octRefSelWrite k v) s [R.OCT_REF_SEL k, R.OCT_STATUS_CFG_REFUSED k] [] fun e =>
        e.get (R.OCT_REF_SEL k) = v.val ∧ e.get (R.OCT_STATUS_CFG_REFUSED k) = 0) ∧
      (st s.d i ≠ stOff → Completes (.octRefSelWrite k v) s [R.OCT_STATUS_CFG_REFUSED k] [] fun e => e.get (R.OCT_STATUS_CFG_REFUSED k) = 1) ∧
      ((∀ x < 8, st s.d x = stOff ∨ s.d.get (R.LANE_STATUS_PLL (8 * k + x)) ≠ j.val) →
        Completes (.octPllVcoWrite k j v) s [vco, R.OCT_STATUS_CFG_REFUSED k] [] fun e =>
          e.get vco = v.val ∧ e.get (R.OCT_STATUS_CFG_REFUSED k) = 0) ∧
      (st s.d i ≠ stOff → s.d.get (R.LANE_STATUS_PLL (8 * k + i)) = j.val →
        Completes (.octPllVcoWrite k j v) s [R.OCT_STATUS_CFG_REFUSED k] [] fun e => e.get (R.OCT_STATUS_CFG_REFUSED k) = 1) ∧
      Yields (.lanePageDisable k) s fun e => e.get (L.PAGE_ENABLE pg) = 0 ∧ ∀ x < 8, st e x = stOff) ∧
    (s.frozen = false →
      (s.d.get (L.OCT_REF_ABSENT k) = 0 → s.d.get (L.PLL_RESV k j) = 1 → pllUsed s.d k j = true →
        Completes (.pllLock k j) s ([pllLockedF k j, R.OCT_STATUS_REF_PRESENT k] ++ (List.range 8).map fun x => R.LANE_STATUS_STAGE (8 * k + x)) []
          fun e => e.get (pllLockedF k j) = 1 ∧ e.get (R.OCT_STATUS_REF_PRESENT k) = 1 ∧
            (s.d.get (R.LANE_STATUS_PLL (8 * k + i)) = j.val → st s.d i = stPowerWait → s.d.get (L.LANE_BURST (8 * k + i)) = 2 →
              st e i = stRxDetect) ∧
            (st s.d i ≠ stPowerWait → st e i = st s.d i)) ∧
      (Yields (.octRefLost k) s fun e => e.get (R.OCT_STATUS_REF_PRESENT k) = 0 ∧ e.get (pllLockedF k j) = 0 ∧ e.evt pg 26 = true ∧
        (s.d.get (pllLockedF k j) = 1 → e.evt pg (24 + j) = true) ∧ (st s.d i = stActive → st e i = stBitLock ∨ st e i = stRxDetect)) ∧
      ((∀ x < 8, st s.d x ≠ stActive) →
        Completes (.octRefLost k) s [L.OCT_REF_ABSENT k, R.OCT_STATUS_REF_PRESENT k, R.OCT_STATUS_PLL_A_LOCKED k, R.OCT_STATUS_PLL_B_LOCKED k] [pg]
          fun e => e.get (L.OCT_REF_ABSENT k) = 1) ∧
      Yields (.octRefReturn k) s fun e => e.get (L.OCT_REF_ABSENT k) = 0 ∧ e.get (R.OCT_STATUS_REF_PRESENT k) = 1 ∧
        (s.d.get (L.PLL_RESV k j) = 1 → pllUsed s.d k j = true → e.get (pllLockedF k j) = 1))

/-- R103 to R106, R108 and R109. -/
def Obligations.LaneBringupRows : Prop :=
  ∀ (s : State) (l : Fin 256) (rs : List TrainRequest) (tap : Fin 5) (up : Bool) (ns : Nat),
    let d := s.d
    let pg := 0x10 + l.val / 8
    let stage := R.LANE_STATUS_STAGE l
    let burst (d : Dev) (b : Nat) : Dev := if b = 2 then { d with releasing := d.releasing ++ [(reqAux (l / 8), 2)] } else d
    (s.live pg = true → lanePortOn d l = none →
      (d.get (R.LANE_CTRL_TEST_ENABLE l) = 0 → d.get (L.PAGE_ENABLE pg) = 1 → pllFor d (l / 8) (laneRate d l) ≠ none →
        arbExceeds d (reqPorts (l / 8)) (testUnits d l) = false →
        Becomes (.testEnableWrite l true) s
          { d with waiting := d.waiting ++ [⟨reqPorts (l / 8), testUnits d l, classC, .testLane l, d.cyc, false⟩] } [R.LANE_CTRL_TEST_ENABLE l] []
          fun e => e.get (R.LANE_CTRL_TEST_ENABLE l) = 1) ∧
      (d.get (R.LANE_CTRL_TEST_ENABLE l) = 1 →
        Yields (.testEnableWrite l false) s fun e => e.get (R.LANE_CTRL_TEST_ENABLE l) = 0 ∧ laneStage e l = stOff ∧ e.get (L.LANE_STEADY l) = 0)) ∧
    (s.frozen = false →
      (laneStage d l = stRxDetect → d.get (L.LANE_BURST l) = 2 → anAwaited d l = false →
        Completes (.laneRxDetectDone l) s [R.LANE_STATUS_SIGNAL l, stage, R.LANE_STATUS_TRAINED l] [] fun e =>
          laneStage e l = stTraining ∧ e.get (R.LANE_STATUS_SIGNAL l) = 1) ∧
      (∀ p : Nat, lanePortOn d l = some p → laneStage d l = stRxDetect → d.get (R.PORT_CTRL_AN_EN p) = 1 → d.get (R.PORT_STATUS_AN_DONE p) = 0 →
        Completes (.laneRxDetectDone l) s [R.LANE_STATUS_SIGNAL l] [] fun e =>
          laneStage e l = stRxDetect ∧ e.get (R.LANE_STATUS_SIGNAL l) = 1) ∧
      (laneStage d l = stTraining → adaptFree d l = false →
        (trains d l = false → Completes (.laneTrainingDone ⟨l, rs⟩) s [stage] [] fun e => laneStage e l = stBitLock) ∧
        (trains d l = true →
          Becomes (.laneTrainingDone ⟨l, rs⟩) s (trainedFir d l rs) [stage, R.LANE_STATUS_TRAINED l] [] fun e =>
            laneStage e l = stBitLock ∧ e.get (R.LANE_STATUS_TRAINED l) = 1) ∧
        (trains d l = true → rs = [] →
          Becomes (.laneTrainingDone ⟨l, rs⟩) s
            { d with freeCtr := d.freeCtr + (if laneRate d l = 3 then 5 else 4), out := d.out ++ [.trained l (.preset 1) true] }
            [stage, R.LANE_STATUS_TRAINED l, R.TX_FIR_C_M3 l, R.TX_FIR_C_M2 l, R.TX_FIR_C_M1 l, R.TX_FIR_C_0 l, R.TX_FIR_C_P1 l] [] fun e =>
            laneRate d l ≠ 3 → e.get (R.TX_FIR_C_M3 l) = 0) ∧
        trainedFir d l (rs ++ [.step tap up]) = trainRequest (trainedFir d l rs) l (.step tap up)) ∧
      (laneStage d l = stTraining → adaptFree d l = true →
        let base := if trains d l then trainedFir d l rs else d
        Becomes (.laneTrainingDone ⟨l, rs⟩) s { base with freeCtr := base.freeCtr + if 2 ≤ laneRate d l then 5 else 4 }
          [stage, R.LANE_STATUS_TRAINED l, R.RX_EQ_CTLE l, R.RX_EQ_GAIN l, R.DFE_TAPS l 0, R.DFE_TAPS l 1, R.DFE_TAPS l 2] [] fun e =>
          laneStage e l = stBitLock ∧ e.get (R.LANE_STATUS_TRAINED l) = (if trains d l then 1 else d.get (R.LANE_STATUS_TRAINED l))) ∧
      (let f := firTap l tap
       let step := trainRequest d l (.step tap up)
       tap.val ≠ 3 → (tap.val ≠ 0 ∨ laneRate d l = 3) → d.get f < 64 →
        (up = true → d.getS f < 31 → firSum d l < 63 → step.getS f = d.getS f + 1) ∧
        (up = false → -32 < d.getS f → firSum d l < 63 → step.getS f = d.getS f - 1) ∧
        ((up = true ∧ d.getS f = 31) ∨ (up = false ∧ d.getS f = -32) → step = d.emit (.trained l (.step tap up) false))) ∧
      (laneStage d l = stBitLock → d.get (pllLockedF (l / 8) (d.get (R.LANE_STATUS_PLL l))) = 1 → d.get (L.LANE_BURST l) ≠ 1 →
        (lanePort d l = none →
          Becomes (.laneBitLockDone l) s (burst d (d.get (L.LANE_BURST l))) [stage, R.LANE_STATUS_SIGNAL l, L.LANE_BURST l] [] fun e =>
            laneStage e l = stSymbolLock ∧ e.get (R.LANE_STATUS_SIGNAL l) = 1 ∧ e.get (L.LANE_BURST l) = 0) ∧
        ∀ p : Nat, lanePort d l = some p →
          Becomes (.laneBitLockDone l) s (burst d (d.get (L.LANE_BURST l)))
            [stage, R.LANE_STATUS_SIGNAL l, L.LANE_BURST l, R.TS_CAL_STATUS_LANE_MASK p, R.TS_CAL_STATUS_CALIBRATED p] [] fun e =>
            laneStage e l = stSymbolLock ∧ e.get (R.LANE_STATUS_SIGNAL l) = 1 ∧ e.get (L.LANE_BURST l) = 0 ∧
            bitAt (e.get (R.TS_CAL_STATUS_LANE_MASK p)) (l - p) = false ∧ e.get (R.TS_CAL_STATUS_CALIBRATED p) = 0) ∧
      (laneStage d l = stSymbolLock → Completes (.laneSymbolLockDone l) s [stage] [] fun e => laneStage e l = stCapExchange) ∧
      (laneStage d l = stCapExchange → lanePortOn d l = none →
        Completes (.laneCapExchangeDone l) s [stage, L.LANE_RELOCK l] [pg] fun e =>
          laneStage e l = stActive ∧ e.evt pg (3 * (l % 8)) = true) ∧
      (∀ p : Nat, lanePortOn d l = some p → laneStage d l = stCapExchange → (∀ m ∈ portLanes d p, m ≠ l.val → laneStage d m = stActive) →
        portState d p = psBringup → disableDue d p = false →
        Yields (.laneCapExchangeDone l) s fun e => laneStage e l = stActive ∧ portState e p = psUp ∧ e.get (R.PORT_STATUS_ALIGNED p) = 1 ∧
          e.get (R.PORT_STATUS_LOCAL_FAULT p) = 0 ∧ e.evt (portPage p) (4 * (p % 8)) = true) ∧
      (stTraining ≤ laneStage d l → laneStage d l ≤ stCapExchange → d.get (L.LANE_RELOCK l) = 0 →
        Yields (.laneStageOverrun l .limit) s fun e => laneStage e l = stRxDetect ∧ e.evt pg (3 * (l % 8)) = true ∧
          (d.get (L.PAGE_FREEZE pg) = 0 → e.get (R.BRINGUP_FAILS l) = min (d.get (R.BRINGUP_FAILS l) + 1) (2 ^ (R.BRINGUP_FAILS l).w - 1))) ∧
      (∀ p : Nat, lanePortOn d l = some p → portAligns d p = true → laneStage d l = stSymbolLock →
        let fails (e : Dev) : Prop :=
          (d.get (L.PAGE_FREEZE (portPage p)) = 0 → e.get (R.DESKEW_FAILS p) = min (d.get (R.DESKEW_FAILS p) + 1) (2 ^ (R.DESKEW_FAILS p).w - 1)) ∧
          ∀ m ∈ portLanes d p, laneStage e m = if laneStage d m = stCapExchange then stSymbolLock else laneStage d m
        let fs := R.DESKEW_FAILS p :: (portLanes d p).map R.LANE_STATUS_STAGE
        Completes (.laneStageOverrun l .markers) s fs [] fails ∧
        (180 < ns → Completes (.laneStageOverrun l (.skew ns)) s fs [] fails)) ∧
      (ns ≤ 180 → NoEffect (.laneStageOverrun l (.skew ns)) s))

/-- R78, R105, R106 and R148. -/
def Obligations.LaneLossRows : Prop :=
  ∀ (s : State) (l p : Fin 256) (i : Fin 8),
    let d := s.d
    let pg := 0x10 + l.val / 8
    let lost (e : Dev) : Prop := laneStage e l = stBitLock ∧ e.get (L.LANE_RELOCK l) = 1 ∧ e.evt pg (3 * (l % 8)) = true ∧
      (d.get (L.PAGE_FREEZE pg) = 0 → e.get (R.LOCK_LOSS_COUNT l) = min (d.get (R.LOCK_LOSS_COUNT l) + 1) (2 ^ (R.LOCK_LOSS_COUNT l).w - 1))
    let held (e : Dev) (q : Nat) : Prop := portState e q = psHoldoff ∧ e.get (R.PORT_STATUS_ALIGNED q) = 0 ∧
      e.get (L.HOLDOFF_AT q) = d.cyc % 2 ^ 64 ∧ e.evt (portPage q) (4 * (q % 8) + 1) = true
    let mask := R.TS_CAL_STATUS_LANE_MASK p
    let calibrated (e : Dev) : Prop :=
      (bitAt (e.get mask) i = true ↔ bitAt (d.get mask) i = true ∨ i.val < portWidth d p ∧ laneStage d (p + i) = stActive) ∧
      (e.get (R.TS_CAL_STATUS_CALIBRATED p) = 1 ↔ ∀ x < portWidth d p, bitAt (e.get mask) x = true)
    s.frozen = false →
    (laneStage d l = stActive → lanePort d l = none → Yields (.laneLockLoss l) s lost) ∧
    (∀ q : Nat, lanePort d l = some q → laneStage d l = stActive → portState d q = psUp → d.get (R.PORT_CTRL_LANE_HOLDOFF q) ≠ 0 →
      (Yields (.laneLockLoss l) s fun e => lost e ∧ held e q) ∧
      Yields (.laneSignalLoss l) s fun e => lost e ∧ held e q ∧ e.get (R.LANE_STATUS_SIGNAL l) = 0) ∧
    (lanePort d l = none → Completes (.laneSignalLoss l) s [R.LANE_STATUS_SIGNAL l] [] fun e => e.get (R.LANE_STATUS_SIGNAL l) = 0) ∧
    (∀ q : Nat, lanePort d l = some q → portUp d q = false →
      Completes (.laneSignalLoss l) s [R.LANE_STATUS_SIGNAL l] [] fun e => e.get (R.LANE_STATUS_SIGNAL l) = 0) ∧
    (s.live pg = true →
      (stTraining ≤ laneStage d l → laneStage d l ≤ stCapExchange →
        Yields (.laneCmdRestart l) s fun e => laneStage e l = stRxDetect ∧ e.get (L.LANE_RELOCK l) = 0 ∧ e.evt pg (3 * (l % 8)) = true) ∧
      (laneStage d l = stActive → lanePort d l = none →
        Yields (.laneCmdRestart l) s fun e => laneStage e l = stRxDetect ∧ e.evt pg (3 * (l % 8)) = true) ∧
      (laneStage d l = stOff → NoEffect (.laneCmdRestart l) s)) ∧
    (served d p = true →
      Completes (.tsCalibrationDone p) s [mask, R.TS_CAL_STATUS_CALIBRATED p] [] calibrated ∧
      (d.get (R.TS_CAL_STATUS_CALIBRATED p) = 1 → Completes (.tsRecalibration p) s [mask, R.TS_CAL_STATUS_CALIBRATED p] [] calibrated))

/-- R110 to R113 and R116 to R118. -/
def Obligations.LaneAdaptScanRows : Prop :=
  ∀ (s : State) (l : Fin 256) (v : Word) (n : Fin 16) (flips level run m errors : Nat),
    let d := s.d
    let pg := 0x10 + l.val / 8
    let aux := reqAux (l / 8)
    let tap (lo : Nat) : Nat := (toSigned 6 (bitsOf v.toNat lo 6)).natAbs
    let sum := tap 0 + tap 6 + tap 12 + bitsOf v.toNat 18 6 + tap 24
    (s.live pg = true →
      (laneStage d l = stActive → d.get (L.LANE_ADAPT l) = 0 → arbExceeds d aux 2 = false →
        Becomes (.laneCmdAdaptBurst l) s { d with waiting := d.waiting ++ [⟨aux, 2, classB, .adaptBurst l, d.cyc, false⟩] } [L.LANE_ADAPT l] []
          fun e => e.get (L.LANE_ADAPT l) = 1) ∧
      (laneStage d l ≠ stTraining → sum ≤ 63 →
        Completes (.txFirWrite l v) s [R.TX_FIR_C_M3 l, R.TX_FIR_C_M2 l, R.TX_FIR_C_M1 l, R.TX_FIR_C_0 l, R.TX_FIR_C_P1 l, R.LANE_STATUS_FIR_REFUSED l] []
          fun e => e.get (R.TX_FIR_C_M3 l) = bitsOf v.toNat 0 6 ∧ e.get (R.TX_FIR_C_M2 l) = bitsOf v.toNat 6 6 ∧
            e.get (R.TX_FIR_C_M1 l) = bitsOf v.toNat 12 6 ∧ e.get (R.TX_FIR_C_0 l) = bitsOf v.toNat 18 6 ∧
            e.get (R.TX_FIR_C_P1 l) = bitsOf v.toNat 24 6 ∧ e.get (R.LANE_STATUS_FIR_REFUSED l) = 0) ∧
      (laneStage d l = stTraining → NoEffect (.txFirWrite l v) s) ∧
      (laneStage d l ≠ stTraining → 63 < sum → Completes (.txFirWrite l v) s [R.LANE_STATUS_FIR_REFUSED l] [] fun e => e.get (R.LANE_STATUS_FIR_REFUSED l) = 1) ∧
      (scanCheck d l n = codeOk →
        Becomes (.laneCmdScanStart l n) s { d with waiting := d.waiting ++ [⟨aux, 1, classD, .eyeScan l n none, d.cyc, false⟩] }
          [R.SCAN_STATUS_WAIT_GRANT l, R.SCAN_STATUS_REFUSED l] [] fun e =>
          e.get (R.SCAN_STATUS_WAIT_GRANT l) = 1 ∧ e.get (R.SCAN_STATUS_REFUSED l) = 0) ∧
      (laneStage d l = stOff → NoEffect (.laneCmdScanStart l n) s) ∧
      (laneStage d l ≠ stOff → scanCheck d l n = codeState ∨ scanCheck d l n = codeArg →
        Completes (.laneCmdScanStart l n) s [R.SCAN_STATUS_REFUSED l] [pg] fun e =>
          e.get (R.SCAN_STATUS_REFUSED l) = 1 ∧ e.evt pg (3 * (l % 8) + 2) = true) ∧
      (d.get (R.SCAN_STATUS_STATE l) = scRunning →
        Becomes (.laneCmdScanAbort l) s { d with releasing := d.releasing ++ [(aux, 1)] } [R.SCAN_STATUS_STATE l, L.LANE_SCAN_WP l] [pg] fun e =>
          e.get (R.SCAN_STATUS_STATE l) = scAborted ∧ e.evt pg (3 * (l % 8) + 2) = true)) ∧
    (s.frozen = false →
      (d.get (L.LANE_ADAPT l) = 2 →
        Becomes (.adaptBurstEnd l) s { d with releasing := d.releasing ++ [(aux, 2)] } [L.LANE_ADAPT l] [] fun e => e.get (L.LANE_ADAPT l) = 0) ∧
      (2 ≤ laneStage d l → isRich d l flips level run = false →
        Completes (.richnessWindow ⟨l, by omega⟩ flips level run) s
          [R.RICH_STATUS_LAST_RICH l, R.RICH_STATUS_LOW_RUN l, L.LANE_RICH_RUN l, R.LANE_STATUS_ADAPT_FROZEN l, R.FREEZE_COUNT l] [pg] fun e =>
          e.get (R.RICH_STATUS_LAST_RICH l) = 0 ∧ e.get (R.RICH_STATUS_LOW_RUN l) = min 255 (d.get (R.RICH_STATUS_LOW_RUN l) + 1) ∧
          (63 ≤ d.get (R.RICH_STATUS_LOW_RUN l) → d.get (R.LANE_STATUS_ADAPT_FROZEN l) = 0 →
            e.get (R.LANE_STATUS_ADAPT_FROZEN l) = 1 ∧ e.evt pg (3 * (l % 8) + 1) = true)) ∧
      (2 ≤ laneStage d l → isRich d l flips level run = true → d.get (R.RX_EQ_CTRL_ADAPT_HOLD l) = 1 →
        Completes (.richnessWindow ⟨l, by omega⟩ flips level run) s
          [R.RICH_STATUS_LAST_RICH l, R.RICH_STATUS_LOW_RUN l, L.LANE_RICH_RUN l, R.LANE_STATUS_ADAPT_FROZEN l, L.LANE_ADAPT l] [pg] fun e =>
          e.get (R.RICH_STATUS_LAST_RICH l) = 1 ∧ e.get (R.RICH_STATUS_LOW_RUN l) = 0 ∧
          (d.get (R.LANE_STATUS_ADAPT_FROZEN l) = 1 → max 1 (d.get (R.RICH_CFG_RESUME_N l)) ≤ min 255 (d.get (L.LANE_RICH_RUN l) + 1) →
            e.get (R.LANE_STATUS_ADAPT_FROZEN l) = 0 ∧ (d.get (L.LANE_ADAPT l) = 3 → e.get (L.LANE_ADAPT l) = 2))) ∧
      (2 ≤ laneStage d l → isRich d l flips level run = true → adaptFree d l = true →
        Becomes (.richnessWindow ⟨l, by omega⟩ flips level run) s { d with freeCtr := d.freeCtr + if 2 ≤ laneRate d l then 5 else 4 }
          [R.RICH_STATUS_LAST_RICH l, R.RICH_STATUS_LOW_RUN l, L.LANE_RICH_RUN l, R.RX_EQ_CTLE l, R.RX_EQ_GAIN l, R.DFE_TAPS l 0, R.DFE_TAPS l 1,
            R.DFE_TAPS l 2] [] fun e =>
          (d.get (R.RX_EQ_CTRL_CTLE_MANUAL l) = 1 → e.get (R.RX_EQ_CTLE l) = d.get (R.RX_EQ_CTRL_CTLE_VALUE l) % 2 ^ (R.RX_EQ_CTLE l).w) ∧
          (laneRate d l < 2 → e.get (R.DFE_TAPS l 2) = 0)) ∧
      (let pr := profileOf l (d.get (R.SCAN_STATUS_PROFILE l))
       let k := d.get (L.LANE_SCAN_POINT l)
       let x := 8192 * l.val + k
       d.get (R.SCAN_STATUS_STATE l) = scRunning → 10 ≤ m → d.get (R.SCANP_DWELL_EXP pr) = m → k + 1 ≤ scanCount d l pr → k < 8192 →
        (k + 1 ≠ scanCount d l pr →
          Completes (.scanPointDone l m errors) s [R.SCANRES_ERRORS x, R.SCANRES_BITS_EXP x, R.SCANRES_VOLT x, R.SCANRES_PHASE x, R.SCANRES_EYE x,
              L.LANE_SCAN_POINT l, R.SCAN_STATUS_POINTS_DONE l] [] fun e =>
            e.get (R.SCANRES_ERRORS x) = min errors 1023 ∧ e.get (R.SCAN_STATUS_POINTS_DONE l) = k + 1) ∧
        (k + 1 = scanCount d l pr →
          Becomes (.scanPointDone l m errors) s { d with releasing := d.releasing ++ [(aux, 1)] } [R.SCANRES_ERRORS x, R.SCANRES_BITS_EXP x,
              R.SCANRES_VOLT x, R.SCANRES_PHASE x, R.SCANRES_EYE x, L.LANE_SCAN_POINT l, R.SCAN_STATUS_POINTS_DONE l, R.SCAN_STATUS_STATE l,
              L.LANE_SCAN_WP l] [pg] fun e =>
            e.get (R.SCANRES_ERRORS x) = min errors 1023 ∧ e.get (R.SCAN_STATUS_STATE l) = scDone ∧ e.evt pg (3 * (l % 8) + 2) = true)))

/-- R120 to R123; R107's electrical idle in the stopped run states. -/
def Obligations.PatternRows : Prop :=
  ∀ (s : State) (l : Fin 256) (bits errors n : Nat),
    let d := s.d
    let pg := 0x10 + l.val / 8
    let gen := [R.PRBS_CTRL_GEN_EN l, R.PRBS_STATUS_GEN_RUNNING l, R.PRBS_STATUS_GEN_REFUSED l]
    let burst := min 64 (max 1 (d.get (R.INJ_CTRL_BURST_LEN l)))
    let next := max (laneUi d l) (d.get (L.LANE_INJ_AT l) + d.get (L.LANE_INJ_LEN l))
    let inverts (e : Dev) (len : Nat) : Prop := next < 2 ^ 64 → e.get (L.LANE_INJ_AT l) = next ∧ e.get (L.LANE_INJ_LEN l) = len
    let pam4Pattern := d.get (R.PRBS_CTRL_GEN_PATTERN l) = 6 ∨ d.get (R.PRBS_CTRL_GEN_PATTERN l) = 7
    let injects (mode : Nat) : Prop := d.get (R.INJ_CTRL_MODE l) = mode ∧ laneStage d l ≠ stOff ∧
      (d.get (R.INJ_CTRL_TARGET l) = 1 ∨ d.get (R.PRBS_STATUS_GEN_RUNNING l) = 1)
    let sends (m : Nat) : Prop := s.run.stopped = false ∧ stPowerWait < laneStage d l ∧ d.get (R.LANE_CTRL_TX_IDLE l) = 0 ∧
      d.get (R.LANE_CTRL_TX_INV l) = 0 ∧ d.get (R.PRBS_CTRL_GEN_INV l) = 0 ∧ d.get (R.PRBS_STATUS_GEN_RUNNING l) = 1 ∧ m = n - d.get (L.LANE_GEN_FROM l)
    let bit (pat i : Nat) : Nat := patternBit pat l (userLen d l) (userPattern d l) i
    (s.live pg = true →
      (testLane d l = true → (pam4Pattern → 2 ≤ laneRate d l) → s.run ≠ .contained →
        Completes (.genEnWrite l true) s (gen ++ [L.LANE_GEN_FROM l, L.LANE_INJ_LEN l]) [] fun e =>
          e.get (R.PRBS_CTRL_GEN_EN l) = 1 ∧ e.get (R.PRBS_STATUS_GEN_RUNNING l) = 1 ∧ e.get (R.PRBS_STATUS_GEN_REFUSED l) = 0 ∧
          (d.get (R.PRBS_STATUS_GEN_RUNNING l) = 0 → e.get (L.LANE_GEN_FROM l) = laneUi d l % 2 ^ 64)) ∧
      ((testLane d l = false ∨ pam4Pattern ∧ laneRate d l < 2) →
        Completes (.genEnWrite l true) s gen [] fun e => e.get (R.PRBS_STATUS_GEN_RUNNING l) = 0 ∧ e.get (R.PRBS_STATUS_GEN_REFUSED l) = 1) ∧
      (Completes (.genEnWrite l false) s [R.PRBS_CTRL_GEN_EN l, R.PRBS_STATUS_GEN_RUNNING l] [] fun e =>
        e.get (R.PRBS_CTRL_GEN_EN l) = 0 ∧ e.get (R.PRBS_STATUS_GEN_RUNNING l) = 0) ∧
      (d.get (R.PRBS_CTRL_CHK_EN l) = 0 →
        Completes (.chkEnWrite l true) s [R.PRBS_CTRL_CHK_EN l, R.CHK_BITS l, R.CHK_ERRORS l, R.CHK_LOCK_LOSS l] [] fun e =>
          e.get (R.PRBS_CTRL_CHK_EN l) = 1 ∧ e.get (R.CHK_BITS l) = 0 ∧ e.get (R.CHK_ERRORS l) = 0 ∧ e.get (R.CHK_LOCK_LOSS l) = 0) ∧
      (d.get (R.PRBS_CTRL_CHK_EN l) = 1 → Completes (.chkEnWrite l true) s [R.PRBS_CTRL_CHK_EN l] [] fun e => e.get (R.PRBS_CTRL_CHK_EN l) = 1) ∧
      Completes (.chkEnWrite l false) s [R.PRBS_CTRL_CHK_EN l, R.PRBS_STATUS_CHK_LOCKED l] [] fun e =>
        e.get (R.PRBS_CTRL_CHK_EN l) = 0 ∧ e.get (R.PRBS_STATUS_CHK_LOCKED l) = 0) ∧
    (s.frozen = false →
      (chkRuns d l = true →
        (d.get (R.PRBS_STATUS_CHK_LOCKED l) = 0 →
          Completes (.checkerLock ⟨l, bits, errors⟩) s [R.PRBS_STATUS_CHK_LOCKED l] [] fun e => e.get (R.PRBS_STATUS_CHK_LOCKED l) = 1) ∧
        (d.get (R.PRBS_STATUS_CHK_LOCKED l) = 1 →
          Completes (.checkerLock ⟨l, bits, errors⟩) s [R.CHK_BITS l, R.CHK_ERRORS l] [] fun e =>
            e.get (R.CHK_BITS l) = min (d.get (R.CHK_BITS l) + bits) (2 ^ 64 - 1) ∧
            e.get (R.CHK_ERRORS l) = min (d.get (R.CHK_ERRORS l) + errors) (2 ^ 64 - 1)) ∧
        (d.get (R.PRBS_STATUS_CHK_LOCKED l) = 1 →
          Completes (.checkerLockLoss l bits errors) s [R.CHK_BITS l, R.CHK_ERRORS l, R.CHK_LOCK_LOSS l, R.PRBS_STATUS_CHK_LOCKED l] [pg] fun e =>
            e.get (R.CHK_BITS l) = min (d.get (R.CHK_BITS l) + bits) (2 ^ 64 - 1) ∧
            e.get (R.CHK_ERRORS l) = min (d.get (R.CHK_ERRORS l) + errors) (2 ^ 64 - 1) ∧
            e.get (R.CHK_LOCK_LOSS l) = min (d.get (R.CHK_LOCK_LOSS l) + 1) (2 ^ (R.CHK_LOCK_LOSS l).w - 1) ∧
            e.get (R.PRBS_STATUS_CHK_LOCKED l) = 0 ∧ e.evt pg (3 * (l % 8) + 2) = true)) ∧
      (injects 1 → Completes (.injectSingle l) s [L.LANE_INJ_SINGLE l, L.LANE_INJ_AT l, L.LANE_INJ_LEN l] [] fun e => inverts e 1 ∧
        e.get (L.LANE_INJ_SINGLE l) = min (d.get (L.LANE_INJ_SINGLE l) + 1) (2 ^ (L.LANE_INJ_SINGLE l).w - 1)) ∧
      (injects 2 → Completes (.injectBurst l) s [L.LANE_INJ_BURST l, L.LANE_INJ_AT l, L.LANE_INJ_LEN l] [] fun e => inverts e burst ∧
        e.get (L.LANE_INJ_BURST l) = min (d.get (L.LANE_INJ_BURST l) + burst) (2 ^ (L.LANE_INJ_BURST l).w - 1)) ∧
      (injects 3 → Completes (.injectRate l) s [L.LANE_INJ_RATE l] [] fun e =>
        e.get (L.LANE_INJ_RATE l) = min (d.get (L.LANE_INJ_RATE l) + 1) (2 ^ (L.LANE_INJ_RATE l).w - 1))) ∧
    (s.run.stopped = true → laneLine s l n = .idle) ∧
    (∀ m : Nat, sends m → lanePam4 d l = false → d.get (R.PRBS_CTRL_GEN_PATTERN l) ≠ 8 →
      laneLine s l n = .level (if injected d l n then 1 - bit (d.get (R.PRBS_CTRL_GEN_PATTERN l)) m else bit (d.get (R.PRBS_CTRL_GEN_PATTERN l)) m)) ∧
    (∀ m : Nat, sends m → lanePam4 d l = false → d.get (R.PRBS_CTRL_GEN_PATTERN l) = 8 → injected d l n = false →
      (m / sqHalf d l % 2 = 0 → laneLine s l n = .level 1) ∧ (m / sqHalf d l % 2 = 1 → laneLine s l n = .level 0)) ∧
    (∀ m : Nat, sends m → lanePam4 d l = true → d.get (R.PRBS_CTRL_GEN_PATTERN l) = 7 → injected d l n = false →
      ∃ v, laneLine s l n = .level v ∧ grayBits v = [bit 7 (2 * m), bit 7 (2 * m + 1)]) ∧
    (∀ i : Nat, bit 0 (i + 7) = (bit 0 i + bit 0 (i + 1)) % 2 ∧ bit 1 (i + 9) = (bit 1 i + bit 1 (i + 4)) % 2 ∧
      bit 2 (i + 13) = (bit 2 i + bit 2 (i + 1) + bit 2 (i + 11) + bit 2 (i + 12)) % 2 ∧ bit 3 (i + 15) = (bit 3 i + bit 3 (i + 1)) % 2 ∧
      bit 4 (i + 23) = (bit 4 i + bit 4 (i + 5)) % 2 ∧ bit 5 (i + 31) = (bit 5 i + bit 5 (i + 3)) % 2) ∧
    (∀ i : Nat, bit 9 (i + 8 * userLen d l) = bit 9 i)

/-- R138, R141, R143, R150, R152 and R545. -/
def Obligations.PortEnableRows : Prop :=
  ∀ (s : State) (k : Fin 32) (i : Fin 8) (m : Fin 16) (p : Fin 256) (able asked : Bool),
    let d := s.d
    let pg := portPage p
    let old := d.get (R.OCT_PORT_MODE_MODE k)
    (s.live (0x30 + k) = true →
      ((∀ j < 8, d.get (R.PORT_CTRL_ENABLE (8 * k + j)) = 0) → m.val ≤ 8 →
        Yields (.octPortModeWrite k m) s fun e => e.get (R.OCT_PORT_MODE_MODE k) = m.val ∧ e.get (R.OCT_PORT_STATUS_CFG_REFUSED k) = 0 ∧
          e = { d with cells := e.cells } ∧
          e.get (R.PORT_CTRL_RATE (8 * k + i)) =
            if modeWidth old i = modeWidth m i ∧ modeWidth old i ≠ 0 then d.get (R.PORT_CTRL_RATE (8 * k + i)) else (R.PORT_CTRL_RATE (8 * k + i)).reset) ∧
      ((8 < m.val ∨ d.get (R.PORT_CTRL_ENABLE (8 * k + i)) = 1) →
        Completes (.octPortModeWrite k m) s [R.OCT_PORT_STATUS_CFG_REFUSED k] [] fun e => e.get (R.OCT_PORT_STATUS_CFG_REFUSED k) = 1)) ∧
    (s.live pg = true → (∀ x ∈ d.posted, x.2 ≠ .portDisable p ∧ x.2 ≠ .portEnable p) →
      (d.get (R.PORT_CTRL_ENABLE p) = 0 → portState d p = psDisabled →
        (d.get (L.PAGE_ENABLE pg) = 1 → s.run = .active → s.power = .active → served d p = true →
          arbExceeds d (reqPorts (p / 8)) (portUnits d p) = false →
          Becomes (.portEnable p) s
            { d with waiting := d.waiting ++ [⟨reqPorts (p / 8), portUnits d p, classC, .port p, d.cyc, false⟩] }
            ([R.PORT_CTRL_ENABLE p, R.PORT_STATUS_POWER_PENDING p, R.PORT_STATUS_STATE p, R.PORT_STATUS_ENABLE_CODE p] ++
              (portLanes d p).map R.PRBS_STATUS_CHK_LOCKED ++ (portLanes d p).map R.PRBS_STATUS_GEN_RUNNING ++ (portLanes d p).map R.PRBS_CTRL_GEN_EN)
            [] fun e =>
            e.get (R.PORT_CTRL_ENABLE p) = 1 ∧ e.get (R.PORT_STATUS_POWER_PENDING p) = 1 ∧ portState e p = psPowerPending ∧
            e.get (R.PORT_STATUS_ENABLE_CODE p) = codeQueued ∧ ∀ l ∈ portLanes d p, e.get (R.PRBS_STATUS_GEN_RUNNING l) = 0) ∧
        (s.run ≠ .active ∨ s.power ≠ .active → Completes (.portEnable p) s [R.PORT_STATUS_ENABLE_CODE p] [pg] fun e =>
          e.get (R.PORT_STATUS_ENABLE_CODE p) = codeState ∧ e.get (R.PORT_CTRL_ENABLE p) = 0 ∧
            (served d p = true → e.evt pg (4 * (p % 8) + 3) = true))) ∧
      (portState d p = psDisabled → NoEffect (.portDisable p) s) ∧
      (portState d p ≠ psDisabled → Defers (.portDisable p) s (.portDisable p) [] fun _ => True)) ∧
    (portState d p ≠ psDisabled →
      ActsSo (.portDisable p) s fun e => e.get (R.PORT_CTRL_ENABLE p) = 0 ∧ portState e p = psDisabled ∧
        e.get (R.PORT_STATUS_POWER_PENDING p) = 0 ∧ e.get (R.PORT_STATUS_ALIGNED p) = 0 ∧ ∀ l ∈ portLanes d p, laneStage e l = stOff) ∧
    (s.frozen = false →
      (laneNegotiates d p = true → laneStage d p = stRxDetect →
        (Completes (.anResolved p ⟨able, asked⟩) s [R.PORT_STATUS_AN_DONE p, R.PORT_STATUS_AN_NO_HCD p, R.PORT_STATUS_FEC_ACTIVE p,
            R.LANE_STATUS_STAGE p, R.LANE_STATUS_SIGNAL p, R.LANE_STATUS_TRAINED p] [] fun e =>
          e.get (R.PORT_STATUS_AN_DONE p) = 1 ∧ e.get (R.PORT_STATUS_AN_NO_HCD p) = 0 ∧
          (e.get (R.PORT_STATUS_FEC_ACTIVE p) = 1 ↔
            2 ≤ iface d p ∨ iface d p = 1 ∧ able = true ∧ (asked = true ∨ d.get (R.PORT_CTRL_FEC_MODE p) ≠ 0)) ∧
          laneStage e p = if d.get (L.LANE_BURST p) = 2 then stTraining else stRxDetect) ∧
        (served d p = true →
          Completes (.anRestart p) s [R.PORT_STATUS_AN_NO_HCD p, R.PORT_STATUS_AN_DONE p, R.AN_RESTARTS p] [] fun e =>
            e.get (R.PORT_STATUS_AN_NO_HCD p) = 1 ∧ e.get (R.PORT_STATUS_AN_DONE p) = 0 ∧
            (d.get (L.PAGE_FREEZE pg) = 0 → e.get (R.AN_RESTARTS p) = min (d.get (R.AN_RESTARTS p) + 1) (2 ^ (R.AN_RESTARTS p).w - 1)))) ∧
      (portState d p = psHoldoff → served d p = true → (∀ l ∈ portLanes d p, laneStage d l = stActive) → holdoffPast d p = false →
        disableDue d p = false →
        Yields (.pcsRealigned p) s fun e => portState e p = psUp ∧ e.get (R.PORT_STATUS_ALIGNED p) = 1 ∧ e.evt pg (4 * (p % 8) + 1) = true ∧
          (d.get (L.PAGE_FREEZE pg) = 0 →
            e.get (R.HOLDOFF_RECOVERED p) = min (d.get (R.HOLDOFF_RECOVERED p) + 1) (2 ^ (R.HOLDOFF_RECOVERED p).w - 1))))

/-- R136, R137, R147, R151, R153, R154 and R158. -/
def Obligations.PortFaultRows : Prop :=
  ∀ (s : State) (p : Fin 256) (lf rf : Bool) (xs blocks : List Nat),
    let d := s.d
    let pg := portPage p
    let moreBy (n : Nat) (f : Fld) (e : Dev) : Prop := d.get (L.PAGE_FREEZE pg) = 0 → e.get f = min (d.get f + n) (2 ^ f.w - 1)
    let more := moreBy 1
    let fec := [R.FEC_UNCORRECTED_CW p, R.FEC_CORRECTED_CW p, R.FEC_CORRECTED_SYMBOLS p, R.PCS_ERR_BLOCKS p] ++ (List.range 17).map (fecBin p) ++
      (portLanes d p).map fecSymbols ++ (portLanes d p).map fecBlocks
    let hit (d : Dev) : Dev := { d with frames := d.frames.map fun f => if !f.fromRing && f.src == p.val && !f.tail then { f with errored := true } else f }
    (s.frozen = false →
      (served d p = true → d.get (R.PORT_STATUS_FEC_ACTIVE p) = 1 →
        (Becomes (.fecUncorrectable ⟨p, [], blocks⟩) s (hit d) fec [pg] fun e =>
          more (R.FEC_UNCORRECTED_CW p) e ∧ more (fecBin p 16) e ∧ moreBy blocks.sum (R.PCS_ERR_BLOCKS p) e ∧ e.evt pg (4 * (p % 8) + 3) = true) ∧
        (xs.sum ≤ fecLimit d p →
          Becomes (.fecUncorrectable ⟨p, [xs], blocks⟩) s (hit d) fec [pg] fun e =>
            more (fecBin p xs.sum) e ∧ more (fecBin p 16) e ∧ (xs.sum ≠ 0 → more (R.FEC_CORRECTED_CW p) e) ∧
            moreBy xs.sum (R.FEC_CORRECTED_SYMBOLS p) e)) ∧
      (d.get (R.PORT_STATUS_FEC_ACTIVE p) = 0 → NoEffect (.fecUncorrectable ⟨p, [xs], blocks⟩) s) ∧
      (portState d p = psHoldoff → served d p = true →
        (d.get (L.HOLDOFF_AT p) + 1000 * d.get (L.HOLDOFF_LEN p) ≤ d.cyc → Defers (.holdoffExpiry p) s (.holdoffEnd p) [] fun _ => True) ∧
        (d.cyc < d.get (L.HOLDOFF_AT p) + 1000 * d.get (L.HOLDOFF_LEN p) → NoEffect (.holdoffExpiry p) s)) ∧
      (psBringup ≤ portState d p → served d p = true →
        (d.get (R.PORT_STATUS_HI_BER p) = 0 → Completes (.hiBerRise ⟨p, true⟩) s [R.PORT_STATUS_HI_BER p, R.HI_BER_COUNT p] [pg] fun e =>
          e.get (R.PORT_STATUS_HI_BER p) = 1 ∧ more (R.HI_BER_COUNT p) e ∧ e.evt pg (4 * (p % 8) + 3) = true) ∧
        (d.get (R.PORT_STATUS_HI_BER p) = 1 →
          NoEffect (.hiBerRise ⟨p, true⟩) s ∧
          Completes (.hiBerRise ⟨p, false⟩) s [R.PORT_STATUS_HI_BER p] [] fun e => e.get (R.PORT_STATUS_HI_BER p) = 0)) ∧
      (portState d p = psUp → served d p = true →
        (d.get (R.PORT_STATUS_ALIGNED p) = 1 → d.get (R.PORT_CTRL_LANE_HOLDOFF p) ≠ 0 →
          Yields (.amLockLoss p) s fun e => portState e p = psHoldoff ∧ more (R.AM_LOCK_LOSS p) e ∧ e.get (R.PORT_STATUS_ALIGNED p) = 0 ∧
            e.get (L.HOLDOFF_AT p) = d.cyc % 2 ^ 64 ∧ e.evt pg (4 * (p % 8) + 1) = true) ∧
        Completes (.faultOrderedSets p lf rf) s [R.PORT_STATUS_LOCAL_FAULT p, R.PORT_STATUS_RF_RECEIVED p] [pg] fun e =>
          e.get (R.PORT_STATUS_LOCAL_FAULT p) = b2n lf ∧ e.get (R.PORT_STATUS_RF_RECEIVED p) = b2n (rf && !lf) ∧
          (d.get (R.PORT_STATUS_LOCAL_FAULT p) = 0 → lf = true → e.evt pg (4 * (p % 8) + 2) = true))) ∧
    (portState d p = psHoldoff → served d p = true →
      ActsSo (.holdoffEnd p) s fun e => portState e p = psBringup ∧ e.get (R.PORT_STATUS_LOCAL_FAULT p) = 1 ∧
        e.get (R.PORT_STATUS_ALIGNED p) = 0 ∧ more (R.HOLDOFF_EXPIRED p) e ∧ more (R.LINK_DOWN_COUNT p) e ∧
        e.evt pg (4 * (p % 8)) = true ∧ ∀ l ∈ portLanes d p, laneStage d l ≠ stOff → laneStage e l = stRxDetect) ∧
    (s.run.stopped = true → portSends s.run d p = .nothing) ∧
    (s.run = .active → served d p = true → psBringup ≤ portState d p →
      let force := d.get (R.PORT_CTRL_TX_FORCE p)
      (force = 1 → portSends s.run d p = .localFault) ∧ (force = 2 → portSends s.run d p = .remoteFault) ∧
      (force = 3 → portSends s.run d p = .idle) ∧
      (force = 0 → (portState d p = psBringup ∨ d.get (R.PORT_STATUS_LOCAL_FAULT p) = 1) → portSends s.run d p = .remoteFault) ∧
      (force = 0 → portState d p ≠ psBringup → d.get (R.PORT_STATUS_LOCAL_FAULT p) = 0 → d.get (R.PORT_STATUS_RF_RECEIVED p) = 1 →
        portSends s.run d p = .idle) ∧
      (force = 0 → portState d p ≠ psBringup → d.get (R.PORT_STATUS_LOCAL_FAULT p) = 0 → d.get (R.PORT_STATUS_RF_RECEIVED p) = 0 →
        d.get (R.PORT_CTRL_LOOPBACK p) = 0 → portSends s.run d p = .frames))

/-- R145, R155, R156 and R187 to R189. -/
def Obligations.FrameRows : Prop :=
  ∀ (s : State) (p : Fin 256) (pm : Bool) (ago : Nat) (bytes rest : List Byte) (whole ended : Bool) (f : Frame),
    let d := s.d
    let z := rxStamp d p ago
    let stamp := if 0 ≤ z then z.toNat else d.freeVal 128
    let d1 := if 0 ≤ z then d else d.tookFree
    let r := rxParse d1 p bytes whole stamp
    let looped := d.on (R.PORT_CTRL_LOOPBACK p)
    let head := Instr.rxFrameHead p pm ago bytes whole
    let tail := Instr.rxFrameTail p pm rest ended 0 false 0
    let wire := f.wire ++ rest
    let g := { f with wire := wire }
    let fault := lineFault d p wire (ended || f.errored)
    let sec := f.secy.getD 0
    let sa := f.sa.getD 0
    let replay := d.on (R.SECY_REPLAY_PROTECT sec) && decide (f.pn < rxLowestPn d sa)
    let more (c : Fld) (e : Dev) : Prop := d.get (L.PAGE_FREEZE (portPage p)) = 0 → e.get c = min (d.get c + 1) (2 ^ c.w - 1)
    let moreSa (t i k : Nat) (e : Dev) : Prop :=
      d.get (L.PAGE_FREEZE 0x70) = 0 → e.get (secStat t i k) = min (d.get (secStat t i k) + 1) (2 ^ (secStat t i k).w - 1)
    let ends (e : Dev) (passed : Bool) : Prop := rxInProgress e p pm = none ∧
      ∀ x ∈ e.frames, x.id = f.id → x.wire = wire ∧ x.tail = true ∧ x.passed = passed ∧ x.key = 0 ∧ x.salt = 0
    let drops (e : Dev) : Prop := ends e false ∧ (∀ c ∈ e.copies, c.frame ≠ f.id) ∧ ∀ t ∈ e.txs, t.copy.frame = f.id → t.poison.isSome = true
    (rxInProgress d p pm = none →
      (rxOpen s.run d p = false → NoEffect head s) ∧
      (rxOpen s.run d p = true → (pm = true → mergeOn d p = true) → loopAccepts d p bytes = true →
        (r.kind.stored = false →
          exec head s = .next (s.setDev { d1 with frames := d.frames ++ [frameOf d1 p pm stamp d.serial bytes looped r], serial := d.serial + 1 })) ∧
        (r.kind.stored = true → (∀ x ∈ d.frames, x.id ≠ d.serial) →
          Yields head s fun e => d.serial < e.serial ∧ ∃ x, rxInProgress e p pm = some x ∧ x.id = d.serial ∧ x.wire = bytes ∧ x.kind = r.kind ∧
            x.stamp = stamp ∧ x.sa = r.sa ∧ x.looped = looped))) ∧
    (s.frozen = false →
      (rxInProgress d p pm = none → NoEffect tail s) ∧
      (rxInProgress d p pm = some f → f.failed = false → f.looped = false →
        (∀ x ∈ d.frames, x.id = f.id ∨ (x.fromRing = false ∧ x.src = p.val ∧ x.pmac = pm ∧ x.tail = false) → x = f) → d.frames.Nodup →
        (f.kind = .macControl → fault = none → fieldZ wire 14 2 = 1 → f.charges = [] → served d p = true →
          Yields tail s fun e => ends e false ∧ more (R.RX_PAUSE p) e ∧ (frameHeld d f.id = false → ∀ x ∈ e.frames, x.id ≠ f.id)) ∧
        (fault = some stompFcs → served d p = true → Yields tail s fun e => drops e ∧ more (R.RX_FCS_ERR p) e) ∧
        (f.kind = .plain ∨ f.kind = .bypass ∨ f.kind = .unvalidated → fault = none →
          Yields tail s fun e => ends e true ∧ e.copies = d.copies ∧ e.txs = d.txs) ∧
        (f.kind = .controlled → fault = none → f.charges = [] → replay = false →
          (rxVerify g = true →
            Yields tail s fun e => ends e true ∧ e.copies = d.copies ∧ e.txs = d.txs ∧
              (rxLowestPn d sa ≤ f.pn → moreSa 9 sa 0 e) ∧ (f.pn < rxLowestPn d sa → moreSa 10 f.sc 1 e)) ∧
          (rxVerify g = false → validateMode d sec = 0 ∨ (secTag wire).c = true → Yields tail s fun e => drops e ∧ moreSa 9 sa 2 e))))

/-- R210, R223, R224 and R244. -/
def Obligations.CopyRows : Prop :=
  ∀ (s : State) (p : Fin 256) (q : Fin 16) (ago handed n y i : Nat) (f : Frame) (c : Copy) (t : TxCopy) (d2 d3 : Dev) (cs : List (Nat × Nat × Nat))
    (miss : Fld),
    let d := s.d
    let g := 16 * p.val + q.val
    let tier := d.get (R.QSCHED_TIER g)
    let bs := editTags c.edit f.plain
    let phys0 := physNow d - ago * 2 ^ 32 + planLead d p * fineNs
    let phys := startBoundary d p phys0
    let start := d.time - ago * 2 ^ 32 + planLead d p * fineNs + (phys - phys0)
    let row (t : TxCopy) := (t.copy, t.port, t.start, t.s, t.sa, t.started)
    let ready := shaperFill (cbsSyncPort (oversizeAll s.run d p) p) p
    let more (pg : Nat) (c : Fld) (e : Dev) : Prop := d.get (L.PAGE_FREEZE pg) = 0 → e.get c = min (d.get c + 1) (2 ^ c.w - 1)
    let gone (e : Dev) : Prop := ∀ x ∈ e.txs, x.copy.id ≠ t.copy.id
    (s.run = .active → suspendedTx ready p = none →
      (select ready p start phys (fun _ => true) = (d2, none) → exec (.copyIssue p ago) s = .next (s.setDev d2)) ∧
      (select ready p start phys (fun _ => true) = (d2, some (c, n)) → getFrame d2 c.frame = some f → (∀ x ∈ d2.txs, x.copy.id ≠ c.id) →
        (portUp d2 p = false → Yields (.copyIssue p ago) s fun e => ∀ x ∈ e.copies, x.id ≠ c.id) ∧
        (portUp d2 p = true → fieldZ bs 12 2 ≠ 0x8808 → txFaulted d2 p = false → c.cdOp < 4 →
          (txProcess d2 p bs = .clear cs →
            Yields (.copyIssue p ago) s fun e => (∀ x ∈ e.copies, x.id ≠ c.id) ∧
              ∃ x ∈ e.txs, x.copy = c ∧ x.port = p.val ∧ x.start = start ∧ x.phys = phys ∧ x.sa = none ∧ x.started = false) ∧
          (txProcess d2 p bs = .protect y → selectTxSa d2 y start = (d3, some i) →
            Yields (.copyIssue p ago) s fun e => (∀ x ∈ e.copies, x.id ≠ c.id) ∧
              ∃ x ∈ e.txs, x.copy = c ∧ x.port = p.val ∧ x.start = start ∧ x.phys = phys ∧ x.sa = some i ∧ x.pn = (takePn d3 i).2 ∧
                x.started = false)))) ∧
    (s.run = .active → d.copies = [c] → c.queue = g → getFrame d c.frame = some f → f.tail = true → f.passed = true → c.cdOp = 0 → c.desc = none →
      portUp d p = true → portProtected d p = false → fieldZ bs 12 2 ≠ 0x8808 → bs.length + 24 < 16384 →
      d.get (R.PORT_CTRL_TX_FORCE p) = 0 → d.get (R.PORT_STATUS_LOCAL_FAULT p) = 0 → d.get (R.PORT_STATUS_RF_RECEIVED p) = 0 →
      gatesOn d p = false → d.get (L.GATE_HOLD p) = 0 → shaperOn d p = false → d.get (R.QSCHED_CBS_EN g) = 0 →
      (∀ x ∈ d.txs, x.port ≠ p.val) → d.get (L.TX_FREE p) ≤ phys → tier < 4 →
      d.get (L.DRR_POS p tier) = q.val + 1 → d.get (L.DRR_VISIT p tier) = 1 → bs.length + 24 ≤ d.get (R.QSTATE_DEFICIT g) →
      Yields (.copyIssue p ago) s fun e => e.copies = [] ∧ e.txs.map row = d.txs.map row ++ [(c, p.val, start, bs.length + 24, none, false)] ∧
        e.get (R.QSTATE_DEFICIT g) = 0 ∧ more (0x78 + g / 512) (R.QSTATE_TX_COPIES g) e) ∧
    (s.run.stopped = false → getFrame d t.copy.frame = some f →
      ((d.txs.find? fun x => x.port == p.val && !x.started) = some t →
        (physNow d < t.phys → NoEffect (.copyStart p) s) ∧
        (t.phys ≤ physNow d →
          (cdMiss d t = none → t.sa ≠ none ∨ guardPasses d p (copyBytes f t.copy t.tc) = true →
            (t.copy.cdOp = 0 → t.copy.desc = none →
              exec (.copyStart p) s =
                .next (s.setDev { d with txs := d.txs.map fun x => if x.copy.id = t.copy.id then { t with started := true } else x })) ∧
            Yields (.copyStart p) s fun e => { t with started := true } ∈ e.txs ∧
              (t.copy.cdOp ≠ 0 → served d p = true → more (portPage p) (R.CD_SENT p) e)) ∧
          (cdMiss d t = some miss → served d p = true → Yields (.copyStart p) s fun e => gone e ∧ more (portPage p) miss e) ∧
          (cdMiss d t = none → t.sa = none → guardPasses d p (copyBytes f t.copy t.tc) = false →
            Yields (.copyStart p) s fun e => gone e ∧ bitAt (e.get L.AL_PULSE) 54 = true))) ∧
      ((d.txs.find? fun x => x.port == p.val && x.started && !x.suspended) = some t → f.tail = true ∨ t.poison ≠ none →
        let data := lineData t (copyBytes f t.copy t.tc) handed
        let bytes := data ++ (if t.poison = none then Crypto.fcs data else Crypto.complement (Crypto.fcs data))
        (d.get (R.PORT_CTRL_LOOPBACK p) = 0 →
          Yields (.copyEnd p handed) s fun e => e.out = d.out ++ [.frame p t.start bytes] ∧ gone e) ∧
        (d.get (R.PORT_CTRL_LOOPBACK p) = 1 →
          Yields (.copyEnd p handed) s fun e => e.out = d.out ∧ e.looped = d.looped ++ [(p.val, bytes)] ∧ gone e)))

/-- R203, R206 and R215 to R218. -/
def Obligations.ClusterRows : Prop :=
  ∀ (s : State) (k : Fin 32) (p : Fin 256) (tx pm before : Bool) (more : List Byte) (set : Fin 5) (kind : Fin 3) (rx wtx : BitVec 5) (t : TxCopy) (f : Frame),
    let d := s.d
    let pg := 0x50 + k.val
    let dir := b2n tx
    let ps := L.PS_STATE k (5 * dir + set)
    let counts (q : Nat) (f : Fld) (e : Dev) : Prop := d.get (L.PAGE_FREEZE (0x50 + q)) = 0 → e.get f = min (d.get f + 1) (2 ^ f.w - 1)
    let shown := [R.CC_STATUS_RX_AWAKE k, R.CC_STATUS_TX_AWAKE k, R.CC_STATUS_NEEDED k, R.CC_STATUS_SHARE k, R.CC_FENCE_STATUS_RX_FENCED k,
      R.CC_FENCE_STATUS_TX_FENCED k, R.CC_FENCE_STATUS_FENCE_PENDING k]
    (s.frozen = false →
      (Completes (.cipherCheckMismatch .keyLoad set kind) s [L.SA_LOAD_FAULT] [] fun e => e.get L.SA_LOAD_FAULT = 1) ∧
      ((d.txs.find? fun x => x.port == p.val && x.sa.isSome) = some t → t.started = true →
        let q := portCluster p
        Becomes (.cipherCheckMismatch (.tx p) set kind) s
          { d with txs := d.txs.map fun x => if x.copy.id = t.copy.id then { t with poison := some (stompOf t.poison stompCheck) } else x }
          [R.TX_SET_MISMATCH q set, R.CHECK_LAST_DIR q, R.CHECK_LAST_SET q, R.CHECK_LAST_KIND q, R.CHECK_LAST_VALID q, R.CHECK_LAST_SA_INDEX q,
            R.CHECK_LAST_TIME_NS q, R.CHECK_LAST_TIME_SEC q, L.AL_PULSE] [0x50 + q] fun e =>
          bitAt (e.get L.AL_PULSE) 52 = true ∧ e.evt (0x50 + q) 0 = true ∧
          (d.get (R.CHECK_LAST_VALID q) = 0 → e.get (R.CHECK_LAST_VALID q) = 1 ∧ e.get (R.CHECK_LAST_DIR q) = 1 ∧
            e.get (R.CHECK_LAST_SET q) = set.val ∧ e.get (R.CHECK_LAST_KIND q) = kind.val)) ∧
      ((d.txs.find? fun x => x.port == p.val && x.sa.isSome) = some t → t.started = false →
        let q := portCluster p
        Yields (.cipherCheckMismatch (.tx p) set kind) s fun e => (∀ x ∈ e.txs, x.copy.id ≠ t.copy.id) ∧ bitAt (e.get L.AL_PULSE) 52 = true ∧
          e.evt (0x50 + q) 0 = true ∧ counts q (R.TX_CHECK_SUPPRESSED q) e ∧ counts q (R.TX_SET_MISMATCH q set) e) ∧
      (rxInProgress d p pm = some f → f.kind = .controlled → f.failed = false → (∀ x ∈ d.frames, x.id = f.id → x = f) →
        let q := portCluster p
        Yields (.cipherCheckMismatch (.rx p pm before more) set kind) s fun e =>
          (∀ x ∈ e.frames, x.id = f.id → x.failed = true ∧ x.status = 2 ∧ x.key = 0 ∧ x.wire = f.wire ++ more) ∧ (∀ c ∈ e.copies, c.frame ≠ f.id) ∧
          (∀ t ∈ e.txs, t.copy.frame = f.id → t.poison.isSome = true) ∧ e.evt (0x50 + q) 0 = true ∧ bitAt (e.get L.AL_PULSE) 52 = true ∧
          counts q (R.RX_CHECK_SUPPRESSED q) e ∧ (before = false → f.cells ≠ 0 → counts q (R.RX_ZERO_OVERWRITES q) e) ∧
          (before = true → e.get (R.RX_ZERO_OVERWRITES q) = d.get (R.RX_ZERO_OVERWRITES q))) ∧
      (d.get (R.CC_STATUS_STATE k) = 1 → Completes (.clusterRun k) s [R.CC_STATUS_STATE k] [pg] fun e =>
        e.get (R.CC_STATUS_STATE k) = 2 ∧ e.evt pg 4 = true) ∧
      (d.get ps = psWaking → Completes (.pipeSetAwake k tx set) s (ps :: shown) [] fun e =>
        e.get ps = psAwake ∧ e.get (R.CC_STATUS_RX_AWAKE k) = countSets e k 0 psAwake ∧ e.get (R.CC_STATUS_TX_AWAKE k) = countSets e k 1 psAwake) ∧
      (d.get ps = psAwake → setNeeded d k dir set = false → fenceBit d k dir set = false → clusterN d k < awakeFree d k dir →
        Yields (.pipeSetSleep k tx set) s fun e => e.get ps = psSleep ∧ e.get (R.CC_STATUS_RX_AWAKE k) = countSets e k 0 psAwake) ∧
      (d.get ps = psAwake → fenceBit d k dir set = true → clusterN d k ≤ awakeFree d k dir →
        Yields (.pipeSetFenced k tx set) s fun e => e.get ps = psFenced ∧ e.evt pg 1 = true ∧
          bitAt (e.get (if tx then R.CC_FENCE_STATUS_TX_FENCED k else R.CC_FENCE_STATUS_RX_FENCED k)) set = true)) ∧
    (s.live pg = true →
      let left (w : BitVec 5) := 5 - popCount 5 w.toNat
      (left rx < clusterN d k ∨ left wtx < clusterN d k →
        Completes (.ccFenceWrite k rx wtx) s [R.CC_FENCE_STATUS_FENCE_REFUSED k] [pg] fun e =>
          e.get (R.CC_FENCE_STATUS_FENCE_REFUSED k) = 1 ∧ e.evt pg 2 = true) ∧
      (clusterN d k ≤ left rx → clusterN d k ≤ left wtx →
        Yields (.ccFenceWrite k rx wtx) s fun e => e.get (R.CC_FENCE_RX k) = rx.toNat ∧ e.get (R.CC_FENCE_TX k) = wtx.toNat ∧
          e.get (R.CC_FENCE_STATUS_FENCE_REFUSED k) = 0 ∧
          (bitAt (if tx then wtx else rx).toNat set = true → d.get ps = psSleep → e.get ps = psFenced)))

/-- R51, R264 and R266: all nineteen commands of the vault. -/
def Obligations.VaultIssueRows : Prop :=
  ∀ (s : State) (c : Fin 8), s.live (if c.val < 4 then 0x05 else 0x08) = true →
    ∀ x ∈ [(Instr.blobLoad c, 0x01), (.blobSeal c, 0x02), (.keyGenerate c, 0x03), (.keyDerive c, 0x04), (.mkaDerive c, 0x05), (.keyWrap c, 0x06),
      (.keyUnwrap c, 0x07), (.saLoad c, 0x10), (.sakUnwrapToSa c, 0x11), (.cmacBegin c, 0x20), (.cmacUpdate c, 0x21), (.cmacFinal c, 0x22),
      (.drbgRead c, 0x30), (.drbgReseed c, 0x31), (.slotErase c, 0x40), (.slotRestrict c, 0x41), (.rootGenerate c, 0x50), (.rootSet c, 0x51),
      (.rootErase c, 0x52)],
      (slotActive s.d (vId c) = true → NoEffect x.1 s) ∧
      (slotActive s.d (vId c) = false → 2 ≤ s.d.get (R.REQ_CEILING reqVault) →
        Becomes x.1 s
          (if s.d.get R.VAULT_STATUS_ENGINE_GRANTED = 0 ∧ arbPending s.d .vault = false then
            { s.d with waiting := s.d.waiting ++ [⟨reqVault, 2, classA, .vault, s.d.cyc, false⟩] } else s.d)
          (slotFields (vId c) ++ [L.V_BUF c, L.V_PRES c, L.CMAC_ON c, L.CMAC_ICK c, L.CMAC_KEY c, L.CMAC_KLEN c, L.CMAC_PRES c, L.CMAC_X c,
            L.CMAC_LAST c, L.CMAC_N c]) [] fun e =>
          SlotHolds s.d e (vId c) x.2 codeQueued ∧ e.get (L.V_PRES c) = s.d.get R.PRESENCE_STATUS_ASSERTED % 2 ∧
          (vClass x.2 ≠ some 4 → e.get (L.CMAC_ON c) = 0) ∧ (vClass x.2 = some 4 → e.get (L.CMAC_ON c) = s.d.get (L.CMAC_ON c)))

/-- R262 to R265 with five commits. -/
def Obligations.VaultStepRows : Prop :=
  ∀ (s : State) (c c' : Fin 8) (code detail : Nat) (mismatch : Bool),
    let d := s.d
    let id := vId c
    let op := d.get (L.SLOT_OPCODE id)
    let a (j : Nat) := d.get (L.SLOT_CAP id j)
    let i := a 0 % 1024
    let page := slotPage id
    let done (e : Dev) : Prop := e.get (L.SLOT_CODE id) = codeOk ∧ e.evt page (id % 4) = true
    (s.frozen = false →
      (vaultMayStep d c = true →
        Completes (.vaultEngineStep c mismatch) s (L.V_DUE c :: (List.range 8).map L.V_SERVED) [] fun e =>
          e.get (L.V_DUE c) = (if mismatch then 2 else 1) ∧ e.get (L.V_SERVED c) = 0 ∧
          ∀ x < 8, x ≠ c.val → bitAt (e.get (L.V_SERVED x)) c = true) ∧
      (vaultMayStep d c = false → NoEffect (.vaultEngineStep c mismatch) s)) ∧
    (d.get (L.V_LAST c) = 0 →
      (OneStep s c false → d.get (L.SLOT_CODE id) = codeQueued → vCheck d s.power c op = some (code, detail) → code ≠ codeKeyGone →
        code ≠ codeIntegrity → writesBlob op = false →
        StepEnds s d (vaultFields c) [page] fun e =>
          e.get (L.SLOT_CODE id) = code % 2 ^ 8 ∧ e.get (L.SLOT_RESULT id 0) = detail % 2 ^ 32) ∧
      (d.get (L.SLOT_CODE id) = codeRunning →
        (OneStep s c true → writesBlob op = false →
          StepEnds s d (vaultFields c ++ [R.INTEGRITY_FAIL_COUNT, L.AL_PULSE]) [5, page] fun e =>
            e.get (L.SLOT_CODE id) = codeIntegrity ∧ e.get (L.SLOT_RESULT id 0) = 5 ∧ bitAt (e.get L.AL_PULSE) 52 = true ∧ e.evt 5 8 = true) ∧
        (OneStep s c false → vNeedsDrbg op = none ∨ d.get R.VAULT_STATUS_DRBG_STATE = drbgReady → d.get (L.V_STEP c) + 1 < vSteps d c op →
          StepEnds s d [L.V_DUE c, L.V_STEP c] [] fun e => e.get (L.V_STEP c) = d.get (L.V_STEP c) + 1 ∧ e.get (L.V_DUE c) = 0))) ∧
    (d.get (L.V_STEP c) = 0 →
      (VaultStarts s c opKeyGenerate → vEmpty d i = true → d.get (L.DRBG_GEN 0) < 2 ^ 20 →
        StepEndsSo s fun e =>
          let key := ((drbgOf d 0).generate (keyBytes (bitsOf (a 1) 4 2))).1
          done e ∧ e.get (R.SLOT_STATE i) = vsValid ∧ e.get (L.VKEY i) = beVal key % 2 ^ 256 ∧ e.get (R.SLOT_TYPE i) = a 1 % 16 ∧
          e.get (R.SLOT_LENGTH i) = a 1 / 16 % 4 ∧ e.get (R.SLOT_OPS i) = a 1 / 2 ^ 16 % 2 ^ 8 ∧ e.get (R.SLOT_USE_LIMIT i) = a 2 % 2 ^ 32 ∧
          e.get (R.SLOT_LABEL i) = a 3 % 2 ^ 32 ∧ (e.get (R.SLOT_PARENT_VALID i) = 1 ↔ bitAt (a 4) 16 = true) ∧
          (bitAt (a 4) 16 = true → e.get (R.SLOT_PARENT i) = a 4 % 1024) ∧ e.get (L.DRBG_GEN 0) = d.get (L.DRBG_GEN 0) + 1) ∧
      (VaultStarts s c opSlotRestrict →
        StepEnds s d (vaultFields c ++ [R.SLOT_OPS i, R.SLOT_EXPORTABLE_WRAPPED i, R.SLOT_PRESENCE_REQUIRED i,
            R.SLOT_EXPIRE_AT_RESET i, R.SLOT_USE_LIMIT i]) [page] fun e =>
          done e ∧ (∀ b < 8, bitAt (e.get (R.SLOT_OPS i)) b = (bitAt (d.get (R.SLOT_OPS i)) b && !bitAt (a 1) b)) ∧
          (bitAt (a 1) 8 = true → e.get (R.SLOT_EXPORTABLE_WRAPPED i) = 0) ∧ (bitAt (a 1) 9 = true → e.get (R.SLOT_PRESENCE_REQUIRED i) = 1) ∧
          (a 2 ≠ 0 → a 2 < d.get (R.SLOT_USE_LIMIT i) → a 2 < 2 ^ 32 → e.get (R.SLOT_USE_LIMIT i) = a 2)) ∧
      (VaultStarts s c opDrbgRead → bitAt (a 1) 0 = false → d.get (L.DRBG_GEN 1) < 2 ^ 20 →
        StepEnds s d (vaultFields c ++ [L.SLOT_READ_ONCE id, L.DRBG_KEY 1, L.DRBG_VAL 1, L.DRBG_GEN 1, R.DRBG_REQUESTS])
          [page] fun e => done e ∧ e.get (L.SLOT_READ_ONCE id) = a 0 ∧
            ∀ j < 16, e.get (L.SLOT_RESULT id j) =
              (((Crypto.chunked 4 ((drbgOf d 1).generate (4 * a 0)).1).map beVal).getD j 0) % 2 ^ 32) ∧
      (VaultStarts s c opCmacBegin → d.get (R.SLOT_USE_LIMIT i) = 2 ^ 32 - 1 →
        StepEnds s d (vaultFields c ++ [L.CMAC_ON c, L.CMAC_ICK c, L.CMAC_KEY c, L.CMAC_KLEN c, L.CMAC_PRES c, L.CMAC_X c,
            L.CMAC_LAST c, L.CMAC_N c]) [page] fun e =>
          done e ∧ e.get (L.CMAC_ON c) = 1 ∧ e.get (L.CMAC_ICK c) = i ∧ e.get (L.CMAC_KEY c) = d.get (L.VKEY i) % 2 ^ 256 ∧ e.get (L.CMAC_X c) = 0) ∧
      (VaultStarts s c opSlotErase → vEmpty d i = false → childSlots d i = [] → childSas d false i = [] → childSas d true i = [] →
        StepEndsSo s fun e =>
          done e ∧ e.get (R.SLOT_STATE i) = vsEmpty ∧ e.get (L.VKEY i) = 0 ∧ e.get (R.SLOT_LABEL i) = 0 ∧ e.get (R.SLOT_USE_LIMIT i) = 0 ∧
          (d.get (L.PAGE_FREEZE 5) = 0 → e.get R.ERASE_COUNT = min (d.get R.ERASE_COUNT + 1) (2 ^ R.ERASE_COUNT.w - 1)) ∧
          (c' ≠ c → slotActive d (vId c') = true → heldSrc d c' i = true → e.get (L.SLOT_CODE (vId c')) = codeKeyGone)))

/-- R251 to R253, R264 and R274 to R277: the commits besides those of VaultStepRows. -/
def Obligations.VaultCommitRows : Prop :=
  ∀ (s : State) (c : Fin 8) (key : List Byte) (j : Fin 32),
    let d := s.d
    let id := vId c
    let a (j : Nat) := d.get (L.SLOT_CAP id j)
    let i := a 0 % 1024
    let buf := vBuf d c
    let done (e : Dev) : Prop := e.get (L.SLOT_CODE id) = codeOk ∧ e.evt (slotPage id) (id % 4) = true
    let failed (e : Dev) (detail : Nat) : Prop := e.get (L.SLOT_CODE id) = codeIntegrity ∧ e.get (L.SLOT_RESULT id 0) = detail ∧ e.evt 5 8 = true
    let stores (e : Dev) (x : Nat) (key : List Byte) (parent : Nat) : Prop :=
      e.get (L.VKEY x) = beVal key % 2 ^ 256 ∧ e.get (R.SLOT_PARENT x) = parent ∧ e.get (R.SLOT_PARENT_VALID x) = 1 ∧ e.get (R.SLOT_PARENT_LOST x) = 0
    let writes (e : Dev) (bs : List Byte) : Prop :=
      e.get (blobF c j) = (stringWords bs 32).getD j 0 % 2 ^ 32 ∧ e.get (L.SLOT_RESULT id 0) = bs.length % 2 ^ 32
    let childless (d : Dev) (x : Nat) : Prop := childSlots d x = [] ∧ childSas d false x = [] ∧ childSas d true x = []
    (VaultEnds s c opBlobLoad → vEmpty d i = true → beVal ((buf.drop 4).take 4) = d.get (R.ROOT_GENERATION (blobRoot d c)) →
      let k := keyBytes (bitsOf (blobAttr d c) 4 2)
      let o := Crypto.gcmOpen 32 (blobKey d (blobRoot d c) (buf.take 20)) (beVal ((buf.drop 20).take 12)) (buf.take 20) ((buf.drop 32).take k)
        (beVal ((buf.drop (32 + k)).take 16))
      (o.2 = true → StepEndsSo s fun e => done e ∧ stores e i o.1 (1024 + blobRoot d c) ∧ e.get (R.SLOT_TYPE i) = blobAttr d c % 16 ∧
        e.get (R.SLOT_LABEL i) = beVal ((buf.drop 16).take 4)) ∧
      (o.2 = false → StepEndsSo s fun e => failed e 1 ∧ e.get (R.SLOT_STATE i) = vsEmpty)) ∧
    (VaultEnds s c opBlobSeal → d.get R.VAULT_STATUS_DRBG_STATE = drbgReady → d.get (L.DRBG_GEN 0) < 2 ^ 20 → d.get (R.ROOT_VALID (a 1)) = 1 →
      let header := beBytes 2 0x5642 ++ [1] ++ beBytes 1 (a 1) ++ beBytes 4 (d.get (R.ROOT_GENERATION (a 1))) ++ beBytes 4 (slotAttr d i) ++
        beBytes 4 (d.get (R.SLOT_USE_LIMIT i)) ++ beBytes 4 (d.get (R.SLOT_LABEL i))
      let iv := ((drbgOf d 0).generate 12).1
      let sealed := Crypto.gcmSeal 32 (blobKey d (a 1) header) (beVal iv) header (slotKey d i)
      StepEndsSo s fun e => done e ∧ writes e (header ++ iv ++ sealed.1 ++ beBytes 16 sealed.2 ++ beBytes 16 0)) ∧
    (VaultEnds s c opKeyDerive → vEmpty d i = true →
      let src := a 4 % 1024
      let label := argString d id 7 14 (a 6)
      let ctx := buf.take (a 15)
      let bits := 8 * keyBytes (bitsOf (a 1) 4 2)
      StepEndsSo s fun e => done e ∧ stores e i (if bitsOf (a 4) 16 2 = 0 then Crypto.kdfCmac 32 (d.get (L.VKEY src)) 4 4 label ctx bits
        else Crypto.kdfHmac (slotKey d src) label ctx bits) src) ∧
    (VaultEnds s c opMkaDerive → bitsOf (a 0) 16 10 ≠ i → vEmpty d i = true → vEmpty d (bitsOf (a 0) 16 10) = true →
      let src := a 3 % 1024
      StepEndsSo s fun e => done e ∧ stores e i (mkaKey d c src [0x4B, 0x45, 0x4B]) src ∧
        stores e (bitsOf (a 0) 16 10) (mkaKey d c src [0x49, 0x43, 0x4B]) src ∧
        e.get (R.SLOT_TYPE i) = tyKek ∧ e.get (R.SLOT_TYPE (bitsOf (a 0) 16 10)) = tyIck) ∧
    (VaultEnds s c opKeyWrap →
      StepEndsSo s fun e => done e ∧ writes e (Crypto.keyWrap (slotLen d (a 1 % 1024)) (d.get (L.VKEY (a 1 % 1024))) (slotKey d i))) ∧
    (VaultEnds s c opKeyUnwrap → vEmpty d i = true →
      let w := a 4 % 1024
      (Crypto.keyUnwrap (slotLen d w) (d.get (L.VKEY w)) (buf.take (a 6)) = some key → StepEndsSo s fun e => done e ∧ stores e i key w) ∧
      (Crypto.keyUnwrap (slotLen d w) (d.get (L.VKEY w)) (buf.take (a 6)) = none → StepEndsSo s fun e => failed e 3)) ∧
    (let rx := bitAt (a 1) 20
     let x := bitsOf (a 1) 0 17
     let loads (e : Dev) (key : List Byte) : Prop := saState e rx x = saLoaded ∧ e.get (L.SA_KEY (saKeyIx rx x)) = beVal key % 2 ^ 256 ∧
       e.get (L.SA_SALT (saKeyIx rx x)) = beVal (argString d id 2 4 12) % 2 ^ 96
     saServed d s.power c = true → saState d rx x = saEmpty → d.get L.SA_LOAD_FAULT = 0 →
      (VaultEnds s c opSaLoad → saFits d c (slotKey d i).length = true → d.get (R.SLOT_PARENT_LOST i) = 0 →
        StepEndsSo s fun e => done e ∧ loads e (slotKey d i)) ∧
      (VaultEnds s c opSakUnwrapToSa → saFits d c key.length = true →
        Crypto.keyUnwrap (slotLen d i) (d.get (L.VKEY i)) (buf.take (a 5)) = some key → StepEndsSo s fun e => done e ∧ loads e key)) ∧
    (VaultEnds s c opCmacUpdate →
      let ctx := cmacAppend d c (buf.take (a 0))
      StepEndsSo s fun e => done e ∧ e.get (L.CMAC_ON c) = d.get (L.CMAC_ON c) ∧ e.get (L.CMAC_X c) = ctx.get (L.CMAC_X c) ∧
        e.get (L.CMAC_LAST c) = ctx.get (L.CMAC_LAST c) ∧ e.get (L.CMAC_N c) = ctx.get (L.CMAC_N c)) ∧
    (VaultEnds s c opCmacFinal →
      let mac := Crypto.cmacFinish (d.get (L.CMAC_KLEN c)) (d.get (L.CMAC_KEY c)) (d.get (L.CMAC_X c))
        (beBytes (d.get (L.CMAC_N c)) (d.get (L.CMAC_LAST c)))
      StepEndsSo s fun e => done e ∧ e.get (L.CMAC_ON c) = 0 ∧ e.get (L.CMAC_KEY c) = 0 ∧
        (bitAt (a 0) 0 = false → ∀ x < 4, e.get (L.SLOT_RESULT id x) = (stringWords (beBytes 16 mac) 4).getD x 0 % 2 ^ 32) ∧
        (bitAt (a 0) 0 = true → e.get (L.SLOT_RESULT id 0) = b2n (argString d id 1 4 16 == beBytes 16 mac))) ∧
    (VaultEnds s c opDrbgReseed → d.get (L.V_FRESH c) = 1 → StepEndsSo s fun e => done e) ∧
    (VaultEnds s c opRootGenerate → d.get R.VAULT_STATUS_DRBG_STATE = drbgReady → d.get (L.DRBG_GEN 0) < 2 ^ 20 → childless d (1024 + a 0) →
      StepEndsSo s fun e => done e ∧ e.get (R.ROOT_VALID (a 0)) = 1 ∧ e.get (L.ROOT_KEY (a 0)) = beVal ((drbgOf d 0).generate 32).1 % 2 ^ 256 ∧
        e.get (R.ROOT_GENERATION (a 0)) = (d.get (R.ROOT_GENERATION (a 0)) + 1) % 2 ^ 32 ∧ e.evt 5 7 = true) ∧
    (VaultEnds s c opRootSet → childless d (1024 + a 0) → childless d (a 1 % 1024) → vEmpty d (a 1 % 1024) = false →
      StepEndsSo s fun e => done e ∧ e.get (R.ROOT_VALID (a 0)) = 1 ∧ e.get (L.ROOT_KEY (a 0)) = d.get (L.VKEY (a 1 % 1024)) % 2 ^ 256 ∧
        e.get (R.ROOT_GENERATION (a 0)) = (d.get (R.ROOT_GENERATION (a 0)) + 1) % 2 ^ 32 ∧ e.evt 5 7 = true ∧
        e.get (R.SLOT_STATE (a 1 % 1024)) = vsEmpty ∧ e.get (L.VKEY (a 1 % 1024)) = 0) ∧
    (VaultEnds s c opRootErase → childless d (1024 + a 0) →
      StepEndsSo s fun e => done e ∧ e.get (R.ROOT_VALID (a 0)) = 0 ∧ e.get (L.ROOT_KEY (a 0)) = 0 ∧
        e.get (R.ROOT_GENERATION (a 0)) = (d.get (R.ROOT_GENERATION (a 0)) + 1) % 2 ^ 32 ∧ e.evt 5 7 = true)

/-- R266, R272, R276, R277 and R279. -/
def Obligations.VaultEngineRows : Prop :=
  ∀ (s : State) (c : Fin 8), s.frozen = false →
    let d := s.d
    let seeds := [L.DRBG_KEY 0, L.DRBG_VAL 0, L.DRBG_GEN 0, L.DRBG_KEY 1, L.DRBG_VAL 1, L.DRBG_GEN 1, R.DRBG_REQUESTS]
    (Completes .parentCascadeDone s [R.VAULT_STATUS_CASCADE_ACTIVE] [] fun e => e.get R.VAULT_STATUS_CASCADE_ACTIVE = 0) ∧
    (d.get R.VAULT_STATUS_ENGINE_GRANTED = 1 → vIdle d = true →
      (d.get L.V_IDLE_AT + 100000 ≤ d.cyc →
        Becomes .vaultGrantIdleRelease s { d with releasing := d.releasing ++ [(reqVault, 2)] } [R.VAULT_STATUS_ENGINE_GRANTED] [] fun e =>
          e.get R.VAULT_STATUS_ENGINE_GRANTED = 0) ∧
      (d.cyc < d.get L.V_IDLE_AT + 100000 → NoEffect .vaultGrantIdleRelease s)) ∧
    (d.get L.VAULT_TESTED = 0 →
      (Becomes (.vaultSelftestDone true) s { d with freeCtr := d.freeCtr + 2 }
        (seeds ++ [L.VAULT_TESTED, R.VAULT_STATUS_SELFTEST_PASS, R.VAULT_STATUS_DRBG_STATE]) [] fun e =>
        e.get R.VAULT_STATUS_SELFTEST_PASS = 1 ∧ e.get R.VAULT_STATUS_DRBG_STATE = drbgReady ∧ e.get (L.DRBG_GEN 0) = 0 ∧ e.get R.DRBG_REQUESTS = 0) ∧
      Completes (.vaultSelftestDone false) s [L.VAULT_TESTED, L.PAGE_FAULT 5, L.AL_PULSE] [5] fun e =>
        e.get R.VAULT_STATUS_SELFTEST_PASS = d.get R.VAULT_STATUS_SELFTEST_PASS ∧ e.get (L.PAGE_FAULT 5) = 1 ∧ e.evt 5 10 = true ∧
        bitAt (e.get L.AL_PULSE) 52 = true) ∧
    (d.get L.VAULT_TESTED = 1 → NoEffect (.vaultSelftestDone false) s) ∧
    (d.get (L.V_COLLECT c) = 1 → d.get (L.SLOT_OPCODE (vId c)) = opDrbgReseed →
      Becomes (.entropyCollectionDone c) s { d with freeCtr := d.freeCtr + 2 } (seeds ++ [L.V_COLLECT c, L.V_FRESH c, R.VAULT_STATUS_DRBG_STATE]) []
        fun e => e.get (L.V_COLLECT c) = 0 ∧ e.get (L.V_FRESH c) = 1 ∧ e.get R.VAULT_STATUS_DRBG_STATE = drbgReady ∧ e.get (L.DRBG_GEN 0) = 0 ∧
          e.get (L.DRBG_GEN 1) = 0) ∧
    ((∀ x < 8, d.get (L.V_COLLECT x) = 0) →
      Completes .entropyTestFail s [R.VAULT_STATUS_DRBG_STATE, R.DRBG_HEALTH_FAILS, L.AL_PULSE] [5] fun e =>
        e.get R.VAULT_STATUS_DRBG_STATE = drbgError ∧ bitAt (e.get L.AL_PULSE) 53 = true ∧
        (d.get R.VAULT_STATUS_DRBG_STATE ≠ drbgError → e.evt 5 9 = true) ∧
        (d.get (L.PAGE_FREEZE 5) = 0 → e.get R.DRBG_HEALTH_FAILS = min (d.get R.DRBG_HEALTH_FAILS + 1) (2 ^ R.DRBG_HEALTH_FAILS.w - 1)))

/-- R290, R292, R297 and R305. -/
def Obligations.BufferRows : Prop :=
  ∀ (s : State) (i : Fin 65536) (x : Nat) (k : Fin 8) (v : BitVec 19) (g : Fin 4224),
    let d := s.d
    let fid := d.get R.FDB_KEY_FID
    let mac := fdbKeyMac d
    let st := [R.FDB_OP_STATUS_CODE, R.FDB_OP_STATUS_HIT, R.FDB_OP_STATUS_FULL, R.FDB_OP_STATUS_BUSY, R.FDB_OP_STATUS_INDEX]
    let answers (e : Dev) (code hit full : Nat) : Prop := e.get R.FDB_OP_STATUS_CODE = code ∧ e.get R.FDB_OP_STATUS_HIT = hit ∧
      e.get R.FDB_OP_STATUS_FULL = full ∧ e.get R.FDB_OP_STATUS_BUSY = 0 ∧ e.evt 0x72 8 = true
    (s.live 0x72 = true →
      (fdbFind d fid mac = some x →
        (Completes .fdbOpLookup s st [0x72] fun e => answers e codeOk 1 0 ∧ e.get R.FDB_OP_STATUS_INDEX = x % 2 ^ R.FDB_OP_STATUS_INDEX.w) ∧
        Yields .fdbOpDelete s fun e => answers e codeOk 1 0 ∧ e.get (R.FDB_VALID x) = 0 ∧ e.get (R.FDB_MAC x) = 0) ∧
      (fdbFind d fid mac = none →
        (Completes .fdbOpLookup s st [0x72] fun e => answers e codeOk 0 0) ∧
        (Completes .fdbOpDelete s st [0x72] fun e => answers e codeOk 0 0) ∧
        (fdbDestBad d = false → fdbFree d fid mac = some x →
          Completes .fdbOpInsert s (st ++ [R.FDB_COUNT, R.FDB_MAC x, R.FDB_FID x, R.FDB_VALID x, R.FDB_STATIC x, R.FDB_HIT x, R.FDB_DEST_TYPE x,
              R.FDB_DEST x]) [0x72] fun e =>
            answers e codeOk 0 0 ∧ e.get (R.FDB_VALID x) = 1 ∧ e.get (R.FDB_MAC x) = mac % 2 ^ 48 ∧ e.get (R.FDB_FID x) = fid % 2 ^ (R.FDB_FID x).w ∧
            e.get (R.FDB_HIT x) = 0) ∧
        (fdbDestBad d = false → fdbFree d fid mac = none →
          Completes .fdbOpInsert s st [0x72] fun e => answers e codeState 0 1)) ∧
      (fdbDestBad d = true → Completes .fdbOpInsert s st [0x72] fun e => answers e codeArg 0 0)) ∧
    (s.frozen = false →
      (d.get R.AGE_PERIOD = 0 → NoEffect .fdbAgingPass s) ∧
      (d.get R.AGE_PERIOD ≠ 0 → d.get (R.FDB_VALID i) = 1 →
        Yields .fdbAgingPass s fun e =>
          (d.get (R.FDB_STATIC i) = 0 → d.get (R.FDB_HIT i) = 0 → e.get (R.FDB_VALID i) = 0 ∧ e.evt 0x72 3 = true) ∧
          (d.get (R.FDB_STATIC i) = 0 → d.get (R.FDB_HIT i) = 1 → e.get (R.FDB_VALID i) = 1 ∧ e.get (R.FDB_HIT i) = 0) ∧
          (d.get (R.FDB_STATIC i) = 1 → e.get (R.FDB_VALID i) = 1 ∧ e.get (R.FDB_MAC i) = d.get (R.FDB_MAC i)))) ∧
    (s.live 0x74 = true →
      let total := sumBelow (fun j => if j = k.val then v.toNat else d.get (R.POOL_SIZE j)) 8 + d.get R.RESERVE_TOTAL
      (total ≤ 377088 →
        Completes (.poolSizeWrite k v) s [R.POOL_SIZE k, R.BUF_STATUS_CFG_REFUSED] [0x74] fun e =>
          e.get (R.POOL_SIZE k) = v.toNat ∧ e.get R.BUF_STATUS_CFG_REFUSED = 0 ∧
          (0 < poolFree d k → poolFree e k ≤ 0 → e.evt 0x74 k = true)) ∧
      (377088 < total → Completes (.poolSizeWrite k v) s [R.BUF_STATUS_CFG_REFUSED] [] fun e => e.get R.BUF_STATUS_CFG_REFUSED = 1)) ∧
    (d.get R.BUF_STATUS_ZERO_FILL = 1 →
      Yields .bufferZeroFillDone s fun e => e = { d with cells := e.cells, frames := [], copies := [], txs := [] } ∧
        e.get R.BUF_STATUS_ZERO_FILL = 0 ∧ e.get R.CELLS_FREE = 393216 ∧ e.get (R.POOL_CHARGE k) = 0 ∧ e.get (R.QSTAT_CHARGE g) = 0 ∧
        e.evt 0x74 8 = true) ∧
    (d.get R.BUF_STATUS_ZERO_FILL = 0 → NoEffect .bufferZeroFillDone s)

/-- R345 to R353. -/
def Obligations.RingRows : Prop :=
  ∀ (s : State) (m : Master) (n : Fin 130) (r : Fin 128) (t : BitVec 16) (ws : List Word) (data : List Byte) (c : Copy) (f : Frame) (cl : Fin 16) (v : BitVec 7) (d2 : Dev),
    let d := s.d
    let next := ringNext d r
    let q := 4096 + r.val
    let filled := puntFill (ceilDeferred d)
    let one := (puntRings filled).filter fun n => reserveOk filled (filled.get (R.RING_TRAP_CLASS n))
    let served := puntDrr filled (if one.isEmpty then 2 else 1) (if one.isEmpty then puntRings filled else one) 65536
    let own := bitAt (ws.getD 7 0).toNat 31
    let words := (List.range 8).map fun i => (ws.getD i 0).toNat
    let moreBy (n : Nat) (f : Fld) (e : Dev) : Prop := d.get (L.PAGE_FREEZE 0xB) = 0 → e.get f = min (d.get f + n) (2 ^ f.w - 1)
    (s.live 0xB = true →
      (doorbellBad d m n t.toNat = false → Completes (.ringDoorbell m n t) s [ringTailF n] [] fun e => e.get (ringTailF n) = t.toNat) ∧
      (doorbellBad d m n t.toNat = true → Completes (.ringDoorbell m n t) s [R.DOORBELL_REFUSED] [0xB] fun e =>
        e.evt 0xB 1 = true ∧ (d.get (L.PAGE_FREEZE 0xB) = 0 → e.get R.DOORBELL_REFUSED = min (d.get R.DOORBELL_REFUSED + 1) (2 ^ R.DOORBELL_REFUSED.w - 1))) ∧
      ((m = .mgmt ↔ ringMgmt d n = true) → Completes (.ringAckWrite m n t) s [ringAckF n] [0xB] fun e => e.get (ringAckF n) = t.toNat) ∧
      (¬ (m = .mgmt ↔ ringMgmt d n = true) → NoEffect (.ringAckWrite m n t) s)) ∧
    (s.frozen = false →
      (bucketNegative filled L.CEIL_DEF (ceilBurst d) = true → exec (.rxRingDelivery ws) s = .next (s.setDev filled)) ∧
      (bucketNegative filled L.CEIL_DEF (ceilBurst d) = false →
        (served = (d2, none) → exec (.rxRingDelivery ws) s = .next (s.setDev d2)) ∧
        (served = (d2, some r.val) → queueHead d2 q = some c → getFrame d2 c.frame = some f → ringMgmt d r = false → ringTaken d r = [] → own = true →
          (f.tail = false → Yields (.rxRingDelivery ws) s fun e => (∀ x ∈ e.copies, x.id ≠ c.id) ∧
            ∃ x ∈ e.descs, x.ring = r.val ∧ x.index = next ∧ x.frame = some f.id ∧ x.done = none) ∧
          (f.tail = true → Yields (.rxRingDelivery ws) s fun e => (∀ x ∈ e.copies, x.id ≠ c.id) ∧ ringTaken e r = [] ∧
            e.get (R.RINGST_HEAD r) = (next + 1) % ringSize d r % 2 ^ 16))) ∧
      (ringRuns d r = true → ringMgmt d r = false → ringTx d r = false → ringHasDesc d r = true → d.descs = [] → d.copies = [c] → c.queue = q →
        d.txs = [] → getFrame d c.frame = some f → f.tail = true → f.status = 0 → own = true → bucketNegative filled L.CEIL_DEF (ceilBurst d) = false →
        (∀ x < 2, d.get (L.RING_POS (x + 1)) = r.val + 1 ∧ d.get (L.RING_VISIT (x + 1)) = 1 ∧ f.plain.length + 4 ≤ d.get (L.RING_DEFICIT r x)) →
        Yields (.rxRingDelivery ws) s fun e => e.copies = [] ∧ e.descs = [] ∧ e.get (R.RINGST_HEAD r) = (next + 1) % ringSize d r % 2 ^ 16 ∧
          (∀ x ∈ e.frames, x.id ≠ f.id) ∧
          moreBy 1 (R.RING_STATS r 0) e) ∧
      (ringRuns d r = true → ringMgmt d r = false → ringTx d r = true → ringHasDesc d r = true → ringTaken d r = [] →
        (own = true → txBad d words = false → s.power = .active → txTsReq words = false → txCdOp words = 0 →
          (∀ x ∈ d.copies, ∀ y, x.desc = some y → y.1 ≠ r.val) →
          Yields (.txDescriptorFetch r ws data) s fun e => ringTaken e r = [] ∧ d.serial < e.serial ∧
            e.get (R.RINGST_HEAD r) = (next + 1) % ringSize d r % 2 ^ 16 ∧ moreBy 1 (R.RING_STATS r 0) e ∧ moreBy (txLen words) (R.RING_STATS r 1) e) ∧
        (own = true → txBad d words = false → s.power ≠ .active →
          Yields (.txDescriptorFetch r ws data) s fun e => ringTaken e r = [] ∧ e.frames = d.frames ∧
            e.get (R.RINGST_HEAD r) = (next + 1) % ringSize d r % 2 ^ 16) ∧
        (own = true → txBad d words = true →
          Yields (.txDescriptorFetch r ws data) s fun e => ringTaken e r = [] ∧ e.frames = d.frames ∧ e.copies = d.copies ∧
            e.get (R.RINGST_HEAD r) = (next + 1) % ringSize d r % 2 ^ 16 ∧
            moreBy 1 (R.RING_STATS r 4) e) ∧
        (own = false →
          Completes (.txDescriptorFetch r ws data) s [R.RINGST_ERROR r] [0xB] fun e => e.get (R.RINGST_ERROR r) = 1 ∧ e.evt 0xB 0 = true)) ∧
      (d.get (L.RING_STOPPING n) = 1 → ringTaken d n = [] → (∀ x ∈ d.copies, x.queue ≠ 4096 + n.val) →
        Becomes (.ringStop n) s { d with descs := d.descs.filter fun x => x.ring != n.val } [L.RING_STOPPING n] [] fun e =>
          e.get (L.RING_STOPPING n) = 0)) ∧
    (s.live 8 = true →
      let reserve (j : Nat) : Nat := if j = cl.val then v.toNat else d.get (R.CLASS_RESERVE j)
      let total := sumBelow (fun j => if j < 2 then max 10 (reserve j) else reserve j) 16
      (100 < v.toNat → NoEffect (.classReserveWrite cl v) s) ∧
      (v.toNat ≤ 100 → total ≤ 100 →
        Yields (.classReserveWrite cl v) s fun e => e.get (R.CLASS_RESERVE cl) = v.toNat ∧ e.get R.PUNT_STATUS_RESERVE_REFUSED = 0) ∧
      (v.toNat ≤ 100 → 100 < total →
        Completes (.classReserveWrite cl v) s [R.PUNT_STATUS_RESERVE_REFUSED] [] fun e => e.get R.PUNT_STATUS_RESERVE_REFUSED = 1))

/-- R124, R340, R342, R363 and R365. -/
def Obligations.CoreRows : Prop :=
  ∀ (s : State) (core : Fin 4) (addr : BitVec 64) (write v up an : Bool) (bytes : List Byte) (viol : Nat), s.frozen = false →
    let d := s.d
    let a := addr.toNat
    let words (n : Nat) : List Nat := (Crypto.chunked 4 (memBytes d (ringBase d n + 32 * ringNext d n) 32)).map leVal
    let inSram (b k : Nat) : Prop := sramBase ≤ b ∧ b + k ≤ sramBase + sramSize
    let ready (n : Nat) : Prop := d.get (ringErrorF n) = 0 ∧ ringEnabled d n = true ∧ ringHasDesc d n = true ∧ ringTaken d n = [] ∧
      inSram (ringBase d n + 32 * ringNext d n) 32 ∧ bitAt ((words n).getD 7 0) 31 = true
    let buffer (n : Nat) : Nat := (words n).getD 0 0 + (words n).getD 1 0 * 2 ^ 32
    (coreRegion a 1 = none → ¬ inSram a 1 → ¬ (dramBase ≤ a ∧ a < dramBase + dramSize d) →
      Becomes (.accessFault core addr write) s (d.emit (.mem core a none))
        [R.ACCESS_FAULTS, R.ACCESS_FAULT_ADDR, R.ACCESS_FAULT_INFO_CORE, R.ACCESS_FAULT_INFO_VALID] [8] fun e =>
        e.get R.ACCESS_FAULT_INFO_VALID ≠ 0 ∧ e.evt 8 16 = true ∧
        (d.get R.ACCESS_FAULT_INFO_VALID = 0 → e.get R.ACCESS_FAULT_ADDR = a ∧ e.get R.ACCESS_FAULT_INFO_CORE = core.val)) ∧
    (Completes (.msipWrite core v) s [L.MSIP core, L.CORE_WAIT] [] fun e =>
      e.get (L.MSIP core) = b2n v ∧ (v = true → bitAt (e.get L.CORE_WAIT) core = false)) ∧
    (d.get (L.MTIMECMP core) ≤ d.cyc → Completes (.machineTimerInterrupt core) s [L.MTIP core] [] fun e => e.get (L.MTIP core) = 1) ∧
    (d.cyc < d.get (L.MTIMECMP core) → NoEffect (.machineTimerInterrupt core) s) ∧
    (m0Runs d = true →
      (Completes (.mgmt0LinkChange up an) s [R.MGMT0_STATUS_LINK, R.MGMT0_STATUS_AN_DONE] [8] fun e =>
        e.get R.MGMT0_STATUS_LINK = b2n up ∧ (up = false → e.get R.MGMT0_STATUS_AN_DONE = 0) ∧
        (d.get R.MGMT0_STATUS_LINK = b2n (!up) → e.evt 8 12 = true)) ∧
      (d.get R.MGMT0_STATUS_LINK = 1 →
        (ringHasDesc d 128 = false → Completes (.mgmt0RxFrame bytes false viol) s [R.MGMT0_CODE_VIOL] [] fun e =>
          d.get (L.PAGE_FREEZE 8) = 0 → viol ≠ 0 → e.get R.MGMT0_CODE_VIOL = min (d.get R.MGMT0_CODE_VIOL + viol) (2 ^ R.MGMT0_CODE_VIOL.w - 1)) ∧
        (ready 128 → 64 ≤ bytes.length → bytes.length - 4 ≤ ringBufSize d 128 →
          Crypto.fcs (bytes.take (bytes.length - 4)) = bytes.drop (bytes.length - 4) → inSram (buffer 128) (bytes.length - 4) →
          (buffer 128 + (bytes.length - 4) ≤ ringBase d 128 + 32 * ringNext d 128 ∨ ringBase d 128 + 32 * ringNext d 128 + 32 ≤ buffer 128) →
          Yields (.mgmt0RxFrame bytes false 0) s fun e => ringTaken e 128 = [] ∧
            e.get (L.M0_HEAD 0) = (ringNext d 128 + 1) % ringSize d 128 % 2 ^ 16 ∧ memBytes e (buffer 128) (bytes.length - 4) = bytes.take (bytes.length - 4)) ∧
        (ringHasDesc d 129 = false → NoEffect .mgmt0TxDescriptor s) ∧
        (ready 129 → 60 ≤ txLen (words 129) → txLen (words 129) ≤ 15996 → txTsReq (words 129) = false → txCdOp (words 129) = 0 →
          inSram (buffer 129) (txLen (words 129)) →
          let body := memBytes d (buffer 129) (txLen (words 129))
          Yields .mgmt0TxDescriptor s fun e => ringTaken e 129 = [] ∧ e.out = d.out ++ [.frame 256 d.time (body ++ Crypto.fcs body)] ∧
            (d.lines.length = 3 → (e.line 2).queue = (d.line 2).queue ++ mgmtChars (body ++ Crypto.fcs body)) ∧
            e.get (L.M0_HEAD 1) = (ringNext d 129 + 1) % ringSize d 129 % 2 ^ 16))) ∧
    (∀ (i : Fin 3) (rd : Bool) (b : Byte), decodeChar i rd (encodeChar rd (.data b)).1 = some (.data b) ∧
      codeDisparity rd (encodeChar rd (.data b)).1 = (encodeChar rd (.data b)).2) ∧
    (∀ (i : Fin 3) (rd : Bool), ∀ b ∈ (if i.val < 2 then belayCodes else mgmtCodes), decodeChar i rd (encodeChar rd (.k b)).1 = some (.k b) ∧
      codeDisparity rd (encodeChar rd (.k b)).1 = (encodeChar rd (.k b)).2) ∧
    (∀ (i : Fin 2) (rd : Bool) (p : Nat × Nat), p ∈ kTable → BitVec.ofNat 8 p.1 ∉ belayCodes →
      decodeChar i rd (encodeChar rd (.k (BitVec.ofNat 8 p.1))).1 = none) ∧
    (∀ (i : Fin 3) (rd : Bool) (c : Nat) (r : List Nat), decodeChar i rd c = none →
      decodeLine i rd (c :: r) = (.k k307 :: (decodeLine i (codeDisparity rd c) r).1, (decodeLine i (codeDisparity rd c) r).2 + 1)) ∧
    (∀ (t : LineTx) (refill : LineTx → LineTx) (bs : List Byte),
      belayReceive t.rd (lineSends refill (bs.length + 2) { t with queue := belayChars bs }).1 = ([.frame bs false], 0)) ∧
    (∀ (n : Nat) (x y z : LineChar) (r : List LineChar), belayItems (n + 1) none (.k k280 :: x :: y :: z :: r) = belayItems n none r) ∧
    (∀ t : LineTx, (lineRefill false t).queue = idleSet t.rd ∧ (t.idles < 18 → (lineRefill true t).queue = idleSet t.rd) ∧
      (t.idles = 18 → (lineRefill true t).queue.head? = some (.k k280) ∧ (lineRefill true t).queue.length = 4))

/-- R367 to R369 and R373. -/
def Obligations.BootRomRows : Prop :=
  ∀ (s : State) (p q : FlashImage) (gib : Fin 33), s.frozen = false →
    let d := s.d
    let tried := [R.BOOT_ATTEMPTS, R.MGMT_STATUS_CORE_RUN, L.CORE_WAIT, L.ROM_RUN]
    let measured := tried ++ [R.MGMT_STATUS_DRAM_GIB, R.EXTEND_COUNT, R.ASCENT_TYPE 0, R.ASCENT_TYPE 1, L.ASCENT_DIGEST 0, L.ASCENT_DIGEST 1] ++
      (List.range 12).map R.ASCENT_LOG
    let started := measured ++ [R.ASCENT_TYPE 2, L.ASCENT_DIGEST 2, R.IMAGE_INFO_SVN, R.IMAGE_INFO_KEY_SLOT, L.COMMIT_SVN, R.BOOT_STATUS_STAGE, L.ROM_CLOSED]
    let first (e : Dev) : Prop := e.get R.BOOT_ATTEMPTS = min 65535 (d.get R.BOOT_ATTEMPTS + 1) ∧ e.get R.MGMT_STATUS_CORE_RUN = 15
    let logged (e : Dev) : Prop := first e ∧ e.get R.MGMT_STATUS_DRAM_GIB = gib.val ∧ e.get (R.ASCENT_TYPE 0) = 1 ∧ e.get (R.ASCENT_TYPE 1) = 2 ∧
      e.get (L.ASCENT_DIGEST 0) = Config.romId % 2 ^ 384
    let runs (f : FlashImage) (e : Dev) : Prop := logged e ∧ e.get R.EXTEND_COUNT = 3 ∧ e.get (R.ASCENT_TYPE 2) = 3 ∧
      e.get (L.ASCENT_DIGEST 2) = beVal (Crypto.sha384 (bytesAt f.header 0 192)) % 2 ^ 384 ∧ e.get R.IMAGE_INFO_SVN = hdr f.header 7 1 % 2 ^ 8 ∧
      e.get R.BOOT_STATUS_STAGE = 1
    let c1 := headerCause s p
    let c2 := headerCause s q
    (d.get L.ROM_RUN = 0 ∨ d.tick = 0 ∨ d.get L.VAULT_TESTED = 0 → NoEffect (.bootRom p q gib) s) ∧
    (d.get L.ROM_RUN = 1 → d.get R.MGMT_STATUS_RESTARTING = 0 → d.get L.TB_RUN = 1 → d.tick ≠ 0 → d.get L.VAULT_TESTED = 1 →
      (s.run = .booting →
        (lcOdd s.otp ≠ 0 → Completes (.bootRom p q gib) s tried [] first) ∧
        (lcOdd s.otp = 0 → lcInterrupted s.otp d = none → d.get R.LC_STATE ≠ lcScrapped → d.get (R.ROOT_VALID 0) = 1 →
          d.get R.PENDING_EVIDENCE = 0 → d.get R.EXTEND_COUNT = 0 →
          (c1 = 0 → Becomes (.bootRom p q gib) s (sramLoad d (imageCopy p)) started [] (runs p)) ∧
          (c1 ≠ 0 → c2 = 0 →
            Becomes (.bootRom p q gib) s (sramLoad d (imageCopy q)) (started ++ [R.BOOT_STATUS_FAIL_PRIMARY, R.BOOT_STATUS_ALT_IMAGE]) [0xD] fun e =>
              runs q e ∧ e.get R.BOOT_STATUS_FAIL_PRIMARY = c1 % 16 ∧ e.get R.BOOT_STATUS_ALT_IMAGE = 1 ∧ e.evt 0xD 9 = true) ∧
          (c1 ≠ 0 → c2 ≠ 0 →
            Completes (.bootRom p q gib) s (measured ++ [R.BOOT_STATUS_FAIL_PRIMARY, R.BOOT_STATUS_FAIL_SECONDARY, R.BOOT_STATUS_STAGE]) [] fun e =>
              logged e ∧ e.get R.EXTEND_COUNT = 2 ∧ e.get R.BOOT_STATUS_FAIL_PRIMARY = c1 % 16 ∧ e.get R.BOOT_STATUS_FAIL_SECONDARY = c2 % 16 ∧
              e.get R.BOOT_STATUS_STAGE = 3))) ∧
      (s.run ≠ .booting → c1 = 0 →
        (beVal (Crypto.sha384 (bytesAt p.header 0 192)) = d.get (L.ASCENT_DIGEST 2) →
          Becomes (.bootRom p q gib) s (sramLoad d (imageCopy p)) [L.ROM_RUN, L.ROM_CLOSED] [] fun e => e.get L.ROM_CLOSED = 1) ∧
        (beVal (Crypto.sha384 (bytesAt p.header 0 192)) ≠ d.get (L.ASCENT_DIGEST 2) →
          Becomes (.bootRom p q gib) s (sramLoad d (imageCopy p)) [L.ROM_RUN, R.BOOT_STATUS_FAIL_PRIMARY] [0xD] fun e =>
            e.get R.BOOT_STATUS_FAIL_PRIMARY = 10 ∧ e.evt 0xD 9 = true)))

/-- R372 to R381. -/
def Obligations.RecordCommandRows : Prop :=
  ∀ (s : State) (i : Fin 4), s.live 0xD = true →
    let d := s.d
    let id := slotId 0xD i
    let arg (j : Nat) := d.get (L.SLOT_ARG id j) % 2 ^ 32
    let root := if d.get R.LC_STATE = lcOwned then 1 else 0
    let n := arg 0 + arg 1 * 2 ^ 32
    let count := d.get R.BOOT_COUNT + 1
    let body := recordBody s.otp d count
    let mac := Crypto.hmac384 (attestKey d labelRecord) body
    let nonce := ((drbgOf d 1).generate 32).1
    let answer := responseBody s.run d ((wordField arg 0 7).take 32) nonce
    let buf := (List.range 64).map (R.RECORD_BUF i)
    let ends (c : Instr) (code detail : Nat) : Prop := Completes c s (slotFields id) [0xD] fun e =>
      e.get (L.SLOT_CODE id) = code ∧ e.get (L.SLOT_RESULT id 0) = detail ∧ e.evt 0xD i = true
    (slotActive d id = true → NoEffect (.ascentExtend i) s ∧ NoEffect (.bootComplete i) s ∧ NoEffect (.recordRead i) s ∧ NoEffect (.challenge i) s) ∧
    (slotActive d id = false →
      (i.val < 2 → ends (.ascentExtend i) codeAttr 0 ∧ ends (.bootComplete i) codeAttr 0) ∧
      (2 ≤ i.val →
        (arg 0 % 256 < 0x10 → ends (.ascentExtend i) codeArg 0) ∧
        (0x10 ≤ arg 0 % 256 →
          (s.run ≠ .booting ∨ d.get R.BOOT_STATUS_STAGE = 2 → ends (.ascentExtend i) codeState 2) ∧
          (s.run = .booting → d.get R.BOOT_STATUS_STAGE ≠ 2 →
            (64 ≤ d.get R.EXTEND_COUNT → ends (.ascentExtend i) codeState 1) ∧
            (d.get R.EXTEND_COUNT < 64 →
              Completes (.ascentExtend i) s (slotFields id ++ (List.range 12).map R.ASCENT_LOG ++
                  [R.ASCENT_TYPE (d.get R.EXTEND_COUNT), L.ASCENT_DIGEST (d.get R.EXTEND_COUNT), R.EXTEND_COUNT]) [0xD] fun e =>
                e.get (L.SLOT_CODE id) = codeOk ∧ e.get (L.SLOT_RESULT id 0) = d.get R.EXTEND_COUNT + 1 ∧
                e.get R.EXTEND_COUNT = d.get R.EXTEND_COUNT + 1 ∧
                ∀ j < 12, e.get (R.ASCENT_LOG j) =
                  (stringWords (Crypto.sha384 (ascentLog d ++ beBytes 1 (arg 0 % 256) ++ (wordField arg 1 12).take 48)) 12).getD j 0 % 2 ^ 32))) ∧
        (s.run ≠ .booting → ends (.bootComplete i) codeState 2) ∧
        (s.run = .booting →
          (s.anchors ≠ 1023 → ends (.bootComplete i) codeState 3) ∧
          (s.anchors = 1023 → d.get R.VAULT_STATUS_SELFTEST_PASS = 0 → ends (.bootComplete i) codeState 7) ∧
          (s.anchors = 1023 → d.get R.VAULT_STATUS_SELFTEST_PASS = 1 → d.get (R.ROOT_VALID root) = 0 → ends (.bootComplete i) codeState 9) ∧
          (s.anchors = 1023 → d.get R.VAULT_STATUS_SELFTEST_PASS = 1 → d.get (R.ROOT_VALID root) = 1 → d.get R.BOOT_STATUS_STAGE = 1 →
            d.get L.ZERO_KEYS = 0 → d.get L.ZERO_MEM = 0 →
            (d.get L.COMMIT_SVN = 0 ∨ d.get R.IMAGE_INFO_SVN ≤ otpRollback s.otp →
              Defers (.bootComplete i) s (.bootSeal i) (slotFields id) fun e => e.get (L.SLOT_CODE id) = codeRunning) ∧
            (d.get L.COMMIT_SVN = 1 → otpRollback s.otp < d.get R.IMAGE_INFO_SVN →
              ∃ t, exec (.bootComplete i) s = .next t ∧ t.run = s.run ∧ t.otp = otpThermo s.otp 0x090 (d.get R.IMAGE_INFO_SVN) ∧
                t.d.posted = d.posted ++ [(d.tick, .bootSeal i)] ∧ t.d.get (L.SLOT_CODE id) = codeRunning ∧ t.d.evt 0xD 24 = true ∧
                t.d.get R.BOOT_STATUS_ROLLBACK_ADVANCED = 1)))) ∧
      (d.get R.RECORDS_HELD = 0 ∨ n < d.get R.RECORD_FIRST ∨ d.get R.BOOT_COUNT < n → ends (.recordRead i) codeArg 1) ∧
      (0 < d.get R.RECORDS_HELD → d.get R.RECORD_FIRST ≤ n → n ≤ d.get R.BOOT_COUNT →
        Completes (.recordRead i) s (slotFields id ++ buf) [0xD] fun e => e.get (L.SLOT_CODE id) = codeOk ∧
          ∀ j < 64, e.get (R.RECORD_BUF i j) = (stringWords (beBytes 256 (d.get (L.RECORD (n % 64)))) 64).getD j 0 % 2 ^ 32) ∧
      (s.run.attests = false → ends (.challenge i) codeState 2) ∧
      (s.run.attests = true →
        (d.get (R.ROOT_VALID root) = 0 → ends (.challenge i) codeState 9) ∧
        (d.get (R.ROOT_VALID root) = 1 →
          (d.get R.VAULT_STATUS_DRBG_STATE ≠ drbgReady → ends (.challenge i) codeState 4) ∧
          (d.get R.VAULT_STATUS_DRBG_STATE = drbgReady → d.get (L.DRBG_GEN 1) < 2 ^ 20 →
            Completes (.challenge i) s (slotFields id ++ buf ++ [L.DRBG_KEY 1, L.DRBG_VAL 1, L.DRBG_GEN 1, R.DRBG_REQUESTS]) [0xD] fun e =>
              e.get (L.SLOT_CODE id) = codeOk ∧ e.get (L.SLOT_READ_ONCE id) = 8 ∧ e.get (L.DRBG_GEN 1) = d.get (L.DRBG_GEN 1) + 1 ∧
              (∀ j < 8, e.get (L.SLOT_RESULT id j) = (stringWords nonce 8).getD j 0 % 2 ^ 32) ∧
              ∀ j < 64, e.get (R.RECORD_BUF i j) =
                (stringWords (answer ++ Crypto.hmac384 (attestKey d labelChallenge) answer) 64).getD j 0 % 2 ^ 32)))) ∧
    (d.get (L.SLOT_CODE id) = codeRunning → d.get (L.SLOT_OPCODE id) = 2 →
      (s.run.stopped = true ∨ d.get L.ZERO_KEYS = 1 → ActsSo (.bootSeal i) s fun e =>
        e.get (L.SLOT_CODE id) = codeAbortedAlarm ∧ e.get R.BOOT_COUNT = d.get R.BOOT_COUNT ∧ e.get L.LAST_MAC = d.get L.LAST_MAC) ∧
      (s.run = .booting → d.get L.ZERO_KEYS = 0 → d.get L.ZERO_MEM = 0 →
        let t := postedAct s (.bootSeal i)
        t.pending = s.pending ∧ t.power = s.power ∧ t.anchors = s.anchors ∧ t.otp = s.otp ∧
          (t.run = if d.get L.CONTAIN_AT_BOOT = 0 then .active else .contained) ∧
          t.d.get (L.SLOT_CODE id) = codeOk ∧ t.d.evt 0xD 8 = true ∧ t.d.get R.BOOT_COUNT = count % 2 ^ 64 ∧
          t.d.get L.LAST_MAC = beVal mac % 2 ^ 384 ∧ t.d.get (L.RECORD (count % 64)) = beVal (body ++ mac) % 2 ^ 2048))

/-- R384 to R392, R404 and R410. -/
def Obligations.AlarmReportRows : Prop :=
  ∀ (s : State) (n : Fin 64) (on : Option Bool) (glitch : Bool) (machine : Fin 32) (v : Word) (key : BitVec 16),
    let d := s.d
    let level := if n.val < 19 then L.BCA_LEVEL else L.AL_LEVEL
    let pulse := if n.val < 19 then L.BCA_PULSE else L.AL_PULSE
    let fsm := n.val = 18 ∨ n.val = 51
    let fs := [level, pulse, R.FSM_FAULT_MACHINE, R.FSM_FAULT_VALID, R.OTP_FAULTS]
    let log := let i := (d.get R.LOG_SEQ_NEWEST + 1) % 128
      [R.LOG_SEQ_NEWEST, R.ALOG_SOURCE i, R.ALOG_KIND i, R.ALOG_SEVERITY i, R.ALOG_RESPONSE i, R.ALOG_BATTERY i, R.ALOG_VALID i, R.ALOG_TIME_NS i,
        R.ALOG_TIME_SEC i, R.ALOG_BC_COUNT i, R.ALOG_SEQ i]
    let kind (e : Dev) (k : Nat) : Prop := e.get (R.ALOG_KIND ((d.get R.LOG_SEQ_NEWEST + 1) % 128)) = k
    let sev := bitsOf v.toNat 0 3
    let floor := bitsOf v.toNat 4 3
    let fits (x : Nat) : Prop := alarmLowest n ≤ x ∧ x ≤ alarmHighest n
    (alarmOutside n = false ∨ (s.power = .baseCampOnly ∧ 19 ≤ n.val) → NoEffect (.alarmCondition n on glitch machine) s) ∧
    (alarmOutside n = true → (n.val < 19 ∨ s.power ≠ .baseCampOnly) →
      (bitAt (d.get level) n = true → Completes (.alarmCondition n (some false) glitch machine) s [level, pulse] [] fun e =>
        bitAt (e.get level) n = false ∧ bitAt (e.get pulse) n = true) ∧
      (bitAt (d.get level) n = false → NoEffect (.alarmCondition n (some false) glitch machine) s) ∧
      (on ≠ some false →
        (alarmEnabled d n glitch = false → NoEffect (.alarmCondition n on glitch machine) s) ∧
        (fsm → fsmMachine n machine = false → NoEffect (.alarmCondition n on glitch machine) s) ∧
        (alarmEnabled d n glitch = true → (fsm → fsmMachine n machine = true) →
          Completes (.alarmCondition n on glitch machine) s fs [6] fun e =>
            bitAt (e.get (if on = none then pulse else level)) n = true ∧
            (fsm → s.power ≠ .baseCampOnly → d.get R.FSM_FAULT_VALID = 0 → e.get R.FSM_FAULT_MACHINE = machine.val ∧ e.get R.FSM_FAULT_VALID = 1) ∧
            (n.val = 59 → e.evt 6 16 = true) ∧
            ∀ m < level.w, m ≠ n.val → bitAt (e.get level) m = bitAt (d.get level) m ∧ bitAt (e.get pulse) m = bitAt (d.get pulse) m))) ∧
    (alarmDisagree n = none → NoEffect (.detectorDisagreement n) s) ∧
    (∀ m, alarmDisagree n = some m →
      (n.val < 12 → alarmEnabled d n false = false → NoEffect (.detectorDisagreement n) s) ∧
      (m = 17 → (n.val < 12 → alarmEnabled d n false = true) → Completes (.detectorDisagreement n) s [L.BCA_PULSE] [] fun e => bitAt (e.get L.BCA_PULSE) 17 = true) ∧
      (m ≠ 17 → s.power ≠ .baseCampOnly → Completes (.detectorDisagreement n) s [L.AL_PULSE] [] fun e => bitAt (e.get L.AL_PULSE) m = true)) ∧
    (s.live 7 = true →
      (Completes (.zeroizeRequest 0x5A5A) s [L.AL_PULSE] [] fun e => bitAt (e.get L.AL_PULSE) 61 = true) ∧
      (key ≠ 0x5A5A → NoEffect (.zeroizeRequest key) s) ∧
      (d.get R.PRESENCE_STATUS_ASSERTED = 0 →
        ∀ c ∈ [Instr.bcCfgWrite v, .bcBattZeroizeWrite v], Completes c s [R.BC_CFG_REFUSED] [7] fun e => e.evt 7 6 = true ∧
          (d.get (L.PAGE_FREEZE 7) = 0 → e.get R.BC_CFG_REFUSED = min (d.get R.BC_CFG_REFUSED + 1) (2 ^ R.BC_CFG_REFUSED.w - 1))) ∧
      (d.get R.PRESENCE_STATUS_ASSERTED = 1 →
        (Completes (.bcCfgWrite v) s (log ++ [R.BC_CFG_MESH_EN, R.BC_CFG_CASE_EN, R.BC_CFG_CASE_LEVEL, L.BCA_LEVEL, L.BCA_PULSE]) [7] fun e =>
          kind e 3 ∧ e.get R.BC_CFG_MESH_EN = v.toNat % 16 ∧ e.get R.BC_CFG_CASE_EN = v.toNat / 2 ^ 4 % 2 ^ 8 ∧
          e.get R.BC_CFG_CASE_LEVEL = v.toNat / 2 ^ 12 % 2 ^ 8 ∧
          ∀ j < 12, bitAt (e.get L.BCA_LEVEL) j = (bitAt (d.get L.BCA_LEVEL) j && bitAt v.toNat j &&
            (decide (j < 4) || bitAt v.toNat (j + 8) == bitAt (d.get R.BC_CFG_CASE_LEVEL) (j - 4)))) ∧
        Completes (.bcBattZeroizeWrite v) s (R.BC_BATT_ZEROIZE :: log) [7] fun e => kind e 3 ∧ e.get R.BC_BATT_ZEROIZE = v.toNat % 2 ^ 19) ∧
      (Completes (.alarmCfgWrite n v) s [R.ALARM_CFG_SEVERITY n, R.ALARM_CFG_FLOOR n, R.ANCHORED_WRITES] [0] fun e =>
        (fits sev → e.get (R.ALARM_CFG_SEVERITY n) = sev) ∧
        (¬ fits sev → e.get (R.ALARM_CFG_SEVERITY n) = d.get (R.ALARM_CFG_SEVERITY n)) ∧
        (s.anchors.getLsbD 4 = false → fits floor → e.get (R.ALARM_CFG_FLOOR n) = floor) ∧
        (s.anchors.getLsbD 4 = true ∨ ¬ fits floor → e.get (R.ALARM_CFG_FLOOR n) = d.get (R.ALARM_CFG_FLOOR n)) ∧
        (s.anchors.getLsbD 4 = true → floor ≠ d.get (R.ALARM_CFG_FLOOR n) → e.evt 0 0 = true))) ∧
    (s.power ≠ .baseCampOnly →
      (d.get R.PRESENCE_STATUS_ASSERTED = 1 → NoEffect .presenceAsserted s) ∧
      (d.get R.PRESENCE_STATUS_ASSERTED = 0 → Completes .presenceAsserted s [R.PRESENCE_STATUS_ASSERTED, R.PRESENCE_STATUS_RAW_LOW] [6] fun e =>
        e.get R.PRESENCE_STATUS_ASSERTED = 1 ∧ e.get R.PRESENCE_STATUS_RAW_LOW = 1 ∧ e.evt 6 12 = true) ∧
      (d.get R.LC_STATUS_PHASE = 0 → Yields .presenceWithdrawn s fun e =>
        e.get R.PRESENCE_STATUS_ASSERTED = 0 ∧ e.get R.PRESENCE_STATUS_RAW_LOW = 0 ∧
        (d.get R.PRESENCE_STATUS_ASSERTED = 1 → e.evt 6 12 = true) ∧
        (∀ c < 8, d.get (L.SLOT_CODE (vId c)) = codeRunning → d.get (L.V_NEEDS c) = 1 → e.get (L.SLOT_CODE (vId c)) = codePresence)))

/-- R393 to R402. `flushDue`: the waiting writes act behind the alarms of their tick (R83). -/
def Obligations.AlarmRecordRows : Prop :=
  ∀ (s : State),
    let d := s.d
    let act := alarmSample d
    let prev := (d.get R.ALARM_ACTIVE) / 2 ^ 19 * 2 ^ 19 ||| d.get L.BCA_ACTIVE
    let new := act ^^^ (act &&& prev)
    let recs := alarmOrder (alarmEff d) new
    let resp := topSeverity recs
    let bact := d.get L.BCA_LEVEL ||| d.get L.BCA_PULSE
    let bnew := bact ^^^ (bact &&& d.get L.BCA_ACTIVE)
    let brecs := alarmOrder (battEff d) bnew
    let logged (e : Dev) (batt : Bool) (rs : List (Nat × Nat)) (r : Nat) : Prop :=
      e.get R.LOG_SEQ_NEWEST = d.get R.LOG_SEQ_NEWEST + rs.length ∧
      ∀ k < rs.length, let i := (d.get R.LOG_SEQ_NEWEST + k + 1) % 128
        e.get (R.ALOG_SOURCE i) = (rs.getD k (0, 0)).1 ∧ e.get (R.ALOG_SEVERITY i) = (rs.getD k (0, 0)).2 ∧ e.get (R.ALOG_RESPONSE i) = r ∧
        e.get (R.ALOG_KIND i) = 0 ∧ e.get (R.ALOG_BATTERY i) = b2n batt
    let stuck (e : Dev) (m : Nat) : Prop := ∀ n < 64, alarmEff d n ≤ 4 → bitAt (e.get R.STICKY) n = (bitAt (d.get R.STICKY) n || (bitAt m n && !alarmReserved n))
    (battery s = true → exec .alarmRecord s = .next s.flushDue) ∧
    (battery s = false → NoEffect .batteryAlarmRecord s) ∧
    (battery s = false → d.get L.TB_RUN = 1 → d.tick ≠ 0 → d.get R.LOG_SEQ_NEWEST < 2 ^ 63 →
      (recs = [] → ∃ e : Dev, exec .alarmRecord s = .next (s.setDev e).flushDue ∧
        d.OnlyChanges e [R.ALARM_ACTIVE, L.BCA_ACTIVE, L.AL_PULSE, L.BCA_PULSE, L.AL_NEW] [] ∧
        e.get R.ALARM_ACTIVE = act % 2 ^ 64 ∧ e.get L.BCA_ACTIVE = act % 2 ^ 19 ∧ e.get L.AL_PULSE = 0 ∧ e.get L.BCA_PULSE = 0) ∧
      (recs ≠ [] → ∃ t : State, exec .alarmRecord s = .next t.flushDue ∧ t.pending = s.pending ∧ t.power = s.power ∧ t.anchors = s.anchors ∧
        (resp < 3 ∨ d.get R.LC_STATUS_PHASE = 0 → t.otp = s.otp) ∧
        t.d.get R.ALARM_ACTIVE = act % 2 ^ 64 ∧ t.d.get L.BCA_ACTIVE = act % 2 ^ 19 ∧ t.d.get L.BCA_PULSE = 0 ∧
        stuck t.d new ∧ logged t.d false recs resp ∧
        (∀ n < 64, alarmEff d n ≤ 4 → bitAt (t.d.get R.ALARM_LATCH) n = (bitAt (d.get R.ALARM_LATCH) n || (bitAt new n && !alarmReserved n))) ∧
        (1 ≤ resp → t.d.evt 7 0 = true) ∧
        (resp < 2 → t.run = s.run) ∧
        (resp = 2 → t.run = (if s.run = .active then .contained else s.run) ∧ (s.run = .booting → t.d.get L.CONTAIN_AT_BOOT = 1) ∧
          (s.run = .active → t.d.evt 7 1 = true)) ∧
        (resp = 3 → t.run = (if s.run = .active ∨ s.run = .contained ∨ (s.run = .booting ∧ d.get L.ZERO_KEYS = 0 ∧ d.get L.ZERO_MEM = 0) then .halted
          else s.run)) ∧
        (resp = 4 → t.run = (if s.run = .active ∨ s.run = .contained then .zeroized else s.run) ∧ t.d.get R.ZEROIZE_STATUS_ACTIVE = 1 ∧
          t.d.get L.ZERO_KEYS = 1 ∧ t.d.get L.ZERO_MEM = 1 ∧ t.d.get R.DEBUG_STATUS_LANE_OPEN = 0 ∧
          (∀ c < 4, pendingOf t.d c = if recs.any (fun r => r.2 == 4 && alarmClass r.1 == some c) then min 127 (pendingOf d c + 1) else pendingOf d c)) ∧
        (2 ≤ resp → ∀ c < 8, slotActive d (vId c) = true → t.d.get (L.SLOT_CODE (vId c)) = codeAbortedAlarm))) ∧
    (battery s = true → d.get R.LOG_SEQ_NEWEST < 2 ^ 63 →
      (brecs = [] → Completes .batteryAlarmRecord s [L.BCA_ACTIVE, L.BCA_PULSE] [] fun e => e.get L.BCA_ACTIVE = bact % 2 ^ 19 ∧ e.get L.BCA_PULSE = 0) ∧
      (brecs ≠ [] → Yields .batteryAlarmRecord s fun e =>
        stuck e bnew ∧ logged e true brecs (topSeverity brecs) ∧ e.get L.BCA_ACTIVE = bact % 2 ^ 19 ∧ e.get R.ALARM_LATCH = d.get R.ALARM_LATCH ∧
        (∀ pg < 256, ∀ b < 32, e.evt pg b = d.evt pg b) ∧
        (topSeverity brecs = 4 → ∀ i < 64, e.get (R.ROOT_VALID i) = 0 ∧ e.get (L.ROOT_KEY i) = 0) ∧
        (topSeverity brecs < 4 → ∀ i < 64, e.get (R.ROOT_VALID i) = d.get (R.ROOT_VALID i))))

/-- R371, R396, R397, R400, R401 and R403. -/
def Obligations.AlarmClearRows : Prop :=
  ∀ (s : State) (half : Fin 2) (bits : Word) (key : BitVec 16) (tsa : Fin 16384) (rsa : Fin 65536) (k : Fin 1024),
    let d := s.d
    let same (t : State) : Prop := t.pending = s.pending ∧ t.power = s.power ∧ t.anchors = s.anchors ∧ t.otp = s.otp
    let on (n : Nat) : Bool := bitAt (bits.toNat * 2 ^ (32 * half.val)) n
    let due (c : Nat) : Bool := decide (pendingOf d c ≠ 0) || targetStored d c
    let target (c : Nat) : Nat := if targetStored d c then d.get (L.EV_TARGET c) else min 127 (otpTamper s.otp c + pendingOf d c)
    (s.power ≠ .baseCampOnly →
      (d.get L.ZERO_KEYS = 0 → NoEffect .zeroizeKeysClear s) ∧
      (d.get L.ZERO_KEYS = 1 → ∃ t, exec .zeroizeKeysClear s = .next t ∧ same t ∧
        (t.run = if s.run = .booting ∧ d.get L.ZERO_MEM = 0 then .alarmHold else s.run) ∧
        t.d.get L.ZERO_KEYS = 0 ∧ t.d.get R.ZEROIZE_STATUS_KEYS_CLEAR = 1 ∧
        t.d.get (R.SLOT_STATE k) = vsEmpty ∧ (d.get (R.SLOT_STATE k) ≠ vsEmpty → t.d.get (L.VKEY k) = 0) ∧
        (∀ i < 64, t.d.get (R.ROOT_VALID i) = 0 ∧ t.d.get (L.ROOT_KEY i) = 0) ∧
        saState t.d false tsa = saEmpty ∧ saState t.d true rsa = saEmpty ∧
        (∀ j < 2, t.d.get (L.DRBG_KEY j) = 0 ∧ t.d.get (L.DRBG_VAL j) = 0) ∧ t.d.get R.VAULT_STATUS_DRBG_STATE = 0 ∧
        t.d.get L.ROPE_KEY = 0 ∧ t.d.get R.ROPE_STATUS_KEY_PRESENT = 0 ∧
        (∀ r < 8, d.get (R.RANGE_CTRL_MODE r) ≠ 0 → t.d.get (R.RANGE_STATUS_STATE r) = rangeOff)) ∧
      (d.get L.ZERO_MEM = 0 → NoEffect .zeroizeMemoryClear s) ∧
      (d.get L.ZERO_MEM = 1 → ∃ t, exec .zeroizeMemoryClear s = .next t ∧ same t ∧
        (t.run = if s.run = .booting ∧ d.get L.ZERO_KEYS = 0 then .alarmHold else s.run) ∧
        t.d.sram = [] ∧ t.d.frames = [] ∧ t.d.copies = [] ∧ t.d.get L.ZERO_MEM = 0 ∧ t.d.get R.ZEROIZE_STATUS_MEMORY_CLEAR = 1 ∧
        t.d.get R.BUF_STATUS_ZERO_FILL = 0) ∧
      (∃ t, exec .evidenceOtpCommit s = .next t ∧ t.pending = s.pending ∧ t.power = s.power ∧ t.anchors = s.anchors ∧ t.run = s.run ∧
        (t.otp = (List.range 4).foldl (fun o c => if due c then otpThermo o (0x098 + 4 * c) (target c) else o) s.otp) ∧
        t.d.get R.PENDING_EVIDENCE = 0 ∧ t.d.get R.TAMPER_COUNT = otpTamperWord t.otp % 2 ^ 32) ∧
      (d.get L.TB_RUN = 1 →
        (d.tickTime % fineSec = 0 →
          Completes .bcTimeRefCapture s [R.BC_TIME_REF_REF_SEC, R.BC_TIME_REF_REF_COUNT, R.BC_TIME_REF_TIME_SET] [] fun e =>
            e.get R.BC_TIME_REF_REF_SEC = secOf d.tickTime % 2 ^ 48 ∧ e.get R.BC_TIME_REF_REF_COUNT = d.get R.BC_COUNT % 2 ^ 48 ∧
            e.get R.BC_TIME_REF_TIME_SET = d.get R.TB_STATUS_TIME_SET % 2) ∧
        (d.tickTime % fineSec ≠ 0 → NoEffect .bcTimeRefCapture s))) ∧
    (s.live 7 = true →
      (key ≠ 0x5245 → NoEffect (.containRelease key) s) ∧
      (s.run = .contained → containSource d (d.get R.ALARM_LATCH ||| d.get R.ALARM_ACTIVE) = false →
        ∃ t, exec (.containRelease 0x5245) s = .next t ∧ same t ∧ t.run = .active ∧ t.d.get R.RELEASE_STATUS_CODE = codeOk ∧ t.d.evt 7 2 = true ∧
          t.d.get R.LOG_SEQ_NEWEST = (d.get R.LOG_SEQ_NEWEST + 1) % 2 ^ 64 ∧ t.d.get (R.ALOG_KIND ((d.get R.LOG_SEQ_NEWEST + 1) % 128)) = 2) ∧
      (s.run ≠ .contained ∨ containSource d (d.get R.ALARM_LATCH ||| d.get R.ALARM_ACTIVE) = true →
        Completes (.containRelease 0x5245) s [R.RELEASE_STATUS_CODE] [7] fun e => e.get R.RELEASE_STATUS_CODE = codeState ∧ e.evt 7 3 = true) ∧
      (Completes (.alarmLatchClear half bits) s [R.ALARM_LATCH] [] fun e => ∀ n < 64,
        bitAt (e.get R.ALARM_LATCH) n = (bitAt (d.get R.ALARM_LATCH) n && (!on n || bitAt (d.get R.ALARM_ACTIVE) n))) ∧
      Yields (.stickyClear half bits) s fun e =>
        (∀ n < 64, bitAt (e.get R.STICKY) n = (bitAt (d.get R.STICKY) n &&
          !(on n && !alarmReserved n && d.get R.PRESENCE_STATUS_ASSERTED == 1 && !bitAt (d.get R.ALARM_ACTIVE) n))) ∧
        ((∀ n < 64, on n = true → alarmReserved n = true) → e = d) ∧
        ((∃ n, n < 64 ∧ on n = true ∧ alarmReserved n = false ∧ (d.get R.PRESENCE_STATUS_ASSERTED = 0 ∨ bitAt (d.get R.ALARM_ACTIVE) n = true)) →
          e.evt 7 6 = true))

/-- R406 and R411 to R418. -/
def Obligations.LifeCycleRows : Prop :=
  ∀ (s : State) (t : Fin 8) (key : BitVec 16) (i : Fin 1024),
    let d := s.d
    let src := d.get R.LC_STATE
    let tgt := d.get L.LC_TARGET
    let ends (code detail : Nat) : Prop := Acts (.lifeCycle t) s d
      [R.LC_STATUS_CODE, R.LC_STATUS_DETAIL, R.LC_STATUS_PHASE, R.LC_LAST_FROM, R.LC_LAST_TO, R.LC_LAST_CODE] [6] fun e =>
        e.get R.LC_STATUS_CODE = code ∧ e.get R.LC_STATUS_DETAIL = detail % 16 ∧ e.get R.LC_STATUS_PHASE = 0 ∧ e.get R.LC_LAST_TO = t.val ∧
        e.get R.LC_LAST_CODE = code ∧ e.get R.LC_LAST_FROM = src % 8 ∧ e.evt 6 5 = true
    let moves (c : Instr) (otp : List (Nat × Nat)) (post : Dev → Prop) : Prop :=
      ∃ e, exec c s = .next { s with otp := otp, d := e } ∧ post e
    (s.live 6 = true →
      (key ≠ 0x4C43 ∨ d.get R.LC_STATUS_PHASE ≠ 0 → NoEffect (.lcTransition t key) s) ∧
      (d.get R.LC_STATUS_PHASE = 0 → exec (.lcTransition t 0x4C43) s = .next (s.setDev (d.post (.lifeCycle t))))) ∧
    ((d.get R.LC_STATUS_PHASE ≠ 0 → postedAct s (.lifeCycle t) = s) ∧
      (d.get R.LC_STATUS_PHASE = 0 →
        (3 ≤ alarmDue s → ends codeAbortedAlarm 0) ∧
        (alarmDue s < 3 →
          (t.val = 0 ∨ 5 < t.val → ends codeArg 0) ∧
          (1 ≤ t.val → t.val ≤ 5 →
            (lcPermitted src t = false → ends codeState 1) ∧
            (lcPermitted src t = true →
              (∀ x, lcCondition s src t = some x → ends codeState x) ∧
              (lcCondition s src t = none →
                (lcNeedsPresence src t = true → d.get R.PRESENCE_STATUS_ASSERTED = 0 → ends codePresence 0) ∧
                (lcNeedsPresence src t = false ∨ d.get R.PRESENCE_STATUS_ASSERTED = 1 →
                  Acts (.lifeCycle t) s d
                    [R.LC_STATUS_CODE, R.LC_STATUS_DETAIL, R.LC_STATUS_PHASE, L.LC_TARGET, L.LC_AT, L.LC_STOP] [6] fun e =>
                    e.get R.LC_STATUS_CODE = codeRunning ∧ e.get R.LC_STATUS_PHASE = 1 ∧ e.get L.LC_TARGET = t.val ∧ e.evt 6 4 = true))))))) ∧
    (s.power ≠ .baseCampOnly →
      (d.get R.LC_STATUS_PHASE = 0 ∨ d.get L.LC_STOP = 1 →
        NoEffect .lcIntentCommitted s ∧ NoEffect .lcWipeDone s ∧ NoEffect .lcInstallDone s ∧ NoEffect .lcTransitionComplete s) ∧
      (d.get L.LC_STOP = 0 →
        (d.get R.LC_STATUS_PHASE = 1 ∨ d.get R.LC_STATUS_PHASE = 2 →
          moves .lcIntentCommitted (otpBlow s.otp (lcIntent tgt).1 (lcIntent tgt).2) fun e =>
            e.get R.LC_STATUS_PHASE = 3 ∧ d.OnlyChanges e [R.LC_STATUS_PHASE, R.LC_LAST_CODE] [] ∧
            e.get R.LC_LAST_CODE = (if lcRefused d tgt then codeRunning else d.get R.LC_LAST_CODE)) ∧
        (d.get R.LC_STATUS_PHASE = 3 →
          moves .lcWipeDone s.otp fun e => e.get R.LC_STATUS_PHASE = 4 ∧ e.sram = [] ∧ e.frames = [] ∧
            e.get (R.SLOT_STATE i) = vsEmpty ∧ e.get L.ROPE_KEY = 0 ∧
            (∀ r < 64, r ≠ 0 → e.get (R.ROOT_VALID r) = 0 ∧ e.get (L.ROOT_KEY r) = 0) ∧
            (tgt ≠ 3 → e.get R.LC_STATUS_ENROLL_STAGED = 0) ∧
            (tgt = 5 → e.get R.STICKY = 0 ∧ e.get R.BOOT_COUNT = 0 ∧ e.get R.LOG_SEQ_NEWEST = 0 ∧ e.get (R.ROOT_VALID 0) = 0)) ∧
        (d.get R.LC_STATUS_PHASE = 4 →
          (tgt = 2 → moves .lcInstallDone s.otp fun e => e.get R.LC_STATUS_PHASE = 5 ∧ e.get (R.ROOT_VALID 0) = 1 ∧ e.get (R.ROOT_ORIGIN 0) = 1 ∧
            e.get (L.ROOT_KEY 0) = vendorKey s.otp (beBytes 8 (otpBig s.otp 0x040 2)) % 2 ^ 256) ∧
          (tgt = 3 → d.get R.LC_STATUS_ENROLL_STAGED = 0 → moves .lcInstallDone (otpBlow s.otp 0x080 12) fun e =>
            e.get R.LC_STATUS_PHASE = 5 ∧ e.get R.LC_LAST_ENROLL_LOST = 1) ∧
          (tgt = 3 → d.get R.LC_STATUS_ENROLL_STAGED = 1 → ∃ u, exec .lcInstallDone s = .next u ∧ u.run = s.run ∧ u.power = s.power ∧
            u.anchors = s.anchors ∧ u.pending = s.pending ∧ u.d.get R.LC_STATUS_PHASE = 5 ∧
            (u.d.get (R.ROOT_VALID 1) = 1 ∧
              (pkg (stagedBytes d) 6 1 = 0 → u.d.get (L.ROOT_KEY 1) = pkg (stagedBytes d) 40 32 % 2 ^ 256 ∧
                u.d.get R.ATTEST_KEY_ID = pkg (stagedBytes d) 24 4 % 2 ^ 32))) ∧
          (tgt = 4 → moves .lcInstallDone (if src = 3 then otpBlow s.otp 0x080 12 else s.otp) fun e => e.get R.LC_STATUS_PHASE = 5) ∧
          (tgt = 5 → ∃ u, exec .lcInstallDone s = .next u ∧ u.run = s.run ∧ u.power = s.power ∧ u.anchors = s.anchors ∧ u.pending = s.pending ∧
            u.d.get R.LC_STATUS_PHASE = 5 ∧ otpWord u.otp (i % 0x085) = 2 ^ 32 - 1)) ∧
        (d.get R.LC_STATUS_PHASE = 5 → ∃ u, exec .lcTransitionComplete s = .next u ∧
          u.run = .booting ∧ u.power = .standby ∧ u.anchors = 0 ∧ u.pending = s.pending ∧
          u.otp = otpBlow s.otp (lcComplete tgt).1 (lcComplete tgt).2 ∧ u.d.get L.RESET_CAUSE = 4 ∧ u.d.get R.LC_STATE = lcDecode u.otp)))

/-- R409, R419 to R427 and R430. -/
def Obligations.LifeCycleCommandRows : Prop :=
  ∀ (s : State) (i : Fin 4) (k : Fin 1024),
    let d := s.d
    let id := slotId 6 i
    let lc := d.get R.LC_STATE
    let arg (j : Nat) := d.get (L.SLOT_ARG id j) % 2 ^ 32
    let a0 := arg 0
    let bs := (lcBufBytes d i).take a0
    let shape := pkgShape bs a0
    let cls := bitsOf (d.get L.CHAL) 464 8
    let nonce := ((drbgOf d 1).generate 32).1
    let drop := [R.DEBUG_STATUS_CHALLENGE_OUT, L.CHAL, L.CHAL_AT]
    let ends (c : Instr) (fs : List Fld) (code detail : Nat) : Prop := Completes c s (slotFields id ++ fs) [6] fun e =>
      e.get (L.SLOT_CODE id) = code ∧ e.get (L.SLOT_RESULT id 0) = detail ∧ e.evt 6 i = true ∧ ∀ f ∈ fs, e.get f = 0
    (s.live 6 = true →
      (slotActive d id = true → NoEffect (.otpProgram i) s ∧ NoEffect (.enrollLoad i) s ∧
        NoEffect (.debugChallenge i) s ∧ NoEffect (.debugRespond i) s) ∧
      (slotActive d id = false →
        (lc ≠ lcTest → ends (.otpProgram i) [] codeState 1) ∧
        (lc = lcTest → 0x067 < a0 → ends (.otpProgram i) [] codeArg 0) ∧
        (lc = lcTest → a0 ≤ 0x067 → ∃ t, exec (.otpProgram i) s = .next t ∧ t.run = s.run ∧ t.power = s.power ∧ t.anchors = s.anchors ∧
          t.pending = s.pending ∧ t.d.get (L.SLOT_CODE id) = codeOk ∧ otpWord t.otp a0 = (otpWord s.otp a0 ||| arg 1) % 2 ^ 32 ∧
          ∀ w < 0x200, w ≠ a0 → otpWord t.otp w = otpWord s.otp w) ∧
        (shape = false → ends (.enrollLoad i) [] codeArg 1) ∧
        (shape = true → pkg bs 8 8 ≠ d.get R.DEVICE_ID → ends (.enrollLoad i) [] codeArg 2) ∧
        (shape = true → pkg bs 8 8 = d.get R.DEVICE_ID → pkg bs 5 1 = 1 →
          (lc ≠ lcProvisioned ∨ d.get R.DEBUG_STATUS_FULL_OPEN = 1 → ends (.enrollLoad i) [] codeState 1) ∧
          (lc = lcProvisioned → d.get R.DEBUG_STATUS_FULL_OPEN = 0 →
            ((pkgOpen s.otp d bs).2 = false → ends (.enrollLoad i) [] codeIntegrity 1) ∧
            ((pkgOpen s.otp d bs).2 = true → pkgFieldsOk (pkgOpen s.otp d bs).1 (d.get R.OWNER_ID) = true →
              Completes (.enrollLoad i) s (slotFields id ++ [L.STAGED, L.STAGED_LEN, R.LC_STATUS_ENROLL_STAGED]) [6] fun e =>
                e.get (L.SLOT_CODE id) = codeOk ∧ e.get (L.SLOT_RESULT id 0) = 1 ∧ e.get R.LC_STATUS_ENROLL_STAGED = 1))) ∧
        (debugState d a0 = false → ends (.debugChallenge i) [] codeState 1) ∧
        (debugState d a0 = true → debugEnable d a0 = true →
          (d.get R.VAULT_STATUS_DRBG_STATE ≠ drbgReady → ends (.debugChallenge i) [] codeState 4) ∧
          (d.get R.VAULT_STATUS_DRBG_STATE = drbgReady →
            (8 ≤ d.get R.DEBUG_STATUS_FAILS → ends (.debugChallenge i) [] codeState 7) ∧
            (d.get R.DEBUG_STATUS_FAILS < 8 → d.get (L.DRBG_GEN 1) < 2 ^ 20 →
              Completes (.debugChallenge i) s (slotFields id ++ drop ++ (List.range 256).map (R.LC_BUF i) ++
                  [L.DRBG_KEY 1, L.DRBG_VAL 1, L.DRBG_GEN 1, R.DRBG_REQUESTS]) [6] fun e =>
                e.get (L.SLOT_CODE id) = codeOk ∧ e.get (L.SLOT_READ_ONCE id) = 8 ∧ e.get R.DEBUG_STATUS_CHALLENGE_OUT = 1 ∧
                e.get L.CHAL_AT = d.time % 2 ^ L.CHAL_AT.w ∧ bitsOf (e.get L.CHAL) 464 8 = a0 ∧
                ∀ j < 8, e.get (L.SLOT_RESULT id j) = (stringWords nonce 8).getD j 0 % 2 ^ 32))) ∧
        (d.get R.DEBUG_STATUS_CHALLENGE_OUT = 0 ∨ chalExpired d = true → ends (.debugRespond i) drop codeState 6) ∧
        (d.get R.DEBUG_STATUS_CHALLENGE_OUT = 1 → chalExpired d = false → debugState d cls = true → debugEnable d cls = true →
          (debugPresence d cls = true → d.get R.PRESENCE_STATUS_ASSERTED = 0 → ends (.debugRespond i) drop codePresence 0) ∧
          (debugPresence d cls = false ∨ d.get R.PRESENCE_STATUS_ASSERTED = 1 →
            ((wordField arg 0 11).take 48 ≠ chalAnswer s.otp d cls →
              Completes (.debugRespond i) s (slotFields id ++ drop ++ [R.DEBUG_FAILS, R.DEBUG_STATUS_FAILS]) [6] fun e =>
                e.get (L.SLOT_CODE id) = codeIntegrity ∧ e.get R.DEBUG_STATUS_CHALLENGE_OUT = 0 ∧ e.evt 6 9 = true ∧
                e.get R.DEBUG_STATUS_FAILS = min 8 (d.get R.DEBUG_STATUS_FAILS + 1)) ∧
            ((wordField arg 0 11).take 48 = chalAnswer s.otp d cls →
              (cls = 1 → Completes (.debugRespond i) s (slotFields id ++ drop ++ [R.DEBUG_STATUS_LANE_OPEN, L.DEBUG_SINCE]) [6] fun e =>
                e.get (L.SLOT_CODE id) = codeOk ∧ e.get R.DEBUG_STATUS_LANE_OPEN = 1 ∧ e.evt 6 8 = true) ∧
              (cls = 2 → Completes (.debugRespond i) s (slotFields id ++ drop ++ [L.FULL_WIPE]) [6] fun e =>
                e.get (L.SLOT_CODE id) = codeRunning ∧ e.get L.FULL_WIPE = i.val + 1)))))) ∧
    (s.power ≠ .baseCampOnly →
      (d.get R.DEBUG_STATUS_CHALLENGE_OUT = 1 →
        (d.get L.CHAL_AT + 120 * fineSec ≤ d.time → Completes .debugChallengeExpiry s drop [] fun e =>
          e.get R.DEBUG_STATUS_CHALLENGE_OUT = 0 ∧ e.get L.CHAL = 0) ∧
        (d.time < d.get L.CHAL_AT + 120 * fineSec → NoEffect .debugChallengeExpiry s)) ∧
      (d.get L.FULL_WIPE = 0 → NoEffect .fullDebugWipeDone s) ∧
      (d.get L.FULL_WIPE = i.val + 1 → Yields .fullDebugWipeDone s fun e =>
        e.get R.DEBUG_STATUS_FULL_OPEN = 1 ∧ e.get L.DEBUG_SINCE = 1 ∧ e.get L.FULL_WIPE = 0 ∧ e.evt 6 8 = true ∧
        e.get (L.SLOT_CODE id) = codeOk ∧ e.get (R.SLOT_STATE k) = vsEmpty ∧ e.sram = [] ∧ e.get R.LC_STATUS_ENROLL_STAGED = 0))

/-- R340, R435 and R444 to R451. -/
def Obligations.MemoryGuardRows : Prop :=
  ∀ (s : State) (r : Fin 8) (u : Fin 6) (a : BitVec 36) (n line page : Nat) (bs : List Byte) (e0 : MgReenc),
    let d := s.d
    let c := rangeCheck s.run d r
    let x := a.toNat - dramBase
    let mode := d.get (R.RANGE_CTRL_MODE r)
    let keys := [L.MG_KEY1 r, L.MG_KEY2 r, L.DRBG_KEY 0, L.DRBG_VAL 0, L.DRBG_GEN 0]
    let k1 := (drbgOf d 0).generate 32
    let inLine (len : Nat) : Prop := dramBase ≤ a.toNat ∧ x % 64 + len ≤ 64 ∧ 0 < len ∧ a.toNat + len ≤ dramBase + dramSize d ∧ (u = 5 → d.get R.DEBUG_STATUS_FULL_OPEN = 1)
    let inSram (len : Nat) : Prop := sramBase ≤ a.toNat ∧ a.toNat + len ≤ sramBase + sramSize
    let total := sumBelow (fun r => (scrubLines d r).1 + (scrubLines d r).2) 8
    let at' := d.get L.MG_SCRUB_LINE
    (s.live 9 = true →
      (d.get (R.RANGE_STATUS_STATE r) ≠ rangeOff → NoEffect (.rangeEnable r) s) ∧
      (d.get (R.RANGE_STATUS_STATE r) = rangeOff →
        Defers (.rangeEnable r) s (.rangeEnable r) [R.RANGE_CTRL_ENABLE r] fun e => e.get (R.RANGE_CTRL_ENABLE r) = 1)) ∧
    ((d.get (R.RANGE_STATUS_STATE r) ≠ rangeOff → postedAct s (.rangeEnable r) = s) ∧
      (d.get (R.RANGE_STATUS_STATE r) = rangeOff →
        (c ≠ codeOk → Acts (.rangeEnable r) s d [R.RANGE_STATUS_ENABLE_CODE r, R.POWER_ERRORS] [9] fun e =>
          e.get (R.RANGE_STATUS_ENABLE_CODE r) = c ∧ e.evt 9 1 = true) ∧
        (c = codeOk →
          (d.get R.MG_STATUS_ENGINE_GRANTED = 1 → d.get (L.DRBG_GEN 0) + 1 < 2 ^ 20 →
            Acts (.rangeEnable r) s d (keys ++ [R.RANGE_STATUS_ENABLE_CODE r, R.RANGE_STATUS_STATE r]) [] fun e =>
              e.get (R.RANGE_STATUS_STATE r) = rangeInit ∧ e.get (R.RANGE_STATUS_ENABLE_CODE r) = codeQueued ∧
              (mode = 0 → e.get (L.MG_KEY1 r) = 0 ∧ e.get (L.DRBG_GEN 0) = d.get (L.DRBG_GEN 0)) ∧
              (mode ≠ 0 → e.get (L.MG_KEY1 r) = beVal k1.1 % 2 ^ 256 ∧ e.get (L.DRBG_GEN 0) = d.get (L.DRBG_GEN 0) + 2)) ∧
          (d.get R.MG_STATUS_ENGINE_GRANTED = 0 → mode = 0 →
            Acts (.rangeEnable r) s
              (if arbPending d .memGuard then d else { d with waiting := d.waiting ++ [⟨reqMemGuard, 2, classA, .memGuard, d.cyc, false⟩] })
              (keys ++ [R.RANGE_STATUS_ENABLE_CODE r, R.RANGE_STATUS_STATE r]) [] fun e =>
              e.get (R.RANGE_STATUS_STATE r) = rangePending ∧ e.get (R.RANGE_STATUS_ENABLE_CODE r) = codeQueued)))) ∧
    (s.frozen = false →
      (d.get (R.RANGE_STATUS_STATE r) ≠ rangeInit → NoEffect (.rangeInitDone r) s) ∧
      (d.get (R.RANGE_STATUS_STATE r) = rangeInit → Yields (.rangeInitDone r) s fun e =>
        e.get (R.RANGE_STATUS_STATE r) = rangeActive ∧ e.get (R.RANGE_STATUS_ENABLE_CODE r) = codeOk ∧ e.evt 9 0 = true ∧
        Cells.find e.dram line =
          (if (d.get (R.RANGE_BASE r) - dramBase) / 64 ≤ line ∧ line < (d.get (R.RANGE_LIMIT r) - dramBase) / 64 then 0 else Cells.find d.dram line)) ∧
      (d.get R.DEBUG_STATUS_FULL_OPEN = 0 → exec (.memoryAccess 5 a n (some bs) []) s = .next (s.setDev (d.emit (.mem 5 a.toNat none)))) ∧
      ((u = 5 → d.get R.DEBUG_STATUS_FULL_OPEN = 1) →
        (0 < n → inSram n → exec (.memoryAccess u a n none []) s =
          .next (s.setDev (d.emit (.mem u a.toNat (some ((List.range n).map fun i => BitVec.ofNat 8 (Cells.find d.sram (a.toNat + i)))))))) ∧
        (0 < bs.length → inSram bs.length → Becomes (.memoryAccess u a n (some bs) []) s
          { d with sram := (List.zip (List.range bs.length) bs).foldl (fun c p => Cells.put c (a.toNat + p.1) p.2.toNat) d.sram,
                   out := d.out ++ [.mem u a.toNat (some [])] } [] [] fun _ => True)) ∧
      (inLine n →
        (mgMay d u false (dramBase + x / 64 * 64) = false → Becomes (.memoryAccess u a n none []) s (d.emit (.mem u a.toNat none))
          [R.MG_REFUSED, R.REFUSE_ADDR, R.REFUSE_INFO_MASTER, R.REFUSE_INFO_WRITE, R.REFUSE_INFO_VALID,
            R.ACCESS_FAULTS, R.ACCESS_FAULT_ADDR, R.ACCESS_FAULT_INFO_CORE, R.ACCESS_FAULT_INFO_VALID] [9, 8] fun e => e.evt 9 8 = true ∧
            (u.val < 4 → e.evt 8 16 = true) ∧
            (d.get R.REFUSE_INFO_VALID = 0 → e.get R.REFUSE_INFO_MASTER = u.val ∧ e.get R.REFUSE_INFO_WRITE = 0) ∧
            (d.get (L.PAGE_FREEZE 9) = 0 → e.get R.MG_REFUSED = min (d.get R.MG_REFUSED + 1) (2 ^ R.MG_REFUSED.w - 1))) ∧
        (mgMay d u false (dramBase + x / 64 * 64) = true → rangeOf d (dramBase + x / 64 * 64) = some r.val →
          (mode ≠ 2 → mgBusy d r (linePage d r (x / 64)) = false →
            exec (.memoryAccess u a n none []) s =
              .next (s.setDev (d.emit (.mem u a.toNat (some (bytesAt (lineBytes (Cells.find d.dram (x / 64))) (x % 64) n)))))) ∧
          (mode = 2 → Completes (.memoryAccess u a n none [(0, .macFails)]) s
            [R.HALT_RECORD_CAUSE, R.HALT_RECORD_LEVEL, R.HALT_RECORD_RANGE, R.HALT_RECORD_VALID, R.HALT_ADDR, R.HALT_TIME_NS, R.HALT_TIME_SEC,
              L.MG_HALT_TICK, L.AL_PULSE] [] fun e => bitAt (e.get L.AL_PULSE) 55 = true ∧
              (d.get L.MG_HALT_TICK ≠ d.tick + 1 → e.get R.HALT_RECORD_CAUSE = 1 ∧ e.get R.HALT_RECORD_RANGE = r.val ∧ e.get R.HALT_RECORD_VALID = 1 ∧
                e.get R.HALT_ADDR = x / 64 * 64)))) ∧
      (inLine bs.length →
        (mgMay d u true (dramBase + x / 64 * 64) = false → Yields (.memoryAccess u a n (some bs) []) s fun e =>
          e.dram = d.dram ∧ e.evt 9 8 = true ∧ e.out = d.out ++ [.mem u a.toNat none]) ∧
        (mgMay d u true (dramBase + x / 64 * 64) = true → rangeOf d (dramBase + x / 64 * 64) = some r.val → mode < 2 →
          Yields (.memoryAccess u a n (some bs) []) s fun e =>
            e = { d with dram := e.dram, out := e.out } ∧
            Cells.find e.dram line = if line = x / 64 then mergeLine (Cells.find d.dram line) (x % 64) bs else Cells.find d.dram line)) ∧
      (d.mgReenc.find? (fun y => y.range == r.val && y.page == page) = none → NoEffect (.reencryptStep r page none) s) ∧
      (d.mgReenc.find? (fun y => y.range == r.val && y.page == page) = some e0 →
        (e0.done < 7 → Yields (.reencryptStep r page none) s fun e =>
          e = { d with mgReenc := e.mgReenc, out := e.out } ∧ e.out.length = d.out.length + 8 ∧
          e.mgReenc = d.mgReenc.map fun y => if y.range = r.val ∧ y.page = page then { y with done := y.done + 1 } else y) ∧
        (7 ≤ e0.done → d.mgPending = [] → Yields (.reencryptStep r page none) s fun e =>
          mgGetMajor e r page = mgGetMajor d r page + 1 ∧ mgGetMinor e ((d.get (R.RANGE_BASE r) - dramBase) / 64 + 64 * page + n % 64) = 0 ∧
          e.mgReenc = d.mgReenc.filter (fun y => !(y.range == r.val && y.page == page)) ∧ e.dram = d.dram)) ∧
      (d.get R.MG_CTRL_SCRUB_EN = 0 ∨ total = 0 → NoEffect (.scrubRead none) s) ∧
      (d.get R.MG_CTRL_SCRUB_EN = 1 → total ≠ 0 →
        (at' + 1 < total → Completes (.scrubRead none) s [R.MG_STATUS_SCRUB_ACTIVE, L.MG_SCRUB_LINE] [] fun e =>
          e.get R.MG_STATUS_SCRUB_ACTIVE = 1 ∧ e.get L.MG_SCRUB_LINE = (at' + 1) % 2 ^ L.MG_SCRUB_LINE.w) ∧
        (total ≤ at' + 1 → Completes (.scrubRead none) s [R.MG_STATUS_SCRUB_ACTIVE, L.MG_SCRUB_LINE] [9] fun e =>
          e.get R.MG_STATUS_SCRUB_ACTIVE = 0 ∧ e.get L.MG_SCRUB_LINE = 0 ∧ e.evt 9 24 = true)))

/-- R459 to R466 and R478. -/
def Obligations.BelayLinkRows : Prop :=
  ∀ (s : State) (b : Fin 2) (bs p : List Byte) (err : Bool) (viol : Nat),
    let d := s.d
    let hello := bs.drop 28
    let typ := beVal (bytesAt bs 0 1)
    let lost (e : Dev) : Prop := link e b = lkAlign ∧ e.get (L.B_TXKEY b) = 0 ∧ e.get (L.B_RXKEY b) = 0
    let fell (e : Dev) : Prop := lost e ∧ e.evt 0xA b = true ∧ e.get (L.B_HOPS b) = 255 ∧
      (d.get (L.PAGE_FREEZE 0xA) = 0 → e.get (R.BELAY_LINK_DOWNS b) = min (d.get (R.BELAY_LINK_DOWNS b) + 1) (2 ^ (R.BELAY_LINK_DOWNS b).w - 1))
    let open' : Prop := lineBusy d b = false ∧ ∀ w ∈ d.lineWait, w.port ≠ b.val
    let others := d.lineWait.filter (·.port != b.val)
    let sealed' (ok : Bool) : Prop := (Crypto.gcmOpen 32 (d.get (L.B_RXKEY b)) (beVal (bytesAt bs 8 8)) (bs.take 28) (bytesAt bs 28 (beVal (bytesAt bs 4 2)))
      (beVal (bytesAt bs (28 + beVal (bytesAt bs 4 2)) 16))).2 = ok
    (s.live 0xA = true →
      (d.get (L.PAGE_ENABLE 0xA) = 1 → link d b = lkOff → Completes (.belayEnable b true) s
        [R.BELAY_CTRL_ENABLE b, R.BELAY_STATUS_LINK b, L.B_AT b, L.B_TAGFAILS b] [] fun e => link e b = lkAlign ∧ e.get (R.BELAY_CTRL_ENABLE b) = 1) ∧
      (link d b ≠ lkUp → Becomes (.belayEnable b false) s (if link d b = lkOff then d else { d with lineWait := others }.lineMap b lineStop)
        (linkFields b ++ [R.BELAY_CTRL_ENABLE b, R.BELAY_STATUS_ADAPT_FROZEN b, R.BELAY_STATUS_LOW_RUN b]) [] fun e =>
        link e b = lkOff ∧ e.get (R.BELAY_CTRL_ENABLE b) = 0) ∧
      (link d b = lkUp → Yields (.belayEnable b false) s fun e => link e b = lkOff ∧ e.get (L.B_TXKEY b) = 0 ∧ e.evt 0xA b = true)) ∧
    (s.frozen = false →
      (link d b ≠ lkAlign → NoEffect (.belayAligned b) s) ∧
      (link d b = lkAlign → d.get L.ROPE_SILENT = 0 → d.get R.VAULT_STATUS_DRBG_STATE = drbgReady → d.get (L.DRBG_GEN 0) < 2 ^ 20 →
        Yields (.belayAligned b) s fun e => link e b = lkHello ∧ e.get (L.LINK_EPOCH b) = beVal ((drbgOf d 0).generate 8).1 % 2 ^ 64 ∧
          (open' → e.out = d.out ++ [.belay b (belayHeader 1 (ropePos d) 0 0 24 0 (d.get L.ORIGIN_EPOCH) 0 ++ helloPayload e b)]) ∧
          (¬ open' → e.out = d.out ∧ e.lineWait = d.lineWait ++ [⟨b, 1, ropePos d, 0, 0, d.get L.ORIGIN_EPOCH, 0, helloPayload e b⟩])) ∧
      (link d b = lkUp → Yields (.belayAlignLoss b) s fell) ∧
      (link d b ≠ lkUp → link d b ≠ lkOff → Becomes (.belayAlignLoss b) s ({ d with lineWait := others }.lineMap b lineAbort) (linkFields b) [] lost) ∧
      (link d b = lkOff → NoEffect (.belayAlignLoss b) s) ∧
      (link d b ≠ lkHello → link d b ≠ lkConfirm → NoEffect (.belayHelloTimer b) s) ∧
      (link d b = lkHello → d.get L.ROPE_SILENT = 0 → Yields (.belayHelloTimer b) s fun e => link e b = lkHello ∧
        (open' → e.out = d.out ++ [.belay b (belayHeader 1 (ropePos d) 0 0 24 0 (d.get L.ORIGIN_EPOCH) 0 ++ helloPayload d b)]) ∧
        (¬ open' → e.out = d.out ∧ e.lineWait.length = d.lineWait.length + 1)) ∧
      (link d b = lkConfirm → d.get L.ROPE_SILENT = 0 → Yields (.belayHelloTimer b) s fun e =>
        link e b = lkConfirm ∧ e.get (R.TX_COUNTER b) = d.get (R.TX_COUNTER b) ∧
        (open' → e.out.length = d.out.length + 1 ∧ e.lineWait.length = d.lineWait.length + 1) ∧
        (¬ open' → e.out = d.out ∧ e.lineWait.length = d.lineWait.length + 2)) ∧
      (typ ≠ 1 → NoEffect (.belayHello b bs err viol) s) ∧
      (lkHello ≤ link d b → d.get L.ROPE_SILENT = 0 →
        (bs.head? = some 1 → (err = true ∨ viol ≠ 0 ∨ belayFormOk bs = false ∨ belayPayloadOk 1 hello = false) →
          Completes (.belayHello b bs err viol) s [R.BELAY_FRAMES_RX b, R.BELAY_CODE_VIOL b, R.BELAY_FRAMES_DISCARDED b] [] fun e =>
            d.get (L.PAGE_FREEZE 0xA) = 0 →
              e.get (R.BELAY_FRAMES_DISCARDED b) = min (d.get (R.BELAY_FRAMES_DISCARDED b) + 1) (2 ^ (R.BELAY_FRAMES_DISCARDED b).w - 1)) ∧
        (belayKnown typ = false → Completes (.belayUnknownType b bs err viol) s [R.BELAY_FRAMES_RX b, R.BELAY_CODE_VIOL b, R.BELAY_FRAMES_DISCARDED b] [] fun e =>
            d.get (L.PAGE_FREEZE 0xA) = 0 →
              e.get (R.BELAY_FRAMES_DISCARDED b) = min (d.get (R.BELAY_FRAMES_DISCARDED b) + 1) (2 ^ (R.BELAY_FRAMES_DISCARDED b).w - 1)) ∧
        (bs.head? = some 1 → belayFormOk bs = true → belayPayloadOk 1 hello = true →
          (link d b = lkUp → Completes (.belayHello b bs false 0) s [R.BELAY_FRAMES_RX b] [] fun e => link e b = lkUp) ∧
          (link d b ≠ lkUp → helloConflict d hello = true → Completes (.belayHello b bs false 0) s
            [R.BELAY_FRAMES_RX b, L.B_PEER b, L.B_PEER_V b, R.PEER_DEVICE_ID b, R.BELAY_STATUS_PEER_ROLE b, R.BELAY_STATUS_PEER_POSITION b,
              R.BELAY_STATUS_CONFLICT b] [0xA] fun e =>
            e.get (R.BELAY_STATUS_CONFLICT b) = 1 ∧ e.evt 0xA 2 = true ∧ e.get (L.B_PEER b) = beVal hello % 2 ^ 192 ∧
            e.get (R.PEER_DEVICE_ID b) = beVal (bytesAt hello 0 8) % 2 ^ 64) ∧
          (link d b = lkHello → helloConflict d hello = false → d.get R.ROPE_STATUS_KEY_PRESENT = 0 →
            Yields (.belayHello b bs false 0) s fun e => link e b = lkHello ∧ e.get (R.BELAY_STATUS_CONFLICT b) = 0 ∧ e.out = d.out ∧
              e.get (L.B_PEER b) = beVal hello % 2 ^ 192) ∧
          (link d b = lkHello → helloConflict d hello = false → d.get R.ROPE_STATUS_KEY_PRESENT = 1 →
            Yields (.belayHello b bs false 0) s fun e => link e b = lkConfirm ∧
              (open' → e.out.length = d.out.length + 1 ∧ e.get (R.TX_COUNTER b) = 1) ∧
              (¬ open' → e.out = d.out ∧ e.get (R.TX_COUNTER b) = 0 ∧ e.lineWait.length = d.lineWait.length + 1) ∧
              e.get (L.B_TXKEY b) = belayKey d (d.get R.DEVICE_ID) b (d.get (L.LINK_EPOCH b)) % 2 ^ 256 ∧
              e.get (L.B_RXKEY b) = belayKey d (beVal (bytesAt hello 0 8)) (beVal (bytesAt hello 19 1)) (beVal (bytesAt hello 8 8)) % 2 ^ 256))) ∧
      (typ ≠ 2 → NoEffect (.belayConfirm b bs err viol) s) ∧
      (BelayPasses d b 2 bs p → link d b = lkConfirm →
        (beVal (bytesAt p 0 24) = d.get (L.B_PEER b) → beVal (bytesAt p 24 24) = d.get (L.B_HELLO b) → d.get (R.TX_COUNTER b) < 2 ^ 62 → d.ropeHeld = [] →
          Yields (.belayConfirm b bs false 0) s fun e => link e b = lkUp ∧ e.evt 0xA b = true) ∧
        (beVal (bytesAt p 0 24) ≠ d.get (L.B_PEER b) ∨ beVal (bytesAt p 24 24) ≠ d.get (L.B_HELLO b) →
          Completes (.belayConfirm b bs false 0) s (belayFields b) [] fun e => e.get (L.B_RXCTR b) = beVal (bytesAt bs 8 8))) ∧
      (bs.head? = some 2 → lkConfirm ≤ link d b → d.get L.ROPE_SILENT = 0 → belayFormOk bs = true →
        (sealed' false → d.get (L.B_TAGFAILS b) < 2 → Completes (.belayConfirm b bs false 0) s
          [R.BELAY_FRAMES_RX b, R.BELAY_AUTH_FAILS b, L.B_TAGFAILS b] [0xA] fun e => e.evt 0xA 3 = true ∧ e.get (L.B_TAGFAILS b) = d.get (L.B_TAGFAILS b) + 1) ∧
        (sealed' false → d.get (L.B_TAGFAILS b) = 2 → link d b = lkUp → Yields (.belayConfirm b bs false 0) s fell) ∧
        (sealed' true → beVal (bytesAt bs 8 8) ≤ d.get (L.B_RXCTR b) → Completes (.belayConfirm b bs false 0) s
          [R.BELAY_FRAMES_RX b, R.BELAY_REPLAY_DROPS b, L.B_TAGFAILS b] [] fun e => d.get (L.PAGE_FREEZE 0xA) = 0 →
            e.get (R.BELAY_REPLAY_DROPS b) = min (d.get (R.BELAY_REPLAY_DROPS b) + 1) (2 ^ (R.BELAY_REPLAY_DROPS b).w - 1))) ∧
      (link d b = lkConfirm → d.get (L.B_AT b) + 10000000 ≤ d.cyc → Becomes (.belayConfirmTimeout b) s ({ d with lineWait := others }.lineMap b lineAbort) (linkFields b) [] lost) ∧
      (link d b ≠ lkConfirm ∨ d.cyc < d.get (L.B_AT b) + 10000000 → NoEffect (.belayConfirmTimeout b) s) ∧
      (link d b = lkUp → d.get (L.TM_LAST b) + 30000 ≤ d.cyc → Yields (.belayMarkerTimeout b) s fell) ∧
      (link d b ≠ lkUp ∨ d.cyc < d.get (L.TM_LAST b) + 30000 → NoEffect (.belayMarkerTimeout b) s))

/-- R471 to R473. -/
def Obligations.BelayTimeRows : Prop :=
  ∀ (s : State) (b : Fin 2) (off ago : Nat) (mseq : Byte) (bs p : List Byte) (err : Bool) (viol : Nat), s.frozen = false →
    let d := s.d
    let n := d.time / (10000 * fineNs)
    let q := d.get (L.TM_MSEQ b)
    let now := d.time / 2 ^ 32
    let mine := d.get (L.TM_TXT b (beVal (bytesAt p 1 1)))
    let pair : Prop := d.get (L.TM_RXV b) = 1 ∧ d.get (L.TM_RXSEQ b) = beVal (bytesAt p 0 1) ∧ bitAt (beVal (bytesAt p 3 1)) 1 = true ∧ mine ≠ 0
    let out : Int := (d.get (L.TM_RXT b) : Int) - (belayTimeOf (bytesAt p 4 12) : Nat)
    let twice : Int := out + ((belayTimeOf (bytesAt p 16 12) : Nat) - (mine - 1 : Nat))
    let sum : Int := toSigned 160 (d.get (L.B_DSUM b)) + twice
    let z : Int := (2 * out - twice) / 2 - toSigned 32 (d.get (R.BELAY_ASYM b))
    (link d b ≠ lkUp ∨ d.get L.ROPE_SILENT = 1 ∨ d.get (L.TM_TXN b) = n + 1 → NoEffect (.belayTimeMarkerTx b off) s) ∧
    (link d b = lkUp → d.get L.ROPE_SILENT = 0 → d.get (L.TM_TXN b) ≠ n + 1 → d.get (R.TX_COUNTER b) < 2 ^ 63 → q < 256 →
      Yields (.belayTimeMarkerTx b off) s fun e =>
        e.out.take (d.out.length + 1) = d.out ++ [.marker b q] ∧ e.get (L.TM_MSEQ b) = (q + 1) % 256 ∧
        e.get (L.TM_TXT b q) = (n * 10000 * 65536 + off % 104858 + 1) % 2 ^ (L.TM_TXT b q).w ∧
        (lineBusy d b = false → (∀ w ∈ d.lineWait, w.port ≠ b.val) →
          e.out.length = d.out.length + 2 ∧ e.get (R.TX_COUNTER b) = d.get (R.TX_COUNTER b) + 1) ∧
        (lineBusy d b = true ∨ (∃ w ∈ d.lineWait, w.port = b.val) →
          e.out.length = d.out.length + 1 ∧ e.lineWait.length = d.lineWait.length + 1)) ∧
    (link d b ≠ lkUp ∨ d.get L.ROPE_SILENT = 1 → NoEffect (.belayTimeMarkerRx b mseq ago) s) ∧
    (link d b = lkUp → d.get L.ROPE_SILENT = 0 →
      Becomes (.belayTimeMarkerRx b mseq ago) s (if ago ≤ now then d else { d with freeCtr := d.freeCtr + 1 })
        [L.TM_RXSEQ b, L.TM_RXT b, L.TM_RXV b, L.TM_LAST b] [] fun e =>
        e.get (L.TM_RXSEQ b) = mseq.toNat ∧ e.get (L.TM_RXV b) = 1 ∧ (ago ≤ now → e.get (L.TM_RXT b) = (now - ago) % 2 ^ (L.TM_RXT b).w)) ∧
    (bs.head? ≠ some 3 → NoEffect (.belayTime b bs err viol) s) ∧
    (BelayPasses d b 3 bs p → link d b = lkUp → foreignLead d b = false →
      (isMember d = false → (¬ pair ∨ d.get (L.B_DN b) < 63) →
        Completes (.belayTime b bs false 0) s (belayFields b ++ [L.B_HOPS b, L.B_DSUM b, L.B_DN b]) [] fun e =>
          e.get (L.B_HOPS b) = beVal (bytesAt p 2 1) ∧
          (pair → e.get (L.B_DSUM b) = ofSigned 160 sum ∧ e.get (L.B_DN b) = d.get (L.B_DN b) + 1) ∧
          (¬ pair → e.get (L.B_DSUM b) = d.get (L.B_DSUM b) ∧ e.get (L.B_DN b) = d.get (L.B_DN b))) ∧
      (isMember d = false → pair → d.get (L.B_DN b) = 63 → 0 ≤ sum → sum / 128 < 2 ^ 32 →
        Completes (.belayTime b bs false 0) s (belayFields b ++ [L.B_HOPS b, L.B_DSUM b, L.B_DN b, R.LINK_DELAY b]) [] fun e =>
          e.get (R.LINK_DELAY b) = (sum / 128).toNat ∧ e.get (L.B_DN b) = 0) ∧
      (isMember d = true → Yields (.belayTime b bs false 0) s fun e =>
        e.get (L.B_HOPS b) = beVal (bytesAt p 2 1) ∧
        (e.get R.ROPE_STATUS_UPSTREAM = if leadTime e 1 && (!leadTime e 0 || decide (e.get (L.B_HOPS 1) ≤ e.get (L.B_HOPS 0))) then 2
          else if leadTime e 0 then 1 else 0) ∧
        (e.get R.ROPE_STATUS_UPSTREAM = 0 → e.get R.ROPE_STATUS_HOPS_FROM_LEAD = 255) ∧
        (e.get R.ROPE_STATUS_UPSTREAM = b.val + 1 → e.get R.ROPE_STATUS_HOPS_FROM_LEAD = (e.get (L.B_HOPS b) + 1) % 256 ∧
          (pair → z.natAbs < 2 ^ 31 → e.get R.TIME_OFFSET = ofSigned 32 z))))

/-- R456 to R458, R464 to R470, R478, R479 and R484. -/
def Obligations.RopeFormationRows : Prop :=
  ∀ (s : State) (b : Fin 2) (i : Fin 8) (slot : Fin 4) (v : Word) (bs p : List Byte) (err : Bool) (viol : Nat),
    let d := s.d
    let st := ropeState d
    let id := slotId 0xA slot
    let key := d.get (L.SLOT_ARG id 0) % 1024
    let valid := sumBelow (fun j => if d.on (R.MEMBER_VALID j) then 2 ^ j else 0) 8 &&& 0xFE
    let o := belayOrigin bs
    let pos := beVal (bytesAt p 8 1)
    let ident := beVal (bytesAt p 0 8)
    let wrong := pos = 0 ∨ 7 < pos ∨ bitAt (ropeExpected d) pos = false ∨ (d.get (R.MEMBER_VALID pos) = 1 ∧ d.get (R.MEMBER_DEVICE_ID pos) ≠ ident)
    let listed := bitAt (beVal (bytesAt p 0 1)) (ropePos d) = true ∧ beVal (bytesAt p (4 + 8 * ropePos d) 8) = d.get R.DEVICE_ID
    let lead := beVal (bytesAt p 4 8)
    let ends (code detail : Nat) : Prop := Completes (.ropeKeyInstall slot) s (slotFields id) [0xA] fun e =>
      e.get (L.SLOT_CODE id) = code ∧ e.get (L.SLOT_RESULT id 0) = detail ∧ e.evt 0xA (24 + slot) = true
    (s.live 0xA = true →
      (st ≠ rpIdle → Completes (.ropeCfgWrite v) s [R.ROPE_CFG_REMOTE_ALLOW, R.ROPE_STATUS_CFG_REFUSED] [] fun e =>
        e.get R.ROPE_STATUS_CFG_REFUSED = 1 ∧ e.get R.ROPE_CFG_REMOTE_ALLOW = b2n (bitAt v.toNat 24)) ∧
      (st = rpIdle → Yields (.ropeCfgWrite v) s fun e =>
        e.get R.ROPE_CFG_ROLE = (if v.toNat % 4 = 3 then d.get R.ROPE_CFG_ROLE else v.toNat % 4) ∧ e.get R.ROPE_CFG_POSITION = v.toNat / 16 % 8 ∧
        e.get R.ROPE_CFG_TOPOLOGY = v.toNat / 256 % 2 ∧ e.get R.ROPE_CFG_EXPECTED_MASK = v.toNat / 2 ^ 16 % 256 ∧
        e.get R.ROPE_CFG_REMOTE_ALLOW = b2n (bitAt v.toNat 24) ∧ e.get R.ROPE_STATUS_CFG_REFUSED = 0) ∧
      (st ≠ rpIdle ∨ (isLead d = false ∧ isMember d = false) → NoEffect .ropeCmdStart s) ∧
      (st = rpIdle → isLead d = true → (valid ||| 1) ≠ ropeExpected d → Becomes .ropeCmdStart s { d with freeCtr := d.freeCtr + 1 }
        [L.ORIGIN_EPOCH, L.ORIGIN_SEQ, R.ROPE_STATUS_STATE] [0xA] fun e => ropeState e = rpForming ∧ e.evt 0xA 8 = true ∧ e.get L.ORIGIN_SEQ = 0) ∧
      (st = rpIdle → isLead d = true → (valid ||| 1) = ropeExpected d → Yields .ropeCmdStart s fun e => ropeState e = rpFormed ∧ e.evt 0xA 8 = true ∧
        e.get R.ROPE_STATUS_MEMBERS = valid ||| 1) ∧
      (st = rpIdle → isMember d = true → Yields .ropeCmdStart s fun e => ropeState e = rpForming ∧ e.evt 0xA 8 = true ∧ e.get L.ORIGIN_SEQ = 1) ∧
      (BecomesBut .ropeCmdLeave s { d with ropeHeld := [] } (fun k => (decide (tblKey 0xA 0 0 ≤ k) && decide (k < tblKey 0xA 1 0)) ||
          keyOf [R.ROPE_STATUS_STATE, R.ROPE_STATUS_MEMBERS, L.LEAD_ID, L.ROPE_CONFLICT] k || eventKey 0xA k) fun e =>
        ropeState e = rpIdle ∧ e.get R.ROPE_STATUS_MEMBERS = 0 ∧ e.get (R.MEMBER_VALID i) = 0 ∧ (st ≠ rpIdle → e.evt 0xA 8 = true)) ∧
      (isLead d = false ∨ st ≠ rpForming → NoEffect .ropeCmdForceForm s) ∧
      (isLead d = true → st = rpForming → Yields .ropeCmdForceForm s fun e => ropeState e = rpFormed ∧ e.evt 0xA 8 = true ∧
        e.get R.ROPE_STATUS_MEMBERS = valid ||| 1 ∧ (bitAt valid i = true → e.get (R.MEMBER_STATE i) = 2)) ∧
      (slotActive d id = true → NoEffect (.ropeKeyInstall slot) s ∧ NoEffect (.ropeKeyErase slot) s) ∧
      (slotActive d id = false →
        (Yields (.ropeKeyErase slot) s fun e => e.get L.ROPE_KEY = 0 ∧ e.get R.ROPE_STATUS_KEY_PRESENT = 0 ∧ e.ropeHeld = [] ∧
          e.get (L.SLOT_CODE id) = codeOk ∧ link e b = (if link d b = lkOff then lkOff else lkAlign)) ∧
        (inRange d (slotMaster id).num key = false ∨ d.get (R.SLOT_TYPE key) ≠ tyRope → ends codeAttr 0) ∧
        (inRange d (slotMaster id).num key = true → d.get (R.SLOT_TYPE key) = tyRope →
          (d.get R.PRESENCE_STATUS_ASSERTED = 0 → s.run.stopped = false → ends codePresence 0) ∧
          (d.get R.PRESENCE_STATUS_ASSERTED = 1 → s.run.stopped = false →
            (vEmpty d key = true → ends codeState 1) ∧
            (vEmpty d key = false →
              (d.get (R.SLOT_USE_LIMIT key) = 0 → ends codeUseExhausted 0) ∧
              (d.get (R.SLOT_USE_LIMIT key) ≠ 0 →
                (vReserved d key = true → ends codeSlotBusy 0) ∧
                (vReserved d key = false → Yields (.ropeKeyInstall slot) s fun e =>
                  e.get (L.SLOT_CODE id) = codeOk ∧ e.get L.ROPE_KEY = beVal (slotKey d key) % 2 ^ 256 ∧ e.get R.ROPE_STATUS_KEY_PRESENT = 1 ∧
                  e.get (R.SLOT_STATE key) = vsEmpty ∧ link e b = (if link d b = lkOff then lkOff else lkAlign)))))))) ∧
    (s.frozen = false →
      (bs.head? ≠ some 0x10 → NoEffect (.belayAnnounce b bs err viol) s) ∧
      (RopeDelivers d b 0x10 bs p → isLead d = true →
        (st = rpIdle → Completes (.belayAnnounce b bs false 0) s (ropeFields b o) [] fun e => e.get (L.O_SEQ o) = beVal (bytesAt bs 20 8)) ∧
        (st ≠ rpIdle → wrong → Completes (.belayAnnounce b bs false 0) s (L.ROPE_CONFLICT :: ropeFields b o) [0xA] fun e =>
          e.get L.ROPE_CONFLICT = 1 ∧ e.evt 0xA 2 = true) ∧
        (st = rpForming → ¬ wrong → Yields (.belayAnnounce b bs false 0) s fun e =>
          e.get (R.MEMBER_VALID pos) = 1 ∧ e.get (R.MEMBER_DEVICE_ID pos) = ident ∧
          ropeState e = (if (valid ||| 2 ^ pos) ||| 1 = ropeExpected d then rpFormed else rpForming)) ∧
        (st = rpFormed ∨ st = rpDegraded → ¬ wrong → bitAt (d.get R.ROPE_STATUS_MEMBERS) pos = false → Yields (.belayAnnounce b bs false 0) s fun e =>
          e.get R.ROPE_STATUS_MEMBERS = (d.get R.ROPE_STATUS_MEMBERS ||| 2 ^ pos) % 2 ^ R.ROPE_STATUS_MEMBERS.w ∧ e.get (R.MEMBER_STATE pos) = 2 ∧
          e.evt 0xA 10 = true)) ∧
      (bs.head? ≠ some 0x11 → NoEffect (.belayFormed b bs err viol) s) ∧
      (RopeDelivers d b 0x11 bs p → isMember d = true → o = 0 →
        (st = rpForming → listed → Yields (.belayFormed b bs false 0) s fun e => ropeState e = rpFormed ∧ e.get L.LEAD_ID = lead % 2 ^ 64 ∧
          e.get R.ROPE_STATUS_MEMBERS = beVal (bytesAt p 0 1) ∧ e.get (R.MEMBER_VALID i) = b2n (bitAt (beVal (bytesAt p 0 1)) i) ∧
          e.get (R.MEMBER_DEVICE_ID i) = beVal (bytesAt p (4 + 8 * i) 8) ∧ e.evt 0xA 8 = true) ∧
        (st = rpForming → ¬ listed → Completes (.belayFormed b bs false 0) s (ropeFields b o) [] fun e => ropeState e = rpForming) ∧
        (st ≠ rpIdle → st ≠ rpForming → lead ≠ d.get L.LEAD_ID →
          Completes (.belayFormed b bs false 0) s (R.BELAY_FRAMES_DISCARDED b :: ropeFields b o) [] fun e => ropeState e = st)) ∧
      (bs.head? ≠ some 0x40 → NoEffect (.belayStatus b bs err viol) s) ∧
      (RopeDelivers d b 0x40 bs p → isLead d = true → st ≠ rpIdle →
        (d.get (R.MEMBER_VALID o) = 0 → Completes (.belayStatus b bs false 0) s (ropeFields b o) [] fun e => e.get (R.MEMBER_VALID o) = 0) ∧
        (d.get (R.MEMBER_VALID o) = 1 → Completes (.belayStatus b bs false 0) s (ropeFields b o ++
            [R.MEMBER_RUN_STATE o, R.MEMBER_HOLDOVER o, R.MEMBER_TIME_LOCKED o, R.MEMBER_OFFSET o, R.MEMBER_STICKY o, R.MEMBER_EVENT_SUMMARY o,
              R.MEMBER_LAST_SEEN_NS o, R.MEMBER_LAST_SEEN_SEC o, L.MEMBER_SEEN o]) [] fun e =>
          e.get (R.MEMBER_OFFSET o) = beVal (bytesAt p 4 4) % 2 ^ 32 ∧ e.get (R.MEMBER_STICKY o) = beVal (bytesAt p 8 8) % 2 ^ 64 ∧
          e.get (R.MEMBER_LAST_SEEN_NS o) = nsOf d.time ∧ e.get (L.MEMBER_SEEN o) = d.cyc % 2 ^ 64)) ∧
      (isMember d = true → st = rpForming ∨ st = rpLeadLost → d.get L.ORIGIN_SEQ < 2 ^ 63 → Yields .announceTimer s fun e =>
        ropeState e = st ∧ e.get L.ORIGIN_SEQ = d.get L.ORIGIN_SEQ + 1) ∧
      (isMember d = false ∨ st = rpIdle → NoEffect .announceTimer s) ∧
      (isMember d = true → st = rpForming ∨ st = rpFormed → d.get L.ORIGIN_SEQ < 2 ^ 63 → Yields .statusTimer s fun e =>
        ropeState e = st ∧ e.get L.ORIGIN_SEQ = d.get L.ORIGIN_SEQ + 1) ∧
      (isMember d = false ∨ st = rpIdle ∨ st = rpLeadLost → NoEffect .statusTimer s) ∧
      (isLead d = true → st = rpFormed ∨ st = rpDegraded → i.val ≠ 0 → bitAt (d.get R.ROPE_STATUS_MEMBERS) i = true →
        (d.get (L.MEMBER_SEEN i) + max 1 (d.get R.ROPE_CFG2_MEMBER_TIMEOUT) * 1000000 ≤ d.cyc → Yields (.memberTimeout i) s fun e =>
          ropeState e = rpDegraded ∧ bitAt (e.get R.ROPE_STATUS_MEMBERS) i = false ∧ e.get (R.MEMBER_STATE i) = 3 ∧ e.evt 0xA 9 = true) ∧
        (d.cyc < d.get (L.MEMBER_SEEN i) + max 1 (d.get R.ROPE_CFG2_MEMBER_TIMEOUT) * 1000000 → NoEffect (.memberTimeout i) s)) ∧
      (isMember d = true → st = rpFormed →
        (d.get L.LEAD_SEEN + max 1 (d.get R.ROPE_CFG2_LEAD_TIMEOUT) * 1000000 ≤ d.cyc → Completes .leadTimeout s [R.ROPE_STATUS_STATE] [0xA] fun e =>
          ropeState e = rpLeadLost ∧ e.evt 0xA 11 = true) ∧
        (d.cyc < d.get L.LEAD_SEEN + max 1 (d.get R.ROPE_CFG2_LEAD_TIMEOUT) * 1000000 → NoEffect .leadTimeout s)))

/-- R95, R474 to R477 and R480 to R484. -/
def Obligations.RopeAccessRows : Prop :=
  ∀ (s : State) (b : Fin 2) (slot : Fin 4) (bs p : List Byte) (err : Bool) (viol : Nat),
    let d := s.d
    let st := ropeState d
    let id := slotId 0xA slot
    let o := belayOrigin bs
    let n := beVal (bytesAt p 0 2)
    let image := beVal (bytesAt p 4 36)
    let pos := d.get (L.SLOT_ARG id 0) % 8
    let tag := (d.get L.REM_TAG + 1) % 2 ^ 32
    let op := beVal (bytesAt p 4 1)
    let pg := beVal (bytesAt p 8 1)
    let off := beVal (bytesAt p 10 2)
    let refused := d.get R.ROPE_CFG_REMOTE_ALLOW = 0 ∨ (op ≠ 1 ∧ op ≠ 2) ∨ remoteExcluded op pg off = true
    let top := alarmTop p
    let counted (e : Dev) (f : Fld) : Prop := d.get (L.PAGE_FREEZE 0xA) = 0 → e.get f = min (d.get f + 1) (2 ^ f.w - 1)
    let both (P : Instr → Prop) : Prop := P (.remoteRead slot) ∧ P (.remoteWrite slot)
    let answered (i : Fin 4) : Prop := slotCode d (slotId 0xA i) = codeRunning ∧ slotOp d (slotId 0xA i) = opRemoteRead ∧
      d.get (L.REM_SLOT_TAG i) = beVal (bytesAt p 0 4) ∧ slotArg d (slotId 0xA i) 0 % 8 = o
    (s.frozen = false →
      (bs.head? ≠ some 0x20 → NoEffect (.belayWaypoint b bs err viol) s) ∧
      (RopeDelivers d b 0x20 bs p → o = 0 → isMember d = true → st ≠ rpIdle →
        (n < ropeFirst ∨ 4096 ≤ n → Completes (.belayWaypoint b bs false 0) s (ropeFields b o) [] fun e => e.get (L.O_SEQ o) = beVal (bytesAt bs 20 8)) ∧
        (ropeFirst ≤ n → n < 4096 →
          (image = 0 → Yields (.belayWaypoint b bs false 0) s fun e => e.get (R.WP_STATE n) = wpEmpty ∧ e.get (R.WP_ACTION n) = 0 ∧
            e.get (R.WP_ENABLE n) = 0 ∧ counted e R.WP_DISTRIBUTED) ∧
          (image ≠ 0 → wpImageOk image = true → bitAt image 107 = false → Yields (.belayWaypoint b bs false 0) s fun e =>
            e.get (R.WP_ACTION n) = bitsOf image 96 8 ∧ e.get (R.WP_TARGET n) = bitsOf image 128 24 ∧ e.get (R.WP_TIME_NS n) = bitsOf image 64 30 ∧
            e.get (R.WP_STATE n) = wpEmpty ∧ counted e R.WP_DISTRIBUTED))) ∧
      (bs.head? ≠ some 0x30 → d.get L.REM_RX = 0 → NoEffect (.belayRemoteReq b bs err viol) s) ∧
      (RopeDelivers d b 0x30 bs p → o = 0 → isMember d = true → st ≠ rpIdle → d.get L.REM_RX = 0 → d.get L.ORIGIN_SEQ < 2 ^ 63 →
        (refused → Yields (.belayRemoteReq b bs false 0) s fun e => counted e R.REMOTE_REFUSED ∧ e.get L.ORIGIN_SEQ = d.get L.ORIGIN_SEQ + 1 ∧
          e.get L.REM_RX = 0) ∧
        (¬ refused → op = 1 → ∃ t, exec (.belayRemoteReq b bs false 0) s = .next t ∧ t.pending = s.pending ∧ t.run = s.run ∧ t.power = s.power ∧
          t.anchors = s.anchors ∧ t.otp = s.otp ∧ t.d.get L.ORIGIN_SEQ = d.get L.ORIGIN_SEQ + 1) ∧
        (¬ refused → op = 2 → ∃ t, exec (.belayRemoteReq b bs false 0) s = .next t ∧ t.pending = s.pending)) ∧
      (bs.head? ≠ some 0x31 → NoEffect (.belayRemoteResp b bs err viol) s) ∧
      (RopeDelivers d b 0x31 bs p → isLead d = true → answered slot → (∀ i : Fin 4, i.val < slot.val → ¬ answered i ∧
          slotOp d (slotId 0xA i) ≠ opRemoteWrite) →
        (beVal (bytesAt p 5 1) = codeOk → Completes (.belayRemoteResp b bs false 0) s (ropeFields b o ++ slotFields id) [0xA] fun e =>
          e.get (L.SLOT_CODE id) = codeOk ∧ e.get (L.SLOT_RESULT id 0) = beVal (bytesAt p 12 4) % 2 ^ 32 ∧ e.evt 0xA (24 + slot) = true) ∧
        (beVal (bytesAt p 5 1) ≠ codeOk → Completes (.belayRemoteResp b bs false 0) s (ropeFields b o ++ slotFields id) [0xA] fun e =>
          e.get (L.SLOT_CODE id) = beVal (bytesAt p 5 1) ∧ e.get (L.SLOT_RESULT id 0) = 0)) ∧
      (bs.head? ≠ some 0x50 → NoEffect (.belayAlarm b bs err viol) s) ∧
      (RopeDelivers d b 0x50 bs p → Completes (.belayAlarm b bs false 0) s (ropeFields b o ++ [R.ROPE_ALARMS_RX, L.AL_PULSE, L.ROPE_TICK,
          R.ROPE_ALARM_LAST_VALID, R.ROPE_ALARM_LAST_ORIGIN, R.ROPE_ALARM_LAST_SOURCE, R.ROPE_ALARM_LAST_SEVERITY, R.ROPE_ALARM_LAST_TIME_SEC,
          R.ROPE_ALARM_LAST_TIME_NS]) [0xA] fun e =>
        counted e R.ROPE_ALARMS_RX ∧ e.evt 0xA 16 = true ∧ bitAt (e.get L.AL_PULSE) 57 = true ∧
        (d.get L.ROPE_TICK ≠ d.tick + 1 → e.get R.ROPE_ALARM_LAST_VALID = 1 ∧ e.get R.ROPE_ALARM_LAST_ORIGIN = o ∧
          e.get R.ROPE_ALARM_LAST_SOURCE = top.1 % 2 ^ R.ROPE_ALARM_LAST_SOURCE.w ∧
          e.get R.ROPE_ALARM_LAST_SEVERITY = top.2 % 2 ^ R.ROPE_ALARM_LAST_SEVERITY.w)) ∧
      (slotCode d id = codeRunning → slotOp d id = opRemoteRead ∨ slotOp d id = opRemoteWrite →
        (d.get (L.REM_AT slot) + 100000 ≤ d.cyc → Completes (.remoteTimeout slot) s (slotFields id) [0xA] fun e =>
          e.get (L.SLOT_CODE id) = codeState ∧ e.get (L.SLOT_RESULT id 0) = 3 ∧ e.evt 0xA (24 + slot) = true) ∧
        (d.cyc < d.get (L.REM_AT slot) + 100000 → NoEffect (.remoteTimeout slot) s))) ∧
    (s.live 0xA = true →
      (slotActive d id = true → both fun c => NoEffect c s) ∧
      (slotActive d id = false →
        (isLead d = false ∨ st ≠ rpFormed → both fun c => Completes c s (slotFields id) [0xA] fun e =>
          e.get (L.SLOT_CODE id) = codeState ∧ e.get (L.SLOT_RESULT id 0) = 1) ∧
        (isLead d = true → st = rpFormed →
          (pos = 0 ∨ bitAt (d.get R.ROPE_STATUS_MEMBERS) pos = false → both fun c => Completes c s (slotFields id) [0xA] fun e =>
            e.get (L.SLOT_CODE id) = codeArg) ∧
          (pos ≠ 0 → bitAt (d.get R.ROPE_STATUS_MEMBERS) pos = true → both fun c => Yields c s fun e =>
            e.get (L.SLOT_CODE id) = codeRunning ∧ e.get (L.REM_SLOT_TAG slot) = tag ∧ e.get L.REM_TAG = tag ∧
            e.get (L.REM_AT slot) = d.cyc % 2 ^ 64))))

/-- R512, R515, R516, R518, R519 and R523. -/
def Obligations.TelemetryRows : Prop :=
  ∀ (s : State) (p : Fin 256) (g : Fin 4224) (i : Fin 64),
    let d := s.d
    let e0 := d.get (L.WIN_END p 1)
    let totals := [L.WIN_RX_FRAMES p 1, L.WIN_RX_BYTES p 1, L.WIN_RX_ERRORED p 1, L.WIN_TX_FRAMES p 1, L.WIN_TX_BYTES p 1, L.WIN_TX_POISONED p 1, L.WIN_OPEN p 1]
    let shown := [R.PTEL_LAST_END_NS p, R.PTEL_LAST_END_SEC p, R.PTEL_LAST_SPAN p, R.PTEL_LAST_RX_BYTES p, R.PTEL_LAST_RX_FRAMES p,
      R.PTEL_LAST_TX_FRAMES p, R.PTEL_LAST_TX_BYTES p, R.PTEL_LAST_RX_ERRORED p, R.PTEL_LAST_TX_POISONED p]
    let copied (e : Dev) : Prop := e.get (R.PTEL_LAST_RX_BYTES p) = d.get (L.WIN_RX_BYTES p 1) % 2 ^ (R.PTEL_LAST_RX_BYTES p).w ∧
      e.get (R.PTEL_LAST_TX_FRAMES p) = d.get (L.WIN_TX_FRAMES p 1) % 2 ^ (R.PTEL_LAST_TX_FRAMES p).w ∧
      e.get (R.PTEL_LAST_END_NS p) = nsOf e0 % 2 ^ 30 ∧
      e.get (R.PTEL_LAST_SPAN p) = (e0 - d.get (L.WIN_START p 1)) / (2 ^ d.get (L.WIN_K p 1) * 1000 * fineNs) % 2 ^ (R.PTEL_LAST_SPAN p).w ∧
      (∀ f ∈ totals, e.get f = 0)
    let ring := d.get (R.PTEL_TRING p)
    let full := (d.get (R.PRODUCER ring) + 1) % tringSize d ring = d.get (R.CONSUMER ring)
    let period := samplePeriod d
    let n := d.tickTime / period
    let above := d.get (R.THR_KIND i) ≠ 0 ∧ d.get (R.THR_N i) < thrOccupancy d i
    (d.get (L.PAGE_ENABLE 0xC) = 0 ∨ s.run.stopped = true → NoEffect (.windowClose p) s ∧ NoEffect .queueSampleSweep s ∧ NoEffect (.thresholdCrossing i) s) ∧
    (d.get (L.PAGE_ENABLE 0xC) = 1 → s.run.stopped = false →
      (d.get (L.WIN_OPEN p 1) = 0 → NoEffect (.windowClose p) s) ∧
      (d.get (L.WIN_OPEN p 1) = 1 →
        (d.get (R.PTEL_TO_RING p) = 0 → Completes (.windowClose p) s (totals ++ shown) [] copied) ∧
        (d.get (R.PTEL_TO_RING p) = 1 → d.get (R.TRING_CFG_ENABLE ring) = 1 → d.get (R.TRING_CFG_ERROR ring) = 0 →
          (full → Completes (.windowClose p) s (totals ++ shown ++ [R.TRING_LOST ring]) [0xC] fun e => copied e ∧ e.evt 0xC (2 * ring + 1) = true ∧
            (d.get (L.PAGE_FREEZE 0xC) = 0 → e.get (R.TRING_LOST ring) = min (d.get (R.TRING_LOST ring) + 1) (2 ^ (R.TRING_LOST ring).w - 1))) ∧
          (¬ full → d.get (R.TRING_CFG_OWNER ring) = 0 → d.get L.PCI_BM_OFF = 0 → d.get L.PCI_D3HOT = 0 → Yields (.windowClose p) s fun e =>
            copied e ∧ e.get (R.PRODUCER ring) = (d.get (R.PRODUCER ring) + 1) % tringSize d ring ∧ e.out.length = d.out.length + 1 ∧
            (d.get (R.PRODUCER ring) = d.get (R.CONSUMER ring) → e.evt 0xC (2 * ring) = true)))) ∧
      (d.get R.SAMPLE_CTRL_ENABLE = 0 ∨ 4 * fineNs ≤ d.tickTime - n * period ∨ d.get L.SWEEP_LAST = n + 1 → NoEffect .queueSampleSweep s) ∧
      (d.get R.SAMPLE_CTRL_ENABLE = 1 → d.tickTime - n * period < 4 * fineNs → d.get L.SWEEP_LAST ≠ n + 1 → Yields .queueSampleSweep s fun e =>
        e.get L.SWEEP_LAST = (n + 1) % 2 ^ L.SWEEP_LAST.w ∧ e.evt 0xC 12 = true ∧
        (hwmMode s.run d g = false → e.get (R.QTEL_DEPTH g) = d.get (R.QSTAT_CHARGE g) % 2 ^ (R.QTEL_DEPTH g).w ∧
          e.get (R.QTEL_HEAD_AGE g) = headAge d g ∧ e.get (R.QTEL_SAMPLE_NS g) = nsOf (sampleTime d.tickTime g)) ∧
        (hwmMode s.run d g = true → e.get (R.QTEL_DEPTH g) = d.get (R.QTEL_DEPTH g) ∧ e.get (R.QTEL_SAMPLE_NS g) = d.get (R.QTEL_SAMPLE_NS g)) ∧
        (d.get (L.PAGE_FREEZE 0xC) = 0 → e.get R.SAMPLE_SWEEPS = min (d.get R.SAMPLE_SWEEPS + 1) (2 ^ R.SAMPLE_SWEEPS.w - 1))) ∧
      (d.get (R.THR_ABOVE i) = 1 → above → NoEffect (.thresholdCrossing i) s) ∧
      (d.get (R.THR_ABOVE i) = 0 → ¬ above → NoEffect (.thresholdCrossing i) s) ∧
      (d.get (R.THR_ABOVE i) = 0 → above → Yields (.thresholdCrossing i) s fun e => e.get (R.THR_ABOVE i) = 1 ∧ e.evt 0xC 10 = true ∧
        (d.get (L.PAGE_FREEZE 0xC) = 0 → e.get (R.THR_CROSSINGS i) = min (d.get (R.THR_CROSSINGS i) + 1) (2 ^ (R.THR_CROSSINGS i).w - 1)) ∧
        (bitAt (d.get R.THRESH_ABOVE) i = false → bitAt (e.get R.THRESH_ABOVE) i = true)) ∧
      (d.get (R.THR_ABOVE i) = 1 → ¬ above → Yields (.thresholdCrossing i) s fun e => e.get (R.THR_ABOVE i) = 0 ∧ e.evt 0xC 11 = true ∧
        e.get (R.THR_CROSSINGS i) = d.get (R.THR_CROSSINGS i) ∧ (bitAt (d.get R.THRESH_ABOVE) i = true → bitAt (e.get R.THRESH_ABOVE) i = false)))

/-- R421. -/
def Obligations.KeyhashRevokeRule : Prop :=
  ∀ (s : State) (i : Fin 4), s.live 6 = true → slotActive s.d (slotId 6 i) = false →
    let id := slotId 6 i
    let lc := s.d.get R.LC_STATE
    let k := s.d.get (L.SLOT_ARG id 0) % 2 ^ 32
    let otp := otpBlow s.otp 0x080 (2 ^ k)
    let ends (code detail : Nat) : Prop := Completes (.keyhashRevoke i) s (slotFields id) [6] fun e =>
      e.get (L.SLOT_CODE id) = code ∧ e.get (L.SLOT_RESULT id 0) = detail ∧ e.evt 6 i = true
    (3 < k ∨ bitAt (slotsPermitted s.otp lc) k = false → ends codeState 1) ∧
    (k ≤ 3 → bitAt (slotsPermitted s.otp lc) k = true →
      (s.d.get R.PRESENCE_STATUS_ASSERTED = 0 → ends codePresence 0) ∧
      (s.d.get R.PRESENCE_STATUS_ASSERTED = 1 →
        (slotsUsable otp lc = 0 → ends codeState 5) ∧
        (slotsUsable otp lc ≠ 0 → ∃ t, exec (.keyhashRevoke i) s = .next t ∧ t.run = s.run ∧ t.power = s.power ∧ t.anchors = s.anchors ∧
          t.pending = s.pending ∧ t.d.get (L.SLOT_CODE id) = codeOk ∧ bitAt (t.d.get R.KEYHASH_STATE_REVOKED) k = true ∧
          otpWord t.otp 0x080 = (otpWord s.otp 0x080 ||| 2 ^ k) % 2 ^ 32 ∧ ∀ w < 0x200, w ≠ 0x080 → otpWord t.otp w = otpWord s.otp w)))

/-- R64. -/
def Obligations.OpenAnchorRefusesBootCompletion : Prop :=
  ∀ (s : State) (i : Fin 4), s.live 0xD = true → 2 ≤ i.val → (∃ g, g < 10 ∧ anchored s.anchors g = false) →
    (slotActive s.d (slotId 0xD i) = true → NoEffect (.bootComplete i) s) ∧
    (slotActive s.d (slotId 0xD i) = false → Completes (.bootComplete i) s (slotFields (slotId 0xD i)) [0xD] fun e =>
      e.get (L.SLOT_CODE (slotId 0xD i)) = codeState ∧ e.get (L.SLOT_STATUS_SEQ (slotId 0xD i)) = e.get (L.SLOT_SEQ (slotId 0xD i)))

/-- Commands are taken first in, first out (DESIGN CHOICE, log entry 1), and every one completes in every state. -/
def Obligations.EveryStepAnswers : Prop := ∀ s : State, ∃ t, step s = .next t ∧ t.pending = s.pending.tail

/-- R61, with R24 for the exception. -/
def Obligations.AnchorsStaySet : Prop :=
  (∀ (s : State) (pg : Fin 256) (bits : BitVec 8), s.live pg = true → ∃ a : BitVec 10, exec (.anchorWrite pg bits) s = .next { s with anchors := a } ∧
    ∀ g ∈ ([(0, 0x70, 0), (1, 0x70, 1), (2, 0x70, 2), (3, 0x04, 0), (4, 0x07, 0), (5, 0x08, 0), (6, 0x06, 0), (7, 0x09, 0), (8, 0x08, 1),
        (9, 0x05, 0)] : List (Nat × Nat × Nat)),
      anchored a g.1 = (anchored s.anchors g.1 || (g.2.1 == pg.val && bits.getLsbD g.2.2))) ∧
  (∀ (s t : State), step s = .next t →
    (∀ g, anchored s.anchors g = true → anchored t.anchors g = true) ∨ (t.anchors = 0 ∧ t.run = .booting ∧ t.power = .standby))

/-- The OTP is only ever blown: R371, R408, R412 and R421 (DEDUCED that nothing restores a fuse). -/
def Obligations.FusesStayBlown : Prop :=
  ∀ s t : State, s.otpWf → step s = .next t → t.otpWf ∧ ∀ w b, bitAt (otpWord s.otp w) b = true → bitAt (otpWord t.otp w) b = true

/-- The invariant holds after reset (the fuses of that state: DESIGN CHOICE, log entry 3). -/
def Obligations.ResetFusesWf : Prop := State.reset.otpWf ∧ State.reset.run = .booting ∧ ∀ w, otpWord State.reset.otp w = 0

/-- R27. -/
def Obligations.RunStatesFollowTheTable : Prop :=
  ∀ s t : State, step s = .next t →
    t.run = s.run ∨ RunState.moves s.run t.run = true ∨
    (t.run = .booting ∧ ((t.power = .standby ∧ t.anchors = 0) ∨ t.power = .baseCampOnly))
end

