-- ==== Sys2Proof/Laws/Cells.lean ====
section
/-! SUPPORT. The store of named fields: reading back what was written, leaving every other field alone, and the canonical form. -/

namespace Sys2Proof.Machine

/-! ## Reading after writing -/

theorem Cells.find_filter_same (c : List (Nat × Nat)) (k : Nat) : Cells.find (c.filter fun p => p.1 != k) k = 0 := by
  induction c with
  | nil => rfl
  | cons p r ih =>
    by_cases h : p.1 = k
    · simp [h, ih]
    · simp [h, Cells.find, ih]

theorem Cells.find_filter_ne (c : List (Nat × Nat)) {k k' : Nat} (h : k' ≠ k) :
    Cells.find (c.filter fun p => p.1 != k) k' = Cells.find c k' := by
  induction c with
  | nil => rfl
  | cons p r ih =>
    by_cases hp : p.1 = k
    · have : p.1 ≠ k' := fun h' => h (h'.symm.trans hp)
      simp [hp, Cells.find, ih, show ¬ k = k' from fun h' => h h'.symm]
    · simp [hp, Cells.find, ih]

theorem Cells.find_insert_same (c : List (Nat × Nat)) (k v : Nat) : Cells.find (Cells.insert c k v) k = v := by
  induction c with
  | nil => simp [Cells.insert, Cells.find]
  | cons p r ih =>
    unfold Cells.insert
    split
    · simp [Cells.find]
    · split
      · simp [Cells.find]
      · rename_i h; simp [Cells.find, h, ih]

theorem Cells.find_insert_ne (c : List (Nat × Nat)) {k k' : Nat} (v : Nat) (h : k' ≠ k) :
    Cells.find (Cells.insert c k v) k' = Cells.find c k' := by
  have h' : ¬ k = k' := fun e => h e.symm
  induction c with
  | nil => simp [Cells.insert, Cells.find, h']
  | cons p r ih =>
    unfold Cells.insert
    split
    · simp [Cells.find, h']
    · split
      · rename_i e; simp [Cells.find, e, h']
      · simp [Cells.find, ih]

/-- A key reads back what was stored at it. -/
theorem Cells.find_put_same (c : List (Nat × Nat)) (k v : Nat) : Cells.find (Cells.put c k v) k = v := by
  unfold Cells.put
  split
  · rename_i h; rw [Cells.find_filter_same, h]
  · exact Cells.find_insert_same c k v

/-- Storing at one key leaves every other alone. -/
theorem Cells.find_put_ne (c : List (Nat × Nat)) {k k' : Nat} (v : Nat) (h : k' ≠ k) :
    Cells.find (Cells.put c k v) k' = Cells.find c k' := by
  unfold Cells.put
  split
  · exact Cells.find_filter_ne c h
  · exact Cells.find_insert_ne c v h

/-- A key in the forgotten range reads 0, and every other key as before. -/
theorem Cells.find_dropRange (c : List (Nat × Nat)) (lo hi k : Nat) :
    Cells.find (Cells.dropRange c lo hi) k = if lo ≤ k ∧ k < hi then 0 else Cells.find c k := by
  unfold Cells.dropRange
  induction c with
  | nil => simp [Cells.find]
  | cons p r ih =>
    obtain ⟨j, u⟩ := p
    rw [List.filter_cons]
    split
    · rename_i hp
      simp only [Cells.find, ih]
      by_cases hj : j = k
      · subst hj
        simp only [Bool.or_eq_true, decide_eq_true_eq] at hp
        simp [show ¬ (lo ≤ j ∧ j < hi) by omega]
      · simp [hj]
    · rename_i hp
      rw [ih]
      simp only [Bool.or_eq_true, decide_eq_true_eq, not_or, not_lt, not_le] at hp
      split
      · rfl
      · rename_i hk
        have : j ≠ k := by intro e; subst e; exact hk ⟨hp.1, hp.2⟩
        simp [Cells.find, this]

/-! ## The canonical form -/

theorem Cells.wfFrom_mono {c : List (Nat × Nat)} {a b : Nat} (h : a ≤ b) (hc : Cells.wfFrom b c = true) : Cells.wfFrom a c = true := by
  cases c with
  | nil => rfl
  | cons p r =>
    simp only [Cells.wfFrom, Bool.and_eq_true, decide_eq_true_eq] at hc ⊢
    exact ⟨⟨by omega, hc.1.2⟩, hc.2⟩

theorem Cells.wfFrom_filter (c : List (Nat × Nat)) (f : Nat × Nat → Bool) {a : Nat} (hc : Cells.wfFrom a c = true) :
    Cells.wfFrom a (c.filter f) = true := by
  induction c generalizing a with
  | nil => rfl
  | cons p r ih =>
    simp only [Cells.wfFrom, Bool.and_eq_true, decide_eq_true_eq] at hc
    rw [List.filter_cons]
    split
    · simp only [Cells.wfFrom, Bool.and_eq_true, decide_eq_true_eq]
      exact ⟨hc.1, ih hc.2⟩
    · exact Cells.wfFrom_mono (by omega) (ih hc.2)

theorem Cells.wfFrom_insert (c : List (Nat × Nat)) {a k v : Nat} (ha : a ≤ k) (hv : v ≠ 0) (hc : Cells.wfFrom a c = true) :
    Cells.wfFrom a (Cells.insert c k v) = true := by
  induction c generalizing a with
  | nil => simp [Cells.insert, Cells.wfFrom, ha, hv]
  | cons p r ih =>
    obtain ⟨j, u⟩ := p
    simp only [Cells.wfFrom, Bool.and_eq_true, decide_eq_true_eq] at hc
    unfold Cells.insert
    split
    · rename_i h
      simp only [Cells.wfFrom, Bool.and_eq_true, decide_eq_true_eq]
      exact ⟨⟨ha, hv⟩, ⟨by omega, hc.1.2⟩, hc.2⟩
    · split
      · rename_i h
        subst h
        simp only [Cells.wfFrom, Bool.and_eq_true, decide_eq_true_eq]
        exact ⟨⟨ha, hv⟩, hc.2⟩
      · simp only [Cells.wfFrom, Bool.and_eq_true, decide_eq_true_eq]
        exact ⟨hc.1, ih (by omega) hc.2⟩

/-- Storing keeps the canonical form. -/
theorem Cells.wf_put {c : List (Nat × Nat)} (k v : Nat) (hc : Cells.wf c = true) : Cells.wf (Cells.put c k v) = true := by
  unfold Cells.put
  split
  · exact Cells.wfFrom_filter c _ hc
  · rename_i h; exact Cells.wfFrom_insert c (Nat.zero_le k) h hc

/-- Keeping some of the cells keeps the canonical form. -/
theorem Cells.wf_filter {c : List (Nat × Nat)} (f : Nat × Nat → Bool) (hc : Cells.wf c = true) : Cells.wf (c.filter f) = true :=
  Cells.wfFrom_filter c f hc

/-- Forgetting a range keeps the canonical form. -/
theorem Cells.wf_dropRange {c : List (Nat × Nat)} (lo hi : Nat) (hc : Cells.wf c = true) : Cells.wf (Cells.dropRange c lo hi) = true :=
  Cells.wfFrom_filter c _ hc

/-- Two canonical stores that read the same at every key are the same store. -/
theorem Cells.find_lt {c : List (Nat × Nat)} {a k : Nat} (hc : Cells.wfFrom a c = true) (h : k < a) : Cells.find c k = 0 := by
  induction c generalizing a with
  | nil => rfl
  | cons p r ih =>
    obtain ⟨j, u⟩ := p
    simp only [Cells.wfFrom, Bool.and_eq_true, decide_eq_true_eq] at hc
    simp only [Cells.find]
    rw [if_neg (by omega)]
    exact ih hc.2 (by omega)

theorem Cells.ext_wf {c e : List (Nat × Nat)} {a : Nat} (hc : Cells.wfFrom a c = true) (he : Cells.wfFrom a e = true)
    (h : ∀ k, Cells.find c k = Cells.find e k) : c = e := by
  induction c generalizing e a with
  | nil =>
    cases e with
    | nil => rfl
    | cons q r =>
      have := h q.1
      simp only [Cells.wfFrom, Bool.and_eq_true, decide_eq_true_eq] at he
      simp [Cells.find] at this
      exact absurd this.symm he.1.2
  | cons p r ih =>
    obtain ⟨j, u⟩ := p
    simp only [Cells.wfFrom, Bool.and_eq_true, decide_eq_true_eq] at hc
    cases e with
    | nil =>
      have := h j
      simp [Cells.find] at this
      exact absurd this hc.1.2
    | cons q t =>
      obtain ⟨i, w⟩ := q
      simp only [Cells.wfFrom, Bool.and_eq_true, decide_eq_true_eq] at he
      have hji : j = i := by
        rcases Nat.lt_trichotomy j i with hlt | heq | hgt
        · have := h j
          simp only [Cells.find, if_true, if_neg (show ¬ i = j by omega)] at this
          rw [Cells.find_lt he.2 (by omega)] at this
          exact absurd this hc.1.2
        · exact heq
        · have := h i
          simp only [Cells.find, if_true, if_neg (show ¬ j = i by omega)] at this
          rw [Cells.find_lt hc.2 (by omega)] at this
          exact absurd this.symm he.1.2
      subst hji
      have hu := h j
      simp only [Cells.find, if_true] at hu
      subst hu
      congr 1
      apply ih hc.2 he.2
      intro k
      by_cases hk : j = k
      · subst hk
        rw [Cells.find_lt hc.2 (by omega), Cells.find_lt he.2 (by omega)]
      · have := h k
        simpa [Cells.find, hk] using this

/-! ## Fields -/

/-- A field reads back what was written, cut to its width. -/
theorem Dev.get_set_same (d : Dev) (f : Fld) (v : Nat) : (d.set f v).get f = v % 2 ^ f.w := by
  simp only [Dev.get, Dev.set, Cells.find_put_same]
  rw [Nat.xor_assoc, Nat.xor_self, Nat.xor_zero]

/-- Writing one field leaves a field with another key alone. -/
theorem Dev.get_set_ne (d : Dev) (f g : Fld) (v : Nat) (h : g.key ≠ f.key) : (d.set f v).get g = d.get g := by
  simp only [Dev.get, Dev.set, Cells.find_put_ne _ _ h]

/-- A field after writing a field: of the written one the value cut to its width, of any other what it held. Fields with equal keys are
equal by `hk`, as the fields of the layout are. -/
theorem Dev.get_set (d : Dev) (f g : Fld) (v : Nat) (hk : g.key = f.key → g = f) :
    (d.set f v).get g = if g = f then v % 2 ^ f.w else d.get g := by
  by_cases h : g = f
  · subst h; simp [Dev.get_set_same]
  · rw [if_neg h, Dev.get_set_ne _ _ _ _ (fun e => h (hk e))]

/-- In the empty contents every field reads its reset value. -/
@[simp] theorem Dev.get_empty (f : Fld) : Dev.empty.get f = f.reset := by simp [Dev.get, Dev.empty, Cells.find]

theorem Dev.setAll_nil (d : Dev) : d.setAll [] = d := rfl
theorem Dev.setAll_cons (d : Dev) (p : Fld × Nat) (l : List (Fld × Nat)) : d.setAll (p :: l) = (d.set p.1 p.2).setAll l := rfl

/-- A field that is not among those written keeps its value. -/
theorem Dev.get_setAll_ne (d : Dev) (l : List (Fld × Nat)) (g : Fld) (h : ∀ p ∈ l, g.key ≠ p.1.key) : (d.setAll l).get g = d.get g := by
  induction l generalizing d with
  | nil => rfl
  | cons p r ih =>
    rw [Dev.setAll_cons, ih _ (fun q hq => h q (List.mem_cons_of_mem _ hq)), Dev.get_set_ne _ _ _ _ (h p List.mem_cons_self)]

/-- A field in a cleared range reads its reset value, and every other field keeps its value. -/
theorem Dev.get_clearRange (d : Dev) (lo hi : Nat) (g : Fld) :
    (d.clearRange lo hi).get g = if lo ≤ g.key ∧ g.key < hi then g.reset else d.get g := by
  simp only [Dev.get, Dev.clearRange, Cells.find_dropRange]
  split <;> simp

end Sys2Proof.Machine
end

