-- ==== Sys2Proof/Laws/Dev.lean ====
section
/-! SUPPORT. What the shared operations on the device's contents can do: frames, counters and the event latch. -/

namespace Sys2Proof.Machine

/-! ## Frames -/

theorem Dev.OnlyChanges.refl (d : Dev) (fs : List Fld) (evs : List Nat) : d.OnlyChanges d fs evs := ⟨rfl, fun _ _ _ => rfl⟩

theorem Dev.OnlyChanges.trans {d e f : Dev} {fs : List Fld} {evs : List Nat} (h : d.OnlyChanges e fs evs) (k : e.OnlyChanges f fs evs) :
    d.OnlyChanges f fs evs := by
  refine ⟨?_, fun g hf he => (k.2 g hf he).trans (h.2 g hf he)⟩
  rw [k.1, h.1]

theorem Dev.OnlyChanges.mono {d e : Dev} {fs fs' : List Fld} {evs evs' : List Nat} (h : d.OnlyChanges e fs evs)
    (hf : ∀ f ∈ fs, f ∈ fs') (he : ∀ p ∈ evs, p ∈ evs') : d.OnlyChanges e fs' evs' :=
  ⟨h.1, fun g h1 h2 => h.2 g (fun f m => h1 f (hf f m)) (fun p m => h2 p (he p m))⟩

/-- Writing a field of the frame stays in the frame. -/
theorem Dev.OnlyChanges.set {d e : Dev} {fs : List Fld} {evs : List Nat} (h : d.OnlyChanges e fs evs) {f : Fld} (v : Nat) (hf : f ∈ fs) :
    d.OnlyChanges (e.set f v) fs evs :=
  h.trans ⟨rfl, fun g hg _ => Dev.get_set_ne e f g v (hg f hf)⟩

theorem Dev.OnlyChanges.setB {d e : Dev} {fs : List Fld} {evs : List Nat} (h : d.OnlyChanges e fs evs) {f : Fld} (v : Bool) (hf : f ∈ fs) :
    d.OnlyChanges (e.setB f v) fs evs := h.set _ hf

theorem Dev.OnlyChanges.setAll {d e : Dev} {fs : List Fld} {evs : List Nat} (h : d.OnlyChanges e fs evs) (l : List (Fld × Nat))
    (hl : ∀ p ∈ l, p.1 ∈ fs) : d.OnlyChanges (e.setAll l) fs evs := by
  induction l generalizing e with
  | nil => exact h
  | cons p r ih =>
    exact ih (h.set p.2 (hl p List.mem_cons_self)) (fun q hq => hl q (List.mem_cons_of_mem _ hq))

theorem Dev.OnlyChanges.satAdd {d e : Dev} {fs : List Fld} {evs : List Nat} (h : d.OnlyChanges e fs evs) {f : Fld} (n : Nat) (hf : f ∈ fs) :
    d.OnlyChanges (e.satAdd f n) fs evs := h.set _ hf

theorem Dev.OnlyChanges.count {d e : Dev} {fs : List Fld} {evs : List Nat} (h : d.OnlyChanges e fs evs) (pg : Nat) {f : Fld} (n : Nat)
    (hf : f ∈ fs) : d.OnlyChanges (e.count pg f n) fs evs := by
  unfold Dev.count
  split
  · exact h
  · exact h.satAdd n hf

theorem Dev.OnlyChanges.ite {d e e' : Dev} {fs : List Fld} {evs : List Nat} {p : Prop} [Decidable p] (h : p → d.OnlyChanges e fs evs)
    (h' : ¬ p → d.OnlyChanges e' fs evs) : d.OnlyChanges (if p then e else e') fs evs := by
  split
  · exact h ‹_›
  · exact h' ‹_›

/-! ## The event latch -/

/-- Fields that the latch of page `pg` writes. -/
def evtFields (pg : Nat) : List Fld :=
  [L.EVT_LATCH pg, L.EVT_FIRST_BIT pg, L.EVT_FIRST_VALID pg, L.EVT_FIRST_SIM pg, L.EVT_FIRST_SEC pg, L.EVT_FIRST_NS pg, L.EVT_TICK pg,
    L.EVT_LIVE pg, L.EVT_LIVE_TICK pg, R.EV_FIRST_SOURCE, R.EV_FIRST_VALID, R.EV_FIRST_SIMULTANEOUS, R.EV_FIRST_TIME_SEC, R.EV_FIRST_TIME_NS,
    R.EV_FIRST_TIME_FRAC, L.EV_TICK]

theorem eventKey_evtFields {pg : Nat} {f : Fld} (h : f ∈ evtFields pg) : eventKey pg f.key = true := by
  simp only [evtFields, List.mem_cons, List.not_mem_nil, or_false] at h
  rcases h with h | h | h | h | h | h | h | h | h | h | h | h | h | h | h | h <;> subst h <;> simp [eventKey]

theorem eventKey_rise (pg b : Nat) (h : b < 32) : eventKey pg (L.EVT_RISE_TICK pg b).key = true := by
  have h1 : decide ((L.EVT_RISE_TICK pg 0).key ≤ (L.EVT_RISE_TICK pg b).key) = true :=
    decide_eq_true (by simp only [L.EVT_RISE_TICK, latFld]; omega)
  have h2 : decide ((L.EVT_RISE_TICK pg b).key < (L.EVT_RISE_TICK (pg + 1) 0).key) = true :=
    decide_eq_true (by simp only [L.EVT_RISE_TICK, latFld]; omega)
  simp [eventKey, h1, h2]

theorem evt_ne {pg : Nat} {f g : Fld} (h : eventKey pg f.key = true) (hg : eventKey pg g.key = false) : g.key ≠ f.key := by
  intro e
  rw [e, h] at hg
  cases hg

/-- Writing an event field of page `pg` stays in a frame with that page's events. -/
theorem Dev.OnlyChanges.setEvt {d e : Dev} {fs : List Fld} {evs : List Nat} (h : d.OnlyChanges e fs evs) {pg : Nat} {f : Fld} (v : Nat)
    (hp : pg ∈ evs) (hf : eventKey pg f.key = true) : d.OnlyChanges (e.set f v) fs evs :=
  h.trans ⟨rfl, fun g _ hg => Dev.get_set_ne e f g v (evt_ne hf (hg pg hp))⟩

theorem Dev.OnlyChanges.setAllEvt {d e : Dev} {fs : List Fld} {evs : List Nat} (h : d.OnlyChanges e fs evs) {pg : Nat} (hp : pg ∈ evs)
    (l : List (Fld × Nat)) (hl : ∀ p ∈ l, p.1 ∈ evtFields pg) : d.OnlyChanges (e.setAll l) fs evs := by
  induction l generalizing e with
  | nil => exact h
  | cons p r ih =>
    exact ih (h.setEvt p.2 hp (eventKey_evtFields (hl p List.mem_cons_self))) (fun q hq => hl q (List.mem_cons_of_mem _ hq))

theorem Dev.OnlyChanges.evRise {d e : Dev} {fs : List Fld} {evs : List Nat} (h : d.OnlyChanges e fs evs) {pg : Nat} (hp : pg ∈ evs)
    (src : Nat) : d.OnlyChanges (e.evRise src) fs evs := by
  unfold Dev.evRise
  split
  · split
    · split
      · exact h
      · exact h.setAllEvt hp _ (by simp [evtFields])
    · exact h
  · exact h.setAllEvt hp _ (by simp [evtFields])

theorem Dev.OnlyChanges.evRises {d e : Dev} {fs : List Fld} {evs : List Nat} (h : d.OnlyChanges e fs evs) {pg : Nat} (hp : pg ∈ evs)
    (before : Dev) (q first n k : Nat) : d.OnlyChanges (Sys2Proof.Machine.evRises before q first n k e) fs evs := by
  induction k generalizing e with
  | zero => exact h
  | succ k ih =>
    unfold Sys2Proof.Machine.evRises
    apply ih
    split
    · exact h.evRise hp _
    · exact h

theorem Dev.OnlyChanges.evEval {d e : Dev} {fs : List Fld} {evs : List Nat} (h : d.OnlyChanges e fs evs) {pg : Nat} (hp : pg ∈ evs)
    (before : Dev) (q : Nat) : d.OnlyChanges (e.evEval before q) fs evs := by
  unfold Dev.evEval
  split
  · split
    · exact h
    · exact h.evRises hp _ _ _ _ _
  · exact h

theorem Dev.OnlyChanges.evtCapture {d e : Dev} {fs : List Fld} {evs : List Nat} (h : d.OnlyChanges e fs evs) {pg : Nat} (hp : pg ∈ evs)
    (b : Nat) : d.OnlyChanges (e.evtCapture pg b) fs evs := by
  unfold Dev.evtCapture
  split
  · split
    · split
      · exact h
      · exact h.setAllEvt hp _ (by simp [evtFields])
    · exact h
  · exact h.setAllEvt hp _ (by simp [evtFields])

/-- Latching an event bit writes event fields of its page alone. -/
theorem Dev.OnlyChanges.latchBit {d e : Dev} {fs : List Fld} {evs : List Nat} (h : d.OnlyChanges e fs evs) (pg b : Nat) (hp : pg ∈ evs)
    (hb : b < 32) : d.OnlyChanges (e.latchBit pg b) fs evs := by
  unfold Dev.latchBit
  split
  · exact (((h.setEvt _ hp (eventKey_evtFields (by simp [evtFields]))).setEvt _ hp (eventKey_rise pg b hb)).evtCapture hp b).evEval hp _ _
  · exact h

theorem Dev.OnlyChanges.latch {d e : Dev} {fs : List Fld} {evs : List Nat} (h : d.OnlyChanges e fs evs) (pg b : Nat) (hp : pg ∈ evs)
    (hb : b < 32) : d.OnlyChanges (e.latch pg b) fs evs :=
  (h.setAllEvt hp _ (by simp [evtFields])).latchBit pg b hp hb

theorem Dev.OnlyChanges.latchMask {d e : Dev} {fs : List Fld} {evs : List Nat} (h : d.OnlyChanges e fs evs) (pg mask k : Nat) (hp : pg ∈ evs)
    (hk : k ≤ 32) : d.OnlyChanges (e.latchMask pg mask k) fs evs := by
  induction k with
  | zero => exact h
  | succ k ih =>
    simp only [Dev.latchMask]
    split
    · exact (ih (by omega)).latchBit pg k hp (by omega)
    · exact ih (by omega)

theorem Dev.OnlyChanges.latchIf {d e : Dev} {fs : List Fld} {evs : List Nat} (h : d.OnlyChanges e fs evs) (c : Bool) (pg b : Nat)
    (hp : pg ∈ evs) (hb : b < 32) : d.OnlyChanges (e.latchIf c pg b) fs evs := by
  unfold Dev.latchIf
  split
  · exact h.latch pg b hp hb
  · exact h

/-! ## What a field reads afterwards -/

/-- A field that is not an event field of the page reads the same after a latch. -/
theorem Dev.get_latch_ne (d : Dev) (pg b : Nat) (hb : b < 32) (g : Fld) (h : eventKey pg g.key = false) : (d.latch pg b).get g = d.get g :=
  ((Dev.OnlyChanges.refl d [] [pg]).latch pg b (by simp) hb).2 g (by simp) (by simpa using h)

theorem Dev.get_latchIf_ne (d : Dev) (c : Bool) (pg b : Nat) (hb : b < 32) (g : Fld) (h : eventKey pg g.key = false) :
    (d.latchIf c pg b).get g = d.get g := by
  unfold Dev.latchIf
  split
  · exact d.get_latch_ne pg b hb g h
  · rfl

/-- A counter that does not hold counts up and saturates. -/
theorem Dev.get_count_same (d : Dev) (pg : Nat) (f : Fld) (n : Nat) :
    (d.count pg f n).get f = if d.on (L.PAGE_FREEZE pg) then d.get f else min (d.get f + n) (2 ^ f.w - 1) := by
  unfold Dev.count
  split
  · rfl
  · rw [Dev.satAdd, Dev.get_set_same]
    exact Nat.mod_eq_of_lt (lt_of_le_of_lt (Nat.min_le_right _ _) (Nat.sub_lt (Nat.two_pow_pos _) Nat.one_pos))

theorem Dev.get_count_ne (d : Dev) (pg : Nat) (f g : Fld) (n : Nat) (h : g.key ≠ f.key) : (d.count pg f n).get g = d.get g := by
  unfold Dev.count
  split
  · rfl
  · exact Dev.get_set_ne _ _ _ _ h

/-- Bits of a number cut to 32 bits. -/
theorem bitAt_mod32 (n i : Nat) (h : i < 32) : bitAt (n % 2 ^ 32) i = bitAt n i := by
  unfold bitAt
  have : n % 2 ^ 32 / 2 ^ i % 2 = n / 2 ^ i % 2 := by
    rw [show (2 : Nat) ^ 32 = 2 ^ i * 2 ^ (32 - i) by rw [← Nat.pow_add]; congr 1; omega, Nat.mod_mul_right_div_self]
    rw [show 32 - i = (31 - i) + 1 by omega, Nat.pow_succ, Nat.mul_comm, Nat.mod_mul_right_mod]
  rw [this]

theorem bitAt_testBit (n i : Nat) : bitAt n i = n.testBit i := by
  rw [bitAt, Nat.testBit_eq_decide_div_mod_eq]
  rfl

theorem evEval_evtLatch (d e : Dev) (pg q : Nat) : (e.evEval d pg).get (L.EVT_LATCH q) = e.get (L.EVT_LATCH q) := by
  have key : ∀ (f : Fld), f ∈ [R.EV_FIRST_SOURCE, R.EV_FIRST_VALID, R.EV_FIRST_SIMULTANEOUS, R.EV_FIRST_TIME_SEC, R.EV_FIRST_TIME_NS,
      R.EV_FIRST_TIME_FRAC, L.EV_TICK] → (L.EVT_LATCH q).key ≠ f.key := by
    intro f hf
    simp only [List.mem_cons, List.not_mem_nil, or_false] at hf
    rcases hf with h | h | h | h | h | h | h <;> subst h <;>
      simp only [L.EVT_LATCH, L.EV_TICK, R.EV_FIRST_SOURCE, R.EV_FIRST_VALID, R.EV_FIRST_SIMULTANEOUS, R.EV_FIRST_TIME_SEC, R.EV_FIRST_TIME_NS,
        R.EV_FIRST_TIME_FRAC, latFld, regFld, latBase] <;> omega
  have rise : ∀ (x : Dev) (src : Nat), (x.evRise src).get (L.EVT_LATCH q) = x.get (L.EVT_LATCH q) := by
    intro x src
    unfold Dev.evRise
    split
    · split
      · split
        · rfl
        · exact Dev.get_setAll_ne _ _ _ (by intro p hp; apply key; simp at hp; rcases hp with h | h <;> subst h <;> simp)
      · rfl
    · refine Dev.get_setAll_ne _ _ _ ?_
      intro p hp
      apply key
      simp only [List.mem_cons, List.not_mem_nil, or_false] at hp
      rcases hp with h | h | h | h | h | h | h <;> subst h <;> simp
  have rises : ∀ (k : Nat) (x : Dev) (a n : Nat), (evRises d pg a n k x).get (L.EVT_LATCH q) = x.get (L.EVT_LATCH q) := by
    intro k
    induction k with
    | zero => intro x a n; rfl
    | succ k ih =>
      intro x a n
      unfold evRises
      rw [ih]
      split
      · exact rise _ _
      · rfl
  unfold Dev.evEval
  split
  · split
    · rfl
    · exact rises _ _ _ _
  · rfl

theorem evtCapture_evtLatch (d : Dev) (pg b q : Nat) (h1 : pg < 2 ^ 20) (h2 : q < 2 ^ 20) :
    (d.evtCapture pg b).get (L.EVT_LATCH q) = d.get (L.EVT_LATCH q) := by
  have key : ∀ (f : Fld), f ∈ [L.EVT_FIRST_BIT pg, L.EVT_FIRST_VALID pg, L.EVT_FIRST_SIM pg, L.EVT_FIRST_SEC pg, L.EVT_FIRST_NS pg,
      L.EVT_TICK pg] → (L.EVT_LATCH q).key ≠ f.key := by
    intro f hf
    simp only [List.mem_cons, List.not_mem_nil, or_false] at hf
    rcases hf with h | h | h | h | h | h <;> subst h <;>
      simp only [L.EVT_LATCH, L.EVT_FIRST_BIT, L.EVT_FIRST_VALID, L.EVT_FIRST_SIM, L.EVT_FIRST_SEC, L.EVT_FIRST_NS, L.EVT_TICK, latFld] <;> omega
  unfold Dev.evtCapture
  split
  · split
    · split
      · rfl
      · refine Dev.get_setAll_ne _ _ _ ?_
        intro p hp
        apply key
        simp only [List.mem_cons, List.not_mem_nil, or_false] at hp
        rcases hp with h | h <;> subst h <;> simp
    · rfl
  · refine Dev.get_setAll_ne _ _ _ ?_
    intro p hp
    apply key
    simp only [List.mem_cons, List.not_mem_nil, or_false] at hp
    rcases hp with h | h | h | h | h | h <;> subst h <;> simp

/-- The event bits of a page after one latches: it is set, and the others are as before. -/
theorem Dev.evt_latchBit (d : Dev) (pg b i : Nat) (hp : pg < 2 ^ 20) (hb : b < 32) (hi : i < 32) (hs : evtBitServed d pg b = true) :
    (d.latchBit pg b).evt pg i = (decide (i = b) || d.evt pg i) := by
  unfold Dev.evt Dev.latchBit
  rw [if_pos hs, evEval_evtLatch, evtCapture_evtLatch _ _ _ _ hp hp, Dev.get_set_ne, Dev.get_set_same]
  · rw [show (L.EVT_LATCH pg).w = 32 from rfl, bitAt_mod32 _ _ hi]
    simp only [bitAt_testBit, Nat.testBit_or, Nat.testBit_two_pow]
    rw [Bool.or_comm]
    by_cases h : i = b
    · simp [h]
    · simp [h, Ne.symm h]
  · simp only [L.EVT_LATCH, L.EVT_RISE_TICK, latFld]; omega

/-- Marking a condition as live moves no field but the two marks. -/
theorem Dev.get_live_ne (d : Dev) (pg v w : Nat) (g : Fld) (h : g.key ≠ (L.EVT_LIVE pg).key ∧ g.key ≠ (L.EVT_LIVE_TICK pg).key) :
    (d.setAll [(L.EVT_LIVE pg, v), (L.EVT_LIVE_TICK pg, w)]).get g = d.get g :=
  Dev.get_setAll_ne _ _ _ (by intro p hp; simp at hp; rcases hp with h' | h' <;> subst h' <;> simp [h])

/-- The event bits of a page after a latch: the latched one is set, and the others are as before. -/
theorem Dev.evt_latch (d : Dev) (pg b i : Nat) (hp : pg < 2 ^ 20) (hb : b < 32) (hi : i < 32) (hs : evtBitServed d pg b = true) :
    (d.latch pg b).evt pg i = (decide (i = b) || d.evt pg i) := by
  have hs' : evtBitServed (d.setAll [(L.EVT_LIVE pg, evtLive d pg ||| 2 ^ b), (L.EVT_LIVE_TICK pg, d.tick + 1)]) pg b = true := by
    unfold evtBitServed served portWidth octMode at hs ⊢
    rw [d.get_live_ne]
    · exact hs
    · simp only [R.OCT_PORT_MODE_MODE, L.EVT_LIVE, L.EVT_LIVE_TICK, latFld, regFld, latBase]; omega
  unfold Dev.latch
  rw [Dev.evt_latchBit _ _ _ _ hp hb hi hs', Dev.evt, Dev.get_live_ne, ← Dev.evt]
  simp only [L.EVT_LATCH, L.EVT_LIVE, L.EVT_LIVE_TICK, latFld]; omega

/-- A latched bit reads 1. -/
theorem Dev.evt_latch_same (d : Dev) (pg b : Nat) (hp : pg < 2 ^ 20) (hb : b < 32) (hs : evtBitServed d pg b = true) :
    (d.latch pg b).evt pg b = true := by simp [Dev.evt_latch d pg b b hp hb hb hs]

/-- A page other than a port page has every event bit. -/
theorem evtBitServed_of_not_port (d : Dev) (pg b : Nat) (h : pg < 0x30 ∨ 0x4F < pg) : evtBitServed d pg b = true := by
  unfold evtBitServed
  rcases h with h | h
  · simp [show ¬ 0x30 ≤ pg by omega]
  · simp [show ¬ pg ≤ 0x4F by omega]

/-- Writing a field that is no event latch keeps the event bits. -/
theorem Dev.evt_set_ne (d : Dev) (f : Fld) (v pg i : Nat) (h : (L.EVT_LATCH pg).key ≠ f.key) : (d.set f v).evt pg i = d.evt pg i := by
  rw [Dev.evt, Dev.evt, Dev.get_set_ne _ _ _ _ h]

end Sys2Proof.Machine
end

