-- ==== Sys2Proof/Laws/State.lean ====
section
/-! SUPPORT. One lemma per field per update of the state and of the device's contents, true by unfolding the update. -/

namespace Sys2Proof.Machine

@[simp] theorem State.setDev_pending (s : State) (d : Dev) : (s.setDev d).pending = s.pending := rfl
@[simp] theorem State.setDev_anchors (s : State) (d : Dev) : (s.setDev d).anchors = s.anchors := rfl
@[simp] theorem State.setDev_run (s : State) (d : Dev) : (s.setDev d).run = s.run := rfl
@[simp] theorem State.setDev_power (s : State) (d : Dev) : (s.setDev d).power = s.power := rfl
@[simp] theorem State.setDev_otp (s : State) (d : Dev) : (s.setDev d).otp = s.otp := rfl
@[simp] theorem State.setDev_d (s : State) (d : Dev) : (s.setDev d).d = d := rfl
@[simp] theorem State.setDev_setDev (s : State) (d e : Dev) : (s.setDev d).setDev e = s.setDev e := rfl
@[simp] theorem State.setDev_self (s : State) : s.setDev s.d = s := rfl

@[simp] theorem Dev.set_time (d : Dev) (g : Fld) (v : Nat) : (d.set g v).time = d.time := rfl
@[simp] theorem Dev.set_cyc (d : Dev) (g : Fld) (v : Nat) : (d.set g v).cyc = d.cyc := rfl
@[simp] theorem Dev.set_tick (d : Dev) (g : Fld) (v : Nat) : (d.set g v).tick = d.tick := rfl
@[simp] theorem Dev.set_tickTime (d : Dev) (g : Fld) (v : Nat) : (d.set g v).tickTime = d.tickTime := rfl
@[simp] theorem Dev.set_nextTick (d : Dev) (g : Fld) (v : Nat) : (d.set g v).nextTick = d.nextTick := rfl
@[simp] theorem Dev.set_posted (d : Dev) (g : Fld) (v : Nat) : (d.set g v).posted = d.posted := rfl
@[simp] theorem Dev.set_todTx (d : Dev) (g : Fld) (v : Nat) : (d.set g v).todTx = d.todTx := rfl
@[simp] theorem Dev.set_todRx (d : Dev) (g : Fld) (v : Nat) : (d.set g v).todRx = d.todRx := rfl
@[simp] theorem Dev.set_waiting (d : Dev) (g : Fld) (v : Nat) : (d.set g v).waiting = d.waiting := rfl
@[simp] theorem Dev.set_issuing (d : Dev) (g : Fld) (v : Nat) : (d.set g v).issuing = d.issuing := rfl
@[simp] theorem Dev.set_releasing (d : Dev) (g : Fld) (v : Nat) : (d.set g v).releasing = d.releasing := rfl
@[simp] theorem Dev.set_slewIssued (d : Dev) (g : Fld) (v : Nat) : (d.set g v).slewIssued = d.slewIssued := rfl
@[simp] theorem Dev.set_slewAdmitted (d : Dev) (g : Fld) (v : Nat) : (d.set g v).slewAdmitted = d.slewAdmitted := rfl
@[simp] theorem Dev.set_saEvents (d : Dev) (g : Fld) (v : Nat) : (d.set g v).saEvents = d.saEvents := rfl
@[simp] theorem Dev.set_frames (d : Dev) (g : Fld) (v : Nat) : (d.set g v).frames = d.frames := rfl
@[simp] theorem Dev.set_copies (d : Dev) (g : Fld) (v : Nat) : (d.set g v).copies = d.copies := rfl
@[simp] theorem Dev.set_txs (d : Dev) (g : Fld) (v : Nat) : (d.set g v).txs = d.txs := rfl
@[simp] theorem Dev.set_cellMem (d : Dev) (g : Fld) (v : Nat) : (d.set g v).cellMem = d.cellMem := rfl
@[simp] theorem Dev.set_looped (d : Dev) (g : Fld) (v : Nat) : (d.set g v).looped = d.looped := rfl
@[simp] theorem Dev.set_txHeld (d : Dev) (g : Fld) (v : Nat) : (d.set g v).txHeld = d.txHeld := rfl
@[simp] theorem Dev.set_descs (d : Dev) (g : Fld) (v : Nat) : (d.set g v).descs = d.descs := rfl
@[simp] theorem Dev.set_dram (d : Dev) (g : Fld) (v : Nat) : (d.set g v).dram = d.dram := rfl
@[simp] theorem Dev.set_mgMajor (d : Dev) (g : Fld) (v : Nat) : (d.set g v).mgMajor = d.mgMajor := rfl
@[simp] theorem Dev.set_mgMinor (d : Dev) (g : Fld) (v : Nat) : (d.set g v).mgMinor = d.mgMinor := rfl
@[simp] theorem Dev.set_mgTree (d : Dev) (g : Fld) (v : Nat) : (d.set g v).mgTree = d.mgTree := rfl
@[simp] theorem Dev.set_mgCache (d : Dev) (g : Fld) (v : Nat) : (d.set g v).mgCache = d.mgCache := rfl
@[simp] theorem Dev.set_mgPending (d : Dev) (g : Fld) (v : Nat) : (d.set g v).mgPending = d.mgPending := rfl
@[simp] theorem Dev.set_mgReenc (d : Dev) (g : Fld) (v : Nat) : (d.set g v).mgReenc = d.mgReenc := rfl
@[simp] theorem Dev.set_ropeHeld (d : Dev) (g : Fld) (v : Nat) : (d.set g v).ropeHeld = d.ropeHeld := rfl
@[simp] theorem Dev.set_lineWait (d : Dev) (g : Fld) (v : Nat) : (d.set g v).lineWait = d.lineWait := rfl
@[simp] theorem Dev.set_lines (d : Dev) (g : Fld) (v : Nat) : (d.set g v).lines = d.lines := rfl
@[simp] theorem Dev.set_sram (d : Dev) (g : Fld) (v : Nat) : (d.set g v).sram = d.sram := rfl
@[simp] theorem Dev.set_serial (d : Dev) (g : Fld) (v : Nat) : (d.set g v).serial = d.serial := rfl
@[simp] theorem Dev.set_freeCtr (d : Dev) (g : Fld) (v : Nat) : (d.set g v).freeCtr = d.freeCtr := rfl
@[simp] theorem Dev.set_out (d : Dev) (g : Fld) (v : Nat) : (d.set g v).out = d.out := rfl

@[simp] theorem Dev.setAll_time (d : Dev) (l : List (Fld × Nat)) : (d.setAll l).time = d.time := by
  induction l generalizing d with
  | nil => rfl
  | cons p r ih => exact (ih (d.set p.1 p.2)).trans rfl
@[simp] theorem Dev.setAll_cyc (d : Dev) (l : List (Fld × Nat)) : (d.setAll l).cyc = d.cyc := by
  induction l generalizing d with
  | nil => rfl
  | cons p r ih => exact (ih (d.set p.1 p.2)).trans rfl
@[simp] theorem Dev.setAll_tick (d : Dev) (l : List (Fld × Nat)) : (d.setAll l).tick = d.tick := by
  induction l generalizing d with
  | nil => rfl
  | cons p r ih => exact (ih (d.set p.1 p.2)).trans rfl
@[simp] theorem Dev.setAll_tickTime (d : Dev) (l : List (Fld × Nat)) : (d.setAll l).tickTime = d.tickTime := by
  induction l generalizing d with
  | nil => rfl
  | cons p r ih => exact (ih (d.set p.1 p.2)).trans rfl
@[simp] theorem Dev.setAll_nextTick (d : Dev) (l : List (Fld × Nat)) : (d.setAll l).nextTick = d.nextTick := by
  induction l generalizing d with
  | nil => rfl
  | cons p r ih => exact (ih (d.set p.1 p.2)).trans rfl
@[simp] theorem Dev.setAll_posted (d : Dev) (l : List (Fld × Nat)) : (d.setAll l).posted = d.posted := by
  induction l generalizing d with
  | nil => rfl
  | cons p r ih => exact (ih (d.set p.1 p.2)).trans rfl
@[simp] theorem Dev.setAll_todTx (d : Dev) (l : List (Fld × Nat)) : (d.setAll l).todTx = d.todTx := by
  induction l generalizing d with
  | nil => rfl
  | cons p r ih => exact (ih (d.set p.1 p.2)).trans rfl
@[simp] theorem Dev.setAll_todRx (d : Dev) (l : List (Fld × Nat)) : (d.setAll l).todRx = d.todRx := by
  induction l generalizing d with
  | nil => rfl
  | cons p r ih => exact (ih (d.set p.1 p.2)).trans rfl
@[simp] theorem Dev.setAll_waiting (d : Dev) (l : List (Fld × Nat)) : (d.setAll l).waiting = d.waiting := by
  induction l generalizing d with
  | nil => rfl
  | cons p r ih => exact (ih (d.set p.1 p.2)).trans rfl
@[simp] theorem Dev.setAll_issuing (d : Dev) (l : List (Fld × Nat)) : (d.setAll l).issuing = d.issuing := by
  induction l generalizing d with
  | nil => rfl
  | cons p r ih => exact (ih (d.set p.1 p.2)).trans rfl
@[simp] theorem Dev.setAll_releasing (d : Dev) (l : List (Fld × Nat)) : (d.setAll l).releasing = d.releasing := by
  induction l generalizing d with
  | nil => rfl
  | cons p r ih => exact (ih (d.set p.1 p.2)).trans rfl
@[simp] theorem Dev.setAll_slewIssued (d : Dev) (l : List (Fld × Nat)) : (d.setAll l).slewIssued = d.slewIssued := by
  induction l generalizing d with
  | nil => rfl
  | cons p r ih => exact (ih (d.set p.1 p.2)).trans rfl
@[simp] theorem Dev.setAll_slewAdmitted (d : Dev) (l : List (Fld × Nat)) : (d.setAll l).slewAdmitted = d.slewAdmitted := by
  induction l generalizing d with
  | nil => rfl
  | cons p r ih => exact (ih (d.set p.1 p.2)).trans rfl
@[simp] theorem Dev.setAll_saEvents (d : Dev) (l : List (Fld × Nat)) : (d.setAll l).saEvents = d.saEvents := by
  induction l generalizing d with
  | nil => rfl
  | cons p r ih => exact (ih (d.set p.1 p.2)).trans rfl
@[simp] theorem Dev.setAll_frames (d : Dev) (l : List (Fld × Nat)) : (d.setAll l).frames = d.frames := by
  induction l generalizing d with
  | nil => rfl
  | cons p r ih => exact (ih (d.set p.1 p.2)).trans rfl
@[simp] theorem Dev.setAll_copies (d : Dev) (l : List (Fld × Nat)) : (d.setAll l).copies = d.copies := by
  induction l generalizing d with
  | nil => rfl
  | cons p r ih => exact (ih (d.set p.1 p.2)).trans rfl
@[simp] theorem Dev.setAll_txs (d : Dev) (l : List (Fld × Nat)) : (d.setAll l).txs = d.txs := by
  induction l generalizing d with
  | nil => rfl
  | cons p r ih => exact (ih (d.set p.1 p.2)).trans rfl
@[simp] theorem Dev.setAll_cellMem (d : Dev) (l : List (Fld × Nat)) : (d.setAll l).cellMem = d.cellMem := by
  induction l generalizing d with
  | nil => rfl
  | cons p r ih => exact (ih (d.set p.1 p.2)).trans rfl
@[simp] theorem Dev.setAll_looped (d : Dev) (l : List (Fld × Nat)) : (d.setAll l).looped = d.looped := by
  induction l generalizing d with
  | nil => rfl
  | cons p r ih => exact (ih (d.set p.1 p.2)).trans rfl
@[simp] theorem Dev.setAll_txHeld (d : Dev) (l : List (Fld × Nat)) : (d.setAll l).txHeld = d.txHeld := by
  induction l generalizing d with
  | nil => rfl
  | cons p r ih => exact (ih (d.set p.1 p.2)).trans rfl
@[simp] theorem Dev.setAll_descs (d : Dev) (l : List (Fld × Nat)) : (d.setAll l).descs = d.descs := by
  induction l generalizing d with
  | nil => rfl
  | cons p r ih => exact (ih (d.set p.1 p.2)).trans rfl
@[simp] theorem Dev.setAll_dram (d : Dev) (l : List (Fld × Nat)) : (d.setAll l).dram = d.dram := by
  induction l generalizing d with
  | nil => rfl
  | cons p r ih => exact (ih (d.set p.1 p.2)).trans rfl
@[simp] theorem Dev.setAll_mgMajor (d : Dev) (l : List (Fld × Nat)) : (d.setAll l).mgMajor = d.mgMajor := by
  induction l generalizing d with
  | nil => rfl
  | cons p r ih => exact (ih (d.set p.1 p.2)).trans rfl
@[simp] theorem Dev.setAll_mgMinor (d : Dev) (l : List (Fld × Nat)) : (d.setAll l).mgMinor = d.mgMinor := by
  induction l generalizing d with
  | nil => rfl
  | cons p r ih => exact (ih (d.set p.1 p.2)).trans rfl
@[simp] theorem Dev.setAll_mgTree (d : Dev) (l : List (Fld × Nat)) : (d.setAll l).mgTree = d.mgTree := by
  induction l generalizing d with
  | nil => rfl
  | cons p r ih => exact (ih (d.set p.1 p.2)).trans rfl
@[simp] theorem Dev.setAll_mgCache (d : Dev) (l : List (Fld × Nat)) : (d.setAll l).mgCache = d.mgCache := by
  induction l generalizing d with
  | nil => rfl
  | cons p r ih => exact (ih (d.set p.1 p.2)).trans rfl
@[simp] theorem Dev.setAll_mgPending (d : Dev) (l : List (Fld × Nat)) : (d.setAll l).mgPending = d.mgPending := by
  induction l generalizing d with
  | nil => rfl
  | cons p r ih => exact (ih (d.set p.1 p.2)).trans rfl
@[simp] theorem Dev.setAll_mgReenc (d : Dev) (l : List (Fld × Nat)) : (d.setAll l).mgReenc = d.mgReenc := by
  induction l generalizing d with
  | nil => rfl
  | cons p r ih => exact (ih (d.set p.1 p.2)).trans rfl
@[simp] theorem Dev.setAll_ropeHeld (d : Dev) (l : List (Fld × Nat)) : (d.setAll l).ropeHeld = d.ropeHeld := by
  induction l generalizing d with
  | nil => rfl
  | cons p r ih => exact (ih (d.set p.1 p.2)).trans rfl
@[simp] theorem Dev.setAll_lineWait (d : Dev) (l : List (Fld × Nat)) : (d.setAll l).lineWait = d.lineWait := by
  induction l generalizing d with
  | nil => rfl
  | cons p r ih => exact (ih (d.set p.1 p.2)).trans rfl
@[simp] theorem Dev.setAll_lines (d : Dev) (l : List (Fld × Nat)) : (d.setAll l).lines = d.lines := by
  induction l generalizing d with
  | nil => rfl
  | cons p r ih => exact (ih (d.set p.1 p.2)).trans rfl
@[simp] theorem Dev.setAll_sram (d : Dev) (l : List (Fld × Nat)) : (d.setAll l).sram = d.sram := by
  induction l generalizing d with
  | nil => rfl
  | cons p r ih => exact (ih (d.set p.1 p.2)).trans rfl
@[simp] theorem Dev.setAll_serial (d : Dev) (l : List (Fld × Nat)) : (d.setAll l).serial = d.serial := by
  induction l generalizing d with
  | nil => rfl
  | cons p r ih => exact (ih (d.set p.1 p.2)).trans rfl
@[simp] theorem Dev.setAll_freeCtr (d : Dev) (l : List (Fld × Nat)) : (d.setAll l).freeCtr = d.freeCtr := by
  induction l generalizing d with
  | nil => rfl
  | cons p r ih => exact (ih (d.set p.1 p.2)).trans rfl
@[simp] theorem Dev.setAll_out (d : Dev) (l : List (Fld × Nat)) : (d.setAll l).out = d.out := by
  induction l generalizing d with
  | nil => rfl
  | cons p r ih => exact (ih (d.set p.1 p.2)).trans rfl

@[simp] theorem Dev.emit_cells (d : Dev) (x : Out) : (d.emit x).cells = d.cells := rfl
@[simp] theorem Dev.emit_time (d : Dev) (x : Out) : (d.emit x).time = d.time := rfl
@[simp] theorem Dev.emit_cyc (d : Dev) (x : Out) : (d.emit x).cyc = d.cyc := rfl
@[simp] theorem Dev.emit_tick (d : Dev) (x : Out) : (d.emit x).tick = d.tick := rfl
@[simp] theorem Dev.emit_tickTime (d : Dev) (x : Out) : (d.emit x).tickTime = d.tickTime := rfl
@[simp] theorem Dev.emit_nextTick (d : Dev) (x : Out) : (d.emit x).nextTick = d.nextTick := rfl
@[simp] theorem Dev.emit_posted (d : Dev) (x : Out) : (d.emit x).posted = d.posted := rfl
@[simp] theorem Dev.emit_todTx (d : Dev) (x : Out) : (d.emit x).todTx = d.todTx := rfl
@[simp] theorem Dev.emit_todRx (d : Dev) (x : Out) : (d.emit x).todRx = d.todRx := rfl
@[simp] theorem Dev.emit_waiting (d : Dev) (x : Out) : (d.emit x).waiting = d.waiting := rfl
@[simp] theorem Dev.emit_issuing (d : Dev) (x : Out) : (d.emit x).issuing = d.issuing := rfl
@[simp] theorem Dev.emit_releasing (d : Dev) (x : Out) : (d.emit x).releasing = d.releasing := rfl
@[simp] theorem Dev.emit_slewIssued (d : Dev) (x : Out) : (d.emit x).slewIssued = d.slewIssued := rfl
@[simp] theorem Dev.emit_slewAdmitted (d : Dev) (x : Out) : (d.emit x).slewAdmitted = d.slewAdmitted := rfl
@[simp] theorem Dev.emit_saEvents (d : Dev) (x : Out) : (d.emit x).saEvents = d.saEvents := rfl
@[simp] theorem Dev.emit_frames (d : Dev) (x : Out) : (d.emit x).frames = d.frames := rfl
@[simp] theorem Dev.emit_copies (d : Dev) (x : Out) : (d.emit x).copies = d.copies := rfl
@[simp] theorem Dev.emit_txs (d : Dev) (x : Out) : (d.emit x).txs = d.txs := rfl
@[simp] theorem Dev.emit_cellMem (d : Dev) (x : Out) : (d.emit x).cellMem = d.cellMem := rfl
@[simp] theorem Dev.emit_looped (d : Dev) (x : Out) : (d.emit x).looped = d.looped := rfl
@[simp] theorem Dev.emit_txHeld (d : Dev) (x : Out) : (d.emit x).txHeld = d.txHeld := rfl
@[simp] theorem Dev.emit_descs (d : Dev) (x : Out) : (d.emit x).descs = d.descs := rfl
@[simp] theorem Dev.emit_dram (d : Dev) (x : Out) : (d.emit x).dram = d.dram := rfl
@[simp] theorem Dev.emit_mgMajor (d : Dev) (x : Out) : (d.emit x).mgMajor = d.mgMajor := rfl
@[simp] theorem Dev.emit_mgMinor (d : Dev) (x : Out) : (d.emit x).mgMinor = d.mgMinor := rfl
@[simp] theorem Dev.emit_mgTree (d : Dev) (x : Out) : (d.emit x).mgTree = d.mgTree := rfl
@[simp] theorem Dev.emit_mgCache (d : Dev) (x : Out) : (d.emit x).mgCache = d.mgCache := rfl
@[simp] theorem Dev.emit_mgPending (d : Dev) (x : Out) : (d.emit x).mgPending = d.mgPending := rfl
@[simp] theorem Dev.emit_mgReenc (d : Dev) (x : Out) : (d.emit x).mgReenc = d.mgReenc := rfl
@[simp] theorem Dev.emit_ropeHeld (d : Dev) (x : Out) : (d.emit x).ropeHeld = d.ropeHeld := rfl
@[simp] theorem Dev.emit_lineWait (d : Dev) (x : Out) : (d.emit x).lineWait = d.lineWait := rfl
@[simp] theorem Dev.emit_lines (d : Dev) (x : Out) : (d.emit x).lines = d.lines := rfl
@[simp] theorem Dev.emit_sram (d : Dev) (x : Out) : (d.emit x).sram = d.sram := rfl
@[simp] theorem Dev.emit_serial (d : Dev) (x : Out) : (d.emit x).serial = d.serial := rfl
@[simp] theorem Dev.emit_freeCtr (d : Dev) (x : Out) : (d.emit x).freeCtr = d.freeCtr := rfl
@[simp] theorem Dev.emit_out (d : Dev) (x : Out) : (d.emit x).out = d.out ++ [x] := rfl
@[simp] theorem Dev.get_emit (d : Dev) (x : Out) (f : Fld) : (d.emit x).get f = d.get f := rfl

@[simp] theorem Dev.tookFree_cells (d : Dev) : d.tookFree.cells = d.cells := rfl
@[simp] theorem Dev.tookFree_time (d : Dev) : d.tookFree.time = d.time := rfl
@[simp] theorem Dev.tookFree_cyc (d : Dev) : d.tookFree.cyc = d.cyc := rfl
@[simp] theorem Dev.tookFree_tick (d : Dev) : d.tookFree.tick = d.tick := rfl
@[simp] theorem Dev.tookFree_tickTime (d : Dev) : d.tookFree.tickTime = d.tickTime := rfl
@[simp] theorem Dev.tookFree_nextTick (d : Dev) : d.tookFree.nextTick = d.nextTick := rfl
@[simp] theorem Dev.tookFree_posted (d : Dev) : d.tookFree.posted = d.posted := rfl
@[simp] theorem Dev.tookFree_todTx (d : Dev) : d.tookFree.todTx = d.todTx := rfl
@[simp] theorem Dev.tookFree_todRx (d : Dev) : d.tookFree.todRx = d.todRx := rfl
@[simp] theorem Dev.tookFree_waiting (d : Dev) : d.tookFree.waiting = d.waiting := rfl
@[simp] theorem Dev.tookFree_issuing (d : Dev) : d.tookFree.issuing = d.issuing := rfl
@[simp] theorem Dev.tookFree_releasing (d : Dev) : d.tookFree.releasing = d.releasing := rfl
@[simp] theorem Dev.tookFree_slewIssued (d : Dev) : d.tookFree.slewIssued = d.slewIssued := rfl
@[simp] theorem Dev.tookFree_slewAdmitted (d : Dev) : d.tookFree.slewAdmitted = d.slewAdmitted := rfl
@[simp] theorem Dev.tookFree_saEvents (d : Dev) : d.tookFree.saEvents = d.saEvents := rfl
@[simp] theorem Dev.tookFree_frames (d : Dev) : d.tookFree.frames = d.frames := rfl
@[simp] theorem Dev.tookFree_copies (d : Dev) : d.tookFree.copies = d.copies := rfl
@[simp] theorem Dev.tookFree_txs (d : Dev) : d.tookFree.txs = d.txs := rfl
@[simp] theorem Dev.tookFree_cellMem (d : Dev) : d.tookFree.cellMem = d.cellMem := rfl
@[simp] theorem Dev.tookFree_looped (d : Dev) : d.tookFree.looped = d.looped := rfl
@[simp] theorem Dev.tookFree_txHeld (d : Dev) : d.tookFree.txHeld = d.txHeld := rfl
@[simp] theorem Dev.tookFree_descs (d : Dev) : d.tookFree.descs = d.descs := rfl
@[simp] theorem Dev.tookFree_dram (d : Dev) : d.tookFree.dram = d.dram := rfl
@[simp] theorem Dev.tookFree_mgMajor (d : Dev) : d.tookFree.mgMajor = d.mgMajor := rfl
@[simp] theorem Dev.tookFree_mgMinor (d : Dev) : d.tookFree.mgMinor = d.mgMinor := rfl
@[simp] theorem Dev.tookFree_mgTree (d : Dev) : d.tookFree.mgTree = d.mgTree := rfl
@[simp] theorem Dev.tookFree_mgCache (d : Dev) : d.tookFree.mgCache = d.mgCache := rfl
@[simp] theorem Dev.tookFree_mgPending (d : Dev) : d.tookFree.mgPending = d.mgPending := rfl
@[simp] theorem Dev.tookFree_mgReenc (d : Dev) : d.tookFree.mgReenc = d.mgReenc := rfl
@[simp] theorem Dev.tookFree_ropeHeld (d : Dev) : d.tookFree.ropeHeld = d.ropeHeld := rfl
@[simp] theorem Dev.tookFree_lineWait (d : Dev) : d.tookFree.lineWait = d.lineWait := rfl
@[simp] theorem Dev.tookFree_lines (d : Dev) : d.tookFree.lines = d.lines := rfl
@[simp] theorem Dev.tookFree_sram (d : Dev) : d.tookFree.sram = d.sram := rfl
@[simp] theorem Dev.tookFree_serial (d : Dev) : d.tookFree.serial = d.serial := rfl
@[simp] theorem Dev.tookFree_out (d : Dev) : d.tookFree.out = d.out := rfl
@[simp] theorem Dev.tookFree_freeCtr (d : Dev) : d.tookFree.freeCtr = d.freeCtr + 1 := rfl
@[simp] theorem Dev.get_tookFree (d : Dev) (f : Fld) : d.tookFree.get f = d.get f := rfl

end Sys2Proof.Machine
end

