-- ==== Sys2Proof/WellFormed.lean ====
section
/-! DEFINITION. Well-formed commands: the conditions on operands that the rules state and the operand types do not enforce. The meanings
are total and do not assume them: a sender that is what the manual says sends no other command. -/

namespace Sys2Proof

/-- A register address names a word: BAR0 is read and written in aligned 32-bit words (R4). -/
def wordAligned (a : BitVec 24) : Bool := a.toNat % 4 == 0

/-- An 8-byte access is aligned to 8 bytes (R33). -/
def pairAligned (a : BitVec 24) : Bool := a.toNat % 8 == 0

/-- A ring descriptor has eight 32-bit words (R346). -/
def descriptorWords (ws : List Word) : Bool := ws.length == 8

/-- A stage-1 header has 512 bytes (R369). -/
def flashHeader (f : FlashImage) : Bool := f.error || f.header.length == 512

/-- The operand conditions of a command. -/
def Instr.wf : Instr → Bool
  | .registerWrite _ _ a _ v => wordAligned a && (v.hi.isNone || pairAligned a)
  | .reg64LowRead _ x => wordAligned x.addr && (!x.wide || pairAligned x.addr)
  | .reg64LowWrite _ a _ => wordAligned a
  | .reg64HighWrite _ a _ => wordAligned a
  | .readClear _ x => wordAligned x.addr
  | .rxFrameHead _ _ _ bytes _ => !bytes.isEmpty
  | .mgmt0RxFrame bytes _ _ => !bytes.isEmpty
  | .scanPointDone _ m _ => decide (10 ≤ m)
  | .fecUncorrectable r => r.good.all fun xs => decide (xs.sum ≤ 15)
  | .checkerLockLoss _ bits errors => decide (errors ≤ bits) && decide (64 ≤ errors)
  | .richnessWindow _ flips _ run => decide (flips ≤ 16384) && decide (run ≤ 16384)
  | .rxRingDelivery words => descriptorWords words
  | .txDescriptorFetch _ words _ => descriptorWords words
  | .bootRom p q _ => flashHeader p && flashHeader q
  | .memoryAccess _ _ n data _ => (match data with
    | some bs => !bs.isEmpty
    | none => decide (1 ≤ n))
  | .cipherCheckMismatch site _ _ => (match site with
    | .rx p _ _ _ => decide (p < 256)
    | .tx p => decide (p < 256)
    | .keyLoad => true)
  | _ => true

end Sys2Proof
end

