-- ==== Sys2Proof/Tests/Slice0.lean ====
section
/-! SUPPORT. Small tests: ill-formed commands are refused, published vectors of the standards the spec names, and for
every statement states and operands that meet its hypotheses, clause by clause. -/

namespace Sys2Proof.Tests

open Sys2Proof.Machine

-- One theorem after another: each is checked on a stack of its own.
set_option Elab.async false

/-- The outcome is a next state that passes a test. -/
def nextSat (o : Host.Outcome State Fault Refusal) (p : State → Bool) : Bool :=
  match o with
  | .next t => p t
  | _ => false

/-- A running device whose fields read these values and otherwise their reset values. -/
def st (kvs : List (Fld × Nat)) : State := { State.reset with run := .active, power := .active, d := Dev.empty.setAll kvs }
/-- The same state with other contents. -/
def stWith (kvs : List (Fld × Nat)) (f : Dev → Dev) : State := let s := st kvs; { s with d := f s.d }

/-! ## Well-formed commands -/

theorem test_wf_word : Instr.wf (.registerWrite .host .bar0 0x000042 15 ⟨0, none⟩) = false ∧ Instr.wf (.readClear .host ⟨.bar0, 0x000041⟩) = false ∧
    Instr.wf (.reg64LowRead .host ⟨0x000001, false⟩) = false ∧ Instr.wf (.reg64LowWrite .host 0x000002 0) = false ∧
    Instr.wf (.reg64HighWrite .host 0x000003 0) = false := by decide
theorem test_wf_pair : Instr.wf (.registerWrite .host .bar0 0x000044 15 ⟨0, some 1⟩) = false ∧
    Instr.wf (.reg64LowRead .host ⟨0x000044, true⟩) = false ∧ Instr.wf (.registerWrite .host .bar0 0x000048 15 ⟨0, some 1⟩) = true := by decide
theorem test_wf_frame : Instr.wf (.rxFrameHead 0 false 0 [] false) = false ∧ Instr.wf (.mgmt0RxFrame [] false 0) = false := by decide
theorem test_wf_scan : Instr.wf (.scanPointDone 0 9 0) = false ∧ Instr.wf (.scanPointDone 0 10 0) = true := by decide
theorem test_wf_fec : Instr.wf (.fecUncorrectable ⟨0, [[8, 8]], []⟩) = false := by decide
theorem test_wf_loss : Instr.wf (.checkerLockLoss 0 63 64) = false ∧ Instr.wf (.checkerLockLoss 0 1000 63) = false := by decide
theorem test_wf_rich : Instr.wf (.richnessWindow 0 16385 0 0) = false ∧ Instr.wf (.richnessWindow 0 0 0 16385) = false := by decide
theorem test_wf_descriptor : Instr.wf (.rxRingDelivery [1, 2]) = false ∧ Instr.wf (.txDescriptorFetch 0 [1] []) = false := by decide
theorem test_wf_flash : Instr.wf (.bootRom ⟨[1], [], false⟩ ⟨[], [], true⟩ 0) = false := by decide
theorem test_wf_access : Instr.wf (.memoryAccess 0 0 0 none []) = false ∧ Instr.wf (.memoryAccess 0 0 4 (some []) []) = false := by decide
theorem test_wf_site : Instr.wf (.cipherCheckMismatch (.tx 256) 0 0) = false ∧ Instr.wf (.cipherCheckMismatch (.rx 256 false false []) 0 0) = false := by
  decide


/-! ## States that meet the hypotheses of the statements: the kernel's part, resets and power -/

/-- A write of the tick before waits. -/
def wPosted : State := stWith [] fun d => { d with posted := [(0, .gateOff 3)], tick := 1 }
theorem wit_StepRunsFrontCommand :
    ({ State.reset with pending := [.evFirstRearm] } : State).pending = .evFirstRearm :: [] ∧ State.reset.pending = [] ∧
    wPosted.d.posted = [(0, .gateOff 3)] ∧ (∀ p : Fin 256, Posted.gateOff 3 ≠ .holdoffEnd p) ∧ wPosted.d.get L.AL_NEW = 0 ∧
    wpAnyDue wPosted.d = false ∧ 0 ≠ wPosted.d.tick ∧ wPosted.live (Posted.gateOff 3).page = true ∧
    ({ wPosted with power := .standby } : State).live (Posted.gateOff 3).page = false ∧ (st [(L.AL_NEW, 1)]).d.get L.AL_NEW ≠ 0 := by
  refine ⟨rfl, rfl, rfl, ?_⟩; decide +kernel

theorem wit_EventRegisterRows : (st []).live 0x30 = true ∧ (st []).live 1 = true ∧ State.reset.live 0x70 = false := by decide
theorem wit_AnchorWriteSetsGroups : State.reset.live 0x05 = true ∧ State.reset.live 0x00 = true := by decide

/-- Source 0 is asserted and names vector 5 for the host. -/
def wVec (more : List (Fld × Nat)) : State := st ([(R.EV_CFG_TO_HOST 0, 1), (R.EV_CFG_VECTOR 0, 5), (L.EVT_LATCH 0, 1), (L.EVT_ENABLE 0, 1)] ++ more)
theorem wit_MsixRows : vectorActive (wVec []).d 5 = true ∧ vectorMasked (wVec [(L.MSIX_MASK 5, 0)]).d 5 = false ∧
    vectorMasked (wVec []).d 5 = true ∧ ackedNow (wVec []).d 5 = false ∧ bitAt ((wVec []).d.get R.VEC_SENT) 5 = false ∧
    ackedNow (wVec [(L.VEC_ACK_TICK 5, 1)]).d 5 = true ∧ bitAt ((wVec [(L.MSIX_PENDING, 32)]).d.get L.MSIX_PENDING) 5 = true ∧
    (wVec []).d.get L.MSIX_PENDING = 0 := by decide +kernel

theorem wit_WholePartResets : State.reset.power ≠ .baseCampOnly ∧ State.reset.live 0 = true ∧ (0xD1E5#16).toNat = 0xD1E5 ∧
    State.reset.intentQuiet ∧ (0#16).toNat ≠ 0xD1E5 := by unfold State.intentQuiet; decide
theorem wit_SupplyLossAndPcieResets : State.reset.intentQuiet ∧ State.reset.power ≠ .baseCampOnly := by unfold State.intentQuiet; decide

/-- The watchdog in a stage, with its action, when its time has passed. -/
def wDog (stage action : Nat) : State := stWith [(R.WD_STATUS_STAGE, stage), (R.WD_CTRL_ACTION, action), (R.WD_LIMIT, 4)]
  fun d => { d with cyc := 10 ^ 12 }
theorem wit_WatchdogRows : State.reset.live 8 = true ∧ State.reset.d.get R.WD_CTRL_ENABLE = 0 ∧ (wDog 1 1).d.get R.WD_STATUS_STAGE ≠ 0 ∧
    bitAt ((wDog 1 1).d.get L.AL_LEVEL) 56 = false ∧ (wDog 1 1).frozen = false ∧ wdPassed (wDog 1 1).d ((wDog 1 1).d.get R.WD_TIMEOUT) = true ∧
    wdPassed (wDog 2 4).d ((wDog 2 4).d.get R.WD_GRACE) = true ∧
    (∀ a ∈ [1, 3, 4], min ((wDog 2 a).d.get R.WD_CTRL_ACTION) ((wDog 2 a).d.get R.WD_LIMIT) = a) := by decide +kernel
theorem wit_ManagementRestartRows : State.reset.d.get R.MGMT_STATUS_RESTARTING = 0 ∧
    (let s := stWith [(R.MGMT_STATUS_RESTARTING, 1)] fun d => { d with cyc := 10000 };
      s.frozen = false ∧ s.d.get R.MGMT_STATUS_RESTARTING = 1 ∧ s.d.get L.RESTART_AT + 10000 ≤ s.d.cyc) ∧
    State.reset.d.cyc < State.reset.d.get L.RESTART_AT + 10000 := by decide +kernel

/-- The power state, a target in slot 0, and a transition in progress. -/
def wPwr (p : PowerState) (target tr granted : Nat) : State :=
  { st [(L.SLOT_ARG 0 0, target), (R.PWR_STATUS_TRANSITION, tr), (L.PWR_GRANTED, granted)] with power := p }
theorem wit_PowerTransitionRows : (wPwr .standby 2 0 0).live 4 = true ∧ slotActive (wPwr .standby 2 0 0).d 0 = false ∧
    (wPwr .standby 2 0 0).d.get (L.SLOT_ARG 0 0) % 4 = 2 ∧ arbExceeds (wPwr .standby 2 0 0).d reqPowerState islandUnits = false ∧
    (wPwr .active 1 0 0).d.get (L.SLOT_ARG 0 0) % 4 = 1 ∧ islandIdle (wPwr .active 1 0 0).d = true ∧
    (wPwr .standby 2 1 1).d.get R.PWR_STATUS_TRANSITION = 1 ∧ (wPwr .standby 2 1 1).d.get L.PWR_GRANTED = 1 ∧
    (wPwr .active 1 2 0).d.get R.PWR_STATUS_TRANSITION = 2 ∧ (wPwr .active 1 2 0).frozen = false := by decide +kernel

/-- One request of the vault waits. -/
def wArb : State := stWith [] fun d => { d with cyc := 4, waiting := [⟨reqVault, 2, classA, .vault, 0, false⟩] }
theorem wit_ArbiterRows : wArb.frozen = false ∧ 0 ≠ wArb.d.cyc ∧ 2 ≤ arbFree wArb.d + unusedFloor wArb.d reqVault ∧ 2 ≤ slewRoom wArb.d wArb.d.slewIssued ∧
    wArb.d.get (R.REQ_GRANTED reqVault) + 2 < 4096 ∧
    (let s := st []; 0 < slewRoom s.d s.d.slewIssued ∧ slewRoom s.d s.d.slewIssued < 10000 ∧ 1 ≤ slewRoom s.d s.d.slewAdmitted ∧
      s.live 4 = true ∧ anchored s.anchors 3 = false ∧ arbAccounted s.d + unusedFloors s.d ≤ 0xFFF ∧
      ¬ (64 ≤ 0 ∧ arbAccounted s.d + unusedFloors s.d ≤ 0) ∧ 0 ≠ s.d.get R.BUDGET_CEILING) ∧
    anchored (8 : BitVec 10) 3 = true := by decide +kernel
/-- The request arrived in this tick. -/
theorem wit_ArbiterRows_fresh : let d := { wArb.d with cyc := 0 }; d.waiting ≠ [] ∧ ∀ x ∈ d.waiting, x.arrived = d.cyc := by decide +kernel
/-- Every octet with its ports at full encrypted load, and both engines granted. -/
def wFull : State := stWith [(R.ARB_TOTAL_FIXED_LOAD, 680), (R.REQ_GRANTED reqVault, 2), (R.REQ_GRANTED reqMemGuard, 2)] fun d =>
  d.each 32 fun k d => d.set (R.REQ_GRANTED (reqPorts k)) fullOctet
theorem wit_ArbiterRows_account : wFull.d.get R.ARB_TOTAL_FIXED_LOAD = 680 ∧
    (∀ k < 32, wFull.d.get (R.REQ_GRANTED (reqPorts k)) = fullOctet ∧ wFull.d.get (R.REQ_GRANTED (reqAux k)) = 0) ∧
    wFull.d.get (R.REQ_GRANTED reqVault) = 2 ∧ wFull.d.get (R.REQ_GRANTED reqMemGuard) = 2 ∧ wFull.d.get (R.REQ_GRANTED reqPowerState) = 0 := by
  decide +kernel

/-- Voltage scaling runs, 100 microseconds after its last step. -/
def wAvs (bad : Nat) : State := stWith [(R.AVS_CTRL_ENABLE, 1), (L.AVS_BAD, bad), (R.AVS_TARGET_MV, 800)] fun d => { d with cyc := 100000 }
theorem wit_VoltageAndCounterRows : (wAvs 0).live 4 = true ∧ (wAvs 0).power ≠ .baseCampOnly ∧ (wAvs 0).d.get R.AVS_CTRL_ENABLE = 1 ∧
    (wAvs 0).d.get L.AVS_STOP = 0 ∧ (wAvs 0).d.get L.AVS_AT + 100000 ≤ (wAvs 0).d.cyc ∧
    (wAvs 0).d.get L.AVS_NOW + 5 ≤ (wAvs 0).d.get R.AVS_TARGET_MV ∧ (wAvs 0).d.get R.AVS_TARGET_MV < 1024 ∧
    ¬ (toSigned 16 0 < 0) ∧ ¬ (toSigned 16 ((wAvs 0).d.get L.TEMP_HOT) < 0) ∧ (815#10).toNat ≤ (wAvs 0).d.get R.AVS_TARGET_MV + 15 ∧
    (wAvs 0).d.get R.AVS_TARGET_MV ≤ (815#10).toNat + 15 ∧ (wAvs 9).d.get R.AVS_TARGET_MV + 15 < (816#10).toNat ∧
    9 ≤ (wAvs 9).d.get L.AVS_BAD ∧ (wAvs 0).frozen = false ∧ bitAt ((st [(R.MGMT_STATUS_CORE_RUN, 8)]).d.get R.MGMT_STATUS_CORE_RUN) 3 = true ∧
    (st []).d.get (L.PERF_EVT 3 7) < 2 ^ 63 := by decide +kernel
theorem wit_SmbusRows : (st []).power ≠ .baseCampOnly ∧ (st []).d.get R.ZEROIZE_STATUS_ACTIVE ≤ 1 ∧ (st []).d.get R.HALT_RECORD_VALID ≤ 1 ∧
    smbAlert (st []).d = false ∧ smbAlert (st [(R.ALARM_LATCH, 2 ^ 64 - 1)]).d = true := by decide +kernel


/-! ## The host interface -/

theorem wit_RegisterAccessRows : (st []).live 0 = true ∧ (st []).live 1 = true ∧ (510 : Fin 512).val % 2 = 0 ∧ (st []).power ≠ .baseCampOnly ∧
    (7#8).toNat % 16 ≠ 15 ∧ (st []).live 2 = true ∧ ropeDisciplined (st []).d = false ∧
    (st [(L.HELD_REG 0 2, 0x121)]).d.get (L.HELD_REG Master.host.num 2) = 0x121 ∧ (st []).d.get (L.HELD_REG Master.mgmt.num 2) = 0 ∧ (st []).frozen = false ∧
    ((3 : Fin 6) < 4) := by
  decide +kernel
theorem wit_SoftResetAndEngineRows : (st []).live 3 = true ∧ (st []).d.get (L.PAGE_ENABLE 3) = 0 ∧ wpArmedList (st []).d = [] ∧
    (st [(L.PAGE_ENABLE 3, 1)]).d.get (L.PAGE_ENABLE 3) = 1 := by decide +kernel

/-- An operation on entry `i` of the requesters' table is under way for the host, and one with a read-once result of three words has ended. -/
def wWin (op i : Nat) (data : Nat) : State :=
  st [(L.WIN_BUSY 0 4, 1), (L.WIN_OP 0 4, op), (L.WIN_INDEX 0 4, i), (L.WIN_DATA 0 4, data), (L.SLOT_CODE (slotId 5 1), codeOk),
    (L.SLOT_READ_ONCE (slotId 5 1), 3)]
theorem wit_TableWindowRows : (st []).live 4 = true ∧ hasWindow Master.host.num 4 = true ∧ (st []).d.get (L.WIN_BUSY Master.host.num 4) = 0 ∧
    (wWin 1 66 0).d.get (L.WIN_BUSY Master.host.num 4) = 1 ∧ (wWin 1 66 0).d.get (L.WIN_TABLE Master.host.num 4) = 0 ∧
    (wWin 1 66 0).d.get (L.WIN_INDEX Master.host.num 4) = (66 : Fin 67).val ∧ (wWin 1 66 0).d.get (L.WIN_OP Master.host.num 4) = 1 ∧
    (wWin 2 0 0xFFF0FFF).d.get (L.WIN_OP Master.host.num 4) = 2 ∧ 67 ≤ (wWin 1 67 0).d.get (L.WIN_INDEX Master.host.num 4) ∧
    (st []).live 5 = true ∧ hasSlots 5 = true ∧ slotSeen Master.host.num 5 = true ∧ slotCode (wWin 1 0 0).d (slotId 5 1) = codeOk ∧
    (wWin 1 0 0).d.get (L.SLOT_READ_ONCE (slotId 5 1)) = (2 : Fin 16).val + 1 := by decide +kernel


/-! ## Time and waypoints -/

theorem wit_TimebaseReferenceRows : (st []).power ≠ .baseCampOnly ∧ (st []).d.get L.TB_RUN = 0 ∧ (st []).d.get R.TB_STATUS_REF_LOST = 0 ∧
    (st [(R.TB_STATUS_REF_LOST, 1)]).d.get R.TB_STATUS_REF_LOST = 1 ∧ (st []).live 2 = true ∧ (st []).d.on R.TB_CTRL_DISCIPLINE_SRC ≠ true ∧
    (let s := stWith [(R.HOLDOVER_TIMEOUT, 1)] fun d => { d with cyc := 1000000 };
      ropeDisciplined s.d = false ∧ s.d.get R.HOLDOVER_TIMEOUT ≠ 0 ∧ s.d.get L.HO_SINCE + s.d.get R.HOLDOVER_TIMEOUT * 1000000 ≤ s.d.cyc) ∧
    (st [(R.TB_STATUS_SLEWING, 1)]).d.get R.TB_STATUS_SLEWING = 1 ∧ (st []).d.get L.ADJ_FINE = 0 := by decide +kernel
theorem wit_SteeringRows : (st []).live 2 = true ∧ ropeDisciplined (st []).d = false ∧ stepInRange (st []).d 1 = true ∧
    stepInRange (st []).d (-1) = false ∧ (st []).d.get (L.PAGE_ENABLE 3) = 0 ∧ (st [(R.SLEW_RATE, 1)]).d.get R.SLEW_RATE ≠ 0 ∧
    (st [(R.SLEW_RATE, 0)]).d.get R.SLEW_RATE = 0 ∧ ropeDisciplined (st [(R.TB_CTRL_DISCIPLINE_SRC, 1), (R.ROPE_CFG_ROLE, 2)]).d = true := by decide +kernel

/-- A pulse input that takes rising edges, at 2 microseconds; the UART with a byte received and one in transmission. -/
def wTod : State := stWith [(R.TB_CTRL_PPS_IN_EN, 2), (R.TOD_CTRL_ENABLE, 1), (L.TOD_TX_BUSY, 1), (L.TOD_LEFT, 1)]
  fun d => { d with cyc := 2000, time := 2000 * fineNs, todRx := [1], todTx := [2] }
theorem wit_TimeReadPpsTodRows : wTod.power ≠ .baseCampOnly ∧ wTod.live 2 = true ∧ bitAt (wTod.d.get R.TB_CTRL_PPS_IN_EN) 1 = true ∧
    bitAt (wTod.d.get R.TB_CTRL_PPS_IN_FALL) 1 ≠ true ∧ wTod.d.get (L.PPS_LAST 1) = 0 ∧
    (0 : Int) ≤ (wTod.d.time : Int) - (0 * 2 ^ 32 : Nat) - toSigned 32 (wTod.d.get (R.PPS_IN_DELAY 1)) * 2 ^ 32 ∧ wTod.d.todTx.length < 64 ∧
    wTod.d.get R.TOD_CTRL_FREE_SEND = 0 ∧ 64 ≤ (stWith [] fun d => { d with todTx := List.replicate 64 0 }).d.todTx.length ∧
    wTod.d.get R.TOD_CTRL_ENABLE = 1 ∧ (st []).d.get R.TOD_CTRL_ENABLE = 0 ∧ wTod.d.todRx = 1 :: [] ∧ wTod.d.get L.TOD_TX_BUSY = 1 ∧
    wTod.d.get L.TOD_LEFT = wTod.d.todTx.length ∧ wTod.d.todTx ≠ [] ∧ (st [(L.TOD_TX_BUSY, 1)]).d.get L.TOD_LEFT = 0 := by decide +kernel

/-- The running engine with entry `n` armed for an action, due at time zero. -/
def wWp (n action target arg : Nat) (more : List (Fld × Nat)) : State :=
  st ([(L.PAGE_ENABLE 3, 1), (R.WP_STATE n, wpArmed), (R.WP_ACTION n, action), (R.WP_TARGET n, target), (R.WP_ARG0 n, arg)] ++ more)
/-- The same entry, found late in an earlier tick. -/
def wWpLate (n action target arg : Nat) (more : List (Fld × Nat)) : State :=
  let s := wWp n action target arg ((L.WP_DUE n, 1) :: more)
  { s with d := { s.d with tick := 1 } }

theorem wit_WaypointTimeRows_noWaits : Dev.empty.posted = [] ∧ NoWaits Dev.empty 7 :=
  ⟨rfl, fun i => ⟨fun h => by simp [Dev.on, show (R.SLOT_PARENT_LOST i).reset = 0 from rfl] at h,
    fun rx h => by simp [Dev.on, show (saParentLostF rx i).reset = 0 by cases rx <;> rfl] at h⟩⟩
theorem wit_WaypointTimeRows : (wWp 4095 wpMark 0 0 []).run.stopped = false ∧ wpReady (wWp 4095 wpMark 0 0 []).d 4095 wpMark = true ∧
    (let s := wWp 0 wpPpsEdge 1 5 [(R.TB_CTRL_PPS_OUT_EN, 2)];
      wpReady s.d 0 wpPpsEdge = true ∧ s.d.get (R.WP_TARGET 0) = (1 : Fin 2).val ∧ bitAt (s.d.get R.TB_CTRL_PPS_OUT_EN) 1 = true ∧
      (0 : Int) ≤ (wpInstant s.d 0 : Int) + toSigned 32 (s.d.get (R.PPS_OUT_DELAY 1)) * 2 ^ 32) ∧
    (let s := wWp 0 wpPpsEdge 1 5 [(R.TB_CTRL_PPS_OUT_EN, 2), (R.PPS_OUT_DELAY 1, 2 ^ 32 - 1)];
      wpReady s.d 0 wpPpsEdge = true ∧ (wpInstant s.d 0 : Int) + toSigned 32 (s.d.get (R.PPS_OUT_DELAY 1)) * 2 ^ 32 < 0) ∧
    bitAt ((wWp 0 wpPpsEdge 1 5 []).d.get R.TB_CTRL_PPS_OUT_EN) 1 = false ∧
    (let s := wWp 3 wpTodSend 0 0 [(R.TOD_CTRL_ENABLE, 1)];
      wpReady s.d 3 wpTodSend = true ∧ s.d.get R.TOD_CTRL_ENABLE = 1 ∧ s.d.get L.TOD_TX_BUSY = 0 ∧ s.d.todTx = []) ∧
    (let s := wWp 3 wpTimeStep 0 1 [];
      wpReady s.d 3 wpTimeStep = true ∧ ropeDisciplined s.d = false ∧
      stepInRange s.d (toSigned 64 (s.d.get (R.WP_ARG0 3) + s.d.get (R.WP_ARG1 3) * 2 ^ 32) * (fineNs : Nat)) = true) ∧
    stepInRange (st []).d (toSigned 64 (2 ^ 64 - 1) * (fineNs : Nat)) = false := by decide +kernel
theorem wit_WaypointTimeRows_write :
    (let s := wWp 3 wpRegWrite 0x000114 9 [];
      wpReady s.d 3 wpRegWrite = true ∧ s.d.get (L.WP_CARRY 3) = 0 ∧ wpWrites s.d < 8 ∧ s.live 0 = true ∧ s.d.get (R.WP_TARGET 3) = 0x000114) ∧
    (let s := wWp 3 wpRegWrite 0x000114 9 [(L.WP_TICK, 1), (L.WP_TICK_COUNT, 8)];
      wpReady s.d 3 wpRegWrite = true ∧ s.d.get (L.WP_CARRY 3) = 0 ∧ 8 ≤ wpWrites s.d) ∧
    (let s := wWp 3 wpRegWrite 0x000114 9 [(L.WP_CARRY 3, 77)];
      wpArmedFor s.d 3 wpRegWrite = true ∧ s.d.get (L.WP_CARRY 3) ≠ 0 ∧ s.d.get (L.WP_CARRY 3) ≠ s.d.tick + 1 ∧ wpFirst s.d 3 = true ∧
      wpWrites s.d < 8) := by decide +kernel

/-- An SA of each direction in a state; transmit SA 5 is SecY 1's second. -/
def wSa (state : Nat) : List (Fld × Nat) := [(R.TXSA_STATE 5, state), (R.RXSA_STATE 65535, state)]
theorem wit_WaypointDataRows_held : ∃ d e : Dev, d.txHeld = [(5, true, 0)] ∧ 0 ≤ d.tickTime ∧ saState d false 5 = saLoaded ∧
    secyInService d 1 = false ∧ e.txHeld = [(5, false, 0)] ∧ saState e false 5 = saInService ∧ (∀ y ∈ Dev.empty.txHeld, y.1 / 4 ≠ 5 / 4) :=
  ⟨(stWith (wSa saLoaded) fun d => { d with txHeld := [(5, true, 0)] }).d, (stWith (wSa saInService) fun d => { d with txHeld := [(5, false, 0)] }).d,
    by decide +kernel⟩
theorem wit_WaypointDataRows_switch :
    (let s := wWp 9 wpTxSaSwitch 1 1 (wSa saLoaded);
      wpReady s.d 9 wpTxSaSwitch = true ∧ s.d.get (R.WP_TARGET 9) < 4096 ∧ saState s.d false (4 * 1 + 1 % 4) = saLoaded ∧
      s.d.get (R.SECY_SWITCH_PENDING 1) = 0) ∧
    saState (wWp 9 wpTxSaSwitch 1 1 []).d false (4 * 1 + 1 % 4) ≠ saLoaded := by decide +kernel
theorem wit_WaypointDataRows_enable :
    (let s := wWp 9 wpSaEnable 65535 1 (wSa saLoaded); wpReady s.d 9 wpSaEnable = true ∧ saState s.d true 65535 = saLoaded) ∧
    (let s := wWp 9 wpSaEnable 5 0 (wSa saLoaded);
      wpReady s.d 9 wpSaEnable = true ∧ s.d.on (L.WP_DUE 9) = false ∧
      saState (heldApply s.d (heldFor (5 / 4) (wpInstant s.d 9))) false 5 = saLoaded ∧
      secyInService (heldApply s.d (heldFor (5 / 4) (wpInstant s.d 9))) (5 / 4) = false) ∧
    (let s := wWpLate 9 wpSaEnable 5 0 (wSa saLoaded);
      wpReady s.d 9 wpSaEnable = true ∧ s.d.on (L.WP_DUE 9) = true ∧ saState s.d false 5 = saLoaded ∧ secyInService s.d (5 / 4) = false) ∧
    (let s := wWpLate 9 wpSaEnable 5 0 []; wpReady s.d 9 wpSaEnable = true ∧ saState s.d false 5 ≠ saLoaded ∧ saState s.d true 5 ≠ saLoaded) := by
  decide +kernel
theorem wit_WaypointDataRows_retire :
    (let s := wWp 9 wpSaRetire 65535 1 (wSa saInService);
      wpReady s.d 9 wpSaRetire = true ∧ saState s.d true 65535 = saInService ∧ s.d.get (L.RXSA_UNTIL_V 65535) = 0) ∧
    (let s := wWp 9 wpSaRetire 5 0 (wSa saInService);
      wpReady s.d 9 wpSaRetire = true ∧ s.d.on (L.WP_DUE 9) = false ∧
      saState (heldApply s.d (heldFor (5 / 4) (wpInstant s.d 9))) false 5 = saInService) ∧
    (let s := wWpLate 9 wpSaRetire 5 0 (wSa saInService);
      wpReady s.d 9 wpSaRetire = true ∧ s.d.on (L.WP_DUE 9) = true ∧ saState s.d false 5 = saInService) ∧
    (let s := wWpLate 9 wpSaRetire 5 0 []; wpReady s.d 9 wpSaRetire = true ∧ saState s.d false 5 ≠ saInService) := by decide +kernel
/-- The admin list of port 255 with a cycle of 1 ms that starts at 1 s. -/
def wGate : List (Fld × Nat) :=
  [(R.GATE_GATE_ENABLE 255, 1), (R.GATE_ADMIN_BASE_SEC 255, 1), (R.GATE_ADMIN_CYCLE_NS 255, 1000000), (R.GATE_ADMIN_LIST_LENGTH 255, 1),
    (R.ADMIN_INTERVAL (256 * 255), 1000000), (L.PAGE_ENABLE (gatePage 255), 1)]
theorem wit_WaypointDataRows_window :
    (let s := wWp 9 wpGateListSwap 255 0 []; wpReady s.d 9 wpGateListSwap = true ∧ s.d.get (R.WP_TARGET 9) < 256 ∧ gateCheck s.d 255 ≠ codeOk) ∧
    gateCheck (wWp 9 wpGateListSwap 255 0 wGate).d 255 = codeOk ∧
    (let s := wWp 9 wpWindowEdge 3 10 [];
      wpReady s.d 9 wpWindowEdge = true ∧ s.d.get (L.PAGE_ENABLE 0xC) = 0) ∧
    (let s := wWp 9 wpWindowEdge 3 10 [(L.PAGE_ENABLE 0xC, 1), (R.PTEL_WINDOW_EN 255, 1), (R.PTEL_WINDOW_GROUP 255, 3)];
      wpReady s.d 9 wpWindowEdge = true ∧ s.d.get (L.PAGE_ENABLE 0xC) = 1 ∧ (∀ r < 256, r ≠ (255 : Fin 256).val → s.d.get (R.PTEL_WINDOW_EN r) = 0) ∧
      s.d.get (R.PTEL_WINDOW_EN 255) = 1 ∧ s.d.get (R.PTEL_WINDOW_GROUP 255) = s.d.get (R.WP_TARGET 9) ∧ s.d.get (L.WIN_OPEN 255 0) = 0 ∧
      s.d.get (L.WIN_OPEN 255 1) = 0) ∧
    (let s := wWp 9 wpEyeScanStart 255 0 []; wpReady s.d 9 wpEyeScanStart = true ∧ scanCheck s.d 255 0 ≠ codeOk) ∧
    (let s := wWp 9 wpEyeScanStart 255 0 [(L.PAGE_ENABLE 0x2F, 1), (R.LANE_STATUS_STAGE 255, 7)]; scanCheck s.d 255 0 = codeOk) := by decide +kernel


/-! ## SAs and gates -/

theorem wit_SaRows : (st []).live 0x70 = true ∧ (st []).d.get R.SA_CMD_STATUS_BUSY = 0 ∧
    (st [(R.SA_CMD_STATUS_BUSY, 1)]).d.get R.SA_CMD_STATUS_BUSY ≠ 0 ∧ saState (st (wSa saLoaded)).d true 65535 = saLoaded ∧
    saState (st (wSa saLoaded)).d false 5 = saLoaded ∧ secyInService (st (wSa saLoaded)).d (5 / 4) = false ∧
    saState (st []).d true 65535 ≠ saLoaded ∧ saState (st []).d false 5 ≠ saLoaded ∧ saState (st (wSa saInService)).d true 65535 = saInService ∧
    (st (wSa saInService)).d.get (L.RXSA_UNTIL_V 65535) = 0 ∧ saState (st []).d true 65535 ≠ saInService ∧
    saState (st (wSa saInService)).d false 5 = saInService ∧ saState (st []).d false 5 ≠ saInService ∧ (st []).frozen = false ∧
    saState (st (wSa saDraining)).d false 5 = saDraining ∧ (st []).d.saEvents.length < 256 ∧
    (st [(L.RXSA_UNTIL_V 65535, 1)]).d.get (L.RXSA_UNTIL_V 65535) = 1 ∧
    (stWith [] fun d => { d with saEvents := [7] }).d.saEvents = 7 :: [] := by decide +kernel

/-- Port 255's admin list is good and starts at 1 s; or a change is pending at a time. -/
def wGateAt (pending at' : Nat) : State := st (wGate ++ [(R.GATE_CONFIG_PENDING 255, pending), (L.GATE_AT 255, at')])
theorem wit_GateCommandRows : (wGateAt 0 0).live 0x87 = true ∧ (wGateAt 0 0).d.get (R.GATE_CMD_STATUS_BUSY 7) = 0 ∧
    (st [(R.GATE_CMD_STATUS_BUSY 7, 1)]).d.get (R.GATE_CMD_STATUS_BUSY 7) ≠ 0 ∧ gateCheck (wGateAt 0 0).d (32 * 7 + 31) = codeOk ∧
    gateAdminBase (wGateAt 0 0).d 255 < 2 ^ 127 ∧ (wGateAt 0 0).d.tickTime < 2 ^ 127 ∧
    (wGateAt 0 0).d.tickTime + gateMargin ≤ gateAdminBase (wGateAt 0 0).d 255 ∧
    gateAdminBase (st []).d 255 < (st []).d.tickTime + gateMargin ∧ gateCheck (st []).d 255 ≠ codeOk ∧
    (wGateAt 1 0).d.get (R.GATE_CONFIG_PENDING 255) = 1 ∧
    (wGateAt 1 (gateMargin + 1)).d.tickTime + gateMargin < (wGateAt 1 (gateMargin + 1)).d.get (L.GATE_AT 255) ∧
    (wGateAt 1 gateMargin).d.get (L.GATE_AT 255) ≤ (wGateAt 1 gateMargin).d.tickTime + gateMargin := by decide +kernel
theorem wit_GateEffectRows : (wGateAt 1 0).frozen = false ∧ (wGateAt 1 0).d.get (R.GATE_CONFIG_PENDING 255) = 1 ∧
    (wGateAt 1 0).d.get (L.GATE_AT 255) ≤ (wGateAt 1 0).d.time ∧ (wGateAt 1 0).d.get (R.GATE_ADMIN_LIST_LENGTH 255) ≤ 256 ∧
    (let s := st ((L.GATE_RUN 255, 1) :: wGate); gatesOn s.d 255 = true ∧ s.d.get (L.GATE_RUN 255) = 1 ∧ preTx s.d 255 = none) ∧
    (let s := st [(R.PSCHED_PREEMPT_EN 255, 1), (R.PSCHED_VERIFY_EN 255, 1), (R.PSCHED_VERIFY_STATUS 255, 2)];
      s.d.get (R.PSCHED_PREEMPT_EN 255) = 1 ∧ s.d.get (R.PSCHED_VERIFY_EN 255) = 1 ∧ s.d.get (R.PSCHED_VERIFY_STATUS 255) = 2 ∧
      iface s.d 255 ≤ 3) ∧
    (let s := st [(L.PREEMPT_WANT 255, 1)];
      s.d.get (L.PREEMPT_WANT 255) = 1 ∧ suspendedTx s.d 255 = none ∧ s.d.get (R.PSCHED_PREEMPT_EN 255) = 0) := by decide +kernel


/-! ## Lanes -/

/-- Octet 31 as eight ports of one lane, with lane 255 in a stage. -/
def wLane (stage : Nat) (more : List (Fld × Nat)) : State :=
  st ([(R.OCT_PORT_MODE_MODE 31, 1), (L.PAGE_ENABLE 0x2F, 1), (R.LANE_STATUS_STAGE 255, stage)] ++ more)
theorem wit_LaneClockRows : (wLane 0 []).live 0x2F = true ∧ (∀ x < 8, laneStage (wLane 0 []).d (8 * 31 + x) = stOff) ∧
    laneStage (wLane 1 []).d (8 * 31 + 7) ≠ stOff ∧ (wLane 1 []).d.get (R.LANE_STATUS_PLL (8 * 31 + 7)) = 0 ∧ (wLane 1 []).frozen = false ∧
    (let s := wLane 1 [(L.PLL_RESV 31 0, 1), (L.LANE_BURST 255, 2)];
      s.d.get (L.OCT_REF_ABSENT 31) = 0 ∧ s.d.get (L.PLL_RESV 31 0) = 1 ∧ pllUsed s.d 31 0 = true ∧ laneStage s.d 255 = stPowerWait ∧
      s.d.get (L.LANE_BURST 255) = 2) ∧
    laneStage (wLane 2 []).d 255 ≠ stPowerWait ∧ laneStage (wLane 7 []).d 255 = stActive ∧ (∀ x < 8, laneStage (wLane 2 []).d (8 * 31 + x) ≠ stActive) ∧
    (wLane 2 [(R.OCT_STATUS_PLL_A_LOCKED 31, 1)]).d.get (pllLockedF 31 0) = 1 := by decide +kernel

theorem wit_LaneBringupRows_test : (wLane 0 []).live 0x2F = true ∧ lanePortOn (wLane 0 []).d 255 = none ∧
    (let s := wLane 0 [(R.LANE_CTRL_RATE 255, 3), (R.OCT_PLL_A_VCO 31, 3)];
      s.d.get (R.LANE_CTRL_TEST_ENABLE 255) = 0 ∧ s.d.get (L.PAGE_ENABLE 0x2F) = 1 ∧ pllFor s.d 31 (laneRate s.d 255) ≠ none ∧
      arbExceeds s.d (reqPorts 31) (testUnits s.d 255) = false) ∧
    (wLane 2 [(R.LANE_CTRL_TEST_ENABLE 255, 1)]).d.get (R.LANE_CTRL_TEST_ENABLE 255) = 1 := by decide +kernel
/-- Lane 255 as the lane of its port, which is enabled and in a state. -/
def wPortLane (stage state : Nat) (more : List (Fld × Nat)) : State :=
  wLane stage ([(R.PORT_CTRL_ENABLE 255, 1), (R.PORT_STATUS_STATE 255, state)] ++ more)
theorem wit_LaneBringupRows : (wLane 2 [(L.LANE_BURST 255, 2)]).frozen = false ∧
    (let s := wLane 2 [(L.LANE_BURST 255, 2)]; laneStage s.d 255 = stRxDetect ∧ s.d.get (L.LANE_BURST 255) = 2 ∧ anAwaited s.d 255 = false) ∧
    (let s := wPortLane 2 psBringup [(R.PORT_CTRL_AN_EN 255, 1)];
      lanePortOn s.d 255 = some 255 ∧ laneStage s.d 255 = stRxDetect ∧ s.d.get (R.PORT_CTRL_AN_EN 255) = 1 ∧ s.d.get (R.PORT_STATUS_AN_DONE 255) = 0) ∧
    (let s := wLane 3 [(R.LANE_CTRL_TRAIN_EN 255, 0), (R.RX_EQ_CTRL_ADAPT_HOLD 255, 1)]; laneStage s.d 255 = stTraining ∧ adaptFree s.d 255 = false ∧ trains s.d 255 = false) ∧
    (let s := wLane 4 [(R.OCT_STATUS_PLL_A_LOCKED 31, 1), (R.OCT_PORT_MODE_MODE 31, 0)];
      laneStage s.d 255 = stBitLock ∧ s.d.get (pllLockedF 31 (s.d.get (R.LANE_STATUS_PLL 255))) = 1 ∧ s.d.get (L.LANE_BURST 255) ≠ 1 ∧
      lanePort s.d 255 = none) ∧
    lanePort (wLane 4 []).d 255 = some 255 ∧ laneStage (wLane 5 []).d 255 = stSymbolLock ∧
    (laneStage (wLane 6 []).d 255 = stCapExchange ∧ lanePortOn (wLane 6 []).d 255 = none) ∧
    (let s := wPortLane 6 psBringup [];
      (∀ m ∈ portLanes s.d 255, m ≠ 255 → laneStage s.d m = stActive) ∧ portState s.d 255 = psBringup ∧ disableDue s.d 255 = false) ∧
    (stTraining ≤ laneStage (wLane 6 []).d 255 ∧ laneStage (wLane 6 []).d 255 ≤ stCapExchange ∧ (wLane 6 []).d.get (L.LANE_RELOCK 255) = 0) ∧
    (let s := wPortLane 5 psBringup [(R.PORT_STATUS_FEC_ACTIVE 255, 1)];
      lanePortOn s.d 255 = some 255 ∧ portAligns s.d 255 = true ∧ laneStage s.d 255 = stSymbolLock) := by decide +kernel
/-- Lane 255 trains, with its fifth tap at a value. -/
def wTrain (p1 : Nat) : State := wLane 3 [(R.LANE_CTRL_TRAIN_EN 255, 1), (R.LANE_CTRL_RATE 255, 3), (R.RX_EQ_CTRL_ADAPT_HOLD 255, 1),
  (R.TX_FIR_C_0 255, 0), (R.TX_FIR_C_P1 255, p1)]
theorem wit_LaneBringupRows_train : laneStage (wTrain 30).d 255 = stTraining ∧ adaptFree (wTrain 30).d 255 = false ∧
    trains (wTrain 30).d 255 = true ∧ adaptFree (wLane 3 []).d 255 = true ∧ laneRate (wTrain 30).d 255 = 3 ∧
    (∀ p ∈ [30, 31, 32], (wTrain p).d.get (firTap 255 4) < 64) ∧ (wTrain 30).d.getS (firTap 255 4) < 31 ∧ firSum (wTrain 30).d 255 < 63 ∧
    -32 < (wTrain 30).d.getS (firTap 255 4) ∧ (wTrain 31).d.getS (firTap 255 4) = 31 ∧ (wTrain 32).d.getS (firTap 255 4) = -32 := by
  decide +kernel

theorem wit_LaneLossRows :
    (let s := wLane 7 [(R.OCT_PORT_MODE_MODE 31, 0)]; s.frozen = false ∧ laneStage s.d 255 = stActive ∧ lanePort s.d 255 = none) ∧
    (let s := wPortLane 7 psUp [(R.PORT_CTRL_LANE_HOLDOFF 255, 5)];
      lanePort s.d 255 = some 255 ∧ laneStage s.d 255 = stActive ∧ portState s.d 255 = psUp ∧ s.d.get (R.PORT_CTRL_LANE_HOLDOFF 255) ≠ 0) ∧
    portUp (wPortLane 4 psBringup []).d 255 = false ∧
    (stTraining ≤ laneStage (wLane 3 []).d 255 ∧ laneStage (wLane 3 []).d 255 ≤ stCapExchange) ∧ laneStage (wLane 0 []).d 255 = stOff ∧
    served (wLane 7 []).d 255 = true ∧ (wLane 7 [(R.TS_CAL_STATUS_CALIBRATED 255, 1)]).d.get (R.TS_CAL_STATUS_CALIBRATED 255) = 1 := by
  decide +kernel

/-- Lane 255 is ACTIVE with a one-point scan profile 0, which may be running. -/
def wScan (more : List (Fld × Nat)) : State := wLane 7 more
theorem wit_LaneAdaptScanRows :
    (laneStage (wLane 7 []).d 255 = stActive ∧ (wLane 7 []).d.get (L.LANE_ADAPT 255) = 0 ∧ arbExceeds (wLane 7 []).d (reqAux 31) 2 = false) ∧
    laneStage (wLane 3 []).d 255 = stTraining ∧ laneStage (wLane 7 []).d 255 ≠ stTraining ∧ scanCheck (wScan []).d 255 0 = codeOk ∧
    scanCheck (wScan [(R.SCAN_STATUS_STATE 255, scRunning)]).d 255 0 = codeState ∧
    scanCheck (wScan [(R.SCANP_DWELL_EXP (profileOf 255 15), 43)]).d 255 15 = codeArg ∧
    (wScan [(R.SCAN_STATUS_STATE 255, scRunning)]).d.get (R.SCAN_STATUS_STATE 255) = scRunning ∧
    (wLane 7 [(L.LANE_ADAPT 255, 2)]).d.get (L.LANE_ADAPT 255) = 2 ∧ isRich (wLane 7 []).d 255 0 0 16384 = false ∧
    isRich (wLane 7 []).d 255 16384 16384 1 = true ∧ (wLane 7 [(R.RX_EQ_CTRL_ADAPT_HOLD 255, 1)]).d.get (R.RX_EQ_CTRL_ADAPT_HOLD 255) = 1 ∧
    (wLane 7 [(R.LANE_STATUS_ADAPT_FROZEN 255, 1), (R.RICH_CFG_RESUME_N 255, 1)]).d.get (R.LANE_STATUS_ADAPT_FROZEN 255) = 1 ∧
    adaptFree (wLane 7 [(R.RX_EQ_CTRL_ADAPT_HOLD 255, 0)]).d 255 = true := by decide +kernel
/-- Profile 0 of octet 31 has one phase, and two voltages or one. -/
def wPoints (v : Nat) : State :=
  wScan [(R.SCAN_STATUS_STATE 255, scRunning), (R.SCANP_PH_START (profileOf 255 0), 3), (R.SCANP_PH_STOP (profileOf 255 0), 3),
    (R.SCANP_V_START (profileOf 255 0), 3), (R.SCANP_V_STOP (profileOf 255 0), v), (R.SCANP_V_STEP_LOG (profileOf 255 0), 0),
    (R.SCANP_EYE_MASK (profileOf 255 0), 2), (R.SCANP_DWELL_EXP (profileOf 255 0), 10)]
theorem wit_LaneAdaptScanRows_point :
    (let d := (wPoints 4).d; d.get (R.SCANP_DWELL_EXP (profileOf 255 0)) = 10 ∧ d.get (L.LANE_SCAN_POINT 255) + 1 ≤ scanCount d 255 (profileOf 255 0) ∧
      d.get (L.LANE_SCAN_POINT 255) + 1 ≠ scanCount d 255 (profileOf 255 0)) ∧
    (let d := (wPoints 3).d; d.get (L.LANE_SCAN_POINT 255) + 1 = scanCount d 255 (profileOf 255 0)) := by decide +kernel

/-- Lane 255 is a test lane whose generator runs and whose checker is on. -/
def wGen (pattern rate : Nat) (more : List (Fld × Nat)) : State :=
  wLane 7 ([(R.LANE_CTRL_TEST_ENABLE 255, 1), (R.LANE_CTRL_RATE 255, rate), (R.PRBS_CTRL_GEN_PATTERN 255, pattern), (R.PRBS_STATUS_GEN_RUNNING 255, 1),
    (R.PRBS_CTRL_CHK_EN 255, 1), (R.PRBS_CTRL_CHK_PATTERN 255, pattern), (R.LANE_CTRL_TX_IDLE 255, 0)] ++ more)
theorem wit_PatternRows : testLane (wGen 5 0 []).d 255 = true ∧ (wGen 5 0 []).run ≠ .contained ∧ testLane (wLane 7 []).d 255 = false ∧
    ((wGen 7 1 []).d.get (R.PRBS_CTRL_GEN_PATTERN 255) = 7 ∧ laneRate (wGen 7 1 []).d 255 < 2) ∧
    (wLane 7 []).d.get (R.PRBS_CTRL_CHK_EN 255) = 0 ∧ (wGen 5 0 []).d.get (R.PRBS_CTRL_CHK_EN 255) = 1 ∧ chkRuns (wGen 5 0 []).d 255 = true ∧
    (wGen 5 0 []).d.get (R.PRBS_STATUS_CHK_LOCKED 255) = 0 ∧
    (wGen 5 0 [(R.PRBS_STATUS_CHK_LOCKED 255, 1)]).d.get (R.PRBS_STATUS_CHK_LOCKED 255) = 1 ∧
    (∀ mode ∈ [1, 2, 3], (wGen 5 0 [(R.INJ_CTRL_MODE 255, mode)]).d.get (R.INJ_CTRL_MODE 255) = mode) ∧ laneStage (wGen 5 0 []).d 255 ≠ stOff ∧
    (wGen 5 0 []).d.get (R.PRBS_STATUS_GEN_RUNNING 255) = 1 ∧
    ({ wGen 5 0 [] with run := .halted } : State).run.stopped = true := by decide +kernel
theorem wit_PatternRows_sends : ∀ x ∈ [(5, 0), (8, 1), (7, 3)], let s := wGen x.1 x.2 []; let d := s.d;
    s.run.stopped = false ∧ stPowerWait < laneStage d 255 ∧ d.get (R.LANE_CTRL_TX_IDLE 255) = 0 ∧ d.get (R.LANE_CTRL_TX_INV 255) = 0 ∧
    d.get (R.PRBS_CTRL_GEN_INV 255) = 0 ∧ d.get (R.PRBS_STATUS_GEN_RUNNING 255) = 1 ∧ 77 = 77 - d.get (L.LANE_GEN_FROM 255) ∧
    lanePam4 d 255 = decide (2 ≤ x.2) ∧ d.get (R.PRBS_CTRL_GEN_PATTERN 255) = x.1 ∧ injected d 255 77 = false := by decide +kernel


/-! ## Ports and frames -/

/-- Port 255, of one lane at 10 Gb/s, in a state. -/
def wPort (state : Nat) (more : List (Fld × Nat)) : State :=
  st ([(R.OCT_PORT_MODE_MODE 31, 1), (L.PAGE_ENABLE 0x4F, 1), (R.PORT_STATUS_STATE 255, state), (R.PORT_CTRL_RATE 255, 0)] ++ more)
theorem wit_PortEnableRows : (wPort 0 []).live 0x4F = true ∧ (∀ j < 8, (wPort 0 []).d.get (R.PORT_CTRL_ENABLE (8 * 31 + j)) = 0) ∧
    (wPort 3 [(R.PORT_CTRL_ENABLE 255, 1)]).d.get (R.PORT_CTRL_ENABLE (8 * 31 + 7)) = 1 ∧
    (let s := wPort 0 [];
      (∀ x ∈ s.d.posted, x.2 ≠ .portDisable (255 : Fin 256) ∧ x.2 ≠ .portEnable (255 : Fin 256)) ∧ portState s.d 255 = psDisabled ∧
      s.d.get (L.PAGE_ENABLE (portPage 255)) = 1 ∧ s.run = .active ∧ s.power = .active ∧ served s.d 255 = true ∧
      arbExceeds s.d (reqPorts 31) (portUnits s.d 255) = false) ∧
    ({ wPort 0 [] with power := .standby } : State).live (portPage 255) = true ∧ portState (wPort 4 []).d 255 ≠ psDisabled ∧
    (let s := wPort 2 [(R.PORT_CTRL_ENABLE 255, 1), (R.PORT_CTRL_AN_EN 255, 1), (R.LANE_STATUS_STAGE 255, 2)];
      laneNegotiates s.d 255 = true ∧ laneStage s.d 255 = stRxDetect) ∧
    (let s := wPort 4 [(R.LANE_STATUS_STAGE 255, 7), (L.HOLDOFF_LEN 255, 1)];
      portState s.d 255 = psHoldoff ∧ (∀ l ∈ portLanes s.d 255, laneStage s.d l = stActive) ∧ holdoffPast s.d 255 = false ∧
      disableDue s.d 255 = false) := by decide +kernel
theorem wit_PortFaultRows : (wPort 3 []).frozen = false ∧ (wPort 3 [(R.PORT_STATUS_FEC_ACTIVE 255, 1)]).d.get (R.PORT_STATUS_FEC_ACTIVE 255) = 1 ∧
    [3, 4].sum ≤ fecLimit (wPort 3 []).d 255 ∧ (wPort 3 []).d.get (R.PORT_STATUS_FEC_ACTIVE 255) = 0 ∧ portState (wPort 4 []).d 255 = psHoldoff ∧
    served (wPort 4 []).d 255 = true ∧
    (wPort 4 []).d.get (L.HOLDOFF_AT 255) + 1000 * (wPort 4 []).d.get (L.HOLDOFF_LEN 255) ≤ (wPort 4 []).d.cyc ∧
    (wPort 4 []).d.cyc < (wPort 4 []).d.get (L.HOLDOFF_AT 255) + 1000 * (wPort 4 [(L.HOLDOFF_LEN 255, 1)]).d.get (L.HOLDOFF_LEN 255) ∧
    psBringup ≤ portState (wPort 2 []).d 255 ∧ (wPort 2 []).d.get (R.PORT_STATUS_HI_BER 255) = 0 ∧
    (wPort 2 [(R.PORT_STATUS_HI_BER 255, 1)]).d.get (R.PORT_STATUS_HI_BER 255) = 1 ∧
    (let d := (wPort 3 [(R.PORT_STATUS_ALIGNED 255, 1), (R.PORT_CTRL_LANE_HOLDOFF 255, 1)]).d;
      portState d 255 = psUp ∧ d.get (R.PORT_STATUS_ALIGNED 255) = 1 ∧ d.get (R.PORT_CTRL_LANE_HOLDOFF 255) ≠ 0) ∧
    (wPort 3 []).run = .active ∧ (∀ x ∈ [1, 2, 3], (wPort 3 [(R.PORT_CTRL_TX_FORCE 255, x)]).d.get (R.PORT_CTRL_TX_FORCE 255) = x) ∧
    (wPort 3 []).d.get (R.PORT_CTRL_TX_FORCE 255) = 0 ∧ portState (wPort 3 []).d 255 ≠ psBringup ∧
    (wPort 3 []).d.get (R.PORT_STATUS_LOCAL_FAULT 255) = 0 ∧
    (wPort 3 [(R.PORT_STATUS_RF_RECEIVED 255, 1)]).d.get (R.PORT_STATUS_RF_RECEIVED 255) = 1 ∧
    (wPort 3 []).d.get (R.PORT_STATUS_RF_RECEIVED 255) = 0 ∧ (wPort 3 []).d.get (R.PORT_CTRL_LOOPBACK 255) = 0 := by decide +kernel

/-- A frame that port 255 receives, with the bytes that have come. -/
def wFrame (kind : RxKind) (wire : List Byte) : Frame :=
  { id := 40, fromRing := false, src := 255, pmac := false, stamp := 0, stamped := false, tsHold := false, tsUncal := false, wire := wire, plain := [],
    errored := false, tail := false, passed := false, failed := false, kind := kind, charges := [], secy := none, sc := 0, sa := none, pn := 9,
    key := 0, salt := 0, ssci := 0, sci := 0, suite := 0, off := 0, load := 0, secStatus := 0, bypassClass := 0, rule := none, vid := 0,
    noLearn := false, meter := none, traps := [], cells := 0, cellNos := [], looped := false, status := 0 }
/-- Sixty bytes of a frame with an EtherType and the two bytes behind it. -/
def wBody (et : List Byte) : List Byte := List.replicate 12 1 ++ et ++ List.replicate 44 0
/-- Port 255 is up and receives a frame. -/
def wRx (f : Frame) : State := let s := wPort 3 []; { s with d := { s.d with frames := [f] } }
/-- Port 255 is not protected: the policy of every class is CLEAR (R167). -/
def wClear : List (Fld × Nat) := (List.range 16).map fun c => (R.PORT_CLASS_POLICY (16 * 255 + c), 2)
theorem wit_FrameRows_head :
    (let s := wPort 3 wClear;
      rxInProgress s.d 255 false = none ∧ rxOpen s.run s.d 255 = true ∧ loopAccepts s.d 255 (wBody [8, 0, 0, 0]) = true ∧
      0 ≤ rxStamp s.d 255 0 ∧ (rxParse s.d 255 (wBody [8, 0, 0, 0]) false (rxStamp s.d 255 0).toNat).kind.stored = true ∧
      (rxParse s.d 255 (wBody [0x88, 8, 0, 1]) false (rxStamp s.d 255 0).toNat).kind.stored = false ∧
      (∀ x ∈ s.d.frames, x.id ≠ s.d.serial)) ∧
    rxOpen (wPort 4 []).run (wPort 4 []).d 255 = false ∧ mergeOn (wPort 3 [(R.PSCHED_PREEMPT_EN 255, 1)]).d 255 = true := by decide +kernel
/-- What every tail needs, and the frame's kind. -/
def wTailOk (f : Frame) : Prop :=
  (wRx f).frozen = false ∧ rxInProgress (wRx f).d 255 false = some f ∧ f.failed = false ∧ f.looped = false ∧
  (∀ x ∈ (wRx f).d.frames, x.id = f.id ∨ (x.fromRing = false ∧ x.src = 255 ∧ x.pmac = false ∧ x.tail = false) → x = f) ∧ (wRx f).d.frames.Nodup
theorem wit_FrameRows_tail :
    (let b := wBody [0x88, 8, 0, 1];
      wTailOk (wFrame .macControl b) ∧ lineFault (wRx (wFrame .macControl b)).d 255 (b ++ Crypto.fcs b) false = none ∧
      fieldZ (b ++ Crypto.fcs b) 14 2 = 1 ∧ served (wRx (wFrame .macControl b)).d 255 = true) ∧
    (let b := wBody [8, 0, 0, 0];
      wTailOk (wFrame .plain b) ∧ lineFault (wRx (wFrame .plain b)).d 255 (b ++ Crypto.fcs b) false = none ∧
      lineFault (wRx (wFrame .plain b)).d 255 (b ++ [1, 2, 3, 4]) false = some stompFcs) := by unfold wTailOk; decide +kernel
/-- A frame with a SecTAG of AN 0 and PN 9, the ICV that its zero key gives, and its FCS behind. -/
def wSecured (icv : Nat) : List Byte := wBody [0x88, 0xE5, 0, 0] ++ beBytes 16 icv
def wTag : Nat :=
  let w := wBody [0x88, 0xE5, 0, 0] ++ List.replicate 20 0
  let f := wFrame .controlled w
  let sp := splitData (w.take (12 + (secTag w).len)) (secureData w (secTag w) true) (secTag w).c f.off
  Crypto.gcmTag (frameKeys f) (frameIvOf f) sp.1 sp.2
theorem wit_FrameRows_secured :
    let f := wFrame .controlled (wSecured wTag); let rest := Crypto.fcs (wSecured wTag)
    wTailOk f ∧ lineFault (wRx f).d 255 (f.wire ++ rest) false = none ∧ rxVerify { f with wire := f.wire ++ rest } = true ∧
    ((wRx f).d.on (R.SECY_REPLAY_PROTECT 0) && decide (f.pn < rxLowestPn (wRx f).d 0)) = false ∧ rxLowestPn (wRx f).d 0 ≤ f.pn := by
  unfold wTailOk; decide +kernel
theorem wit_FrameRows_failed :
    let f := wFrame .controlled (wSecured 7); let rest := Crypto.fcs (wSecured 7)
    wTailOk f ∧ lineFault (wRx f).d 255 (f.wire ++ rest) false = none ∧ rxVerify { f with wire := f.wire ++ rest } = false ∧
    (validateMode (wRx f).d 0 = 0 ∨ (secTag (wBody [0x88, 0xE5, 4, 0])).c = true) := by
  unfold wTailOk; decide +kernel

/-- A whole frame of port 255 and a copy of it for queue 15 of the port. -/
def wStored : Frame := { wFrame .plain [] with plain := wBody [8, 0, 0, 0], tail := true, passed := true }
def wCopy : Copy :=
  { id := 9, frame := 40, queue := 16 * 255 + 15, edit := ⟨false, false, 0, 0, false, false, false⟩, cdOp := 0, cdTime := 0, flow := 0, colour := 0,
    joined := 0, desc := none, tsReq := false }
/-- The copy issued on port 255 with a planned start. -/
def wTx (phys : Nat) : TxCopy :=
  { copy := wCopy, port := 255, start := 0, phys := phys, sa := none, pn := 0, key := 0, tag := [], iv := 0, klen := 0, conf := false, off := 0, tc := 0,
    cut := false, s := 84, started := false, drop := 0, steps := 0, moved := 0, poison := none, pre := false, suspended := false, sent := 0,
    fragStart := 0 }
/-- The port is up with the copy waiting, its queue visited with DEFICIT 84. -/
def wQueue (more : List (Fld × Nat)) (copies : List Copy) (txs : List TxCopy) : State :=
  let s := wPort 3 (wClear ++ [(R.QSCHED_TIER (16 * 255 + 15), 0), (L.DRR_POS 255 0, 16), (L.DRR_VISIT 255 0, 1),
    (R.QSTATE_DEFICIT (16 * 255 + 15), 84)] ++ more)
  { s with d := { s.d with frames := [wStored], copies := copies, txs := txs } }
/-- What the port selects at an issue instant that lies at the present time. -/
def wSelect (s : State) : Dev × Option (Copy × Nat) :=
  let d := shaperFill (cbsSyncPort (oversizeAll s.run s.d 255) 255) 255
  let phys0 := physNow s.d + planLead s.d 255 * fineNs
  select d 255 (s.d.time + planLead s.d 255 * fineNs + (startBoundary s.d 255 phys0 - phys0)) (startBoundary s.d 255 phys0) fun _ => true
theorem wit_CopyRows_select :
    (let s := wQueue [] [] [];
      s.run = .active ∧ suspendedTx (shaperFill (cbsSyncPort (oversizeAll s.run s.d 255) 255) 255) 255 = none ∧ (wSelect s).2 = none) ∧
    (let s := wQueue [] [wCopy] [];
      (wSelect s).2 = some (wCopy, 84) ∧ getFrame (wSelect s).1 wCopy.frame = some wStored ∧ (∀ x ∈ (wSelect s).1.txs, x.copy.id ≠ wCopy.id) ∧
      portUp (wSelect s).1 255 = true ∧ fieldZ (editTags wCopy.edit wStored.plain) 12 2 ≠ 0x8808 ∧ txFaulted (wSelect s).1 255 = false ∧
      wCopy.cdOp < 4 ∧ txProcess (wSelect s).1 255 (editTags wCopy.edit wStored.plain) = .clear []) ∧
    (let s := wQueue [(R.PORT_STATUS_STATE 255, 2)] [wCopy] []; (wSelect s).2 = some (wCopy, 84) ∧ portUp (wSelect s).1 255 = false) := by
  decide +kernel
/-- Port 255 protects every class under SecY 255, whose SA 0 is in service. -/
def wProtect : List (Fld × Nat) :=
  [(L.PAGE_ENABLE 0x70, 1), (R.SECY_VALID 255, 1), (R.SECY_PROTECT_FRAMES 255, 1), (R.TXSA_STATE (4 * 255), saInService)] ++
    ((List.range 16).map fun c => (R.PORT_CLASS_POLICY (16 * 255 + c), 0)) ++
    ((List.range 16).map fun c => (R.PORT_CLASS_SECY_VALID (16 * 255 + c), 1)) ++ (List.range 16).map fun c => (R.PORT_CLASS_SECY (16 * 255 + c), 255)
theorem wit_CopyRows_protect : let s := wQueue (wProtect ++ [(R.QSTATE_DEFICIT (16 * 255 + 15), 1000)]) [wCopy] [];
    (wSelect s).2.map (·.1) = some wCopy ∧ txProcess (wSelect s).1 255 (editTags wCopy.edit wStored.plain) = .protect 255 ∧
    (selectTxSa (wSelect s).1 255 0).2 = some (4 * 255) := by decide +kernel
theorem wit_CopyRows_plain : let s := wQueue [] [wCopy] []; let d := s.d; let bs := editTags wCopy.edit wStored.plain;
    s.run = .active ∧ d.copies = [wCopy] ∧ getFrame d 40 = some wStored ∧ wStored.tail = true ∧ wStored.passed = true ∧ wCopy.desc = none ∧
    portUp d 255 = true ∧ portProtected d 255 = false ∧ fieldZ bs 12 2 ≠ 0x8808 ∧ bs.length + 24 < 16384 ∧ d.get (R.PORT_CTRL_TX_FORCE 255) = 0 ∧
    d.get (R.PORT_STATUS_LOCAL_FAULT 255) = 0 ∧ d.get (R.PORT_STATUS_RF_RECEIVED 255) = 0 ∧ gatesOn d 255 = false ∧ d.get (L.GATE_HOLD 255) = 0 ∧
    shaperOn d 255 = false ∧ d.get (R.QSCHED_CBS_EN (16 * 255 + 15)) = 0 ∧ (∀ x ∈ d.txs, x.port ≠ 255) ∧
    d.get (L.TX_FREE 255) ≤ startBoundary d 255 (physNow d + planLead d 255 * fineNs) ∧ d.get (R.QSCHED_TIER (16 * 255 + 15)) < 4 ∧
    d.get (L.DRR_POS 255 0) = (15 : Fin 16).val + 1 ∧ d.get (L.DRR_VISIT 255 0) = 1 ∧
    bs.length + 24 ≤ d.get (R.QSTATE_DEFICIT (16 * 255 + 15)) := by decide +kernel
theorem wit_CopyRows_start :
    (let s := wQueue [] [] [wTx 1];
      s.run.stopped = false ∧ getFrame s.d 40 = some wStored ∧ (s.d.txs.find? fun x => x.port == 255 && !x.started) = some (wTx 1) ∧
      physNow s.d < (wTx 1).phys) ∧
    (let s := wQueue [] [] [wTx 0];
      (wTx 0).phys ≤ physNow s.d ∧ cdMiss s.d (wTx 0) = none ∧ guardPasses s.d 255 (copyBytes wStored wCopy 0) = true) ∧
    (let s := wQueue wProtect [] [wTx 0]; guardPasses s.d 255 (copyBytes wStored wCopy 0) = false) ∧
    (let t := { wTx 0 with copy := { wCopy with cdOp := 1 }, drop := 1 };
      cdMiss (wQueue [] [] [t]).d t = some (R.CD_MISS_FORMAT 255)) ∧
    (let t := { wTx 0 with started := true };
      (((wQueue [] [] [t]).d.txs.find? fun x => x.port == 255 && x.started && !x.suspended) = some t ∧ wStored.tail = true) ∧
      (wQueue [(R.PORT_CTRL_LOOPBACK 255, 1)] [] [t]).d.get (R.PORT_CTRL_LOOPBACK 255) = 1) := by decide +kernel


/-! ## Cipher clusters and the vault -/

/-- Cluster 31 with its first receive set in a state, and a receive fence. -/
def wSet (ps fence : Nat) : State := st [(L.PS_STATE 31 0, ps), (R.CC_STATUS_STATE 31, 1), (R.CC_FENCE_RX 31, fence)]
/-- Octet 31 has one enabled port, so it needs one set of each direction. -/
def wOnePort (more : List (Fld × Nat)) : State :=
  wPort 3 ([(R.PORT_CTRL_ENABLE 255, 1), (R.CC_STATUS_STATE 31, 2)] ++ more)
theorem wit_ClusterRows :
    (let t := { wTx 0 with sa := some 7, started := true };
      (wQueue [] [] [t]).frozen = false ∧ ((wQueue [] [] [t]).d.txs.find? fun x => x.port == 255 && x.sa.isSome) = some t ∧ t.started = true ∧
      (wQueue [] [] [t]).d.get (R.CHECK_LAST_VALID (portCluster 255)) = 0) ∧
    (let t := { wTx 0 with sa := some 7 };
      ((wQueue [] [] [t]).d.txs.find? fun x => x.port == 255 && x.sa.isSome) = some t ∧ t.started = false) ∧
    (let f := { wFrame .controlled [1, 2, 3] with cells := 1 };
      rxInProgress (wRx f).d 255 false = some f ∧ f.failed = false ∧ (∀ x ∈ (wRx f).d.frames, x.id = f.id → x = f) ∧ f.cells ≠ 0) ∧
    (wSet 0 0).d.get (R.CC_STATUS_STATE 31) = 1 ∧ (wSet psWaking 0).d.get (L.PS_STATE 31 (5 * 0 + 0)) = psWaking ∧
    (let s := wSet psAwake 0;
      s.d.get (L.PS_STATE 31 0) = psAwake ∧ setNeeded s.d 31 0 0 = false ∧ fenceBit s.d 31 0 0 = false ∧ clusterN s.d 31 < awakeFree s.d 31 0) ∧
    (let s := wSet psAwake 1; fenceBit s.d 31 0 0 = true ∧ clusterN s.d 31 ≤ awakeFree s.d 31 0) ∧
    (let s := wOnePort [];
      s.live 0x6F = true ∧ 5 - popCount 5 31 < clusterN s.d 31 ∧ clusterN s.d 31 ≤ 5 - popCount 5 1 ∧ bitAt (1#5).toNat 0 = true ∧
      s.d.get (L.PS_STATE 31 0) = psSleep) := by decide +kernel

/-- Command slot 7 of the vault holds a command with its arguments; `due` says whether its step ends in this tick. -/
def wVault (op code due : Nat) (args : List Nat) (more : List (Fld × Nat)) : State :=
  st ([(L.SLOT_OPCODE (vId 7), op), (L.SLOT_CODE (vId 7), code), (L.V_DUE 7, due), (R.VAULT_STATUS_ENGINE_GRANTED, 1), (L.VAULT_TESTED, 1),
    (R.VAULT_STATUS_SELFTEST_PASS, 1), (R.VAULT_STATUS_DRBG_STATE, drbgReady), (R.RIGHTS_MGMT_CLASSES, 255), (R.RIGHTS_MGMT_RANGE_FIRST, 0),
    (R.RIGHTS_MGMT_RANGE_LAST, 1023)] ++ (List.zip (List.range 16) args).map (fun x => (L.SLOT_CAP (vId 7) x.1, x.2)) ++ more)
theorem wit_VaultIssueRows : State.reset.live 0x08 = true ∧ slotActive (wVault opDrbgRead codeQueued 0 [] []).d (vId 7) = true ∧
    slotActive (st []).d (vId 7) = false ∧ 2 ≤ (st []).d.get (R.REQ_CEILING reqVault) := by decide +kernel

def wOne (s : State) (mismatch : Nat) : Bool :=
  decide (s.frozen = false ∧ s.d.get (L.V_DUE 7) = mismatch + 1 ∧
    ∀ x ∈ List.range 8, x ≠ 7 → s.d.get (L.V_DUE x) = 0)
def wStarts (s : State) (op : Nat) : Bool :=
  decide (wOne s 0 = true ∧ s.d.get (L.SLOT_CODE (vId 7)) = codeQueued ∧ s.d.get (L.SLOT_OPCODE (vId 7)) = op ∧ vCheck s.d s.power 7 op = none)
theorem wit_VaultStepRows :
    vaultMayStep (wVault opDrbgRead codeQueued 0 [] []).d 7 = true ∧ vaultMayStep (st []).d 7 = false ∧
    (let s := wVault opKeyGenerate codeQueued 1 [1023, 0, 0] [];
      s.d.get (L.V_LAST 7) = 0 ∧ wOne s 0 ∧ s.d.get (L.SLOT_CODE (vId 7)) = codeQueued ∧
      vCheck s.d s.power 7 opKeyGenerate = some (codeArg, 2) ∧ codeArg ≠ codeKeyGone ∧ codeArg ≠ codeIntegrity ∧
      writesBlob opKeyGenerate = false) ∧
    (let s := wVault opSaLoad codeRunning 2 [] []; s.d.get (L.SLOT_CODE (vId 7)) = codeRunning ∧ wOne s 1 ∧ writesBlob opSaLoad = false) ∧
    (let s := wVault opSaLoad codeRunning 1 [] [];
      wOne s 0 ∧ vNeedsDrbg opSaLoad = none ∧ s.d.get (L.V_STEP 7) + 1 < vSteps s.d 7 opSaLoad) := by decide +kernel
theorem wit_VaultStepRows_starts :
    (let s := wVault opKeyGenerate codeQueued 1 [1023, 3 + 8 * 2 ^ 16, 5] [];
      s.d.get (L.V_STEP 7) = 0 ∧ wStarts s opKeyGenerate ∧ vEmpty s.d 1023 = true ∧ s.d.get (L.DRBG_GEN 0) < 2 ^ 20) ∧
    wStarts (wVault opSlotRestrict codeQueued 1 [1023, 0x3FF, 3] [(R.SLOT_STATE 1023, vsValid), (R.SLOT_USE_LIMIT 1023, 5)]) opSlotRestrict ∧
    (let s := wVault opDrbgRead codeQueued 1 [16, 0] [];
      wStarts s opDrbgRead ∧ bitAt (s.d.get (L.SLOT_CAP (vId 7) 1)) 0 = false ∧ s.d.get (L.DRBG_GEN 1) < 2 ^ 20) ∧
    (let s := wVault opCmacBegin codeQueued 1 [1023] [(R.SLOT_STATE 1023, vsValid), (R.SLOT_USE_LIMIT 1023, 2 ^ 32 - 1), (R.SLOT_OPS 1023, 8)];
      wStarts s opCmacBegin ∧ s.d.get (R.SLOT_USE_LIMIT 1023) = 2 ^ 32 - 1) ∧
    (let s := wVault opSlotErase codeQueued 1 [1023] [(R.SLOT_STATE 1023, vsValid), (L.SLOT_CODE (vId 0), codeRunning), (L.V_SRC 0 0, 1024)];
      wStarts s opSlotErase ∧ vEmpty s.d 1023 = false ∧ childSlots s.d 1023 = [] ∧ childSas s.d false 1023 = [] ∧ childSas s.d true 1023 = [] ∧
      slotActive s.d (vId 0) = true ∧ heldSrc s.d 0 1023 = true) := by decide +kernel

/-- The last step of a command of slot 7 ends. -/
def wEnds (s : State) (op : Nat) : Bool :=
  decide (wOne s 0 = true ∧ s.d.get (L.SLOT_CODE (vId 7)) = codeRunning ∧ s.d.get (L.SLOT_OPCODE (vId 7)) = op ∧
    s.d.get (L.V_STEP 7) + 1 = vSteps s.d 7 op ∧ s.d.get (L.V_LAST 7) = 0)
/-- Such a command, with its buffer. -/
def wLast (op step : Nat) (args : List Nat) (buf : List Byte) (more : List (Fld × Nat)) : State :=
  wVault op codeRunning 1 args ([(L.V_STEP 7, step), (L.V_BUF 7, beVal (buf ++ List.replicate (128 - buf.length) 0))] ++ more)
/-- A blob of root 63, generation 5, that holds a key of 16 zero bytes under the zero secret, and the same with another tag. -/
def wBlob (flip : Nat) : List Byte := beBytes 64 (0x5642013f00000005000000030000004d000010920000000000000000000000637072374a92b5f2ee0a1188ddd334ed92e44953e64d60ff4de70e1d5b9d72e3d6 + flip)
def wRoot : List (Fld × Nat) := [(R.ROOT_VALID 63, 1), (R.ROOT_GENERATION 63, 5)]
def wBlobLoad (flip : Nat) : State := wLast opBlobLoad 1 [1023] (wBlob flip) wRoot
theorem wit_VaultCommitRows_blob : (∀ flip ∈ [0, 1], let d := (wBlobLoad flip).d; let buf := vBuf d 7; let k := keyBytes (bitsOf (blobAttr d 7) 4 2);
      wEnds (wBlobLoad flip) opBlobLoad ∧ vEmpty d 1023 = true ∧ beVal ((buf.drop 4).take 4) = d.get (R.ROOT_GENERATION (blobRoot d 7)) ∧
      (Crypto.gcmOpen 32 (blobKey d (blobRoot d 7) (buf.take 20)) (beVal ((buf.drop 20).take 12)) (buf.take 20) ((buf.drop 32).take k)
        (beVal ((buf.drop (32 + k)).take 16))).2 = decide (flip = 0)) ∧
    (let s := wLast opBlobSeal 1 [1023, 63] [] wRoot;
      wEnds s opBlobSeal ∧ s.d.get R.VAULT_STATUS_DRBG_STATE = drbgReady ∧ s.d.get (L.DRBG_GEN 0) < 2 ^ 20 ∧ s.d.get (R.ROOT_VALID 63) = 1) := by decide +kernel
theorem wit_VaultCommitRows_derive :
    (let s := wLast opKeyDerive 0 [1023, 0, 0, 0, 9] [] []; wEnds s opKeyDerive ∧ vEmpty s.d 1023 = true) ∧
    (let s := wLast opMkaDerive 1 [1023 + 5 * 2 ^ 16, 0, 0, 9] [] [];
      wEnds s opMkaDerive ∧ bitsOf (s.d.get (L.SLOT_CAP (vId 7) 0)) 16 10 ≠ 1023 ∧ vEmpty s.d 1023 = true ∧ vEmpty s.d 5 = true) ∧
    wEnds (wLast opKeyWrap 0 [1023, 9] [] []) opKeyWrap := by decide +kernel
/-- A key of 16 bytes wrapped under slot 9. -/
def wWrapped : List Byte := beBytes 24 0x5dc8780903426c027d4d4525b8b5d571f1340f2a2d40c5b0
theorem wit_VaultCommitRows_unwrap :
    (let s := wLast opKeyUnwrap 0 [1023, 0, 0, 0, 9, 0, 24] wWrapped [];
      wEnds s opKeyUnwrap ∧ vEmpty s.d 1023 = true ∧
      Crypto.keyUnwrap (slotLen s.d 9) (s.d.get (L.VKEY 9)) ((vBuf s.d 7).take 24) = some (List.replicate 16 7)) ∧
    (let s := wLast opKeyUnwrap 0 [1023, 0, 0, 0, 9, 0, 24] [] [];
      wEnds s opKeyUnwrap ∧ Crypto.keyUnwrap (slotLen s.d 9) (s.d.get (L.VKEY 9)) ((vBuf s.d 7).take 24) = none) := by decide +kernel
/-- Transmit SA 16383 is EMPTY and its SecY VALID. -/
def wSaReady : List (Fld × Nat) := [(L.PAGE_ENABLE 0x70, 1), (R.SECY_VALID 4095, 1)]
theorem wit_VaultCommitRows_sa :
    (let s := wLast opSaLoad 1 [9, 16383] [] wSaReady;
      saServed s.d s.power 7 = true ∧ saState s.d false 16383 = saEmpty ∧ s.d.get L.SA_LOAD_FAULT = 0 ∧ wEnds s opSaLoad ∧
      saFits s.d 7 (slotKey s.d 9).length = true ∧ s.d.get (R.SLOT_PARENT_LOST 9) = 0) ∧
    (let s := wLast opSakUnwrapToSa 2 [9, 16383, 0, 0, 0, 24] wWrapped wSaReady;
      saServed s.d s.power 7 = true ∧ saState s.d false 16383 = saEmpty ∧ wEnds s opSakUnwrapToSa ∧ saFits s.d 7 16 = true ∧
      Crypto.keyUnwrap (slotLen s.d 9) (s.d.get (L.VKEY 9)) ((vBuf s.d 7).take 24) = some (List.replicate 16 7)) := by decide +kernel
theorem wit_VaultCommitRows_rest :
    wEnds (wLast opCmacUpdate 0 [128] [] []) opCmacUpdate ∧ wEnds (wLast opCmacFinal 0 [0] [] []) opCmacFinal ∧
    bitAt ((wLast opCmacFinal 0 [1] [] []).d.get (L.SLOT_CAP (vId 7) 0)) 0 = true ∧
    (let s := wLast opDrbgReseed 0 [] [] [(L.V_FRESH 7, 1)]; wEnds s opDrbgReseed ∧ s.d.get (L.V_FRESH 7) = 1) ∧
    (let s := wLast opRootGenerate 0 [63] [] [];
      wEnds s opRootGenerate ∧ childSlots s.d (1024 + 63) = [] ∧ childSas s.d false (1024 + 63) = [] ∧ childSas s.d true (1024 + 63) = []) ∧
    (let s := wLast opRootSet 0 [63, 1023] [] [(R.SLOT_STATE 1023, vsValid)];
      wEnds s opRootSet ∧ childSlots s.d 1023 = [] ∧ childSas s.d false 1023 = [] ∧ childSas s.d true 1023 = [] ∧ vEmpty s.d 1023 = false) ∧
    wEnds (wLast opRootErase 0 [63] [] []) opRootErase := by decide +kernel
theorem wit_VaultEngineRows :
    (let s := stWith [(R.VAULT_STATUS_ENGINE_GRANTED, 1)] fun d => { d with cyc := 100000 };
      s.frozen = false ∧ s.d.get R.VAULT_STATUS_ENGINE_GRANTED = 1 ∧ vIdle s.d = true ∧ s.d.get L.V_IDLE_AT + 100000 ≤ s.d.cyc) ∧
    (st []).d.cyc < (st []).d.get L.V_IDLE_AT + 100000 ∧ (st []).d.get L.VAULT_TESTED = 0 ∧ (st [(L.VAULT_TESTED, 1)]).d.get L.VAULT_TESTED = 1 ∧
    (let s := wVault opDrbgReseed codeRunning 0 [] [(L.V_COLLECT 7, 1)];
      s.d.get (L.V_COLLECT 7) = 1 ∧ s.d.get (L.SLOT_OPCODE (vId 7)) = opDrbgReseed) ∧
    (∀ x < 8, (st []).d.get (L.V_COLLECT x) = 0) ∧ (st []).d.get R.VAULT_STATUS_DRBG_STATE ≠ drbgError := by decide +kernel


/-! ## Forwarding, rings and cores -/

/-- The lowest way of the bucket of key 0, whose place the free hash gives. -/
def wWay : Nat := 4 * fdbBucket 0 0
theorem wit_BufferRows_find : fdbFind (st [(R.FDB_VALID wWay, 1)]).d (0 : Nat) 0 = some wWay ∧ fdbFind Dev.empty 0 0 = none ∧
    fdbFree Dev.empty 0 0 = some wWay ∧ fdbKeyMac Dev.empty = 0 ∧ fdbDestBad Dev.empty = false ∧
    fdbDestBad (st [(R.FDB_OP_DATA_DEST, 256)]).d = true ∧ (st []).live 0x72 = true := by
  refine ⟨?_, ?_, ?_, by decide +kernel, by decide +kernel, by decide +kernel, by decide +kernel⟩
  · have h : ∀ f : Fld, (st [(R.FDB_VALID wWay, 1)]).d.get f = ((Dev.empty.set (R.FDB_VALID wWay) 1).get f) := fun _ => rfl
    have h1 : ((Dev.empty.set (R.FDB_VALID wWay) 1).get (R.FDB_VALID wWay)) = 1 := Dev.get_set_same _ _ _
    have h2 : ((Dev.empty.set (R.FDB_VALID wWay) 1).get (R.FDB_MAC wWay)) = 0 := by
      rw [Dev.get_set_ne _ _ _ _ (by simp [R.FDB_MAC, R.FDB_VALID, tblFld]), Dev.get_empty]; rfl
    have h3 : ((Dev.empty.set (R.FDB_VALID wWay) 1).get (R.FDB_FID wWay)) = 0 := by
      rw [Dev.get_set_ne _ _ _ _ (by simp [R.FDB_FID, R.FDB_VALID, tblFld]), Dev.get_empty]; rfl
    simp only [wWay] at h h1 h2 h3 ⊢
    simp [fdbFind, List.range, List.range.loop, Dev.on, h, h1, h2, h3]
  · simp [fdbFind, List.range, List.range.loop, Dev.on, R.FDB_VALID, tblFld]
  · simp [fdbFree, List.range, List.range.loop, Dev.on, R.FDB_VALID, tblFld, wWay]
theorem wit_BufferRows_full : let d := Dev.empty.setAll ((List.range 4).map fun w => (R.FDB_VALID (wWay + w), 1)); fdbFree d 0 0 = none := by
  have ne (d : Dev) (i j : Nat) (h : j ≠ i) : (d.set (R.FDB_VALID i) 1).get (R.FDB_VALID j) = d.get (R.FDB_VALID j) :=
    Dev.get_set_ne _ _ _ _ (by simpa [R.FDB_VALID, tblFld] using h)
  have eq (d : Dev) (i : Nat) : (d.set (R.FDB_VALID i) 1).get (R.FDB_VALID i) = 1 := Dev.get_set_same _ _ _
  simp [fdbFree, List.range, List.range.loop, Dev.on, Dev.setAll_cons, Dev.setAll_nil, wWay, ne, eq]
theorem wit_BufferRows_rest : (st []).frozen = false ∧ (st []).d.get R.AGE_PERIOD ≠ 0 ∧ (st [(R.AGE_PERIOD, 0)]).d.get R.AGE_PERIOD = 0 ∧
    (∀ p ∈ [(0, 0), (0, 1), (1, 0)], let d := (st [(R.FDB_VALID 65535, 1), (R.FDB_STATIC 65535, p.1), (R.FDB_HIT 65535, p.2)]).d;
      d.get (R.FDB_VALID 65535) = 1 ∧ d.get (R.FDB_STATIC 65535) = p.1 ∧ d.get (R.FDB_HIT 65535) = p.2) ∧
    (st []).live 0x74 = true ∧
    (∀ v ∈ [377088, 377089], let d := (st ((List.range 7).map fun j => (R.POOL_SIZE j, 0))).d;
      sumBelow (fun j => if j = 7 then v else d.get (R.POOL_SIZE j)) 8 + d.get R.RESERVE_TOTAL = v) ∧
    (st [(R.BUF_STATUS_ZERO_FILL, 1)]).d.get R.BUF_STATUS_ZERO_FILL = 1 ∧ (st []).d.get R.BUF_STATUS_ZERO_FILL = 0 := by decide +kernel

/-- Host ring 127 of 32 descriptors, with HEAD 31 and a descriptor to take. -/
def wRing (dir : Nat) (more : List (Fld × Nat)) : State :=
  st ([(L.PAGE_ENABLE 0xB, 1), (L.PAGE_ENABLE 8, 1), (R.RING_ENABLE 127, 1), (R.RING_DIR 127, dir), (R.RING_SIZE_LOG 127, 5),
    (R.RINGST_HEAD 127, 31), (R.RINGST_TAIL 127, 5), (R.RING_BUF_SIZE 127, 2048)] ++ more)
theorem wit_RingRows_writes : (wRing 0 []).live 0xB = true ∧ doorbellBad (wRing 0 []).d .host 127 30 = false ∧
    doorbellBad (wRing 0 []).d .host 127 32 = true ∧ doorbellBad (wRing 0 []).d .mgmt 127 30 = true ∧ ringMgmt (wRing 0 []).d 127 = false ∧
    ringMgmt (wRing 0 [(R.RING_OWNER 127, 1)]).d 127 = true ∧
    (let d := (wRing 0 [(L.RING_STOPPING 127, 1)]).d; d.get (L.RING_STOPPING 127) = 1 ∧ ringTaken d 127 = [] ∧ d.copies = []) ∧
    (st []).live 8 = true ∧
    (let reserve (v j : Nat) : Nat := if j = 15 then v else (st []).d.get (R.CLASS_RESERVE j);
      sumBelow (fun j => if j < 2 then max 10 (reserve 80 j) else reserve 80 j) 16 = 100 ∧
      sumBelow (fun j => if j < 2 then max 10 (reserve 81 j) else reserve 81 j) 16 = 101) := by decide +kernel
/-- A copy of the stored frame waits for the ring, whose turn of the delivery scheduler it is. -/
def wPunt (tail : Bool) : State :=
  let s := wRing 0 ([1, 2].flatMap fun x => [(L.RING_POS x, 128), (L.RING_VISIT x, 1), (L.RING_DEFICIT 127 (x - 1), 64)])
  { s with d := { s.d with frames := [{ wStored with tail := tail }], copies := [{ wCopy with queue := 4223 }] } }
/-- What the delivery scheduler serves. -/
def wServed (d : Dev) : Dev × Option Nat :=
  let filled := puntFill (ceilDeferred d)
  let one := (puntRings filled).filter fun n => reserveOk filled (filled.get (R.RING_TRAP_CLASS n))
  puntDrr filled (if one.isEmpty then 2 else 1) (if one.isEmpty then puntRings filled else one) 65536
theorem wit_RingRows_delivery : (∀ tail ∈ [false, true], let d := (wPunt tail).d; let f := { wStored with tail := tail };
      (wServed d).2 = some 127 ∧ queueHead (wServed d).1 4223 = some { wCopy with queue := 4223 } ∧ getFrame (wServed d).1 40 = some f ∧
      ringMgmt d 127 = false ∧ ringTaken d 127 = []) ∧
    (let d := (wPunt true).d;
      ringRuns d 127 = true ∧ ringTx d 127 = false ∧ ringHasDesc d 127 = true ∧ d.descs = [] ∧ d.txs = [] ∧ getFrame d 40 = some wStored ∧
      wStored.status = 0 ∧ bucketNegative (puntFill (ceilDeferred d)) L.CEIL_DEF (ceilBurst d) = false ∧
      ∀ x ∈ [0, 1], d.get (L.RING_POS (x + 1)) = 128 ∧ d.get (L.RING_VISIT (x + 1)) = 1 ∧ wStored.plain.length + 4 ≤ d.get (L.RING_DEFICIT 127 x)) ∧
    (wPunt true).frozen = false ∧ (wServed (wRing 0 []).d).2 = none ∧
    (let d := (wRing 0 [(L.CEIL_DEF, 2 ^ 100)]).d; bucketNegative (puntFill (ceilDeferred d)) L.CEIL_DEF (ceilBurst d) = true) := by decide +kernel
theorem wit_RingRows_fetch : let d := (wRing 1 []).d;
    ringRuns d 127 = true ∧ ringMgmt d 127 = false ∧ ringTx d 127 = true ∧ ringHasDesc d 127 = true ∧ ringTaken d 127 = [] ∧
    txBad d [0, 0, 60, 0, 0, 0, 0, 2 ^ 31] = false ∧ txBad d [0, 0, 59, 0, 0, 0, 0, 2 ^ 31] = true ∧
    txTsReq [0, 0, 60, 0, 0, 0, 0, 2 ^ 31] = false ∧ txCdOp [0, 0, 60, 0, 0, 0, 0, 2 ^ 31] = 0 ∧ d.copies = [] ∧ (wRing 1 []).power = .active ∧
    (State.reset).power ≠ .active := by decide +kernel

/-- MGMT0 runs with its link up; ring `n` has a descriptor in SRAM that names a buffer in SRAM. -/
def wMgmt0 (n len : Nat) : State :=
  let s := st [(L.PAGE_ENABLE 8, 1), (R.MGMT0_CTRL_ENABLE, 1), (R.MGMT0_STATUS_LINK, 1), (ringEnableF n, 1), (ringTailF n, 1),
    (ringF R.RING_SIZE_LOG 3 5 0 n, 5), (ringF R.RING_BUF_SIZE 16 14 0 n, 1518), (ringF R.RING_BASE_ADDR 32 64 0 n, sramBase + 256)]
  { s with d := { s.d with sram := (List.zip [257, 259, 264, 287] [0x40, 0x30, len, 0x80]).map fun p => (sramBase + p.1, p.2) } }
/-- The words of the descriptor at the start of the ring, and its buffer. -/
def wWords (s : State) (n : Nat) : List Nat := (Crypto.chunked 4 (memBytes s.d (ringBase s.d n + 32 * ringNext s.d n) 32)).map leVal
theorem wit_CoreRows_mgmt0 : (∀ n ∈ [128, 129], let s := wMgmt0 n 60; let d := s.d;
      s.frozen = false ∧ m0Runs d = true ∧ d.get R.MGMT0_STATUS_LINK = 1 ∧ d.get (ringErrorF n) = 0 ∧ ringEnabled d n = true ∧
      ringHasDesc d n = true ∧ ringTaken d n = [] ∧ ringBase d n + 32 * ringNext d n = sramBase + 256 ∧
      bitAt ((wWords s n).getD 7 0) 31 = true ∧ (wWords s n).getD 0 0 = sramBase + 0x4000 ∧ (wWords s n).getD 1 0 = 0 ∧
      txLen (wWords s n) = 60 ∧ txTsReq (wWords s n) = false ∧ txCdOp (wWords s n) = 0 ∧ ringBufSize d n = 1518 ∧ d.lines.length = 3) ∧
    (let b : List Byte := List.replicate 60 9; let w := b ++ Crypto.fcs b; 64 ≤ w.length ∧ Crypto.fcs (w.take (w.length - 4)) = w.drop (w.length - 4)) ∧
    ringHasDesc (wMgmt0 129 60).d 128 = false ∧ ringHasDesc (wMgmt0 128 60).d 129 = false := by decide +kernel
theorem wit_CoreRows : coreRegion (2 ^ 63) 1 = none ∧ ¬ (2 ^ 63 + 1 ≤ sramBase + sramSize) ∧ ¬ (2 ^ 63 < dramBase + dramSize (st []).d) ∧
    (st [(L.MTIMECMP 3, 0)]).d.get (L.MTIMECMP 3) ≤ (st []).d.cyc ∧ (st []).d.cyc < (st []).d.get (L.MTIMECMP 3) ∧
    (0x5C, 0x0F5) ∈ kTable ∧ 0x5C#8 ∉ belayCodes ∧ decodeChar 2 false 0x3FF = none ∧
    (let t : LineTx := { rd := false, odd := false, idles := 18, prbs := 0, queue := [] }; t.idles = 18 ∧ ({ t with idles := 17 } : LineTx).idles < 18) := by
  decide +kernel


/-! ## Boot and the record -/

/-- A primary image that passes: key pair 1 of P-384 signs it, and its secondary, an empty region. -/
def wGood : FlashImage :=
  ⟨beBytes 288 0x4948494d010100030000000000000200000000080000000000000000000000009b110bbc741bb66ac09ed8e066e348990c5dbdb7406a2bdf8d77167364820e06b5c78b53f82015a7887786628374e6aeaa87ca22be8b05378eb1c71ef320ad746e1d3b628ba79b9859f741e082542a385502f25dbf55296c3a545e3872760ab73617de4a96262c6f5d9e98bf9292dc29f8f41dbd289a147ce9da3113b5f0b8c00a60b1ce1d7e819d7a431d7c90ea0e5f0000000000000000000000000000000008d999057ba3d2d969260045c55b97f089025959a6f434d651d207d19fb96e9e4fe0e86ebe0e64f85b96a9c75295df61e423c729cf8cb7e2b972a321b5aae5ba404b87fce7e9355ec87cd209aada483c88066ed9368e55bdc2f90db74ab8c65a ++
    List.replicate 224 0, beBytes 8 0x0102030405060708, false⟩
def wBad : FlashImage := ⟨[], [], true⟩
/-- The fuses that hold the hash of that key. -/
def wKeyHash : Nat := 0xa19d4db171b582eb8052b0cfe555e17894aa22d1c8a9770950697dd8f796d2fa4bf0a56ad80006b7ea08e1191f814b65
/-- A device about to boot. -/
def wBoot : State :=
  { st [(L.ROM_RUN, 1), (L.TB_RUN, 1), (L.VAULT_TESTED, 1), (R.LC_STATE, 1), (R.ROOT_VALID 0, 1)] with
    run := .booting, otp := otpBlowBig [] 0x050 12 wKeyHash }
def wBootTick : State := { wBoot with d := { wBoot.d with tick := 1 } }
theorem wit_BootRomRows_cause : headerCause wBoot wGood = 0 := by decide +kernel
theorem wit_BootRomRows_bad : headerCause wBoot wBad = 1 := by decide +kernel
theorem wit_BootRomRows : wBoot.frozen = false ∧ (st [(L.ROM_RUN, 0)]).d.get L.ROM_RUN = 0 ∧ wBoot.d.tick = 0 ∧ (st []).d.get L.VAULT_TESTED = 0 ∧
    (let s := wBootTick; let d := s.d;
      d.get L.ROM_RUN = 1 ∧ d.get R.MGMT_STATUS_RESTARTING = 0 ∧ d.get L.TB_RUN = 1 ∧ d.tick ≠ 0 ∧ d.get L.VAULT_TESTED = 1 ∧ s.run = .booting ∧
      lcOdd s.otp = 0 ∧ lcInterrupted s.otp d = none ∧ d.get R.LC_STATE ≠ lcScrapped ∧ d.get (R.ROOT_VALID 0) = 1 ∧ d.get R.PENDING_EVIDENCE = 0 ∧
      d.get R.EXTEND_COUNT = 0) ∧
    lcOdd ({ wBootTick with otp := [(0x088, 4)] } : State).otp ≠ 0 := by decide +kernel
theorem wit_BootRomRows_restart (x : Nat) : let s : State := { wBootTick with run := .active, d := wBootTick.d.set (L.ASCENT_DIGEST 2) x };
    s.run ≠ .booting ∧ headerCause s wGood = 0 :=
  ⟨by simp, (show headerCause wBoot wGood = 0 from wit_BootRomRows_cause) ▸ by
    have h (f : Fld) (k : f = R.LC_STATE ∨ f = R.DEVICE_ID) : (wBootTick.d.set (L.ASCENT_DIGEST 2) x).get f = wBoot.d.get f := by
      rw [Dev.get_set_ne _ _ _ _ (by rcases k with rfl | rfl <;> decide +kernel)]; rfl
    simp only [headerCause, h _ (.inl rfl), h _ (.inr rfl)]; rfl⟩

/-- Command slot 3 of page 0x0D and its arguments. -/
def wRec (run : RunState) (anchors : BitVec 10) (args : List Nat) (more : List (Fld × Nat)) : State :=
  { st ([(L.PAGE_ENABLE 0xD, 1), (R.BOOT_STATUS_STAGE, 1)] ++ (List.zip (List.range 16) args).map (fun x => (L.SLOT_ARG (slotId 0xD 3) x.1, x.2)) ++ more)
    with run := run, anchors := anchors }
theorem wit_RecordCommandRows : (wRec .booting 0 [] []).live 0xD = true ∧
    slotActive (wRec .booting 0 [] [(L.SLOT_CODE (slotId 0xD 3), codeRunning)]).d (slotId 0xD 3) = true ∧ slotActive (wRec .booting 0 [] []).d (slotId 0xD 3) = false ∧
    slotActive (wRec .booting 0 [] []).d (slotId 0xD 1) = false ∧
    (∀ x ∈ [15, 16], (wRec .booting 0 [x] []).d.get (L.SLOT_ARG (slotId 0xD 3) 0) = x) ∧ (wRec .booting 0 [] []).d.get R.BOOT_STATUS_STAGE ≠ 2 ∧
    (wRec .booting 0 [] [(R.BOOT_STATUS_STAGE, 2)]).d.get R.BOOT_STATUS_STAGE = 2 ∧
    (∀ x ∈ [63, 64], (wRec .booting 0 [] [(R.EXTEND_COUNT, x)]).d.get R.EXTEND_COUNT = x) ∧
    (wRec .booting 1022 [] []).anchors ≠ 1023 ∧ (wRec .booting 0 [] []).d.get R.VAULT_STATUS_SELFTEST_PASS = 0 ∧
    (∀ c ∈ [0, 1], let s := wRec .booting 1023 [] [(R.VAULT_STATUS_SELFTEST_PASS, 1), (R.ROOT_VALID 0, 1), (L.COMMIT_SVN, c), (R.IMAGE_INFO_SVN, c)];
      s.anchors = 1023 ∧ s.d.get R.VAULT_STATUS_SELFTEST_PASS = 1 ∧ s.d.get (R.ROOT_VALID 0) = 1 ∧ s.d.get R.LC_STATE ≠ lcOwned ∧
      s.d.get R.BOOT_STATUS_STAGE = 1 ∧ s.d.get L.ZERO_KEYS = 0 ∧ s.d.get L.ZERO_MEM = 0 ∧ s.d.get L.COMMIT_SVN = c ∧
      (otpRollback s.otp < s.d.get R.IMAGE_INFO_SVN ↔ c = 1)) ∧
    (wRec .booting 1023 [] []).d.get (R.ROOT_VALID 0) = 0 ∧ (wRec .active 0 [] []).d.get R.RECORDS_HELD = 0 ∧
    (∀ n ∈ [4, 5, 68, 69], let d := (wRec .active 0 [n] [(R.RECORDS_HELD, 64), (R.RECORD_FIRST, 5), (R.BOOT_COUNT, 68)]).d;
      0 < d.get R.RECORDS_HELD ∧ (n < d.get R.RECORD_FIRST ↔ n = 4) ∧ (d.get R.BOOT_COUNT < n ↔ n = 69)) ∧
    RunState.attests .booting = false ∧ RunState.attests .contained = true ∧
    (∀ x ∈ [drbgReady, drbgError], (wRec .contained 0 [] [(R.VAULT_STATUS_DRBG_STATE, x)]).d.get R.VAULT_STATUS_DRBG_STATE = x) ∧
    (wRec .contained 0 [] []).d.get (L.DRBG_GEN 1) < 2 ^ 20 := by decide +kernel
theorem wit_RecordCommandRows_seal : (∀ r ∈ [RunState.booting, .halted],
    let s := wRec r 1023 [] [(L.SLOT_CODE (slotId 0xD 3), codeRunning), (L.SLOT_OPCODE (slotId 0xD 3), 2)];
    s.live 0xD = true ∧ s.d.get (L.SLOT_CODE (slotId 0xD 3)) = codeRunning ∧ s.d.get (L.SLOT_OPCODE (slotId 0xD 3)) = 2 ∧
    s.d.get L.ZERO_KEYS = 0 ∧ s.d.get L.ZERO_MEM = 0) ∧ RunState.stopped .halted = true := by decide +kernel


/-! ## Alarms -/

theorem wit_AlarmReportRows : alarmOutside 63 = false ∧ alarmOutside 60 = true ∧ alarmOutside 18 = true ∧ (18 : Fin 64).val < 19 ∧
    ({ st [] with power := .baseCampOnly } : State).power = .baseCampOnly ∧ (st []).power ≠ .baseCampOnly ∧ bitAt ((st [(L.AL_LEVEL, 2 ^ 60)]).d.get L.AL_LEVEL) 60 = true ∧
    bitAt ((st []).d.get L.AL_LEVEL) 60 = false ∧ alarmEnabled (st [(R.DEBUG_STATUS_LANE_OPEN, 1)]).d 58 false = false ∧
    alarmEnabled (st [(R.DEBUG_STATUS_LANE_OPEN, 0), (R.DEBUG_STATUS_FULL_OPEN, 0)]).d 58 false = true ∧ alarmEnabled (st []).d 60 true = true ∧ fsmMachine 51 9 = false ∧ fsmMachine 51 8 = true ∧
    fsmMachine 18 18 = true ∧ (st []).d.get R.FSM_FAULT_VALID = 0 ∧ alarmDisagree 63 = none ∧ alarmDisagree 16 = some 17 ∧
    alarmDisagree 11 = some 17 ∧ (∀ x ∈ [0x7F, 0xFF], alarmEnabled (st [(R.BC_CFG_CASE_EN, x)]).d 11 false = (x == 0xFF)) ∧
    alarmDisagree 37 = some 49 ∧ (st []).live 7 = true ∧ (5 : BitVec 16) ≠ 0x5A5A ∧
    (∀ x ∈ [0, 1], (st [(R.PRESENCE_STATUS_ASSERTED, x)]).d.get R.PRESENCE_STATUS_ASSERTED = x) ∧
    alarmLowest 56 = 2 ∧ alarmHighest 56 = 2 ∧ bitsOf (0x12 : Word).toNat 0 3 = 2 ∧ bitsOf (0x12 : Word).toNat 4 3 = 1 ∧
    (16 : BitVec 10).getLsbD 4 = true ∧ bitsOf (0x12 : Word).toNat 4 3 ≠ (st []).d.get (R.ALARM_CFG_FLOOR 56) ∧
    (st []).d.get R.LC_STATUS_PHASE = 0 ∧
    (let d := (st [(L.SLOT_CODE (vId 7), codeRunning), (L.V_NEEDS 7, 1)]).d; d.get (L.SLOT_CODE (vId 7)) = codeRunning ∧ d.get (L.V_NEEDS 7) = 1) := by
  decide +kernel
/-- A tick is due with these pulses in a run state. -/
def wAlarm (run : RunState) (pulses : Nat) : State :=
  { stWith [(L.PU_WANT, 0), (L.TB_RUN, 1), (L.AL_PULSE, pulses)] fun d => { d with tick := 1 } with run := run }
/-- The response of the next sample. -/
def wResponse (s : State) : Nat := topSeverity (alarmOrder (alarmEff s.d) (alarmSample s.d))
theorem wit_AlarmRecordRows : battery (st []) = true ∧ battery (wAlarm .active 0) = false ∧ (wAlarm .active 0).d.get L.TB_RUN = 1 ∧ (wAlarm .active 0).d.tick ≠ 0 ∧
    (wAlarm .active 0).d.get R.LOG_SEQ_NEWEST < 2 ^ 63 ∧ alarmOrder (alarmEff (wAlarm .active 0).d) (alarmSample (wAlarm .active 0).d) = [] ∧
    (wAlarm .active 0).d.get R.ALARM_ACTIVE = 0 ∧ (wAlarm .active 0).d.get L.BCA_ACTIVE = 0 ∧ (wAlarm .active 0).d.get R.LC_STATUS_PHASE = 0 ∧
    alarmEff (wAlarm .active 0).d 60 = 2 ∧
    (∀ run ∈ [RunState.booting, .active, .contained], wResponse (wAlarm run (2 ^ 52)) = 1 ∧ wResponse (wAlarm run (2 ^ 60)) = 2 ∧
      wResponse (wAlarm run (2 ^ 59)) = 3 ∧ wResponse (wAlarm run (2 ^ 61)) = 4) ∧
    (wAlarm .booting 0).d.get L.ZERO_KEYS = 0 ∧ (wAlarm .booting 0).d.get L.ZERO_MEM = 0 ∧
    slotActive (st [(L.SLOT_CODE (vId 7), codeRunning)]).d (vId 7) = true ∧
    (∀ x ∈ [(0, 0), (2 ^ 12, 0), (2 ^ 18, 4)], let d := (st [(L.BCA_PULSE, x.1)]).d;
      topSeverity (alarmOrder (battEff d) (d.get L.BCA_LEVEL ||| d.get L.BCA_PULSE)) = x.2 ∧ d.get L.BCA_ACTIVE = 0) := by decide +kernel
theorem wit_AlarmClearRows :
    (∀ x ∈ [0, 1], (st [(L.ZERO_KEYS, x)]).d.get L.ZERO_KEYS = x ∧ (st [(L.ZERO_MEM, x)]).d.get L.ZERO_MEM = x) ∧
    (st [(R.SLOT_STATE 1023, vsValid)]).d.get (R.SLOT_STATE 1023) ≠ vsEmpty ∧ (st [(R.RANGE_CTRL_MODE 7, 1)]).d.get (R.RANGE_CTRL_MODE 7) ≠ 0 ∧
    (st [(L.TB_RUN, 1)]).d.get L.TB_RUN = 1 ∧ (st []).d.tickTime % fineSec = 0 ∧
    (stWith [] fun d => { d with tickTime := fineSec - 1 }).d.tickTime % fineSec ≠ 0 ∧ (st []).live 7 = true ∧ (5 : BitVec 16) ≠ 0x5245 ∧
    (let s : State := { st [] with run := .contained }; s.run = .contained ∧ containSource s.d (s.d.get R.ALARM_LATCH ||| s.d.get R.ALARM_ACTIVE) = false) ∧
    (let s := st [(R.ALARM_LATCH, 2 ^ 60)]; containSource s.d (s.d.get R.ALARM_LATCH ||| s.d.get R.ALARM_ACTIVE) = true) ∧
    (∀ n ∈ List.range 64, bitAt ((2 ^ 19 : Word).toNat * 2 ^ 0) n = true → alarmReserved n = true) ∧
    bitAt ((2 ^ 28 : Word).toNat * 2 ^ 32) 60 = true ∧ alarmReserved 60 = false ∧ (st []).d.get R.PRESENCE_STATUS_ASSERTED = 0 ∧
    bitAt ((st [(R.ALARM_ACTIVE, 2 ^ 60)]).d.get R.ALARM_ACTIVE) 60 = true := by decide +kernel


/-! ## Life cycle and the memory guard -/

/-- A life-cycle state, with more fields and the fuses of an identity, a device secret and a key hash. -/
def wLc (lc : Nat) (more : List (Fld × Nat)) : State :=
  { st ([(R.LC_STATE, lc)] ++ more) with otp := otpBlowBig (otpBlowBig (otpBlowBig [] 0x040 2 77) 0x048 8 99) 0x050 12 5 }
theorem wit_LifeCycleRows : (∀ x ∈ [codePresence, codeOk],
      lcRefused (st [(R.LC_LAST_TO, 4), (R.LC_LAST_CODE, x)]).d 4 = (x == codePresence)) ∧ (st []).live 6 = true ∧ (st []).d.get R.LC_STATUS_PHASE = 0 ∧
    (∀ x ∈ [1, 2, 3, 4, 5], (st [(R.LC_STATUS_PHASE, x)]).d.get R.LC_STATUS_PHASE = x) ∧
    alarmDue (stWith [(L.PU_WANT, 0), (L.AL_NEW, 1), (L.AL_PULSE, 2 ^ 59), (L.AL_RESP_TICK, 0), (L.TB_RUN, 1)] fun d => { d with tick := 1 }) = 3 ∧
    alarmDue (wLc 1 []) < 3 ∧ lcPermitted 1 3 = false ∧ lcPermitted 4 5 = true ∧
    (lcPermitted 1 2 = true ∧ lcCondition (st []) 1 2 = some 2 ∧ lcCondition (wLc 1 []) 1 2 = none ∧ lcNeedsPresence 1 2 = false) ∧
    (lcPermitted 2 3 = true ∧ lcCondition (wLc 2 []) 2 3 = some 3 ∧ lcCondition (wLc 2 [(R.LC_STATUS_ENROLL_STAGED, 1), (R.DEBUG_STATUS_FULL_OPEN, 0)]) 2 3 = none ∧
      lcNeedsPresence 2 3 = true) ∧
    (∀ x ∈ [0, 1], (wLc 2 [(R.PRESENCE_STATUS_ASSERTED, x), (L.LC_STOP, x), (R.LC_STATUS_ENROLL_STAGED, x)]).d.get R.PRESENCE_STATUS_ASSERTED = x ∧
      (wLc 2 [(L.LC_STOP, x)]).d.get L.LC_STOP = x ∧
      (wLc 2 [(R.LC_STATUS_ENROLL_STAGED, x)]).d.get R.LC_STATUS_ENROLL_STAGED = x) ∧
    (∀ x ∈ [2, 3, 4, 5], (st [(L.LC_TARGET, x)]).d.get L.LC_TARGET = x) ∧
    pkg (stagedBytes (wLc 2 [(R.LC_STATUS_ENROLL_STAGED, 1)]).d) 6 1 = 0 := by decide +kernel

/-- Command slot 3 of page 0x06 in a life-cycle state, with its first arguments. -/
def wLcCmd (lc : Nat) (args : List Nat) (more : List (Fld × Nat)) : State :=
  wLc lc ((List.zip (List.range 16) args).map (fun x => (L.SLOT_ARG (slotId 6 3) x.1, x.2)) ++ more)
/-- The enrolment package that the keys of the fuses 77 and 99 seal for device 77. -/
def wPackage (flip : Nat) : List Byte := beBytes 196 (0x4948454e01010000000000000000004d0000000000000005000000030000000000000000000000636bb322a10e12b7cec71e388614e73a2aeecf640e43e6a3335fd984ec3813460b3239082b631aa8d8fcad4632b668320d19f605727bd07715448dcee00b48410af1755844cf8aef05818de1b2e48f67a528aa5b6a876d555b29033c0a5ae2d239790a06da024b0c3fee57567694304723791af9b876e308481886239a407c818f48d1364300274a0fd64ea742f76dbaab70a39cb5afd3c0a96d62f270 + flip)
def wEnroll (lc flip id : Nat) : State :=
  wLcCmd lc [196] ([(R.DEVICE_ID, id), (R.DEBUG_STATUS_FULL_OPEN, 0)] ++ (List.zip (List.range 49) (stringWords (wPackage flip) 49)).map fun p => (R.LC_BUF 3 (207 + p.1), p.2))
/-- The bytes of the buffer that the command takes. -/
def wTaken (s : State) : List Byte := (lcBufBytes s.d 3).take 196
theorem wit_LifeCycleCommandRows_enroll : pkgShape (wTaken (wLcCmd 2 [196] [])) 196 = false ∧
    (∀ p ∈ [(2, 0, 77), (1, 0, 77), (2, 1, 77), (2, 0, 78)], let s := wEnroll p.1 p.2.1 p.2.2; let bs := wTaken s;
      pkgShape bs 196 = true ∧ (pkg bs 8 8 = s.d.get R.DEVICE_ID ↔ p.2.2 = 77) ∧ pkg bs 5 1 = 1 ∧ s.d.get R.LC_STATE = p.1 ∧
      s.d.get R.DEBUG_STATUS_FULL_OPEN = 0) := by decide +kernel
theorem wit_LifeCycleCommandRows_open : ∀ flip ∈ [0, 1], let s := wEnroll lcProvisioned flip 77; let o := pkgOpen s.otp s.d (wTaken s);
    o.2 = decide (flip = 0) ∧ pkgFieldsOk o.1 (s.d.get R.OWNER_ID) = true := by decide +kernel
/-- A challenge is out for a class, and the command's arguments are an answer. -/
def wRespond (lc cls ans : Nat) (more : List (Fld × Nat)) : State :=
  wLcCmd lc (stringWords (beBytes 48 ans) 12) ([(R.DEVICE_ID, 77), (R.DEBUG_STATUS_CHALLENGE_OUT, 1), (L.CHAL, cls * 2 ^ 464)] ++ more)
def wAnswer1 : Nat := 31279675383990260335843178895626355127222604184096170982013086446557843759308448627007351110049186437711266524560931
def wAnswer2 : Nat := 16243672502217821727456008852010862730251388470976495121808343610018353676920602093987753164784022028910467098931706
theorem wit_answer2 : chalAnswer (wRespond 1 2 wAnswer2 []).otp (wRespond 1 2 wAnswer2 []).d 2 = beBytes 48 wAnswer2 := by decide +kernel
theorem wit_LifeCycleCommandRows_answer :
    (∀ p ∈ [(3, 1, wAnswer1)], let s := wRespond p.1 p.2.1 p.2.2 [(R.DEBUG_CTRL_LANE_EN, 1)]; let d := s.d;
      let c := bitsOf (d.get L.CHAL) 464 8;
      c = p.2.1 ∧ d.get R.DEBUG_STATUS_CHALLENGE_OUT = 1 ∧ chalExpired d = false ∧ debugState d c = true ∧ debugEnable d c = true ∧
      debugPresence d c = true ∧
      (wordField (fun j => d.get (L.SLOT_ARG (slotId 6 3) j) % 2 ^ 32) 0 11).take 48 = chalAnswer s.otp d c) := by decide +kernel
theorem wit_LifeCycleCommandRows_wrong : let s := wRespond 1 2 7 [];
    (wordField (fun j => s.d.get (L.SLOT_ARG (slotId 6 3) j) % 2 ^ 32) 0 11).take 48 ≠ chalAnswer s.otp s.d 2 := by
  have h : chalAnswer (wRespond 1 2 7 []).otp (wRespond 1 2 7 []).d 2 = chalAnswer (wRespond 1 2 wAnswer2 []).otp (wRespond 1 2 wAnswer2 []).d 2 := by
    have e (f : Fld) (k : f = L.CHAL ∨ f = R.DEVICE_ID) : (wRespond 1 2 7 []).d.get f = (wRespond 1 2 wAnswer2 []).d.get f := by
      rcases k with rfl | rfl <;> decide +kernel
    simp only [chalAnswer, idBytes, e _ (.inl rfl), e _ (.inr rfl)]; rfl
  intro s; show _ ≠ chalAnswer (wRespond 1 2 7 []).otp (wRespond 1 2 7 []).d 2
  rw [h, show chalAnswer (wRespond 1 2 wAnswer2 []).otp (wRespond 1 2 wAnswer2 []).d 2 = beBytes 48 wAnswer2 from wit_answer2]; decide +kernel
theorem wit_LifeCycleCommandRows : (st []).live 6 = true ∧ slotActive (st []).d (slotId 6 3) = false ∧
    slotActive (st [(L.SLOT_CODE (slotId 6 3), codeRunning)]).d (slotId 6 3) = true ∧ (wLcCmd 1 [] []).d.get R.LC_STATE = lcTest ∧
    (∀ x ∈ [0x67, 0x68], (wLcCmd 1 [x] []).d.get (L.SLOT_ARG (slotId 6 3) 0) = x) ∧ debugState (wLcCmd 3 [] []).d 2 = false ∧
    debugEnable (wLcCmd 1 [] []).d 2 = true ∧ debugPresence (wRespond 1 2 wAnswer2 []).d 2 = false ∧
    (wordField (fun j => (wRespond 1 2 wAnswer2 []).d.get (L.SLOT_ARG (slotId 6 3) j) % 2 ^ 32) 0 11).take 48 = beBytes 48 wAnswer2 ∧ debugState (wLcCmd 1 [] []).d 2 = true ∧
    (∀ x ∈ [drbgReady, drbgError], (st [(R.VAULT_STATUS_DRBG_STATE, x)]).d.get R.VAULT_STATUS_DRBG_STATE = x) ∧
    (∀ x ∈ [7, 8], (st [(R.DEBUG_STATUS_FAILS, x)]).d.get R.DEBUG_STATUS_FAILS = x) ∧ (st []).d.get (L.DRBG_GEN 1) < 2 ^ 20 ∧
    (st []).d.get R.DEBUG_STATUS_CHALLENGE_OUT = 0 ∧ chalExpired (stWith [] fun d => { d with time := 120 * fineSec }).d = true ∧
    chalExpired (stWith [] fun d => { d with time := 120 * fineSec - 1 }).d = false ∧ (st []).power ≠ .baseCampOnly ∧
    (∀ x ∈ [0, 4], (st [(L.FULL_WIPE, x)]).d.get L.FULL_WIPE = x) := by decide +kernel


/-- Range 7 of one page at the start of a megabyte of DRAM, in a state and mode, and the fields an access judges. -/
def wRange (state mode : Nat) (more : List (Fld × Nat)) : State :=
  st ([(L.PAGE_ENABLE 9, 1), (R.RANGE_BASE 7, dramBase + 65536), (R.RANGE_LIMIT 7, dramBase + 69632), (R.META_BASE 7, dramBase + 2 ^ 24),
    (R.RANGE_CTRL_MODE 7, mode), (R.RANGE_STATUS_STATE 7, state), (R.MGMT_STATUS_DRAM_GIB, 4), (R.VAULT_STATUS_DRBG_STATE, drbgReady),
    (R.RIGHTS 7, 0xFFF)] ++ more)
theorem wit_MemoryGuardRows_enable : (wRange 0 0 []).live 9 = true ∧
    (∀ x ∈ [rangeOff, rangePending, rangeInit, rangeActive], (wRange x 0 []).d.get (R.RANGE_STATUS_STATE 7) = x) ∧
    rangeCheck .active (wRange 0 0 [(R.VAULT_STATUS_DRBG_STATE, drbgError)]).d 7 = codeState ∧
    (∀ m ∈ [0, 2], let d := (wRange 0 m [(R.MG_STATUS_ENGINE_GRANTED, 1)]).d;
      rangeCheck .active d 7 = codeOk ∧ d.get R.MG_STATUS_ENGINE_GRANTED = 1 ∧ d.get (L.DRBG_GEN 0) + 1 < 2 ^ 20 ∧
      d.get (R.RANGE_CTRL_MODE 7) = m) ∧
    (let d := (wRange 0 0 []).d; rangeCheck .active d 7 = codeOk ∧ d.get R.MG_STATUS_ENGINE_GRANTED = 0 ∧ arbPending d .memGuard = false) := by
  decide +kernel
/-- The first line of the range. -/
def wLine : Nat := dramBase + 65536
theorem wit_MemoryGuardRows_access : (wRange 3 0 []).frozen = false ∧ (wRange 3 0 [(R.DEBUG_STATUS_FULL_OPEN, 0)]).d.get R.DEBUG_STATUS_FULL_OPEN = 0 ∧
    (wRange 3 0 [(R.DEBUG_STATUS_FULL_OPEN, 1)]).d.get R.DEBUG_STATUS_FULL_OPEN = 1 ∧
    (∀ n ∈ [1, 64], (wLine + 64 - n - dramBase) % 64 + n ≤ 64 ∧ wLine + 64 ≤ dramBase + dramSize (wRange 3 0 []).d) ∧
    (∀ w ∈ [false, true], mgMay (wRange 3 0 [(R.RIGHTS 7, 0)]).d 4 w wLine = false ∧
      ∀ m ∈ [0, 1, 2], mgMay (wRange 3 m []).d 4 w wLine = true ∧ rangeOf (wRange 3 m []).d wLine = some 7) ∧
    mgBusy (wRange 3 0 []).d 7 (linePage (wRange 3 0 []).d 7 1024) = false ∧ (wRange 3 0 []).d.get R.REFUSE_INFO_VALID = 0 ∧
    (wRange 3 0 []).d.get L.MG_HALT_TICK ≠ (wRange 3 0 []).d.tick + 1 ∧
    sramBase + sramSize - 1 + 1 ≤ sramBase + sramSize := by decide +kernel
/-- The only page of the range is being re-encrypted. -/
def wReenc (done : Nat) : State := let s := wRange 3 2 []; { s with d := { s.d with mgReenc := [⟨7, 0, done⟩] } }
theorem wit_MemoryGuardRows_scrub :
    (∀ x ∈ [6, 7], ((wReenc x).d.mgReenc.find? fun y => y.range == 7 && y.page == 0) = some ⟨7, 0, x⟩) ∧ (wReenc 7).d.mgPending = [] ∧
    (wRange 3 0 [(R.MG_CTRL_SCRUB_EN, 0)]).d.get R.MG_CTRL_SCRUB_EN = 0 ∧
    (∀ x ∈ [62, 63], let d := (wRange 3 0 [(R.MG_CTRL_SCRUB_EN, 1), (L.MG_SCRUB_LINE, x)]).d;
      d.get R.MG_CTRL_SCRUB_EN = 1 ∧ sumBelow (fun r => (scrubLines d r).1 + (scrubLines d r).2) 8 = 64 ∧ d.get L.MG_SCRUB_LINE = x) := by decide +kernel


/-! ## Belay links and the rope -/

/-- Port 1 in a link state on a device of the rope: a lead at position 0 (role 1), or a member at position 3 (role 2). -/
def wRope (role lk state : Nat) (more : List (Fld × Nat)) : State :=
  st ([(L.PAGE_ENABLE 0xA, 1), (R.BELAY_STATUS_LINK 1, lk), (L.B_RXKEY 1, 77), (R.ROPE_CFG_ROLE, role), (R.ROPE_CFG_POSITION, if role = 2 then 3 else 0),
    (R.ROPE_STATUS_STATE, state), (R.DEVICE_ID, 4242), (R.VAULT_STATUS_DRBG_STATE, drbgReady)] ++ more)
/-- A frame with counter 6, epoch 5 and sequence 1, and its payload under the link's key with the tag. -/
def wBelay (typ origin dst len sealed : Nat) : List Byte := belayHeader typ origin 0 dst len 6 5 1 ++ beBytes (len + 16) sealed
/-- The bytes of a frame from its constants, and those of its payload. -/
def wConfirmP : List Byte := beBytes 48 0x0
def wConfirm : List Byte := wBelay 0x2 0 0 48 0x9c071317d1acfe70a084407af26037ed418d3905109f3f7c1f54706afcd23aafb71e43271f341f7ca194e84ae3dc3595fe5a5bad7a7ed84ba47fee5eddbd9d94
def wTimeP : List Byte := beBytes 36 0x70903020000000000000000000000000000000000000000000000000000000000000000
def wTime : List Byte := wBelay 0x3 0 0 36 0x9b0e1015d1acfe70a084407af26037ed418d3905109f3f7c1f54706afcd23aafb71e4327ac1d851738ba8a811695e52e2761727c
def wAnnounceP : List Byte := beBytes 12 0x138b03000000
def wAnnounce : List Byte := wBelay 0x10 3 1 12 0x9c071317d1acedfba384407a27035f89581ba176c34737ec29777eab
def wFormedP : List Byte := beBytes 68 0xff0000000000000000000fa10000000000001389000000000000138a0000000000001092000000000000138c000000000000138d000000000000138e000000000000138f
def wFormed : List Byte := wBelay 0x11 0 8 68 0x63071317d1acfe70a0844fdbf26037ed418d2a8c109f3f7c1f5463e0fcd23aafb71e53b51f341f7ca194fbc6e3dc3595cd52d0faf4993f839275896cabff9a0cdbac89fa06e003ae1d74366bf49da490046c5fa0
def wStatusP : List Byte := beBytes 20 0x0
def wStatus : List Byte := wBelay 0x40 3 1 20 0x9c071317d1acfe70a084407af26037ed418d390541375369f645c350f00b7388c91b5bd3
def wWpLowP : List Byte := beBytes 40 0xdff0000000000000000000000000000000000000000000000000000000000000000000000000000
def wWpLow : List Byte := wBelay 0x20 0 8 40 0x91f81317d1acfe70a084407af26037ed418d3905109f3f7c1f54706afcd23aafb71e43271f341f7c693736f19c017609d472cbb61ccad653
def wWpEmptyP : List Byte := beBytes 40 0xfff0000000000000000000000000000000000000000000000000000000000000000000000000000
def wWpEmpty : List Byte := wBelay 0x20 0 8 40 0x93f81317d1acfe70a084407af26037ed418d3905109f3f7c1f54706afcd23aafb71e43271f341f7cd3dd27e3765cd5b189099bcead79b9f6
def wWpFullP : List Byte := beBytes 40 0xfff0000000000000000000000000000000000030000000500ff0001000003e70000000000000000
def wWpFull : List Byte := wBelay 0x20 0 8 40 0x93f81317d1acfe70a084407af26037ed418d3906109f3f791fab706bfcd23948b71e43271f341f7c3155cac3d969c9b67d540fe0358dfd84
def wReadP : List Byte := beBytes 16 0x22b010000000000010400000000
def wRead : List Byte := wBelay 0x30 0 8 16 0x9c07113cd0acfe70a084417ef26037ed3c1859cada26116500a80a94e893c538
def wWriteP : List Byte := beBytes 16 0x22b020000000100010400000000
def wWrite : List Byte := wBelay 0x30 0 8 16 0x9c07113cd3acfe70a184417ef26037ed04e65c2d156f0d019248a4d15490b4a3
def wAnswerP : List Byte := beBytes 16 0x22b011000000000010400000009
def wAnswer : List Byte := wBelay 0x31 3 1 16 0x9c07113cd0bcfe70a084417ef26037e43c6ec0538379860e1d21a6c029f254fd
def wRefusalP : List Byte := beBytes 16 0x22b012000000000010400000000
def wRefusal : List Byte := wBelay 0x31 3 1 16 0x9c07113cd08cfe70a084417ef26037ed2e062610d6d0e065feec4915d6908e3b
def wRopeAlarmP : List Byte := beBytes 20 0x30390301000014030000
def wRopeAlarm : List Byte := wBelay 0x50 3 8 20 0x9c071317d1acfe70a0847043f16137ed558e3905711f35f0201524a0816f6e854ecd419a
/-- The lead and the member that the frames name, each with its link up. -/
def wLead (more : List (Fld × Nat)) : State := wRope 1 4 2 more
def wMember (more : List (Fld × Nat)) : State := wRope 2 4 2 more
theorem wit_BelayPasses_confirm : BelayPasses (wRope 2 3 0 []).d 1 2 wConfirm wConfirmP ∧ link (wRope 2 3 0 []).d 1 = lkConfirm ∧
    beVal (bytesAt wConfirmP 0 24) = (wRope 2 3 0 []).d.get (L.B_PEER 1) ∧ beVal (bytesAt wConfirmP 24 24) = (wRope 2 3 0 []).d.get (L.B_HELLO 1) ∧
    (wRope 2 3 0 []).d.get (R.TX_COUNTER 1) < 2 ^ 62 ∧ (wRope 2 3 0 []).d.ropeHeld = [] ∧
    beVal (bytesAt wConfirmP 0 24) ≠ (wRope 2 3 0 [(L.B_PEER 1, 1)]).d.get (L.B_PEER 1) := by unfold BelayPasses; decide +kernel
theorem wit_BelayPasses_time : BelayPasses (wMember []).d 1 3 wTime wTimeP := by unfold BelayPasses; decide +kernel
theorem wit_RopeDelivers_lead : ∀ x ∈ [(0x10, wAnnounce, wAnnounceP), (0x40, wStatus, wStatusP), (0x31, wAnswer, wAnswerP), (0x31, wRefusal, wRefusalP)],
    RopeDelivers (wLead []).d 1 x.1 x.2.1 x.2.2 := by unfold RopeDelivers BelayPasses; decide +kernel
theorem wit_RopeDelivers_member : ∀ x ∈ [(0x11, wFormed, wFormedP), (0x20, wWpLow, wWpLowP), (0x20, wWpEmpty, wWpEmptyP), (0x20, wWpFull, wWpFullP),
    (0x30, wRead, wReadP), (0x30, wWrite, wWriteP), (0x50, wRopeAlarm, wRopeAlarmP)], RopeDelivers (wMember []).d 1 x.1 x.2.1 x.2.2 := by
  unfold RopeDelivers BelayPasses; decide +kernel
/-- A HELLO of the lead, and one that names the member's own position. -/
def wHello (pos : Nat) : List Byte := belayHeader 1 0 0 0 24 0 5 0 ++ beBytes 8 4001 ++ beBytes 8 5 ++ [1, BitVec.ofNat 8 pos, 0, 0, 0, 0, 0, 0]
theorem wit_BelayLinkRows_hello : (wRope 2 lkHello 0 []).live 0xA = true ∧ (wRope 2 lkHello 0 []).frozen = false ∧
    (∀ x ∈ [lkOff, lkAlign, lkHello, lkConfirm, lkUp], link (wRope 2 x 0 []).d 1 = x) ∧
    (let d := (wRope 2 lkHello 0 []).d;
      d.get (L.PAGE_ENABLE 0xA) = 1 ∧ d.get L.ROPE_SILENT = 0 ∧ d.get R.VAULT_STATUS_DRBG_STATE = drbgReady ∧ d.get (L.DRBG_GEN 0) < 2 ^ 20 ∧
      d.get (R.TX_COUNTER 1) < 2 ^ 63 ∧ beVal (bytesAt (wHello 0) 0 1) ≠ 2 ∧ (wHello 0).head? = some 1 ∧ belayFormOk (wHello 0) = true ∧
      belayFormOk ((wHello 0).take 51) = false ∧ belayPayloadOk 1 ((wHello 0).drop 28) = true ∧ belayKnown 0x51 = false ∧
      helloConflict d ((wHello 3).drop 28) = true ∧ helloConflict d ((wHello 0).drop 28) = false) ∧
    (∀ x ∈ [0, 1], (wRope 2 lkHello 0 [(R.ROPE_STATUS_KEY_PRESENT, x)]).d.get R.ROPE_STATUS_KEY_PRESENT = x) := by decide +kernel
/-- A frame waits for the port, as behind one under way. -/
def wWaits (busy : Bool) : Dev :=
  let d := (wRope 2 lkHello 0 []).d
  if busy then d.lineMap 1 fun t => lineAppend t (belayChars [1]) else { d with lineWait := [⟨1, 1, 3, 0, 0, 0, 0, []⟩] }
theorem wit_BelayLinkRows_wait : lineBusy (wRope 2 lkHello 0 []).d 1 = false ∧ (∀ w ∈ (wRope 2 lkHello 0 []).d.lineWait, w.port ≠ 1) ∧
    lineBusy (wWaits true) 1 = true ∧ (∃ w ∈ (wWaits false).lineWait, w.port = 1) := by decide +kernel
/-- Of the frames that wait, an ALARM goes first, then TIME, and equals in order of arrival (R466). -/
theorem test_line_order : let w (t q : Nat) : LineWait := ⟨1, t, 3, 0, 0, 0, q, []⟩
    waitFirst [w 0x40 1, w 0x20 2, w 3 3, w 0x50 4, w 0x50 5] = some (w 0x50 4) ∧ waitFirst [w 0x40 1, w 0x30 2, w 0x31 3] = some (w 0x30 2) := by decide
theorem wit_BelayLinkRows_sealed : wConfirm.head? = some 2 ∧ belayFormOk wConfirm = true ∧
    (∀ x ∈ [1, 2], (wRope 2 lkUp 0 [(L.B_TAGFAILS 1, x)]).d.get (L.B_TAGFAILS 1) = x) ∧
    beVal (bytesAt wConfirm 8 8) ≤ (wRope 2 3 0 [(L.B_RXCTR 1, 6)]).d.get (L.B_RXCTR 1) ∧
    (Crypto.gcmOpen 32 77 6 (wConfirm.take 28) (bytesAt wConfirm 28 48) (beVal (bytesAt wConfirm (28 + 48) 16) + 1)).2 = false ∧
    (∀ x ∈ [9999999, 10000000], (stWith [] fun d => { d with cyc := x }).d.get (L.B_AT 1) + 10000000 ≤ x ↔ x = 10000000) ∧
    (∀ x ∈ [29999, 30000], (stWith [] fun d => { d with cyc := x }).d.get (L.TM_LAST 1) + 30000 ≤ x ↔ x = 30000) := by decide +kernel
theorem wit_BelayTimeRows : link (wMember []).d 1 = lkUp ∧ (wMember []).d.get L.ROPE_SILENT = 0 ∧
    (wMember []).d.get (L.TM_TXN 1) ≠ (wMember []).d.time / (10000 * fineNs) + 1 ∧
    (wMember [(L.TM_TXN 1, 1)]).d.get (L.TM_TXN 1) = (wMember []).d.time / (10000 * fineNs) + 1 ∧
    (wMember []).d.get (R.TX_COUNTER 1) < 2 ^ 63 ∧ (wMember [(L.TM_MSEQ 1, 255)]).d.get (L.TM_MSEQ 1) < 256 ∧
    (wHello 0).head? ≠ some 3 ∧ foreignLead (wMember []).d 1 = false ∧ isMember (wLead []).d = false ∧ isMember (wMember []).d = true ∧
    (∀ n ∈ [62, 63], let d := (wLead [(L.TM_RXV 1, 1), (L.TM_RXSEQ 1, 7), (L.TM_TXT 1 9, 1), (L.B_DN 1, n)]).d;
      d.get (L.TM_RXV 1) = 1 ∧ d.get (L.TM_RXSEQ 1) = beVal (bytesAt wTimeP 0 1) ∧ bitAt (beVal (bytesAt wTimeP 3 1)) 1 = true ∧
      d.get (L.TM_TXT 1 (beVal (bytesAt wTimeP 1 1))) ≠ 0 ∧ d.get (L.B_DN 1) = n ∧ belayTimeOf (bytesAt wTimeP 4 12) = 0) ∧
    (wLead []).d.get (L.TM_RXV 1) ≠ 1 := by decide +kernel
theorem wit_RopeFormationRows_cfg : (∀ x ∈ [rpIdle, rpForming, rpFormed, rpDegraded, rpLeadLost], ropeState (wRope 1 4 x []).d = x) ∧
    isLead (wRope 1 4 0 []).d = true ∧ isLead (wRope 0 4 0 []).d = false ∧ isMember (wRope 0 4 0 []).d = false ∧
    ((sumBelow (fun j => if (wRope 1 4 0 []).d.on (R.MEMBER_VALID j) then 2 ^ j else 0) 8 &&& 0xFE) ||| 1) = 1 ∧
    ropeExpected (wRope 1 4 0 [(R.ROPE_CFG_EXPECTED_MASK, 0)]).d = 1 ∧ ropeExpected (wRope 1 4 0 [(R.ROPE_CFG_EXPECTED_MASK, 8)]).d = 9 ∧
    slotActive (st [(L.SLOT_CODE (slotId 0xA 3), codeRunning)]).d (slotId 0xA 3) = true ∧ slotActive (st []).d (slotId 0xA 3) = false ∧
    (let d := (st [(R.SLOT_TYPE 1023, tyRope), (R.RIGHTS_MGMT_RANGE_LAST, 1023), (R.RIGHTS_HOST_RANGE_LAST, 1023)]).d;
      inRange d (slotMaster (slotId 0xA 3)).num 1023 = true ∧ d.get (R.SLOT_TYPE 1023) = tyRope ∧ vEmpty d 1023 = true ∧ vReserved d 1023 = false) ∧
    (∀ x ∈ [0, 1], let d := (st [(R.SLOT_STATE 1023, vsValid), (R.SLOT_USE_LIMIT 1023, x), (R.PRESENCE_STATUS_ASSERTED, x)]).d;
      vEmpty d 1023 = false ∧ d.get (R.SLOT_USE_LIMIT 1023) = x ∧ d.get R.PRESENCE_STATUS_ASSERTED = x) ∧
    vReserved (st [(L.V_DST 0 0, 1024), (L.SLOT_CODE (vId 0), codeRunning)]).d 1023 = true ∧ (st []).d.get (R.SLOT_TYPE 1023) ≠ tyRope ∧
    (st []).run.stopped = false := by decide +kernel
theorem wit_RopeFormationRows_frames : (let p := wAnnounceP; beVal (bytesAt p 8 1) = 3 ∧ beVal (bytesAt p 0 8) = 5003) ∧
    (let d := (wLead [(R.ROPE_CFG_EXPECTED_MASK, 9)]).d; bitAt (ropeExpected d) 3 = true ∧ d.get (R.MEMBER_VALID 3) = 0 ∧
      bitAt (d.get R.ROPE_STATUS_MEMBERS) 3 = false) ∧
    bitAt (ropeExpected (wLead [(R.ROPE_CFG_EXPECTED_MASK, 0)]).d) 3 = false ∧ belayOrigin wFormed = 0 ∧
    bitAt (beVal (bytesAt wFormedP 0 1)) (ropePos (wMember []).d) = true ∧ beVal (bytesAt wFormedP (4 + 8 * 3) 8) = (wMember []).d.get R.DEVICE_ID ∧
    beVal (bytesAt wFormedP (4 + 8 * 3) 8) ≠ (wMember [(R.DEVICE_ID, 1)]).d.get R.DEVICE_ID ∧
    beVal (bytesAt wFormedP 4 8) ≠ (wMember []).d.get L.LEAD_ID ∧ belayOrigin wStatus = 3 ∧
    (∀ x ∈ [0, 1], (wLead [(R.MEMBER_VALID 3, x)]).d.get (R.MEMBER_VALID 3) = x) ∧ (wMember []).d.get L.ORIGIN_SEQ < 2 ^ 63 ∧
    bitAt ((wLead [(R.ROPE_STATUS_MEMBERS, 128)]).d.get R.ROPE_STATUS_MEMBERS) 7 = true ∧
    (let d := (wLead [(R.ROPE_CFG2_MEMBER_TIMEOUT, 0), (R.ROPE_CFG2_LEAD_TIMEOUT, 0)]).d;
      d.get (L.MEMBER_SEEN 7) + max 1 (d.get R.ROPE_CFG2_MEMBER_TIMEOUT) * 1000000 = 1000000 ∧
      d.get L.LEAD_SEEN + max 1 (d.get R.ROPE_CFG2_LEAD_TIMEOUT) * 1000000 = 1000000) := by decide +kernel
theorem wit_RopeAccessRows : belayOrigin wWpFull = 0 ∧ beVal (bytesAt wWpLowP 0 2) + 1 = ropeFirst ∧ beVal (bytesAt wWpFullP 0 2) = 4095 ∧
    beVal (bytesAt wWpEmptyP 4 36) = 0 ∧ beVal (bytesAt wWpFullP 4 36) ≠ 0 ∧ wpImageOk (beVal (bytesAt wWpFullP 4 36)) = true ∧
    bitAt (beVal (bytesAt wWpFullP 4 36)) 107 = false ∧ (wMember []).d.get L.REM_RX = 0 ∧
    (∀ x ∈ [0, 1], (wMember [(R.ROPE_CFG_REMOTE_ALLOW, x)]).d.get R.ROPE_CFG_REMOTE_ALLOW = x) ∧ beVal (bytesAt wReadP 4 1) = 1 ∧
    beVal (bytesAt wWriteP 4 1) = 2 ∧ remoteExcluded 1 (beVal (bytesAt wReadP 8 1)) (beVal (bytesAt wReadP 10 2)) = false ∧
    remoteExcluded 2 (beVal (bytesAt wWriteP 8 1)) (beVal (bytesAt wWriteP 10 2)) = false ∧
    (let d := (wLead [(L.SLOT_CODE (slotId 0xA 3), codeRunning), (L.SLOT_OPCODE (slotId 0xA 3), opRemoteRead), (L.REM_SLOT_TAG 3, 555),
        (L.SLOT_CAP (slotId 0xA 3) 0, 3), (R.ROPE_STATUS_MEMBERS, 9), (L.SLOT_ARG (slotId 0xA 3) 0, 3)]).d;
      slotCode d (slotId 0xA 3) = codeRunning ∧ slotOp d (slotId 0xA 3) = opRemoteRead ∧ d.get (L.REM_SLOT_TAG 3) = beVal (bytesAt wAnswerP 0 4) ∧
      slotArg d (slotId 0xA 3) 0 % 8 = belayOrigin wAnswer ∧
      (∀ i ∈ [0, 1, 2], slotCode d (slotId 0xA i) ≠ codeRunning ∧ slotOp d (slotId 0xA i) ≠ opRemoteWrite) ∧
      d.get (L.REM_AT 3) = 0 ∧ isLead d = true ∧ ropeState d = rpFormed ∧ bitAt (d.get R.ROPE_STATUS_MEMBERS) (d.get (L.SLOT_ARG (slotId 0xA 3) 0) % 8) = true) ∧
    beVal (bytesAt wAnswerP 5 1) = codeOk ∧ beVal (bytesAt wRefusalP 5 1) ≠ codeOk ∧ (wMember []).d.get L.ROPE_TICK ≠ (wMember []).d.tick + 1 ∧
    bitAt ((wLead []).d.get R.ROPE_STATUS_MEMBERS) 7 = false := by decide +kernel


/-! ## Telemetry, key revocation and the whole device -/

/-- Port 255's second window is past its end. -/
def wWindow (more : List (Fld × Nat)) : State := st ([(L.PAGE_ENABLE 0xC, 1), (L.WIN_OPEN 255 1, 1)] ++ more)
theorem wit_TelemetryRows : (st [(L.PAGE_ENABLE 0xC, 0)]).d.get (L.PAGE_ENABLE 0xC) = 0 ∧ (wWindow []).d.get (L.PAGE_ENABLE 0xC) = 1 ∧
    (wWindow []).run.stopped = false ∧ (wWindow []).d.get (L.WIN_OPEN 255 1) = 1 ∧ (st []).d.get (L.WIN_OPEN 255 1) = 0 ∧
    (wWindow []).d.get (R.PTEL_TO_RING 255) = 0 ∧
    (∀ x ∈ [0, 6], let d := (wWindow [(R.PTEL_TO_RING 255, 1), (R.PTEL_TRING 255, 3), (R.TRING_CFG_ENABLE 3, 1), (R.TRING_CFG_SIZE_LOG 3, 6),
        (R.PRODUCER 3, 63), (R.CONSUMER 3, x)]).d;
      d.get (R.PTEL_TO_RING 255) = 1 ∧ d.get (R.TRING_CFG_ENABLE 3) = 1 ∧ d.get (R.TRING_CFG_ERROR 3) = 0 ∧ d.get (R.TRING_CFG_OWNER 3) = 0 ∧
      d.get L.PCI_BM_OFF = 0 ∧ d.get L.PCI_D3HOT = 0 ∧ ((d.get (R.PRODUCER 3) + 1) % tringSize d 3 = d.get (R.CONSUMER 3) ↔ x = 0)) ∧
    (∀ x ∈ [0, 1], (wWindow [(R.SAMPLE_CTRL_ENABLE, x)]).d.get R.SAMPLE_CTRL_ENABLE = x) ∧ (wWindow []).d.tickTime = 0 ∧
    (wWindow []).d.get L.SWEEP_LAST ≠ 1 ∧ hwmMode .active (wWindow []).d 4223 = false ∧ hwmMode .active (wWindow [(R.QTEL_FORCE_HWM 4223, 1)]).d 4223 = true ∧
    (∀ x ∈ [0, 1], ∀ n ∈ [4, 5], let d := (wWindow [(R.THR_ABOVE 63, x), (R.THR_KIND 63, 1), (R.THR_INDEX 63, 4223), (R.THR_N 63, 4), (R.QSTAT_CHARGE 4223, n)]).d;
      d.get (R.THR_ABOVE 63) = x ∧ d.get (R.THR_KIND 63) ≠ 0 ∧ (d.get (R.THR_N 63) < thrOccupancy d 63 ↔ n = 5)) := by decide +kernel
theorem wit_KeyhashRevokeRule : (st []).live 6 = true ∧ slotActive (st []).d (slotId 6 3) = false ∧
    (∀ k ∈ [3, 4], (st [(L.SLOT_ARG (slotId 6 3) 0, k)]).d.get (L.SLOT_ARG (slotId 6 3) 0) = k) ∧ bitAt (slotsPermitted [] 1) 0 = false ∧
    (let otp := otpBlowBig [] 0x050 12 5; bitAt (slotsPermitted otp 1) 0 = true ∧ slotsUsable (otpBlow otp 0x080 1) 1 = 0) ∧
    (let otp := otpBlowBig (otpBlowBig [] 0x050 12 5) 0x05C 12 5; slotsUsable (otpBlow otp 0x080 1) 1 ≠ 0) ∧
    (∀ x ∈ [0, 1], (st [(R.PRESENCE_STATUS_ASSERTED, x)]).d.get R.PRESENCE_STATUS_ASSERTED = x) := by decide +kernel
theorem wit_OpenAnchorRefusesBootCompletion : (wRec .booting 511 [] []).live 0xD = true ∧ anchored (wRec .booting 511 [] []).anchors 9 = false ∧
    slotActive (wRec .booting 511 [] []).d (slotId 0xD 3) = false := by decide +kernel
theorem wit_AnchorsStaySet : (st []).live 0x70 = true ∧ anchored (anchorSet 0 0x70 4 8) 2 = true ∧ step (st []) = .next (st []).idle := by
  refine ⟨by decide +kernel, by decide +kernel, rfl⟩
theorem wit_FusesStayBlown : State.reset.otpWf ∧ (wBoot.otp ≠ []) ∧ State.otpWf wBoot ∧ ∃ t, step wBoot = .next t :=
  ⟨by unfold State.otpWf; decide +kernel, by decide +kernel, by unfold State.otpWf; decide +kernel, _, rfl⟩
theorem wit_RunStatesFollowTheTable : ∃ t, step { st [] with pending := [.pllLock 0 0] } = .next t := ⟨_, rfl⟩

/-! ## Published vectors, and commands in their words -/

/-- FIPS 197, appendix C.1. -/
theorem test_aes128 : Crypto.aes 16 0x000102030405060708090a0b0c0d0e0f 0x00112233445566778899aabbccddeeff = 0x69c4e0d86a7b0430d8cdb78070b4c55a := by
  decide +kernel
/-- FIPS 197, appendix C.3. -/
theorem test_aes256 : Crypto.aes 32 0x000102030405060708090a0b0c0d0e0f101112131415161718191a1b1c1d1e1f 0x00112233445566778899aabbccddeeff =
    0x8ea2b7ca516745bfeafc49904b496089 := by decide +kernel
/-- RFC 3394, section 4.1. -/
theorem test_key_wrap : beVal (Crypto.keyWrap 16 0x000102030405060708090a0b0c0d0e0f (beBytes 16 0x00112233445566778899aabbccddeeff)) =
    0x1fa68b0a8112b447aef34bd8fb5a7b829d3e862371d2cfe5 := by decide +kernel
/-- FIPS 180-4: the digest of "abc". -/
theorem test_sha384 : beVal (Crypto.sha384 [0x61, 0x62, 0x63]) =
    0xcb00753f45a35e8bb5a03d699ac65007272c32ab0eded1631a8b605a43ff5bed8086072ba1e7cc2358baeca134c825a7 := by decide +kernel
/-- SP 800-38D, case 2 of its validation vectors: a block of zeros under the zero key. -/
theorem test_gcm : Crypto.gcmSeal 16 0 0 [] (List.replicate 16 0) =
    (beBytes 16 0x0388dace60b6a392f328c2b971b2fe78, 0xab6e47d42cec13bdf53a67b21257bddf) := by decide +kernel
/-- The check value of the CRC-32 of IEEE 802.3, first octet first: the digits 1 to 9. -/
theorem test_fcs : Crypto.fcs ((List.range 9).map fun i => BitVec.ofNat 8 (0x31 + i)) = [0x26, 0x39, 0xF4, 0xCB] := by decide +kernel
/-- IEEE 802.3, Table 36-1a: D21.5 is 1010101010 at either disparity; K28.5 is 0011111010 and its complement. -/
theorem test_8b10b : (encodeChar false (.data 0xB5)).1 = 0b1010101010 ∧ (encodeChar true (.data 0xB5)).1 = 0b1010101010 ∧
    (encodeChar false (.k 0xBC)).1 = 0b0011111010 ∧ (encodeChar true (.k 0xBC)).1 = 0b1100000101 := by decide +kernel
/-- The opcode table gives its rows no bits, so no word spells a command. -/
theorem test_no_word : decodeTableWord 32 5 = none ∧ State.reset.withFetchWord 32 5 = State.reset := ⟨rfl, rfl⟩

/-! ## The package: worked examples of its chapter -/

/-- The example of R529, and the balls of a tile lie where its table has them. -/
theorem test_lane_balls : laneBalls 20 = [⟨3, 17⟩, ⟨3, 18⟩, ⟨7, 17⟩, ⟨7, 18⟩] ∧ laneBalls 200 = [⟨64, 1⟩, ⟨63, 1⟩, ⟨64, 5⟩, ⟨63, 5⟩] ∧
    tileUse 2 2 0 = .txp 20 ∧ tileUse 2 6 1 = .rxn 20 := by decide
/-- R429's IDCODE and R540's example. -/
theorem test_idcode_junction : jtagIdcode = 0x18256A73 ∧ junctionAt 470 85 = 106150 ∧ junctionAt 405 60 = 78225 := by decide

end Sys2Proof.Tests
end

section
namespace Sys2Proof.Machine

/-! ## Reading after some cells are forgotten -/

/-- Keeping the cells whose key passes a test: those keys read as before, every other reads zero. -/
theorem Cells.find_filter_key (c : List (Nat × Nat)) (p : Nat → Bool) (k : Nat) :
    Cells.find (c.filter fun x => p x.1) k = if p k = true then Cells.find c k else 0 := by
  induction c with
  | nil => simp [Cells.find]
  | cons x r ih =>
    by_cases hx : x.1 = k
    · subst hx
      by_cases hp : p x.1 = true <;> simp [hp, Cells.find, ih]
    · by_cases hp : p x.1 = true <;> simp [hp, Cells.find, ih, hx]

/-- A field of contents that keep some of the cells of `d`. -/
theorem Dev.get_of_filter_key (d e : Dev) (p : Nat → Bool) (h : e.cells = d.cells.filter fun x => p x.1) (g : Fld) :
    e.get g = if p g.key = true then d.get g else g.reset := by
  rw [Dev.get, h, Cells.find_filter_key]
  split
  · rfl
  · exact Nat.zero_xor _

/-! ## The main domain cleared (R24) -/

theorem get_mainClear (d : Dev) (g : Fld) : (mainClear d).get g = if bcBase ≤ g.key then d.get g else g.reset := by
  rw [Dev.get_of_filter_key d (mainClear d) (fun k => decide (bcBase ≤ k)) rfl g]
  simp

theorem intentCut_d (s : State) : (intentCut s).d = s.d := by simp only [intentCut]; split <;> rfl
theorem intentCut_anchors (s : State) : (intentCut s).anchors = s.anchors := by simp only [intentCut]; split <;> rfl
theorem intentCut_pending (s : State) : (intentCut s).pending = s.pending := by simp only [intentCut]; split <;> rfl

/-- While no intent word is being programmed a reset cuts no fuse short. -/
theorem intentCut_of_quiet {s : State} (h : s.intentQuiet) : intentCut s = s := by
  obtain ⟨h1, h2⟩ := h
  simp [intentCut, h1, h2]

/-! ## The fuses are read (R408) -/

/-- The fields that decoding the fuses writes. -/
def otpFields : List Fld :=
  [R.LC_STATE, R.DEVICE_ID, R.OWNER_ID, R.DEBUG_STATUS_FULL_OPEN, R.AVS_CODE, R.CEIL_HOST_CLASSES, R.CEIL_HOST_RANGE_FIRST,
    R.CEIL_HOST_RANGE_LAST, R.CEIL_MGMT_CLASSES, R.CEIL_MGMT_RANGE_FIRST, R.CEIL_MGMT_RANGE_LAST, R.OTP_FAULTS, L.AL_PULSE, R.ROLLBACK_COUNT,
    R.TAMPER_COUNT, R.KEYHASH_STATE_PROGRAMMED, R.KEYHASH_STATE_REVOKED, R.KEYHASH_STATE_PERMITTED, R.KEYHASH_STATE_SECRET_SET]

/-- A change that keeps the frame keeps it when it is made once for each element of a list. -/
theorem Dev.OnlyChanges.foldl {α : Type} {d e : Dev} {fs : List Fld} {evs : List Nat} {f : Dev → α → Dev} (h : d.OnlyChanges e fs evs)
    (hf : ∀ (x : Dev) (a : α), x.OnlyChanges (f x a) fs evs) (l : List α) : d.OnlyChanges (l.foldl f e) fs evs := by
  induction l generalizing e with
  | nil => exact h
  | cons a r ih => exact ih (h.trans (hf e a))

/-- One faulty life-cycle word is counted and reported. -/
theorem otpFault_onlyChanges (d : Dev) : d.OnlyChanges (((d.count 6 R.OTP_FAULTS).latch 6 16).alarm 59) [R.OTP_FAULTS, L.AL_PULSE] [6] :=
  ((((Dev.OnlyChanges.refl d _ _).count 6 1 (by simp)).latch 6 16 (by simp) (by decide)).set _ (by simp))

theorem otpFaults_onlyChanges (d : Dev) (k : Nat) :
    d.OnlyChanges ((List.range k).foldl (fun d _ => ((d.count 6 R.OTP_FAULTS).latch 6 16).alarm 59) d) [R.OTP_FAULTS, L.AL_PULSE] [6] :=
  (Dev.OnlyChanges.refl d _ _).foldl (fun x _ => otpFault_onlyChanges x) _

theorem otpCounts_onlyChanges (s : State) : s.d.OnlyChanges (otpCounts s).d
    [R.ROLLBACK_COUNT, R.TAMPER_COUNT, R.KEYHASH_STATE_PROGRAMMED, R.KEYHASH_STATE_REVOKED, R.KEYHASH_STATE_PERMITTED,
      R.KEYHASH_STATE_SECRET_SET] [] := by
  rw [otpCounts, State.setDev_d]
  exact (Dev.OnlyChanges.refl s.d _ _).setAll _ (by simp)

theorem otpLoad_onlyChanges (s : State) : s.d.OnlyChanges (otpLoad s).d otpFields [6] := by
  refine Dev.OnlyChanges.trans ?_ ((otpCounts_onlyChanges _).mono (by simp [otpFields]) (by simp))
  rw [State.setDev_d]
  refine Dev.OnlyChanges.trans ?_ ((otpFaults_onlyChanges _ _).mono (by simp [otpFields]) (by simp))
  exact (Dev.OnlyChanges.refl s.d _ _).setAll _ (by simp [otpFields])

theorem otpLoad_run (s : State) : (otpLoad s).run = s.run := by rw [otpLoad, otpCounts, State.setDev_run, State.setDev_run]
theorem otpLoad_power (s : State) : (otpLoad s).power = s.power := by rw [otpLoad, otpCounts, State.setDev_power, State.setDev_power]
theorem otpLoad_otp (s : State) : (otpLoad s).otp = s.otp := by rw [otpLoad, otpCounts, State.setDev_otp, State.setDev_otp]
theorem otpLoad_anchors (s : State) : (otpLoad s).anchors = s.anchors := by rw [otpLoad, otpCounts, State.setDev_anchors, State.setDev_anchors]
theorem otpLoad_pending (s : State) : (otpLoad s).pending = s.pending := by rw [otpLoad, otpCounts, State.setDev_pending, State.setDev_pending]

theorem lcDecode_lt (otp : List (Nat × Nat)) : lcDecode otp < 8 := by
  unfold lcDecode
  cases h : [5, 4, 3, 2].find? (lcIs otp) with
  | none => decide
  | some t =>
    have := List.mem_of_find?_eq_some h
    simp only [List.mem_cons, List.not_mem_nil, or_false] at this
    rcases this with h | h | h | h <;> subst h <;> decide

/-- The life-cycle state read after a reset is the decoded one. -/
theorem otpLoad_lcState (s : State) : (otpLoad s).d.get R.LC_STATE = lcDecode s.otp := by
  rw [otpLoad, (otpCounts_onlyChanges _).2 R.LC_STATE (by decide) (by simp), State.setDev_d]
  rw [(otpFaults_onlyChanges _ _).2 R.LC_STATE (by decide) (by decide), Dev.setAll_cons, Dev.get_setAll_ne _ _ _ (by simp; decide), Dev.get_set_same]
  exact Nat.mod_eq_of_lt (lcDecode_lt s.otp)

end Sys2Proof.Machine
end

section
namespace Sys2Proof.Machine

/-! ## The main domain leaves reset (R24, R26, R532) -/

/-- The keys that an event of page `pg` may write are its fields' and its marks'. -/
theorem eventKey_cases {pg k : Nat} (h : eventKey pg k = true) :
    (∃ f ∈ evtFields pg, k = f.key) ∨ ((L.EVT_RISE_TICK pg 0).key ≤ k ∧ k < (L.EVT_RISE_TICK (pg + 1) 0).key) := by
  simp only [eventKey, Bool.or_eq_true, Bool.and_eq_true, beq_iff_eq, decide_eq_true_eq] at h
  simp only [evtFields, List.mem_cons, List.not_mem_nil, or_false, exists_eq_or_imp, exists_eq_left]
  tauto

/-- The fields of Base Camp lie above those that a reset and the fuses write. -/
theorem startFields_lt {g : Fld} (hg : bcBase ≤ g.key) : (∀ f ∈ startFields, g.key ≠ f.key) ∧ eventKey 6 g.key = false := by
  constructor
  · intro f hf e
    have : ∀ f ∈ startFields, f.key < bcBase := by decide
    exact absurd (this f hf) (by omega)
  · rw [Bool.eq_false_iff]
    intro h
    have h0 : 2 ^ 56 ≤ g.key := hg
    rcases eventKey_cases h with ⟨f, hf, e⟩ | ⟨-, hhi⟩
    · have : ∀ f ∈ evtFields 6, f.key < bcBase := by decide
      exact absurd (this f hf) (by omega)
    · simp only [L.EVT_RISE_TICK, latFld, latBase] at hhi
      omega

theorem mainStart_onlyChanges (s : State) (cause : Nat) (powerOn : Bool) :
    (mainClear s.d).OnlyChanges (mainStart s cause powerOn).d startFields [6] := by
  refine Dev.OnlyChanges.trans ?_ ((otpLoad_onlyChanges _).mono (by simp [otpFields, startFields]) (by simp))
  exact ((Dev.OnlyChanges.refl _ _ _).setAll _ (by simp [startFields])).setAll _ (by simp [startFields])

/-- A field that the fuses do not give reads after a start what the straps and the cause gave it. -/
theorem mainStart_get (s : State) (cause : Nat) (powerOn : Bool) (g : Fld) (h : ∀ f ∈ otpFields, g.key ≠ f.key) (he : eventKey 6 g.key = false) :
    (mainStart s cause powerOn).d.get g = ((strapsSample (mainClear s.d)).setAll [(L.RESET_CAUSE, cause), (L.PU_WANT, b2n powerOn)]).get g :=
  (otpLoad_onlyChanges _).2 g h (by simpa using he)

/-- What a start of the main domain answers, of a state whose Base Camp fields are those of `s` but for `bc`. -/
theorem mainStart_mainStarts (s u : State) (cause : Nat) (powerOn : Bool) (bc : List Fld) (hc : cause < 8) (hp : u.pending = s.pending)
    (hf : u.d.freeCtr = s.d.freeCtr) (hb : ∀ g : Fld, bcBase ≤ g.key → (∀ f ∈ bc, g.key ≠ f.key) → u.d.get g = s.d.get g) :
    MainStarts s (mainStart u cause powerOn) cause bc := by
  have hframe := mainStart_onlyChanges u cause powerOn
  have hcamp (g : Fld) (hg : bcBase ≤ g.key) : (mainStart u cause powerOn).d.get g = u.d.get g := by
    obtain ⟨hs, he⟩ := startFields_lt hg
    rw [hframe.2 g hs (by simpa using he), get_mainClear, if_pos hg]
  have hstraps : (mainClear u.d).get L.STRAPS = u.d.get L.STRAPS := by rw [get_mainClear, if_pos (by decide)]
  refine ⟨otpLoad_run _, otpLoad_power _, otpLoad_anchors _, (otpLoad_pending _).trans hp, ⟨?_, ?_, ?_⟩, ?_, ?_, ?_, ?_⟩
  · rw [← hf]
    exact hframe.1
  · intro g hg hs he
    rw [hframe.2 g hs (by simpa using he), get_mainClear, if_neg (by omega)]
  · intro g hg hs
    rw [hcamp g hg, hb g hg hs]
  · rw [mainStart_get _ _ _ _ (by decide) (by decide), Dev.setAll_cons, Dev.get_setAll_ne _ _ _ (by simp; decide), Dev.get_set_same]
    exact Nat.mod_eq_of_lt hc
  · rw [mainStart, otpLoad_lcState, otpLoad_otp]
  · rw [mainStart_get _ _ _ _ (by decide) (by decide), Dev.get_setAll_ne _ _ _ (by simp; decide), strapsSample, Dev.setAll_cons,
      Dev.get_setAll_ne _ _ _ (by simp; decide), Dev.get_set_same, hcamp L.STRAPS (by decide), hstraps]
    simp [bitsOf, R.TB_STATUS_REF_25M, regFld]
  · rw [mainStart_get _ _ _ _ (by decide) (by decide), Dev.get_setAll_ne _ _ _ (by simp; decide), strapsSample, Dev.setAll_cons,
      Dev.setAll_cons, Dev.setAll_nil, Dev.get_set_same, hcamp L.STRAPS (by decide), hstraps]
    simp only [bitsOf, R.ROPE_CFG_ROLE, regFld]
    omega

theorem mainStart_otp (s : State) (cause : Nat) (powerOn : Bool) : (mainStart s cause powerOn).otp = s.otp := otpLoad_otp _

/-- A device reset of a powered part. -/
theorem deviceReset_mainStarts {s : State} (h : s.power ≠ .baseCampOnly) {cause : Nat} (hc : cause < 8) :
    MainStarts s (deviceReset s cause) cause [] ∧ (s.intentQuiet → (deviceReset s cause).otp = s.otp) := by
  rw [deviceReset, if_neg h]
  constructor
  · exact mainStart_mainStarts s _ cause false [] hc (intentCut_pending s) (by rw [intentCut_d]) (fun g _ _ => by rw [intentCut_d])
  · intro hq
    rw [mainStart_otp, intentCut_of_quiet hq]

/-- A power-on reset samples the straps and counts its cycles anew. -/
theorem powerOnReset_mainStarts (s : State) (straps : Nat) :
    MainStarts s (powerOnReset s straps) 0 [L.STRAPS, R.POWERUP_COUNT] ∧ (powerOnReset s straps).d.get L.STRAPS = straps % 16 ∧
      (powerOnReset s straps).d.get R.POWERUP_COUNT = 0 ∧ (s.intentQuiet → (powerOnReset s straps).otp = s.otp) := by
  have hcamp (g : Fld) (hg : bcBase ≤ g.key) :
      (powerOnReset s straps).d.get g = ((intentCut s).d.setAll [(L.STRAPS, straps), (R.POWERUP_COUNT, 0)]).get g := by
    obtain ⟨hs, he⟩ := startFields_lt hg
    rw [powerOnReset, (mainStart_onlyChanges _ _ _).2 g hs (by simpa using he), get_mainClear, if_pos hg, State.setDev_d]
  refine ⟨mainStart_mainStarts s _ 0 true _ (by decide) (intentCut_pending s) ?_ ?_, ?_, ?_, ?_⟩
  · rw [State.setDev_d, Dev.setAll_freeCtr, intentCut_d]
  · intro g _ hg
    rw [State.setDev_d, intentCut_d, Dev.get_setAll_ne _ _ _ (by simpa using hg)]
  · rw [hcamp _ (by decide), Dev.setAll_cons, Dev.get_setAll_ne _ _ _ (by simp; decide), Dev.get_set_same]
    rfl
  · rw [hcamp _ (by decide), Dev.setAll_cons, Dev.setAll_cons, Dev.setAll_nil, Dev.get_set_same]
    rfl
  · intro hq
    rw [powerOnReset, mainStart_otp, State.setDev_otp, intentCut_of_quiet hq]

/-! ## The main supplies go, and Base Camp starts cold (R28, R378, R388) -/

theorem supplyLoss_mainCleared (s : State) : MainCleared s.d (supplyLoss s).d [] [] := by
  have hd : (supplyLoss s).d = mainClear s.d := by rw [supplyLoss, intentCut_d]
  rw [hd]
  refine ⟨rfl, fun g hg _ _ => ?_, fun g hg _ => ?_⟩
  · rw [get_mainClear, if_neg (by omega)]
  · rw [get_mainClear, if_pos hg]

theorem coldStart_get (s : State) (g : Fld) (h : g.key ≠ L.STRAPS.key) : (coldStart s).d.get g = g.reset := by
  have e : ({ Dev.empty with freeCtr := (intentCut s).d.freeCtr } : Dev).get g = g.reset := Dev.get_empty g
  rw [coldStart, Dev.get_set_ne _ _ _ _ h, e]

theorem coldStart_straps (s : State) : (coldStart s).d.get L.STRAPS = s.d.get L.STRAPS % 16 := by
  rw [coldStart, Dev.get_set_same, intentCut_d]
  rfl

/-! ## The endpoint's configuration (R24, R31) -/

theorem get_clearGroup_reset (d : Dev) (f g : Fld) (h : d.get g = g.reset) : (d.clearGroup f).get g = g.reset := by
  rw [Dev.clearGroup, Dev.get_clearRange, h, ite_self]

theorem get_clearGroup_self (d : Dev) (f : Fld) (h : latBase ≤ f.key) : (d.clearGroup f).get f = f.reset := by
  rw [Dev.clearGroup, Dev.get_clearRange, if_pos]
  have := Nat.div_add_mod (f.key - latBase) (2 ^ 32)
  have := Nat.mod_lt (f.key - latBase) (Nat.two_pow_pos 32)
  constructor <;> omega

/-- Groups that are cleared one after the other all read their reset values. -/
theorem get_clearGroups (fs : List Fld) (d : Dev) (f : Fld) (h : f ∈ fs ∨ d.get f = f.reset) (hl : latBase ≤ f.key) :
    (fs.foldl Dev.clearGroup d).get f = f.reset := by
  induction fs generalizing d with
  | nil => exact h.resolve_left (by simp)
  | cons g r ih =>
    refine ih _ ?_
    rcases h with h | h
    · rcases List.mem_cons.1 h with e | e
      · subst e
        exact .inr (get_clearGroup_self d f hl)
      · exact .inl e
    · exact .inr (get_clearGroup_reset d g f h)

theorem get_endpointReset (d : Dev) {f : Fld} (h : f ∈ [L.MSIX_PENDING, L.PCI_BM_OFF, L.PCI_D3HOT]) : (endpointReset d).get f = f.reset := by
  refine get_clearGroups _ d f (.inl ?_) ?_
  · simp only [List.mem_cons, List.not_mem_nil, or_false] at h
    rcases h with h | h | h <;> subst h <;> simp
  · have : ∀ f ∈ [L.MSIX_PENDING, L.PCI_BM_OFF, L.PCI_D3HOT], latBase ≤ f.key := by decide
    exact this f h

/-- Both PCIe resets change the device's contents alone, and Bus Master Enable, the D-state and the pending vectors return to reset. -/
theorem pcieReset_yields {c : Instr} {s : State} (hp : s.power ≠ .baseCampOnly) (hc : exec c s = s.powered fun s => s.setDev (pcieReset s.run s.d)) :
    Yields c s fun e => e.get L.PCI_BM_OFF = 0 ∧ e.get L.PCI_D3HOT = 0 ∧ e.get L.MSIX_PENDING = 0 := by
  refine ⟨pcieReset s.run s.d, ?_, ?_, ?_, ?_⟩
  · rw [hc, State.powered, if_neg hp]
  all_goals exact get_endpointReset _ (by simp)

end Sys2Proof.Machine

open Sys2Proof Sys2Proof.Machine

/-- Settles O5: every reset of the whole part is one start of the main domain (`mainStart_mainStarts`). -/
theorem wholePartResets : Obligations.WholePartResets := by
  unfold Obligations.WholePartResets
  intro s straps ns key
  obtain ⟨hstart, hstraps, hcount, hotp⟩ := powerOnReset_mainStarts s straps.toNat
  refine ⟨⟨_, rfl, hstart, ?_, hcount, hotp⟩, fun hp hns => ?_, fun hl hk => ?_, fun hns => ?_, fun hk => ?_⟩
  · rw [hstraps]
    exact Nat.mod_eq_of_lt straps.isLt
  · refine ⟨_, ?_, deviceReset_mainStarts hp (by decide)⟩
    show execResetN ns s = _
    rw [execResetN, if_pos hns]
  · have hp : s.power ≠ .baseCampOnly := by
      intro e
      simp [State.live, pageResponds, e] at hl
    refine ⟨_, ?_, deviceReset_mainStarts hp (by decide)⟩
    show execDeviceReset key s = _
    rw [execDeviceReset, if_pos ⟨hl, hk⟩]
  · show execResetN ns s = _
    rw [execResetN, if_neg (by omega)]
  · show execDeviceReset key s = _
    rw [execDeviceReset, if_neg (fun h => hk h.2)]

/-- Settles O6. -/
theorem supplyLossAndPcieResets : Obligations.SupplyLossAndPcieResets := by
  unfold Obligations.SupplyLossAndPcieResets
  intro s
  refine ⟨⟨_, rfl, rfl, rfl, intentCut_anchors s, intentCut_pending s, supplyLoss_mainCleared s, fun hq => ?_⟩,
    ⟨_, rfl, rfl, intentCut_pending s, coldStart_get s, coldStart_straps s, fun hq => ?_⟩, fun hp c hc => ?_⟩
  · rw [supplyLoss, intentCut_of_quiet hq]
  · rw [coldStart, intentCut_of_quiet hq]
  · simp only [List.mem_cons, List.not_mem_nil, or_false] at hc
    rcases hc with rfl | rfl
    · exact pcieReset_yields hp rfl
    · exact pcieReset_yields hp rfl
end

section
namespace Sys2Proof.Machine

/-! ## A write by a core that resets the part and goes on (R24, R39, R61, R341)

MEMORY_ACCESS by a core carries any number of bytes, so one command can write DEV_CTRL of page 0x00, which resets the part, and further on
ANCHOR_STATUS of page 0x04, which anchors a group of the part that has just been reset. -/

/-- The main domain stands as a reset leaves it: BOOTING in STANDBY. -/
def State.freshBoot (s : State) : Prop := s.run = .booting ∧ s.power = .standby

@[simp] theorem State.freshBoot_setDev (s : State) (d : Dev) : (s.setDev d).freshBoot ↔ s.freshBoot := Iff.rfl
@[simp] theorem State.freshBoot_anchors (s : State) (a : BitVec 10) : State.freshBoot { s with anchors := a } ↔ s.freshBoot := Iff.rfl
@[simp] theorem State.freshBoot_otp (s : State) (o : List (Nat × Nat)) : State.freshBoot { s with otp := o } ↔ s.freshBoot := Iff.rfl
@[simp] theorem State.freshBoot_otpCounts (s : State) : (otpCounts s).freshBoot ↔ s.freshBoot := by rw [otpCounts, State.freshBoot_setDev]

theorem State.freshBoot.powered {s : State} (h : s.freshBoot) : s.power ≠ .baseCampOnly := by simp [h.2]

/-- A device reset of a powered part leaves it BOOTING in STANDBY. -/
theorem deviceReset_freshBoot (s : State) (cause : Nat) (h : s.power ≠ .baseCampOnly) : (deviceReset s cause).freshBoot := by
  rw [deviceReset, if_neg h, mainStart]
  exact ⟨otpLoad_run _, otpLoad_power _⟩

theorem State.freshBoot.containRelease {s : State} (h : s.freshBoot) : (containRelease s).freshBoot := by
  rw [Sys2Proof.Machine.containRelease, if_neg (by simp [h.1])]
  exact h

theorem State.freshBoot.otpProgram {s : State} (h : s.freshBoot) (id : Nat) : (otpProgram s id).freshBoot := by
  simp [Sys2Proof.Machine.otpProgram, apply_ite State.freshBoot, h]

theorem State.freshBoot.keyhashRevoke {s : State} (h : s.freshBoot) (id : Nat) : (keyhashRevoke s id).freshBoot := by
  simp [Sys2Proof.Machine.keyhashRevoke, apply_ite State.freshBoot, h]

theorem State.freshBoot.rollbackAdvance {s : State} (h : s.freshBoot) : (rollbackAdvance s).freshBoot := by
  simp [Sys2Proof.Machine.rollbackAdvance, apply_ite State.freshBoot, h]

theorem State.freshBoot.bootComplete {s : State} (h : s.freshBoot) (i : Nat) : (bootComplete s i).freshBoot := by
  unfold Sys2Proof.Machine.bootComplete
  split
  · exact h
  · simp only [apply_ite State.freshBoot, State.freshBoot_setDev, h, h.rollbackAdvance, ite_self]

/-- A CMD write to page 0x06 keeps the state where its command does. -/
theorem State.freshBoot.lcSlot {s : State} (h : s.freshBoot) (i op : Nat) {f : State → State} (hf : ∀ t : State, t.freshBoot → (f t).freshBoot) :
    (outState s (s.lcSlot i op f)).freshBoot := by
  simp only [State.lcSlot, outState, apply_ite State.freshBoot, h, hf _ ((State.freshBoot_setDev _ _).2 h), ite_self]

/-- The same of page 0x0D. -/
theorem State.freshBoot.recSlot {s : State} (h : s.freshBoot) (i op : Nat) (mgmtOnly : Bool) {f : State → State}
    (hf : ∀ t : State, t.freshBoot → (f t).freshBoot) : (outState s (s.recSlot i op mgmtOnly f)).freshBoot := by
  simp only [State.recSlot, outState, apply_ite State.freshBoot, State.freshBoot_setDev, h, hf _ ((State.freshBoot_setDev _ _).2 h), ite_self]

theorem State.freshBoot.slotCommand {s t : State} (h : s.freshBoot) (pg i op : Nat) (ht : slotCommand s pg i op = some t) : t.freshBoot := by
  unfold Sys2Proof.Machine.slotCommand at ht
  dsimp only at ht
  split_ifs at ht <;> cases ht
  · exact h
  · exact h.lcSlot _ _ fun _ k => k.otpProgram _
  · exact h.lcSlot _ _ fun _ k => k
  · exact h.lcSlot _ _ fun _ k => k.keyhashRevoke _
  · exact h.lcSlot _ _ fun _ k => k
  · exact h.lcSlot _ _ fun _ k => k
  · exact h
  · exact h
  · exact h
  · exact h.recSlot _ _ _ fun _ k => k
  · exact h.recSlot _ _ _ fun _ k => k.bootComplete _
  · exact h.recSlot _ _ _ fun _ k => k
  · exact h.recSlot _ _ _ fun _ k => k

theorem State.freshBoot.slotIssue {s : State} (h : s.freshBoot) (m pg i op : Nat) : (slotIssue s m pg i op).freshBoot := by
  cases hc : Sys2Proof.Machine.slotCommand s pg i op with
  | none => simp only [Sys2Proof.Machine.slotIssue, hc, apply_ite State.freshBoot, State.freshBoot_setDev, h, ite_self]
  | some t =>
    simp only [Sys2Proof.Machine.slotIssue, hc, apply_ite State.freshBoot, State.freshBoot_setDev, h, h.slotCommand _ _ _ hc, ite_self]

theorem State.freshBoot.slotPut {s : State} (h : s.freshBoot) (m pg off v : Nat) : (slotPut s m pg off v).freshBoot := by
  simp only [Sys2Proof.Machine.slotPut, apply_ite State.freshBoot, State.freshBoot_setDev, h, h.slotIssue, ite_self]

theorem State.freshBoot.headerPut {s : State} (h : s.freshBoot) (m pg off v : Nat) : (headerPut s m pg off v).freshBoot := by
  simp only [Sys2Proof.Machine.headerPut, apply_ite State.freshBoot, State.freshBoot_setDev, State.freshBoot_anchors, h, ite_self]

theorem State.freshBoot.put00 {s : State} (h : s.freshBoot) (pg off v : Nat) : (put00 s pg off v).freshBoot := by
  simp only [Sys2Proof.Machine.put00, apply_ite State.freshBoot, State.freshBoot_setDev, deviceReset_freshBoot s 2 h.powered, h, ite_self]

theorem State.freshBoot.put07 {s : State} (h : s.freshBoot) (off v : Nat) : (put07 s off v).freshBoot := by
  simp only [Sys2Proof.Machine.put07, apply_ite State.freshBoot, State.freshBoot_setDev, h.containRelease, h, ite_self]

theorem State.freshBoot.regPut {s : State} (h : s.freshBoot) (m pg off v : Nat) : (regPut s m pg off v).freshBoot := by
  simp only [Sys2Proof.Machine.regPut, apply_ite State.freshBoot, State.freshBoot_setDev, h.put00, h.put07, h, ite_self]

/-- No write of a register leaves BOOTING or STANDBY once a reset has entered them. -/
theorem State.freshBoot.busWrite {s : State} (h : s.freshBoot) (m addr v : Nat) : (busWrite s m addr v).freshBoot := by
  have hd (d : Dev) : (s.setDev d).freshBoot := h
  simp only [Sys2Proof.Machine.busWrite, apply_ite State.freshBoot, State.freshBoot_setDev, (hd _).headerPut, (hd _).slotPut, (hd _).regPut, h,
    ite_self]

theorem State.freshBoot.pagesWrite {s : State} (h : s.freshBoot) (o : Nat) (bs : List Byte) (i k : Nat) : (pagesWrite s o bs i k).freshBoot := by
  induction k generalizing s i with
  | zero => exact h
  | succ k ih =>
    refine ih ?_ _
    simp only [spaceWrite, apply_ite State.freshBoot, State.freshBoot_setDev, h.busWrite, h, ite_self]

/-- A run of words is written in two parts. -/
theorem pagesWrite_add (s : State) (o : Nat) (bs : List Byte) (i j k : Nat) :
    pagesWrite s o bs i (j + k) = pagesWrite (pagesWrite s o bs i j) o bs (i + j) k := by
  induction j generalizing s i with
  | zero => simp [pagesWrite]
  | succ j ih =>
    rw [show j + 1 + k = (j + k) + 1 by omega]
    simp only [pagesWrite]
    rw [ih, show i + 1 + j = i + (j + 1) by omega]

/-- One word that the bytes cover whole is a register write of the management complex. -/
theorem pagesWrite_one (s : State) (o : Nat) (bs : List Byte) (i w : Nat) (hw : w = o / 4 * 4 + 4 * i) (ho : o ≤ w) (hl : w + 4 ≤ o + bs.length) :
    pagesWrite s o bs i 1 = busWrite s 1 w (leVal ((bs.drop (w - o)).take 4)) := by
  subst hw
  simp [pagesWrite, spaceWrite, ho, hl, Master.num]

/-- ANCHOR_STATUS of page 0x04 anchors group 3. -/
theorem anchorSet_page4_ne_zero (a : BitVec 10) : anchorSet a 4 1 8 ≠ 0 := by
  have h : anchorSet a 4 1 8 = a ||| 1#10 <<< 3 := by
    simp [anchorSet, anchorGroup, bitAt]
  intro h0
  have := congrArg (·.getLsbD 3) (h.symm.trans h0)
  simp at this

/-- The register writes of a part that is BOOTING in STANDBY set the anchor of page 0x04. -/
theorem State.freshBoot.anchors_page4 {s : State} (h : s.freshBoot) : (Machine.busWrite s 1 0x40030 1).anchors ≠ 0 := by
  have hl : s.live 4 = true := by rw [State.live, h.1, h.2]; decide
  have e : Machine.busWrite s 1 0x40030 1 = { s.setDev (heldDrop s.d 1 4 0x30) with anchors := anchorSet s.anchors 4 1 8 } := by
    simp [Machine.busWrite, hl, h.powered, Machine.headerPut]
  rw [e]
  exact anchorSet_page4_ne_zero s.anchors

/-- A device reset by DEV_CTRL (R39). -/
theorem busWrite_devCtrl_freshBoot {s : State} (h : s.live 0 = true) (hp : s.power ≠ .baseCampOnly) (m : Nat) :
    (busWrite s m 0x100 0xD1E50001).freshBoot := by
  have e : busWrite s m 0x100 0xD1E50001 = deviceReset (s.setDev (heldDrop s.d m 0 0x100)) 2 := by
    simp [busWrite, h, hp, hasSlots, steeringIgnored, show wideLow 0 0x100 = false by decide, show wideHigh 0 0x100 = false by decide, regPut,
      put00, show bitAt 0xD1E50001 0 = true by decide, show bitsOf 0xD1E50001 16 16 = 0xD1E5 by decide]
  rw [e]
  exact deviceReset_freshBoot _ 2 hp

theorem length_leBytes (n v : Nat) : (leBytes n v).length = n := by
  induction n generalizing v with
  | zero => rfl
  | succ n ih => simp [leBytes, ih]

/-- What a core writes from DEV_CTRL of page 0x00 on: the key of a device reset, `n` zero bytes, and a word with a one for anchor group 3. -/
def resetThenAnchor (n : Nat) : List Byte := leBytes 4 0xD1E50001 ++ (List.replicate n 0#8 ++ leBytes 4 1)

theorem length_resetThenAnchor (n : Nat) : (resetThenAnchor n).length = n + 8 := by
  simp only [resetThenAnchor, List.length_append, length_leBytes, List.length_replicate]
  omega

theorem resetThenAnchor_first (n : Nat) : leVal ((resetThenAnchor n).take 4) = 0xD1E50001 := by
  rw [resetThenAnchor, List.take_left' (length_leBytes _ _)]
  decide

theorem resetThenAnchor_last (n : Nat) : leVal (((resetThenAnchor n).drop (n + 4)).take 4) = 1 := by
  rw [resetThenAnchor, ← List.append_assoc, List.drop_left' (by simp [length_leBytes, Nat.add_comm])]
  decide

/-- The words from DEV_CTRL to ANCHOR_STATUS of page 0x04: afterwards the part is BOOTING in STANDBY, and a group is anchored. -/
theorem pagesWrite_resetThenAnchor {s : State} (h : s.live 0 = true) (hp : s.power ≠ .baseCampOnly) {n : Nat} (hn : n = 0x40030 - 0x104) :
    (pagesWrite s 0x100 (resetThenAnchor n) 0 65485).freshBoot ∧ (pagesWrite s 0x100 (resetThenAnchor n) 0 65485).anchors ≠ 0 := by
  have hlen : (resetThenAnchor n).length = 261940 := by rw [length_resetThenAnchor, hn]
  have hfirst : (pagesWrite s 0x100 (resetThenAnchor n) 0 1).freshBoot := by
    rw [pagesWrite_one _ _ _ _ 0x100 (by rfl) (by omega) (by omega), Nat.sub_self, List.drop_zero, resetThenAnchor_first]
    exact busWrite_devCtrl_freshBoot h hp 1
  have hmid := hfirst.pagesWrite 0x100 (resetThenAnchor n) (0 + 1) 65483
  rw [← pagesWrite_add] at hmid
  have hlast : pagesWrite s 0x100 (resetThenAnchor n) 0 65485 =
      busWrite (pagesWrite s 0x100 (resetThenAnchor n) 0 (1 + 65483)) 1 0x40030 1 := by
    rw [show 65485 = (1 + 65483) + 1 from rfl, pagesWrite_add, pagesWrite_one _ _ _ _ 0x40030 (by omega) (by omega) (by omega),
      show 0x40030 - 0x100 = n + 4 by omega, resetThenAnchor_last]
  rw [hlast]
  exact ⟨hmid.busWrite _ _ _, hmid.anchors_page4⟩

/-- A part with main power on, in run state ACTIVE and power state ACTIVE, and nothing else set. -/
def runningState : State := ⟨[], 0, .active, .active, [], Dev.empty⟩

/-- A core's write to the register pages moves, besides the device's contents, what its words move. -/
theorem corePages_write (s : State) (core a n : Nat) (bs : List Byte) :
    ∃ d, corePages s core a n (some bs) =
      (pagesWrite s (a - 0x10000000) bs 0 (((a - 0x10000000) % 4 + bs.length + 3) / 4)).setDev d := ⟨_, rfl⟩

/-- The write of these words by core 0 resets the running part and leaves a group anchored. -/
theorem exec_resetThenAnchor {n : Nat} (hn : n = 0x40030 - 0x104) :
    ∃ t, exec (.memoryAccess 0 0x10000100#36 0 (some (resetThenAnchor n)) []) runningState = .next t ∧ t.freshBoot ∧ t.anchors ≠ 0 := by
  obtain ⟨hf, ha⟩ := pagesWrite_resetThenAnchor (s := runningState) (by decide) (by decide) hn
  have hlen : (resetThenAnchor n).length = 261940 := by rw [length_resetThenAnchor, hn]
  have hp : onPages 0 0x10000100 0 (some (resetThenAnchor n)) = true := by
    simp only [onPages, hlen]
    decide
  have he : exec (.memoryAccess 0 0x10000100#36 0 (some (resetThenAnchor n)) []) runningState =
      .next (corePages runningState 0 0x10000100 0 (some (resetThenAnchor n))) :=
    if_pos (Bool.and_eq_true_iff.2 ⟨hp, by decide⟩)
  obtain ⟨d, hd⟩ := corePages_write runningState 0 0x10000100 0 (resetThenAnchor n)
  simp only [hlen, Nat.reduceSub, Nat.reduceMod, Nat.reduceAdd, Nat.reduceDiv] at hd
  exact ⟨_, he, by rwa [hd, State.freshBoot_setDev], by rwa [hd, State.setDev_anchors]⟩

end Sys2Proof.Machine

open Sys2Proof Sys2Proof.Machine

/-- Refutes O60: MEMORY_ACCESS carries any number of bytes, so one write by a core can reset the part through DEV_CTRL and then, further on,
anchor the group of page 0x04. The run state has gone from ACTIVE to BOOTING, and an anchor is set, so the step is no row of the table and
not the reset that the statement allows. -/
theorem not_runStatesFollowTheTable : ¬ Obligations.RunStatesFollowTheTable := by
  unfold Obligations.RunStatesFollowTheTable
  intro h
  obtain ⟨t, ht, ⟨hrun, hpower⟩, hanchors⟩ := exec_resetThenAnchor (n := 0x40030 - 0x104) rfl
  have := h { runningState with pending := [.memoryAccess 0 0x10000100#36 0 (some (resetThenAnchor (0x40030 - 0x104))) []] } t ht
  rw [hrun, hpower] at this
  obtain hkept | hmoved | ⟨-, ⟨-, hreset⟩ | hcamp⟩ := this
  · exact absurd hkept (by decide)
  · exact absurd hmoved (by decide)
  · exact hanchors hreset
  · exact absurd hcamp (by decide)
end

section
open Sys2Proof Sys2Proof.Machine

/-- Settles O59: nothing is listed in the fuses of the state after reset, so the list is canonical and every word reads zero. -/
theorem resetFusesWf : Obligations.ResetFusesWf := by
  unfold Obligations.ResetFusesWf
  refine ⟨⟨rfl, ?_, fun _ => rfl⟩, rfl, fun w => rfl⟩
  intro p hp
  cases hp
end

section
namespace Sys2Proof.Machine

/-! ## The counters of a page (R544) -/

/-- The key of a counter of page `pg`. -/
def counterKey (pg k : Nat) : Bool :=
  decide (pageKey pg ≤ k) && decide (k < pageKey (pg + 1)) && (pageRegs pg (k / 64 % 65536)).any fun x => x.acc == .rc && x.f.key == k

theorem get_zeroCounters (d : Dev) (pg : Nat) (g : Fld) : (zeroCounters d pg).get g = if counterKey pg g.key then g.reset else d.get g := by
  rw [Dev.get_of_filter_key d (zeroCounters d pg) (fun k => !counterKey pg k) rfl g]
  cases counterKey pg g.key <;> rfl

/-- Zeroing the counters of a page moves no other field. -/
theorem zeroCounters_onlyChanges (d : Dev) {pg : Nat} {fs : List Fld} (h : ∀ k, counterKey pg k = true → ∃ f ∈ fs, k = f.key) :
    d.OnlyChanges (zeroCounters d pg) fs [] := by
  refine ⟨rfl, fun g hg _ => ?_⟩
  rw [get_zeroCounters, if_neg]
  intro hk
  obtain ⟨f, hf, e⟩ := h g.key hk
  exact hg f hf e

/-- The keys of a page's counters are those of `fs` when the clearing fields of its words are. -/
theorem mem_of_counterKey {pg : Nat} {fs : List Fld} (h : ∀ off, ∀ x ∈ (pageRegs pg off).filter (·.acc == .rc), x.f ∈ fs) (k : Nat)
    (hk : counterKey pg k = true) : ∃ f ∈ fs, k = f.key := by
  simp only [counterKey, Bool.and_eq_true, List.any_eq_true, beq_iff_eq] at hk
  obtain ⟨-, x, hx, hacc, e⟩ := hk
  exact ⟨x.f, h _ x (List.mem_filter.2 ⟨hx, by simp [hacc]⟩), e.symm⟩

/-- The counters among the registers of a word that stands at one offset. -/
theorem filter_counters_ite (p : Prop) [Decidable p] (l : List RegField) :
    (if p then l else []).filter (·.acc == .rc) = if p then l.filter (·.acc == .rc) else [] := by
  split <;> rfl

theorem pageRegs_two (off : Nat) : pageRegs 2 off = regs02 off := rfl
theorem pageRegs_three (off : Nat) : pageRegs 3 off = regs03 off := rfl

theorem counters_page3 (off : Nat) : ∀ x ∈ (pageRegs 3 off).filter (·.acc == .rc), x.f ∈ [R.WP_LATE_COUNT, R.WP_FAIL_COUNT] := by
  have h : (pageRegs 3 off).filter (·.acc == .rc) =
      (if off = 0x104 then [⟨R.WP_LATE_COUNT, 0, 32, 0, .rc⟩] else []) ++ (if off = 0x108 then [⟨R.WP_FAIL_COUNT, 0, 32, 0, .rc⟩] else []) := by
    simp [pageRegs_three, regs03, regs03f0, filter_counters_ite]
  rw [h]
  intro x hx
  simp only [List.mem_append, List.mem_ite_nil_right, List.mem_singleton] at hx
  rcases hx with ⟨-, rfl⟩ | ⟨-, rfl⟩ <;> simp

theorem counters_page2 (off : Nat) :
    ∀ x ∈ (pageRegs 2 off).filter (·.acc == .rc), x.f ∈ [R.TOD_RX_DATA_BYTE, R.DISCIPLINE_REFUSED, R.STEP_COUNT] := by
  have h : (pageRegs 2 off).filter (·.acc == .rc) =
      (if off = 0x178 then [⟨R.TOD_RX_DATA_BYTE, 0, 8, 0, .rc⟩] else []) ++ (if off = 0x180 then [⟨R.DISCIPLINE_REFUSED, 0, 32, 0, .rc⟩] else []) ++
        (if off = 0x184 then [⟨R.STEP_COUNT, 0, 32, 0, .rc⟩] else []) := by
    rw [pageRegs_two]
    delta regs02 regs02f0
    simp only [List.filter_append, filter_counters_ite]
    simp
  rw [h]
  intro x hx
  simp only [List.mem_append, List.mem_ite_nil_right, List.mem_singleton] at hx
  rcases hx with (⟨-, rfl⟩ | ⟨-, rfl⟩) | ⟨-, rfl⟩ <;> simp

theorem softReset_page3_onlyChanges (d : Dev) :
    d.OnlyChanges (softReset d 3) [R.WP_LATE_COUNT, R.WP_FAIL_COUNT, R.WP_LAST_LATE, R.WP_LAST_FAIL] [] :=
  Dev.OnlyChanges.setAll ((zeroCounters_onlyChanges d (mem_of_counterKey counters_page3)).mono (by simp) (by simp)) _ (by simp)

theorem softReset_page2_onlyChanges (d : Dev) :
    ({ d with todTx := [], todRx := [] } : Dev).OnlyChanges (softReset d 2)
      [R.DISCIPLINE_REFUSED, R.STEP_COUNT, R.TOD_RX_DATA_BYTE, L.TOD_LEFT] [] := by
  obtain ⟨hq, hf⟩ := zeroCounters_onlyChanges d (mem_of_counterKey counters_page2)
  refine Dev.OnlyChanges.set (e := { zeroCounters d 2 with todTx := [], todRx := [] }) ⟨rfl, fun g hg he => ?_⟩ 0 (by simp)
  exact hf g (fun f hm => hg f (by simp only [List.mem_cons, List.not_mem_nil, or_false] at hm ⊢; tauto)) he

/-- The counters that a soft reset of page 0x03 or 0x02 zeroes. -/
theorem counterKey_words : counterKey 3 R.WP_LATE_COUNT.key = true ∧ counterKey 3 R.WP_FAIL_COUNT.key = true ∧
    counterKey 2 R.DISCIPLINE_REFUSED.key = true ∧ counterKey 2 R.STEP_COUNT.key = true := by decide

/-! ## The waypoint engine (R93) -/

/-- Storing at a key that a list of the store leaves out does not move the list. -/
theorem Cells.filterMap_put {α : Type} (c : List (Nat × Nat)) (k v : Nat) (F : Nat × Nat → Option α) (hF : ∀ u, F (k, u) = none) :
    (Cells.put c k v).filterMap F = c.filterMap F := by
  unfold Cells.put
  split
  · induction c with
    | nil => rfl
    | cons p r ih =>
      obtain ⟨j, u⟩ := p
      by_cases hj : j = k
      · subst hj
        simp [hF u, ih]
      · simp [hj, List.filterMap_cons, ih]
  · induction c with
    | nil => simp [Cells.insert, hF]
    | cons p r ih =>
      obtain ⟨j, u⟩ := p
      unfold Cells.insert
      split_ifs with h1 h2
      · rw [List.filterMap_cons_none (hF v)]
      · subst h2
        rw [List.filterMap_cons_none (hF v), List.filterMap_cons_none (hF u)]
      · rw [List.filterMap_cons, List.filterMap_cons, ih]

/-- Writing a field outside the entries of page 0x03 moves no armed entry. -/
theorem wpArmedList_set (d : Dev) (f : Fld) (v : Nat) (h : f.key < tblKey 3 0 0 ∨ tblKey 3 1 0 ≤ f.key) (hs : ∀ n, (R.WP_STATE n).key ≠ f.key) :
    wpArmedList (d.set f v) = wpArmedList d := by
  have hl : (d.set f v).listedEntries 3 0 288 = d.listedEntries 3 0 288 :=
    Cells.filterMap_put _ _ _ _ fun _ => if_neg (by show ¬ (tblKey 3 0 0 ≤ f.key ∧ f.key < tblKey 3 1 0 ∧ _); omega)
  rw [wpArmedList, wpArmedList, hl]
  simp only [Dev.get_set_ne d f _ v (hs _)]

theorem wpEngineOn_of_none {d : Dev} (h : d.get (L.PAGE_ENABLE 3) = 0) (ha : wpArmedList d = []) : wpEngineOn d = d.set (L.PAGE_ENABLE 3) 1 := by
  have hl : wpArmedList (d.set (L.PAGE_ENABLE 3) 1) = [] := by
    rw [wpArmedList_set _ _ _ (.inr (by decide)) _, ha]
    intro n
    simp only [R.WP_STATE, L.PAGE_ENABLE, tblFld, latFld, tblBase, latBase]
    omega
  simp [wpEngineOn, Dev.on, h, hl]

end Sys2Proof.Machine

open Sys2Proof Sys2Proof.Machine

/-- Settles O14: of pages 0x02 and 0x03 a soft reset takes the counters that `counters_page2` and `counters_page3` list and what it names;
starting the engine with no armed entry commits none. -/
theorem softResetAndEngineRows : Obligations.SoftResetAndEngineRows := by
  unfold Obligations.SoftResetAndEngineRows
  intro s
  obtain ⟨hlate, hfail, hrefused, hsteps⟩ := counterKey_words
  refine ⟨fun pg hl => congrArg _ (if_pos hl), ⟨_, rfl, softReset_page3_onlyChanges s.d, ?_, ?_, ?_, ?_⟩,
    ⟨_, rfl, softReset_page2_onlyChanges s.d, ?_, ?_⟩, ?_, fun hl he ha => ?_, fun he => ?_⟩
  · refine (Dev.get_setAll_ne _ _ _ (by simp; decide)).trans ?_
    rw [get_zeroCounters, if_pos hlate]
    rfl
  · refine (Dev.get_setAll_ne _ _ _ (by simp; decide)).trans ?_
    rw [get_zeroCounters, if_pos hfail]
    rfl
  · refine (Dev.get_set_ne _ _ _ _ (by decide)).trans (Dev.get_set_same _ _ _)
  · exact Dev.get_set_same _ _ _
  · refine (Dev.get_set_ne _ _ _ _ (by decide)).trans ((get_zeroCounters s.d 2 _).trans ?_)
    rw [if_pos hrefused]
    rfl
  · refine (Dev.get_set_ne _ _ _ _ (by decide)).trans ((get_zeroCounters s.d 2 _).trans ?_)
    rw [if_pos hsteps]
    rfl
  · intro pg hpg
    simp only [List.mem_cons, List.not_mem_nil, or_false] at hpg
    rcases hpg with h | h | h | h | h | h | h <;> subst h <;> rfl
  · refine ⟨s.d.set (L.PAGE_ENABLE 3) 1, ?_, (Dev.OnlyChanges.refl _ _ _).set 1 (by simp), Dev.get_set_same _ _ _⟩
    show s.page 3 wpEngineOn = _
    rw [State.page, if_pos hl, wpEngineOn_of_none he ha]
  · have hon : wpEngineOn s.d = s.d := if_pos (by simp [Dev.on, he])
    show s.page 3 wpEngineOn = _
    rw [State.page, hon, State.setDev_self, ite_self]
end

section
namespace Sys2Proof.Machine

/-! ## What executing a waypoint may touch besides its action (R85, R87, R90)

The record of an execution, and of its failure, lies in the entry, in the counters of page 0x03 and in the event fields. An action of the
data path lies elsewhere, so the two leave each other alone. -/

/-- A key within bounds. -/
def keyIn (lo hi k : Nat) : Bool := decide (lo ≤ k) && decide (k < hi)

/-- The keys that the waypoint engine and the events hold: registers of pages 0x01 and 0x03, the waypoint table, and the engine's and the
events' own groups. -/
def wpOwn (k : Nat) : Bool :=
  keyIn (pageKey 1) (pageKey 2) k || keyIn (pageKey 3) (pageKey 4) k || keyIn (tblKey 3 0 0) (tblKey 3 1 0) k ||
    keyIn (latBase + 1 * 2 ^ 32) (latBase + 3 * 2 ^ 32) k || keyIn (latBase + 38 * 2 ^ 32) (latBase + 48 * 2 ^ 32) k ||
    keyIn (latBase + 63 * 2 ^ 32) (latBase + 65 * 2 ^ 32) k

theorem wpOwn_eq_true {k : Nat} : wpOwn k = true ↔
    4194304 ≤ k ∧ k < 8388608 ∨ 12582912 ≤ k ∧ k < 16777216 ∨ 17643725651968 ≤ k ∧ k < 17644262522880 ∨
      281479271677952 ≤ k ∧ k < 281487861612544 ∨ 281638185467904 ≤ k ∧ k < 281681135140864 ∨ 281745559650304 ≤ k ∧ k < 281754149584896 := by
  simp only [wpOwn, keyIn, Bool.or_eq_true, Bool.and_eq_true, decide_eq_true_eq]
  simp only [pageKey, tblKey, tblBase, latBase]
  omega

theorem wpOwn_eq_false {k : Nat} : wpOwn k = false ↔
    ¬ (4194304 ≤ k ∧ k < 8388608 ∨ 12582912 ≤ k ∧ k < 16777216 ∨ 17643725651968 ≤ k ∧ k < 17644262522880 ∨
      281479271677952 ≤ k ∧ k < 281487861612544 ∨ 281638185467904 ≤ k ∧ k < 281681135140864 ∨ 281745559650304 ≤ k ∧ k < 281754149584896) := by
  rw [← Bool.not_eq_true, wpOwn_eq_true]

/-- A table of a later page is not the engine's. -/
theorem wpOwn_table {pg t i lo w r : Nat} (hp : 4 ≤ pg) (hq : pg < 256) (ht : t < 32) (hi : i < 2 ^ 20) (hl : lo < 512) :
    wpOwn (tblFld pg t i lo w r).key = false := by
  simp only [wpOwn_eq_false, tblFld, tblBase]
  omega

/-- A register of a later page is not the engine's. -/
theorem wpOwn_reg {pg off lo w r : Nat} (hp : 4 ≤ pg) (hq : pg < 256) (ho : off < 65536) (hl : lo < 64) :
    wpOwn (regFld pg off lo w r).key = false := by
  simp only [wpOwn_eq_false, regFld]
  omega

/-- A group of the model's own fields behind the engine's is not the engine's, nor are those of the page headers. -/
theorem wpOwn_lat {g i w r : Nat} (hg : 65 ≤ g ∨ g = 35 ∨ g = 36) (hi : i < 2 ^ 32) : wpOwn (latFld g i w r).key = false := by
  simp only [wpOwn_eq_false, latFld, latBase]
  omega

theorem wpOwn_entry {n lo w r : Nat} (hn : n < 2 ^ 20) (hl : lo < 512) : wpOwn (tblFld 3 0 n lo w r).key = true := by
  simp only [wpOwn_eq_true, tblFld, tblBase]
  omega

/-- Where the event fields of a page lie. -/
theorem evtFields_key {pg : Nat} {f : Fld} (h : f ∈ evtFields pg) :
    (4194304 ≤ f.key ∧ f.key < 8388608) ∨ f.key = 2 ^ 48 + 2 * 2 ^ 32 ∨
      ∃ g, (g = 1 ∨ g = 38 ∨ 40 ≤ g ∧ g ≤ 46) ∧ f.key = 2 ^ 48 + g * 2 ^ 32 + pg := by
  simp only [evtFields, List.mem_cons, List.not_mem_nil, or_false] at h
  rcases h with h | h | h | h | h | h | h | h | h | h | h | h | h | h | h | h <;> subst h
  · exact .inr (.inr ⟨38, by omega, rfl⟩)
  · exact .inr (.inr ⟨40, by omega, rfl⟩)
  · exact .inr (.inr ⟨41, by omega, rfl⟩)
  · exact .inr (.inr ⟨42, by omega, rfl⟩)
  · exact .inr (.inr ⟨43, by omega, rfl⟩)
  · exact .inr (.inr ⟨44, by omega, rfl⟩)
  · exact .inr (.inr ⟨1, by omega, rfl⟩)
  · exact .inr (.inr ⟨45, by omega, rfl⟩)
  · exact .inr (.inr ⟨46, by omega, rfl⟩)
  · exact .inl (by decide)
  · exact .inl (by decide)
  · exact .inl (by decide)
  · exact .inl (by decide)
  · exact .inl (by decide)
  · exact .inl (by decide)
  · exact .inr (.inl rfl)

/-- Where the keys lie that an event of page `pg` may write. -/
theorem eventKey_place {pg k : Nat} (h : eventKey pg k = true) :
    (4194304 ≤ k ∧ k < 8388608) ∨ k = 2 ^ 48 + 2 * 2 ^ 32 ∨ (∃ g, (g = 1 ∨ g = 38 ∨ 40 ≤ g ∧ g ≤ 46) ∧ k = 2 ^ 48 + g * 2 ^ 32 + pg) ∨
      2 ^ 48 + 47 * 2 ^ 32 + 32 * pg ≤ k ∧ k < 2 ^ 48 + 47 * 2 ^ 32 + 32 * (pg + 1) := by
  rcases eventKey_cases h with ⟨f, hf, e⟩ | hr
  · subst e
    rcases evtFields_key hf with h1 | h1 | h1
    · exact .inl h1
    · exact .inr (.inl h1)
    · exact .inr (.inr (.inl h1))
  · exact .inr (.inr (.inr hr))

/-- The keys that a page's events may write are the engine's or the events' own. -/
theorem wpOwn_of_eventKey {pg k : Nat} (hp : pg < 2 ^ 20) (h : eventKey pg k = true) : wpOwn k = true := by
  rw [wpOwn_eq_true]
  rcases eventKey_place h with h | h | ⟨g, hg, h⟩ | h <;> omega

theorem eventKey_of_not_wpOwn {pg k : Nat} (hp : pg < 2 ^ 20) (h : wpOwn k = false) : eventKey pg k = false := by
  rw [Bool.eq_false_iff]
  intro hk
  rw [wpOwn_of_eventKey hp hk] at h
  contradiction

/-- No field of the waypoint table is an event field. -/
theorem eventKey_entry (pg : Nat) {n lo w r : Nat} (hn : n < 2 ^ 20) (hl : lo < 512) : eventKey pg (tblFld 3 0 n lo w r).key = false := by
  rw [Bool.eq_false_iff]
  intro h
  simp only [tblFld, tblBase] at h
  rcases eventKey_place h with h | h | ⟨g, hg, h⟩ | h <;> omega

/-- An event of one page leaves the latch of another alone. -/
theorem eventKey_evtLatch {pg q : Nat} (hp : pg < 2 ^ 20) (hq : q < 2 ^ 20) (h : pg ≠ q) : eventKey pg (L.EVT_LATCH q).key = false := by
  rw [Bool.eq_false_iff]
  intro h
  simp only [L.EVT_LATCH, latFld, latBase] at h
  rcases eventKey_place h with h | h | ⟨g, hg, h⟩ | h <;> omega

/-- The fields that an execution or its failure writes are the engine's. -/
theorem wpOwn_wpFields {n : Nat} (hn : n < 4096) : ∀ f ∈ wpFields n ++ [R.WP_FAILED n, R.WP_FAIL_CODE n, R.WP_LAST_FAIL, R.WP_FAIL_COUNT],
    wpOwn f.key = true := by
  have hd : wpOwn (L.WP_DUE n).key = true ∧ wpOwn (L.WP_CARRY n).key = true := by
    simp only [wpOwn_eq_true, L.WP_DUE, L.WP_CARRY, latFld, latBase]
    omega
  have hr : wpOwn R.WP_LAST_FAIL.key = true ∧ wpOwn R.WP_FAIL_COUNT.key = true := by decide
  have he {lo w r : Nat} (hl : lo < 512) : wpOwn (tblFld 3 0 n lo w r).key = true := wpOwn_entry (by omega) hl
  simp only [wpFields, List.cons_append, List.nil_append, List.forall_mem_cons, hd, hr, true_and]
  exact ⟨he (by omega), he (by omega), he (by omega), he (by omega), he (by omega), he (by omega), he (by omega), he (by omega), he (by omega),
    he (by omega), by simp⟩

end Sys2Proof.Machine
end

section
namespace Sys2Proof.Machine

/-! ## The record of an execution (R85, R87) -/

/-- The record before NOTIFY. -/
def wpStamp (d : Dev) (n w : Nat) : Dev :=
  let e := (d.count 3 (R.WP_EXEC_COUNT n)).setAll [(R.WP_LAST_EXEC_SEC n, secOf w), (R.WP_LAST_EXEC_NS n, nsOf w), (L.WP_DUE n, 0), (L.WP_CARRY n, 0)]
  if wpPeriod d n = 0 then e.set (R.WP_STATE n) wpDone else if d.on (L.WP_DUE n) then e else wpSetT e n (wpT d n + wpPeriod d n)

theorem wpRecord_eq (d : Dev) (n w : Nat) : wpRecord d n w = (wpStamp d n w).latchIf ((wpStamp d n w).on (R.WP_NOTIFY n)) 3 0 := rfl

theorem wpStamp_onlyChanges (d : Dev) (n w : Nat) : d.OnlyChanges (wpStamp d n w) (wpFields n) [] := by
  have h : d.OnlyChanges ((d.count 3 (R.WP_EXEC_COUNT n)).setAll
      [(R.WP_LAST_EXEC_SEC n, secOf w), (R.WP_LAST_EXEC_NS n, nsOf w), (L.WP_DUE n, 0), (L.WP_CARRY n, 0)]) (wpFields n) [] :=
    ((Dev.OnlyChanges.refl d _ _).count 3 1 (by simp [wpFields])).setAll _ (by simp [wpFields])
  unfold wpStamp
  refine Dev.OnlyChanges.ite (fun _ => h.set _ (by simp [wpFields])) fun _ => Dev.OnlyChanges.ite (fun _ => h) fun _ => ?_
  exact h.setAll _ (by simp [wpFields])

/-- An execution's record moves the entry's fields and the events of page 0x03. -/
theorem wpRecord_onlyChanges (d : Dev) (n w : Nat) : d.OnlyChanges (wpRecord d n w) (wpFields n) [3] := by
  rw [wpRecord_eq]
  exact ((wpStamp_onlyChanges d n w).mono (fun _ h => h) (by simp)).latchIf _ 3 0 (by simp) (by decide)

theorem nsOf_lt (w : Nat) : nsOf w < 2 ^ 30 := by
  have : w % fineSec < fineSec := Nat.mod_lt _ (by decide)
  rw [nsOf, Nat.div_lt_iff_lt_mul (by decide)]
  exact lt_of_lt_of_le this (by decide)

/-- What an execution's record writes but T and the marks reads back. -/
theorem wpStamp_get (d : Dev) {n : Nat} (w : Nat) (hn : n < 4096) :
    (wpStamp d n w).get (R.WP_EXEC_COUNT n) = (d.count 3 (R.WP_EXEC_COUNT n)).get (R.WP_EXEC_COUNT n) ∧
      (wpStamp d n w).get (R.WP_LAST_EXEC_SEC n) = secOf w % 2 ^ 16 ∧ (wpStamp d n w).get (R.WP_LAST_EXEC_NS n) = nsOf w ∧
      (wpStamp d n w).get (R.WP_STATE n) = (if wpPeriod d n = 0 then wpDone else d.get (R.WP_STATE n)) ∧
      (wpStamp d n w).get (R.WP_NOTIFY n) = d.get (R.WP_NOTIFY n) := by
  have hns : nsOf w < 2 ^ 30 := nsOf_lt w
  have hw : (R.WP_LAST_EXEC_SEC n).w = 16 ∧ (R.WP_LAST_EXEC_NS n).w = 30 ∧ (R.WP_STATE n).w = 2 := ⟨rfl, rfl, rfl⟩
  unfold wpStamp wpSetT
  split_ifs <;>
    simp (disch := simp only [R.WP_EXEC_COUNT, R.WP_LAST_EXEC_SEC, R.WP_LAST_EXEC_NS, R.WP_STATE, R.WP_NOTIFY, R.WP_TIME_SEC_LO, R.WP_TIME_SEC_HI,
      R.WP_TIME_NS, R.WP_TIME_FRAC, L.WP_DUE, L.WP_CARRY, tblFld, latFld, tblBase, latBase]; omega)
      [Dev.setAll_cons, Dev.setAll_nil, Dev.get_set_ne, Dev.get_set_same, Dev.get_count_ne, hw, wpDone] <;>
    exact hns

/-- The fields of which an execution's record speaks. -/
def recordFields (n : Nat) : List Fld := [R.WP_EXEC_COUNT n, R.WP_LAST_EXEC_SEC n, R.WP_LAST_EXEC_NS n, R.WP_STATE n]

theorem eventKey_recordFields {n : Nat} (hn : n < 4096) (pg : Nat) : ∀ f ∈ recordFields n, eventKey pg f.key = false := by
  simp only [recordFields, List.forall_mem_cons, List.not_mem_nil, false_imp_iff, implies_true, and_true]
  exact ⟨eventKey_entry pg (by omega) (by decide), eventKey_entry pg (by omega) (by decide), eventKey_entry pg (by omega) (by decide),
    eventKey_entry pg (by omega) (by decide)⟩

theorem wpOwn_recordFields {n : Nat} (hn : n < 4096) : ∀ f ∈ recordFields n, wpOwn f.key = true := by
  simp only [recordFields, List.forall_mem_cons, List.not_mem_nil, false_imp_iff, implies_true, and_true]
  exact ⟨wpOwn_entry (by omega) (by decide), wpOwn_entry (by omega) (by decide), wpOwn_entry (by omega) (by decide),
    wpOwn_entry (by omega) (by decide)⟩

/-- What follows an execution's record and neither writes its fields nor clears its event bit leaves it recorded. -/
theorem WpRecorded.of_get {d e e' : Dev} {n w : Nat} (h : WpRecorded d e n w) (hg : ∀ f ∈ recordFields n, e'.get f = e.get f)
    (hv : e.evt 3 0 = true → e'.evt 3 0 = true) : WpRecorded d e' n w := by
  obtain ⟨hcount, hsec, hns, hdone, harmed, hnotify⟩ := h
  simp only [recordFields, List.forall_mem_cons, List.not_mem_nil, false_imp_iff, implies_true, and_true] at hg
  obtain ⟨gcount, gsec, gns, gstate⟩ := hg
  rw [WpRecorded, gcount, gsec, gns, gstate]
  exact ⟨hcount, hsec, hns, hdone, harmed, fun k => hv (hnotify k)⟩

/-- The execution of an armed entry is recorded. -/
theorem wpRecorded_wpRecord {d : Dev} {n : Nat} (w : Nat) (hn : n < 4096) (ha : d.get (R.WP_STATE n) = wpArmed) :
    WpRecorded d (wpRecord d n w) n w := by
  obtain ⟨hcount, hsec, hns, hstate, hnotify⟩ := wpStamp_get d w hn
  have hg (f : Fld) (hf : f ∈ recordFields n) : (wpRecord d n w).get f = (wpStamp d n w).get f := by
    rw [wpRecord_eq, Dev.get_latchIf_ne _ _ _ _ (by decide) _ (eventKey_recordFields hn 3 f hf)]
  refine WpRecorded.of_get (e := (wpStamp d n w).latchIf ((wpStamp d n w).on (R.WP_NOTIFY n)) 3 0) ?_ (fun f hf => rfl) fun k => k
  rw [← wpRecord_eq]
  refine ⟨fun hz => ?_, ?_, ?_, fun hp => ?_, fun hp => ?_, fun hk => ?_⟩
  · rw [hg _ (by simp [recordFields]), hcount, Dev.get_count_same, if_neg (by simp [Dev.on, hz])]
    rfl
  · rw [hg _ (by simp [recordFields]), hsec]
  · rw [hg _ (by simp [recordFields]), hns]
  · rw [hg _ (by simp [recordFields]), hstate, if_pos hp]
  · rw [hg _ (by simp [recordFields]), hstate, if_neg hp, ha]
  · have hon : (wpStamp d n w).on (R.WP_NOTIFY n) = true := by simp [Dev.on, hnotify, hk]
    rw [wpRecord_eq, Dev.latchIf, if_pos hon]
    exact Dev.evt_latch_same _ 3 0 (by decide) (by decide) (evtBitServed_of_not_port _ _ _ (by decide))

/-! ## A failure (R90) -/

/-- The fields that a failed execution moves. -/
def failFields (n : Nat) : List Fld := wpFields n ++ [R.WP_FAILED n, R.WP_FAIL_CODE n, R.WP_LAST_FAIL, R.WP_FAIL_COUNT]

theorem wpOutcome_ok (d : Dev) (n : Nat) : wpOutcome d n codeOk = d := if_pos rfl

theorem wpOutcome_of_ne (d : Dev) (n : Nat) {code : Nat} (h : code ≠ codeOk) : wpOutcome d n code =
    ((d.setAll [(R.WP_FAILED n, 1), (R.WP_FAIL_CODE n, code), (R.WP_LAST_FAIL, n)]).count 3 R.WP_FAIL_COUNT).latch 3 2 := if_neg h

theorem wpOutcome_onlyChanges (d : Dev) (n code : Nat) : d.OnlyChanges (wpOutcome d n code) (failFields n) [3] := by
  unfold wpOutcome
  refine Dev.OnlyChanges.ite (fun _ => Dev.OnlyChanges.refl _ _ _) fun _ => ?_
  exact (((Dev.OnlyChanges.refl d _ _).setAll _ (by simp [failFields])).count 3 1 (by simp [failFields])).latch 3 2 (by simp) (by decide)

/-- A failure is noted with its code and the entry's number, and latches event bit 2. -/
theorem wpOutcome_fails (d : Dev) {n code : Nat} (hn : n < 4096) (hc : code ≠ codeOk) (hc' : code < 256) :
    (wpOutcome d n code).get (R.WP_FAILED n) = 1 ∧ (wpOutcome d n code).get (R.WP_FAIL_CODE n) = code ∧
      (wpOutcome d n code).get R.WP_LAST_FAIL = n ∧ (wpOutcome d n code).evt 3 2 = true := by
  have hw : (R.WP_FAILED n).w = 1 ∧ (R.WP_FAIL_CODE n).w = 8 ∧ R.WP_LAST_FAIL.w = 12 := ⟨rfl, rfl, rfl⟩
  have hf : eventKey 3 (R.WP_FAILED n).key = false := eventKey_entry 3 (by omega) (by decide)
  have hcode : eventKey 3 (R.WP_FAIL_CODE n).key = false := eventKey_entry 3 (by omega) (by decide)
  rw [wpOutcome_of_ne d n hc, Dev.get_latch_ne _ _ _ (by decide) _ hf, Dev.get_latch_ne _ _ _ (by decide) _ hcode,
    Dev.get_latch_ne _ _ _ (by decide) R.WP_LAST_FAIL (by decide)]
  refine ⟨?_, ?_, ?_, Dev.evt_latch_same _ 3 2 (by decide) (by decide) (evtBitServed_of_not_port _ _ _ (by decide))⟩
  all_goals
    simp (disch := simp only [R.WP_FAILED, R.WP_FAIL_CODE, R.WP_LAST_FAIL, R.WP_FAIL_COUNT, tblFld, regFld, tblBase]; omega) only
      [Dev.setAll_cons, Dev.setAll_nil, Dev.get_set_ne, Dev.get_set_same, Dev.get_count_ne, hw]
    omega

/-- Noting a failure leaves the execution recorded. -/
theorem WpRecorded.outcome {d e : Dev} {n w : Nat} (h : WpRecorded d e n w) (hn : n < 4096) (code : Nat) :
    WpRecorded d (wpOutcome e n code) n w := by
  by_cases hc : code = codeOk
  · rwa [hc, wpOutcome_ok]
  have hg (f : Fld) (hf : f ∈ recordFields n) :
      f.key ≠ R.WP_FAIL_COUNT.key ∧ ∀ p ∈ [(R.WP_FAILED n, 1), (R.WP_FAIL_CODE n, code), (R.WP_LAST_FAIL, n)], f.key ≠ p.1.key := by
    simp only [recordFields, List.mem_cons, List.not_mem_nil, or_false] at hf
    rcases hf with h | h | h | h <;> subst h <;>
      simp [R.WP_EXEC_COUNT, R.WP_LAST_EXEC_SEC, R.WP_LAST_EXEC_NS, R.WP_STATE, R.WP_FAILED, R.WP_FAIL_CODE, R.WP_LAST_FAIL, R.WP_FAIL_COUNT,
        tblFld, regFld, tblBase] <;> omega
  rw [wpOutcome_of_ne e n hc]
  refine h.of_get (fun f hf => ?_) fun hv => ?_
  · rw [Dev.get_latch_ne _ _ _ (by decide) _ (eventKey_recordFields hn 3 f hf), Dev.get_count_ne _ _ _ _ _ (hg f hf).1,
      Dev.get_setAll_ne _ _ _ (hg f hf).2]
  · have hl : (L.EVT_LATCH 3).key ≠ R.WP_FAIL_COUNT.key ∧
        ∀ p ∈ [(R.WP_FAILED n, 1), (R.WP_FAIL_CODE n, code), (R.WP_LAST_FAIL, n)], (L.EVT_LATCH 3).key ≠ p.1.key := by
      simp [L.EVT_LATCH, R.WP_FAILED, R.WP_FAIL_CODE, R.WP_LAST_FAIL, R.WP_FAIL_COUNT, tblFld, regFld, latFld, tblBase, latBase]
      omega
    rw [Dev.evt_latch _ 3 2 0 (by decide) (by decide) (by decide) (evtBitServed_of_not_port _ _ _ (by decide)), Dev.evt,
      Dev.get_count_ne _ _ _ _ _ hl.1, Dev.get_setAll_ne _ _ _ hl.2, ← Dev.evt, hv, Bool.or_true]

end Sys2Proof.Machine
end

section
namespace Sys2Proof.Machine

/-! ## Two contents that agree but for some keys -/

theorem Dev.KeepsBut.get {d e : Dev} {p : Nat → Bool} (h : d.KeepsBut e p) {g : Fld} (hg : p g.key = false) : e.get g = d.get g := h.2 g hg

theorem Dev.KeepsBut.on {d e : Dev} {p : Nat → Bool} (h : d.KeepsBut e p) {g : Fld} (hg : p g.key = false) : e.on g = d.on g := by
  rw [Dev.on, Dev.on, h.get hg]

theorem Dev.KeepsBut.txHeld {d e : Dev} {p : Nat → Bool} (h : d.KeepsBut e p) : e.txHeld = d.txHeld := by rw [h.1]

/-- Contents with the same cells read alike. -/
theorem Dev.get_of_cells {d e : Dev} (h : e.cells = d.cells) (g : Fld) : e.get g = d.get g := by rw [Dev.get, Dev.get, h]

/-- The same write on both sides keeps the agreement. -/
theorem Dev.KeepsBut.set {d e : Dev} {p : Nat → Bool} (h : d.KeepsBut e p) (f : Fld) (v : Nat) : (d.set f v).KeepsBut (e.set f v) p := by
  obtain ⟨hc, hg⟩ := h
  refine ⟨?_, fun g hp => ?_⟩
  · rw [hc]
    rfl
  · by_cases hk : g.key = f.key
    · simp only [Dev.get, Dev.set, hk, Cells.find_put_same]
    · rw [Dev.get_set_ne _ _ _ _ hk, Dev.get_set_ne _ _ _ _ hk, hg g hp]

theorem Dev.KeepsBut.setAll {d e : Dev} {p : Nat → Bool} (h : d.KeepsBut e p) (l : List (Fld × Nat)) : (d.setAll l).KeepsBut (e.setAll l) p := by
  induction l generalizing d e with
  | nil => exact h
  | cons x r ih => exact ih (h.set x.1 x.2)

theorem Dev.KeepsBut.withHeld {d e : Dev} {p : Nat → Bool} (h : d.KeepsBut e p) (l : List (Nat × Bool × Nat)) :
    ({ d with txHeld := l } : Dev).KeepsBut { e with txHeld := l } p := by
  obtain ⟨hc, hg⟩ := h
  refine ⟨?_, hg⟩
  rw [hc]

/-- What keeps the frame agrees but for the engine's keys and the events'. -/
theorem Dev.OnlyChanges.keepsBut {d e : Dev} {fs : List Fld} {evs : List Nat} (h : d.OnlyChanges e fs evs) (hf : ∀ f ∈ fs, wpOwn f.key = true)
    (he : ∀ pg ∈ evs, pg < 2 ^ 20) : d.KeepsBut e wpOwn := by
  obtain ⟨hc, hg⟩ := h
  refine ⟨hc, fun g hp => hg g (fun f hm hk => ?_) fun pg hm => ?_⟩
  · rw [hk, hf f hm] at hp
    contradiction
  · exact eventKey_of_not_wpOwn (he pg hm) hp

theorem wpRecord_keepsBut (d : Dev) {n : Nat} (w : Nat) (hn : n < 4096) : d.KeepsBut (wpRecord d n w) wpOwn :=
  (wpRecord_onlyChanges d n w).keepsBut (fun f hf => wpOwn_wpFields hn f (List.mem_append_left _ hf)) (by simp)

/-- Noting a failure leaves the fields of the data path alone. -/
theorem wpOutcome_get (d : Dev) {n : Nat} (code : Nat) (hn : n < 4096) {g : Fld} (hg : wpOwn g.key = false) : (wpOutcome d n code).get g = d.get g :=
  ((wpOutcome_onlyChanges d n code).keepsBut (wpOwn_wpFields hn) (by simp)).get hg

/-- Noting a failure leaves the events of other pages alone. -/
theorem wpOutcome_evt (d : Dev) {n pg : Nat} (code b : Nat) (hn : n < 4096) (hp : 4 ≤ pg) (hp' : pg < 2 ^ 20) :
    (wpOutcome d n code).evt pg b = d.evt pg b := by
  have hk : eventKey 3 (L.EVT_LATCH pg).key = false := eventKey_evtLatch (by decide) hp' (by omega)
  rw [Dev.evt, Dev.evt, (wpOutcome_onlyChanges d n code).2 _ _ (by simpa using hk)]
  simp only [failFields, wpFields, List.cons_append, List.nil_append, List.forall_mem_cons, L.EVT_LATCH, L.WP_DUE, L.WP_CARRY, R.WP_EXEC_COUNT,
    R.WP_LAST_EXEC_SEC, R.WP_LAST_EXEC_NS, R.WP_STATE, R.WP_TIME_SEC_LO, R.WP_TIME_SEC_HI, R.WP_TIME_NS, R.WP_TIME_FRAC, R.WP_FAILED,
    R.WP_FAIL_CODE, R.WP_LAST_FAIL, R.WP_FAIL_COUNT, tblFld, regFld, latFld, tblBase, latBase, List.not_mem_nil, false_imp_iff, implies_true,
    and_true]
  omega

/-- The record leaves an entry's target and argument alone. -/
theorem wpRecord_get_operand (d : Dev) {n : Nat} (w : Nat) (hn : n < 4096) :
    (wpRecord d n w).get (R.WP_TARGET n) = d.get (R.WP_TARGET n) ∧ (wpRecord d n w).get (R.WP_ARG0 n) = d.get (R.WP_ARG0 n) := by
  have h (lo v r : Nat) (hl : lo < 512) (hf : ∀ f ∈ wpFields n, (tblFld 3 0 n lo v r).key ≠ f.key) :
      (wpRecord d n w).get (tblFld 3 0 n lo v r) = d.get (tblFld 3 0 n lo v r) :=
    (wpRecord_onlyChanges d n w).2 _ hf (by simpa using eventKey_entry 3 (by omega) hl)
  refine ⟨h _ _ _ (by decide) ?_, h _ _ _ (by decide) ?_⟩ <;>
    simp only [wpFields, List.forall_mem_cons, L.WP_DUE, L.WP_CARRY, R.WP_EXEC_COUNT, R.WP_LAST_EXEC_SEC, R.WP_LAST_EXEC_NS, R.WP_STATE,
      R.WP_TIME_SEC_LO, R.WP_TIME_SEC_HI, R.WP_TIME_NS, R.WP_TIME_FRAC, tblFld, latFld, tblBase, latBase, List.not_mem_nil, false_imp_iff,
      implies_true, and_true] <;>
    omega

/-- An action of the data path leaves the execution recorded. -/
theorem WpRecorded.of_onlyChanges {d e e' : Dev} {n w : Nat} {fs : List Fld} {evs : List Nat} (h : WpRecorded d e n w) (hn : n < 4096)
    (hc : e.OnlyChanges e' fs evs) (hf : ∀ f ∈ fs, wpOwn f.key = false) (he : ∀ pg ∈ evs, 4 ≤ pg ∧ pg < 2 ^ 20) : WpRecorded d e' n w := by
  refine h.of_get (fun f hm => hc.2 f (fun g hg hk => ?_) fun pg _ => eventKey_recordFields hn pg f hm) fun hv => ?_
  · have := wpOwn_recordFields hn f hm
    rw [hk, hf g hg] at this
    contradiction
  · have hl : wpOwn (L.EVT_LATCH 3).key = true := by decide
    rw [Dev.evt, hc.2 (L.EVT_LATCH 3) (fun g hg hk => ?_) fun pg hm => ?_, ← Dev.evt, hv]
    · rw [hk, hf g hg] at hl
      contradiction
    · exact eventKey_evtLatch (he pg hm).2 (by decide) (by have := (he pg hm).1; omega)

/-- The contents with the cells of others. -/
def Dev.withCells (d e : Dev) : Dev := { d with cells := e.cells }

theorem Dev.get_withCells (d e : Dev) (g : Fld) : (d.withCells e).get g = e.get g := Dev.get_of_cells (e := d.withCells e) rfl g

/-- A frame carried over to contents with the same cells but other queues. -/
theorem Dev.OnlyChanges.withCells {d e d0 : Dev} {fs : List Fld} {evs : List Nat} (h : d.OnlyChanges e fs evs) (h0 : d0.cells = d.cells) :
    d0.OnlyChanges (d0.withCells e) fs evs :=
  ⟨rfl, fun g hf hv => by rw [Dev.get_withCells, h.2 g hf hv, Dev.get_of_cells h0]⟩

theorem WpRecorded.withCells {d e : Dev} {n w : Nat} (h : WpRecorded d e n w) (d0 : Dev) : WpRecorded d (d0.withCells e) n w :=
  h.of_get (fun g _ => Dev.get_withCells d0 e g) fun k => by rwa [Dev.evt, Dev.get_withCells]

/-- One more action is scheduled (R18). -/
def heldAdd (d : Dev) (y : Nat × Bool × Nat) : Dev := { d with txHeld := d.txHeld ++ [y] }

/-- Scheduling an action on contents that differ in their cells alone. -/
theorem heldAdd_withCells {d e : Dev} (h : e = { d with cells := e.cells }) (y : Nat × Bool × Nat) : (heldAdd d y).withCells e = heldAdd e y := by
  rw [Dev.withCells]
  generalize e.cells = c at h ⊢
  subst h
  rfl

/-! ## The row of an action on the device's contents (R82, R90) -/

/-- The action of entry `n` behind the record of its execution: the contents and the code. -/
def wpRun (f : Dev → Bool → Nat → Dev × Nat) (d : Dev) (n : Nat) : Dev × Nat := f (wpRecord d n d.tickTime) (d.on (L.WP_DUE n)) (wpInstant d n)

theorem wpRun_eq (f : Dev → Bool → Nat → Dev × Nat) (d : Dev) (n : Nat) :
    wpRun f d n = f (wpRecord d n d.tickTime) (d.on (L.WP_DUE n)) (wpInstant d n) := rfl

theorem wpReady_armed {d : Dev} {n a : Nat} (h : wpReady d n a = true) : d.get (R.WP_STATE n) = wpArmed := by
  simp only [wpReady, wpArmedFor, Bool.and_eq_true, beq_iff_eq] at h
  exact h.1.1.1.2

theorem onDev_setDev {f : Dev → Bool → Nat → Dev × Nat} {s : State} {d e : Dev} {late : Bool} {t code : Nat} (h : f d late t = (e, code)) :
    onDev f (s.setDev d) late t = (s.setDev e, code) := by
  simp only [onDev, State.setDev_d, State.setDev_setDev, h]

theorem wpExecute_of_act {s : State} {n : Nat} {act : State → Bool → Nat → State × Nat} {e : Dev} {code : Nat}
    (h : act (s.setDev (wpRecord s.d n s.d.tickTime)) (s.d.on (L.WP_DUE n)) (wpInstant s.d n) = (s.setDev e, code)) :
    wpExecute s n false act = (s.setDev (wpErase (wpOutcome e n code) n)).flushDue := by
  unfold wpExecute
  simp only [Bool.false_eq_true, if_false]
  rw [h]
  simp only [State.setDev_d, State.setDev_setDev]

theorem wpRow_ready {s : State} {n a code : Nat} {f : Dev → Bool → Nat → Dev × Nat} {e : Dev} (hs : s.run.stopped = false)
    (hr : wpReady s.d n a = true) (hrun : wpRun f s.d n = (e, code)) :
    wpRow s n a false (onDev f) = .next (s.setDev (wpErase (wpOutcome e n code) n)).flushDue := by
  rw [wpRow, if_neg (by simp [hs, hr]), wpExecute_of_act (onDev_setDev hrun)]

/-- Entry `n` has executed at the time `w` and failed with a code (R90). -/
def WpFailed (d e : Dev) (n w code : Nat) : Prop :=
  WpRecorded d e n w ∧ e.get (R.WP_FAILED n) = 1 ∧ e.get (R.WP_FAIL_CODE n) = code ∧ e.get R.WP_LAST_FAIL = n ∧ e.evt 3 2 = true

theorem WpActs.mono {c : Instr} {s : State} {n : Nat} {d0 : Dev} {fs fs' : List Fld} {evs : List Nat} {post post' : Dev → Prop}
    (h : WpActs c s n d0 fs evs post) (hf : ∀ f ∈ fs, f ∈ fs') (hp : ∀ e, post e → post' e) : WpActs c s n d0 fs' evs post' := by
  obtain ⟨e, he, hc, hq⟩ := h
  exact ⟨e, he, hc.mono hf fun _ k => k, hp e hq⟩

section
variable {c : Instr} {s : State} {n : Fin 4096} {a : Nat} {f : Dev → Bool → Nat → Dev × Nat} {gs : List Fld} {evs : List Nat} {e : Dev}
  {code : Nat} {post : Dev → Prop} (he : exec c s = wpRow s n a false (onDev f)) (hs : s.run.stopped = false) (hr : wpReady s.d n a = true)
include he hs hr

/-- An action that ends well and queues something: the entry is recorded on contents `d0`, which are the old ones but for a queue, and the
action moves its own fields of them. -/
theorem wpActs_ok_of_queue {d0 e0 : Dev} (hrun : wpRun f s.d n = (e, codeOk))
    (h1 : d0.withCells (wpRecord s.d n s.d.tickTime) = e0) (h0 : d0.cells = s.d.cells) (hc : e0.OnlyChanges e gs []) (hg : ∀ g ∈ gs, wpOwn g.key = false)
    (hp : post e) : WpActs c s n d0 (wpFields n ++ gs) [3] fun e => WpRecorded s.d e n s.d.tickTime ∧ post e := by
  have hframe := (wpRecord_onlyChanges s.d n s.d.tickTime).withCells h0
  have hrecord := (wpRecorded_wpRecord s.d.tickTime n.isLt (wpReady_armed hr)).withCells d0
  rw [h1] at hframe hrecord
  refine ⟨e, ?_, ?_, hrecord.of_onlyChanges n.isLt hc hg (by simp), hp⟩
  · rw [he, wpRow_ready hs hr hrun, wpOutcome_ok]
  · exact (hframe.mono (by simp +contextual) fun _ k => k).trans (hc.mono (by simp +contextual) (by simp))

/-- An action that ends well moves its own fields besides the entry's. -/
theorem wpActs_ok (hrun : wpRun f s.d n = (e, codeOk)) (hc : (wpRecord s.d n s.d.tickTime).OnlyChanges e gs [])
    (hg : ∀ g ∈ gs, wpOwn g.key = false) (hp : post e) :
    WpActs c s n s.d (wpFields n ++ gs) [3] fun e => WpRecorded s.d e n s.d.tickTime ∧ post e :=
  wpActs_ok_of_queue he hs hr hrun (wpRecord_onlyChanges s.d n s.d.tickTime).1.symm rfl hc hg hp

/-- An action that schedules another and moves nothing else. -/
theorem wpActs_schedule {y : Nat × Bool × Nat} (hrun : wpRun f s.d n = (heldAdd (wpRecord s.d n s.d.tickTime) y, codeOk)) :
    WpActs c s n (heldAdd s.d y) (wpFields n) [3] fun e => WpRecorded s.d e n s.d.tickTime := by
  have h0 := heldAdd_withCells (wpRecord_onlyChanges s.d n s.d.tickTime).1 y
  have h := wpActs_ok_of_queue (gs := []) (post := fun _ => True) he hs hr hrun h0 rfl (Dev.OnlyChanges.refl _ _ _) (by simp) trivial
  exact h.mono (by simp) fun _ k => k.1

/-- An action that fails with a code is recorded as a failure; what it moves itself lies apart. -/
theorem wpActs_fail (hrun : wpRun f s.d n = (e, code)) (hcode : code ≠ codeOk ∧ code < 256)
    (hc : (wpRecord s.d n s.d.tickTime).OnlyChanges e gs evs) (hg : ∀ g ∈ gs, wpOwn g.key = false) (hv : ∀ pg ∈ evs, 4 ≤ pg ∧ pg < 2 ^ 20)
    (hp : post (wpOutcome e n code)) :
    WpActs c s n s.d (failFields n ++ gs) (3 :: evs) fun e => WpFailed s.d e n s.d.tickTime code ∧ post e := by
  have h1 := (wpRecorded_wpRecord s.d.tickTime n.isLt (wpReady_armed hr)).of_onlyChanges n.isLt hc hg hv
  refine ⟨wpOutcome e n code, ?_, ?_, ⟨h1.outcome n.isLt code, wpOutcome_fails e n.isLt hcode.1 hcode.2⟩, hp⟩
  · rw [he, wpRow_ready hs hr hrun]
  · have h2 := (wpRecord_onlyChanges s.d n s.d.tickTime).mono (fs' := failFields n ++ gs) (evs' := 3 :: evs) (by simp +contextual [failFields]) (by simp)
    have h3 := hc.mono (fs' := failFields n ++ gs) (evs' := 3 :: evs) (by simp +contextual) (by simp +contextual)
    exact (h2.trans h3).trans ((wpOutcome_onlyChanges e n code).mono (by simp +contextual) (by simp))

/-- An action that is refused and moves nothing itself. -/
theorem wpActs_refuse (hrun : wpRun f s.d n = (wpRecord s.d n s.d.tickTime, code)) (hcode : code ≠ codeOk ∧ code < 256) :
    WpActs c s n s.d (failFields n) [3] fun e => WpFailed s.d e n s.d.tickTime code := by
  have h := wpActs_fail (gs := []) (evs := []) (post := fun _ => True) he hs hr hrun hcode (Dev.OnlyChanges.refl _ _ _) (by simp) (by simp) trivial
  exact h.mono (by simp) fun _ k => k.1

end

end Sys2Proof.Machine
end

section
namespace Sys2Proof.Machine

/-! ## Transmit SAs that enter and leave service (R190, R231) -/

/-- Transmit SA `i` is in service: a pending switch that names it is satisfied, and its SecY encodes with its AN (R229). -/
def txServe (d : Dev) (i : Nat) : Dev := (switchSatisfied (d.set (R.TXSA_STATE i) saInService) i).set (R.SECY_ENCODING_AN (i / 4)) (i % 4)

/-- Transmit SA `i` can enter service. -/
def txMayServe (d : Dev) (i : Nat) : Prop := saState d false i = saLoaded ∧ secyInService d (i / 4) = false

theorem saEnable_tx_of_may {d : Dev} {i : Nat} (h : txMayServe d i) : saEnable d false i none = (txServe d i, codeOk) := by
  rw [saEnable, if_neg (by simp [h.1]), if_neg (by decide), if_neg (by simp [txSecy, h.2])]
  rfl

theorem saEnable_tx_of_not {d : Dev} {i : Nat} (h : saState d false i ≠ saLoaded ∨ secyInService d (i / 4) = true) :
    saEnable d false i none = (d, codeState) := by
  rw [saEnable]
  by_cases hl : saState d false i = saLoaded
  · rw [if_neg (by simp [hl]), if_neg (by decide), if_pos (by simpa [txSecy, hl] using h)]
  · rw [if_pos hl]

theorem saRetire_tx_of_may {d : Dev} {i : Nat} (h : saState d false i = saInService) :
    saRetire d false i none = (d.set (R.TXSA_STATE i) saDraining, codeOk) := by
  rw [saRetire, if_neg (by simp [h]), if_neg (by decide)]
  rfl

theorem saRetire_tx_of_not {d : Dev} {i : Nat} (h : saState d false i ≠ saInService) : saRetire d false i none = (d, codeState) := by
  rw [saRetire, if_pos (.inl h)]

theorem txMayServe_or (d : Dev) (i : Nat) : txMayServe d i ∨ saState d false i ≠ saLoaded ∨ secyInService d (i / 4) = true := by
  by_cases h : saState d false i = saLoaded <;> cases hs : secyInService d (i / 4) <;> simp [txMayServe, h, hs]

/-- The fields that a transmit SA's entry into service moves. -/
def serveFields (i : Nat) : List Fld :=
  [R.TXSA_STATE i, R.SECY_ENCODING_AN (i / 4), R.SECY_SWITCH_PENDING (i / 4), L.SW_AT_V (i / 4), L.SW_AT (i / 4)]

theorem txServe_onlyChanges (d : Dev) (i : Nat) : d.OnlyChanges (txServe d i) (serveFields i) [] := by
  have h : d.OnlyChanges (d.set (R.TXSA_STATE i) saInService) (serveFields i) [] := (Dev.OnlyChanges.refl d _ _).set _ (by simp [serveFields])
  have hs : d.OnlyChanges (switchSatisfied (d.set (R.TXSA_STATE i) saInService) i) (serveFields i) [] := by
    unfold switchSatisfied
    exact Dev.OnlyChanges.ite (fun _ => h.setAll _ (by simp [serveFields, txSecy])) fun _ => h
  exact hs.set _ (by simp [serveFields])

theorem saState_txServe (d : Dev) (i : Nat) : saState (txServe d i) false i = saInService := by
  have hk : ∀ g ∈ [R.SECY_ENCODING_AN (i / 4), R.SECY_SWITCH_PENDING (i / 4), L.SW_AT_V (i / 4), L.SW_AT (i / 4)], (R.TXSA_STATE i).key ≠ g.key := by
    simp only [List.forall_mem_cons, R.TXSA_STATE, R.SECY_ENCODING_AN, R.SECY_SWITCH_PENDING, L.SW_AT_V, L.SW_AT, tblFld, latFld, tblBase, latBase,
      List.not_mem_nil, false_imp_iff, implies_true, and_true]
    omega
  simp only [List.forall_mem_cons, List.not_mem_nil, false_imp_iff, implies_true, and_true] at hk
  obtain ⟨han, hpending, hv, hat⟩ := hk
  show (txServe d i).get (R.TXSA_STATE i) = saInService
  rw [txServe, Dev.get_set_ne _ _ _ _ han, switchSatisfied]
  split
  · rw [switchClear, Dev.get_setAll_ne _ _ _ (by simpa [txSecy] using ⟨hpending, hv, hat⟩), Dev.get_set_same]
    rfl
  · rw [Dev.get_set_same]
    rfl

theorem encodingAn_txServe (d : Dev) (i : Nat) : (txServe d i).get (R.SECY_ENCODING_AN (i / 4)) = i % 4 := by
  rw [txServe, Dev.get_set_same]
  exact Nat.mod_eq_of_lt (Nat.mod_lt _ (by decide))

theorem saState_drained (d : Dev) (i : Nat) : saState (d.set (R.TXSA_STATE i) saDraining) false i = saDraining := by
  show (d.set (R.TXSA_STATE i) saDraining).get (R.TXSA_STATE i) = saDraining
  rw [Dev.get_set_same]
  rfl

/-! ## The scheduled actions (R18) -/

/-- Where one action alone waits and its instant has come, the tick carries it out. -/
theorem heldTick_one {d : Dev} {y : Nat × Bool × Nat} (h : d.txHeld = [y]) (ht : y.2.2 ≤ d.tickTime) :
    heldTick d = heldAct { d with txHeld := [] } y := by
  simp [heldTick, heldApply, h, ht]

/-- Actions of other SecYs do not stand in the way of one. -/
theorem heldApply_other {d : Dev} {s : Nat} (t : Nat) (h : ∀ y ∈ d.txHeld, y.1 / 4 ≠ s) : heldApply d (heldFor s t) = d := by
  have hno : ∀ y ∈ d.txHeld, heldFor s t y = false := fun y hy => by simp [heldFor, txSecy, h y hy]
  have h1 : d.txHeld.filter (heldFor s t) = [] := List.filter_eq_nil_iff.2 fun y hy => by simp [hno y hy]
  have h2 : (d.txHeld.filter fun x => !heldFor s t x) = d.txHeld := List.filter_eq_self.2 fun y hy => by simp [hno y hy]
  rw [heldApply, h1, h2]
  rfl

/-! ### They act alike on contents that agree -/

/-- The fields of transmit SA `i` and of its SecY are not the engine's. -/
theorem wpOwn_txSa {i : Nat} (hi : i < 16384) : wpOwn (R.TXSA_STATE i).key = false :=
  wpOwn_table (by decide) (by decide) (by decide) (by omega) (by decide)

theorem wpOwn_secy {i : Nat} (hi : i < 4096) : wpOwn (R.SECY_SWITCH_PENDING i).key = false ∧ wpOwn (R.SECY_PENDING_AN i).key = false ∧
    wpOwn (R.SECY_ENCODING_AN i).key = false ∧ wpOwn (L.SW_AT_V i).key = false ∧ wpOwn (L.SW_AT i).key = false :=
  ⟨wpOwn_table (by decide) (by decide) (by decide) (by omega) (by decide), wpOwn_table (by decide) (by decide) (by decide) (by omega) (by decide),
    wpOwn_table (by decide) (by decide) (by decide) (by omega) (by decide), wpOwn_lat (by decide) (by omega), wpOwn_lat (by decide) (by omega)⟩

theorem wpOwn_serveFields {i : Nat} (hi : i < 16384) : ∀ f ∈ serveFields i, wpOwn f.key = false := by
  obtain ⟨hpending, -, han, hv, hat⟩ := wpOwn_secy (show i / 4 < 4096 by omega)
  simp [serveFields, wpOwn_txSa hi, hpending, han, hv, hat]

section
variable {d e : Dev} (h : d.KeepsBut e wpOwn)
include h

theorem saState_tx_agree {i : Nat} (hi : i < 16384) : saState e false i = saState d false i := h.get (wpOwn_txSa hi)

theorem secyInService_agree {i : Nat} (hi : i < 4096) : secyInService e i = secyInService d i := by
  unfold secyInService
  rw [Bool.eq_iff_iff, List.any_eq_true, List.any_eq_true]
  refine exists_congr fun a => and_congr_right fun ha => ?_
  rw [saState_tx_agree h (by have := List.mem_range.1 ha; omega)]

theorem switchNames_agree {i : Nat} (hi : i < 16384) : switchNames e i = switchNames d i := by
  obtain ⟨hpending, han, -⟩ := wpOwn_secy (show i / 4 < 4096 by omega)
  rw [switchNames, switchNames, txSecy, h.on hpending, h.get han]

theorem txMayServe_agree {i : Nat} (hi : i < 16384) : txMayServe e i ↔ txMayServe d i := by
  rw [txMayServe, txMayServe, saState_tx_agree h hi, secyInService_agree h (by omega)]

theorem txServe_agree {i : Nat} (hi : i < 16384) : (txServe d i).KeepsBut (txServe e i) wpOwn := by
  have hset := h.set (R.TXSA_STATE i) saInService
  unfold txServe switchSatisfied
  rw [switchNames_agree hset hi]
  split
  · exact (hset.setAll _).set _ _
  · exact hset.set _ _

theorem heldAct_agree {y : Nat × Bool × Nat} (hy : y.1 < 16384) : (heldAct d y).KeepsBut (heldAct e y) wpOwn := by
  unfold heldAct
  split
  · rcases txMayServe_or d y.1 with hm | hm
    · rw [saEnable_tx_of_may hm, saEnable_tx_of_may ((txMayServe_agree h hy).2 hm)]
      exact txServe_agree h hy
    · rw [saEnable_tx_of_not hm, saEnable_tx_of_not (by rwa [saState_tx_agree h hy, secyInService_agree h (by omega)])]
      exact h
  · by_cases hm : saState d false y.1 = saInService
    · rw [saRetire_tx_of_may hm, saRetire_tx_of_may (by rwa [saState_tx_agree h hy])]
      exact h.set _ _
    · rw [saRetire_tx_of_not hm, saRetire_tx_of_not (by rwa [saState_tx_agree h hy])]
      exact h

end

theorem foldl_heldAct_agree {d e : Dev} (h : d.KeepsBut e wpOwn) {l : List (Nat × Bool × Nat)} (hl : ∀ y ∈ l, y.1 < 16384) :
    (l.foldl heldAct d).KeepsBut (l.foldl heldAct e) wpOwn := by
  induction l generalizing d e with
  | nil => exact h
  | cons y r ih =>
    rw [List.forall_mem_cons] at hl
    exact ih (heldAct_agree h hl.1) hl.2

/-- What is scheduled for a SecY acts alike. -/
theorem heldApply_agree {d e : Dev} (h : d.KeepsBut e wpOwn) {s : Nat} (t : Nat) (hs : s < 4096) :
    (heldApply d (heldFor s t)).KeepsBut (heldApply e (heldFor s t)) wpOwn := by
  unfold heldApply
  rw [h.txHeld]
  refine foldl_heldAct_agree (h.withHeld _) fun y hy => ?_
  have hdue := (List.mem_filter.1 hy).2
  simp only [heldFor, txSecy, Bool.and_eq_true, beq_iff_eq] at hdue
  omega

/-! ## Scheduling (R18, R89) -/

theorem saSchedule_enable_of_may {d : Dev} {i t : Nat} (h : txMayServe (heldApply d (heldFor (i / 4) t)) i) :
    saSchedule d true i t = (heldAdd d (i, true, t), codeOk) := by
  simp only [saSchedule, txSecy, saEnable_tx_of_may h, if_true, heldAdd]

theorem saSchedule_enable_of_not {d : Dev} {i t : Nat} (h : saState (heldApply d (heldFor (i / 4) t)) false i ≠ saLoaded ∨
    secyInService (heldApply d (heldFor (i / 4) t)) (i / 4) = true) : saSchedule d true i t = (d, codeState) := by
  simp only [saSchedule, txSecy, saEnable_tx_of_not h, if_true]
  exact if_neg (by decide)

theorem saSchedule_retire_of_may {d : Dev} {i t : Nat} (h : saState (heldApply d (heldFor (i / 4) t)) false i = saInService) :
    saSchedule d false i t = (heldAdd d (i, false, t), codeOk) := by
  simp only [saSchedule, txSecy, saRetire_tx_of_may h, Bool.false_eq_true, if_false, if_true, heldAdd]

theorem saSchedule_retire_of_not {d : Dev} {i t : Nat} (h : saState (heldApply d (heldFor (i / 4) t)) false i ≠ saInService) :
    saSchedule d false i t = (d, codeState) := by
  simp only [saSchedule, txSecy, saRetire_tx_of_not h, Bool.false_eq_true, if_false]
  exact if_neg (by decide)

end Sys2Proof.Machine
end

section
namespace Sys2Proof.Machine

/-! ## The actions on SAs behind the record (R88)

Each equation speaks of contents `e` that agree with the contents `d` before the record but for the engine's own keys, as
`wpRecord_keepsBut` gives it, and states the action by what `d` holds. -/

/-- The two hold the same operands of entry `n`. -/
def SameOperands (d e : Dev) (n : Nat) : Prop := e.get (R.WP_TARGET n) = d.get (R.WP_TARGET n) ∧ e.get (R.WP_ARG0 n) = d.get (R.WP_ARG0 n)

theorem wpRecord_sameOperands (d : Dev) {n : Nat} (w : Nat) (hn : n < 4096) : SameOperands d (wpRecord d n w) n := wpRecord_get_operand d w hn

theorem bitAt_zero (a : Nat) : bitAt a 0 = decide (a % 2 = 1) := by
  rw [Bool.eq_iff_iff]
  simp [bitAt]

theorem wpOwn_rxSa {i : Nat} (hi : i < 65536) : wpOwn (R.RXSA_STATE i).key = false ∧ wpOwn (L.RXSA_FROM_V i).key = false ∧
    wpOwn (L.RXSA_FROM i).key = false ∧ wpOwn (L.RXSA_UNTIL_V i).key = false ∧ wpOwn (L.RXSA_UNTIL i).key = false :=
  ⟨wpOwn_table (by decide) (by decide) (by decide) (by omega) (by decide), wpOwn_lat (by decide) (by omega), wpOwn_lat (by decide) (by omega),
    wpOwn_lat (by decide) (by omega), wpOwn_lat (by decide) (by omega)⟩

section
variable {d e : Dev} {n x a : Nat} (h : d.KeepsBut e wpOwn) (ho : SameOperands d e n) (hx : d.get (R.WP_TARGET n) = x) (ha : d.get (R.WP_ARG0 n) = a)
include h ho hx ha

/-- TX_SA_SWITCH (R226, R228). -/
theorem wpSwitch_eq (late : Bool) (t : Nat) (hb : x < 4096) : wpSwitch n e late t =
    if saState d false (4 * x + a % 4) = saLoaded ∧ d.get (R.SECY_SWITCH_PENDING x) = 0 then
      (e.setAll [(R.SECY_SWITCH_PENDING x, 1), (R.SECY_PENDING_AN x, a % 4), (L.SW_AT_V x, b2n (!late)), (L.SW_AT x, if late then 0 else t)], codeOk)
    else (e, codeState) := by
  rw [wpSwitch, ho.1, ho.2, hx, ha]
  simp only [saState_tx_agree h (show 4 * x + a % 4 < 16384 by omega), Dev.on, h.get (wpOwn_secy hb).1, bne_iff_ne, ne_eq, not_not]

/-- SA_ENABLE of a receive SA (R231). -/
theorem wpEnable_rx_eq (late : Bool) (t : Nat) (hd : a % 2 = 1) (hb : x < 65536) : wpEnable n e late t =
    if saState d true x = saLoaded then
      (e.setAll [(R.RXSA_STATE x, saInService), (L.RXSA_FROM_V x, 1), (L.RXSA_FROM x, t), (L.RXSA_UNTIL_V x, 0), (L.RXSA_UNTIL x, 0)], codeOk)
    else (e, codeState) := by
  have hst : saState e true x = saState d true x := h.get (wpOwn_rxSa hb).1
  rw [wpEnable, ho.1, ho.2, hx, ha, bitAt_zero, hd, saEnable, hst, ite_not]
  rfl

/-- SA_RETIRE of a receive SA (R231). -/
theorem wpRetire_rx_eq (late : Bool) (t : Nat) (hd : a % 2 = 1) (hb : x < 65536) : wpRetire n e late t =
    if saState d true x = saInService ∧ d.get (L.RXSA_UNTIL_V x) = 0 then (e.setAll [(L.RXSA_UNTIL_V x, 1), (L.RXSA_UNTIL x, t)], codeOk)
    else (e, codeState) := by
  have hst : saState e true x = saState d true x := h.get (wpOwn_rxSa hb).1
  rw [wpRetire, ho.1, ho.2, hx, ha, bitAt_zero, hd, if_pos (by decide), saRetire, hst, h.on (wpOwn_rxSa hb).2.2.2.1]
  by_cases hc : saState d true x = saInService ∧ d.get (L.RXSA_UNTIL_V x) = 0
  · rw [if_pos hc, if_neg (by simp [hc, Dev.on])]
    rfl
  · rw [if_neg hc, if_pos]
    by_contra hn
    simp only [Dev.on, ne_eq, true_and, bne_iff_ne, not_or, not_not] at hn
    exact hc hn

end

section
variable {d e : Dev} {n x a : Nat} (ho : SameOperands d e n) (hx : d.get (R.WP_TARGET n) = x) (ha : d.get (R.WP_ARG0 n) = a)
include ho hx ha

/-- SA_ENABLE of a transmit SA (R18, R190). -/
theorem wpEnable_tx_eq (late : Bool) (t : Nat) (hd : a % 2 = 0) :
    wpEnable n e late t = if late then saEnable e false x none else saSchedule e true x t := by
  rw [wpEnable, ho.1, ho.2, hx, ha, bitAt_zero, hd, if_neg (by decide)]

/-- SA_RETIRE of a transmit SA (R18, R190). -/
theorem wpRetire_tx_eq (late : Bool) (t : Nat) (hd : a % 2 = 0) :
    wpRetire n e late t = if late then saRetire e false x none else saSchedule e false x t := by
  rw [wpRetire, ho.1, ho.2, hx, ha, bitAt_zero, hd, if_neg (by decide)]

end

end Sys2Proof.Machine
end

section
namespace Sys2Proof.Machine

/-! ## The rows -/

section
variable {s : State} {n : Fin 4096} {x a : Nat} (hs : s.run.stopped = false) (hx : s.d.get (R.WP_TARGET n) = x) (ha : s.d.get (R.WP_ARG0 n) = a)
include hs hx ha

/-- A switch with a LOADED SA and none pending becomes pending; else it fails (R226, R228). -/
theorem wpActs_switch (hr : wpReady s.d n wpTxSaSwitch = true) (hb : x < 4096) :
    (saState s.d false (4 * x + a % 4) = saLoaded ∧ s.d.get (R.SECY_SWITCH_PENDING x) = 0 →
      WpActs (.wpTxSaSwitch n) s n s.d (wpFields n ++ [R.SECY_SWITCH_PENDING x, R.SECY_PENDING_AN x, L.SW_AT_V x, L.SW_AT x]) [3] fun e =>
        WpRecorded s.d e n s.d.tickTime ∧ e.get (R.SECY_SWITCH_PENDING x) = 1 ∧ e.get (R.SECY_PENDING_AN x) = a % 4 ∧
        e.get (L.SW_AT_V x) = b2n (!s.d.on (L.WP_DUE n)) ∧ (s.d.on (L.WP_DUE n) = false → e.get (L.SW_AT x) = wpInstant s.d n % 2 ^ 128)) ∧
    (¬ (saState s.d false (4 * x + a % 4) = saLoaded ∧ s.d.get (R.SECY_SWITCH_PENDING x) = 0) →
      WpActs (.wpTxSaSwitch n) s n s.d (failFields n) [3] fun e => WpFailed s.d e n s.d.tickTime codeState) := by
  have he : exec (.wpTxSaSwitch n) s = wpRow s n wpTxSaSwitch false (onDev (wpSwitch n)) := rfl
  have hrun := (wpRun_eq (wpSwitch n) s.d n).trans (wpSwitch_eq (wpRecord_keepsBut s.d s.d.tickTime n.isLt)
    (wpRecord_sameOperands s.d s.d.tickTime n.isLt) hx ha _ _ hb)
  obtain ⟨hpending, han, -, hv, hat⟩ := wpOwn_secy hb
  refine ⟨fun hl => ?_, fun hl => ?_⟩
  · rw [if_pos hl] at hrun
    refine wpActs_ok he hs hr hrun ((Dev.OnlyChanges.refl _ _ _).setAll _ (by simp)) (by simp [hpending, han, hv, hat]) ?_
    have hw : (R.SECY_SWITCH_PENDING x).w = 1 ∧ (R.SECY_PENDING_AN x).w = 2 ∧ (L.SW_AT_V x).w = 1 ∧ (L.SW_AT x).w = 128 := ⟨rfl, rfl, rfl, rfl⟩
    simp (disch := simp only [R.SECY_SWITCH_PENDING, R.SECY_PENDING_AN, L.SW_AT_V, L.SW_AT, tblFld, latFld, tblBase, latBase]; omega) only
      [Dev.setAll_cons, Dev.setAll_nil, Dev.get_set_ne, Dev.get_set_same, hw]
    refine ⟨rfl, by omega, ?_, fun ht => by rw [ht, if_neg Bool.false_ne_true]⟩
    cases s.d.on (L.WP_DUE n) <;> rfl
  · rw [if_neg hl] at hrun
    exact wpActs_refuse he hs hr hrun (by decide)

/-- SA_ENABLE puts a LOADED receive SA in service from its instant on; else it fails (R190, R231). -/
theorem wpActs_enableRx (hr : wpReady s.d n wpSaEnable = true) (hd : a % 2 = 1) (hb : x < 65536) :
    (saState s.d true x = saLoaded →
      WpActs (.wpSaEnable n) s n s.d (wpFields n ++ [R.RXSA_STATE x, L.RXSA_FROM_V x, L.RXSA_FROM x, L.RXSA_UNTIL_V x, L.RXSA_UNTIL x]) [3] fun e =>
        WpRecorded s.d e n s.d.tickTime ∧ saState e true x = saInService ∧ e.get (L.RXSA_FROM_V x) = 1 ∧
        e.get (L.RXSA_FROM x) = wpInstant s.d n % 2 ^ 128 ∧ e.get (L.RXSA_UNTIL_V x) = 0) ∧
    (saState s.d true x ≠ saLoaded →
      WpActs (.wpSaEnable n) s n s.d (failFields n) [3] fun e => WpFailed s.d e n s.d.tickTime codeState) := by
  have he : exec (.wpSaEnable n) s = wpRow s n wpSaEnable false (onDev (wpEnable n)) := rfl
  have hrun := (wpRun_eq (wpEnable n) s.d n).trans (wpEnable_rx_eq (wpRecord_keepsBut s.d s.d.tickTime n.isLt)
    (wpRecord_sameOperands s.d s.d.tickTime n.isLt) hx ha _ _ hd hb)
  obtain ⟨hstate, hfromV, hfrom, huntilV, huntil⟩ := wpOwn_rxSa hb
  refine ⟨fun hl => ?_, fun hl => ?_⟩
  · rw [if_pos hl] at hrun
    refine wpActs_ok he hs hr hrun ((Dev.OnlyChanges.refl _ _ _).setAll _ (by simp)) (by simp [hstate, hfromV, hfrom, huntilV, huntil]) ?_
    have hw : (R.RXSA_STATE x).w = 3 ∧ (L.RXSA_FROM_V x).w = 1 ∧ (L.RXSA_FROM x).w = 128 ∧ (L.RXSA_UNTIL_V x).w = 1 := ⟨rfl, rfl, rfl, rfl⟩
    simp (disch := simp only [R.RXSA_STATE, L.RXSA_FROM_V, L.RXSA_FROM, L.RXSA_UNTIL_V, L.RXSA_UNTIL, tblFld, latFld, tblBase, latBase]; omega) only
      [saState, saStateF, if_true, Dev.setAll_cons, Dev.setAll_nil, Dev.get_set_ne, Dev.get_set_same, hw]
    exact ⟨rfl, rfl, trivial, rfl⟩
  · rw [if_neg hl] at hrun
    exact wpActs_refuse he hs hr hrun (by decide)

/-- SA_RETIRE bounds a receive SA in service by its instant, once; else it fails (R190, R231). -/
theorem wpActs_retireRx (hr : wpReady s.d n wpSaRetire = true) (hd : a % 2 = 1) (hb : x < 65536) :
    (saState s.d true x = saInService → s.d.get (L.RXSA_UNTIL_V x) = 0 →
      WpActs (.wpSaRetire n) s n s.d (wpFields n ++ [L.RXSA_UNTIL_V x, L.RXSA_UNTIL x]) [3] fun e =>
        WpRecorded s.d e n s.d.tickTime ∧ e.get (L.RXSA_UNTIL_V x) = 1 ∧ e.get (L.RXSA_UNTIL x) = wpInstant s.d n % 2 ^ 128) ∧
    (saState s.d true x ≠ saInService ∨ s.d.get (L.RXSA_UNTIL_V x) ≠ 0 →
      WpActs (.wpSaRetire n) s n s.d (failFields n) [3] fun e => WpFailed s.d e n s.d.tickTime codeState) := by
  have he : exec (.wpSaRetire n) s = wpRow s n wpSaRetire false (onDev (wpRetire n)) := rfl
  have hrun := (wpRun_eq (wpRetire n) s.d n).trans (wpRetire_rx_eq (wpRecord_keepsBut s.d s.d.tickTime n.isLt)
    (wpRecord_sameOperands s.d s.d.tickTime n.isLt) hx ha _ _ hd hb)
  obtain ⟨-, -, -, huntilV, huntil⟩ := wpOwn_rxSa hb
  refine ⟨fun hi hu => ?_, fun hl => ?_⟩
  · rw [if_pos ⟨hi, hu⟩] at hrun
    refine wpActs_ok he hs hr hrun ((Dev.OnlyChanges.refl _ _ _).setAll _ (by simp)) (by simp [huntilV, huntil]) ?_
    have hw : (L.RXSA_UNTIL x).w = 128 ∧ (L.RXSA_UNTIL_V x).w = 1 := ⟨rfl, rfl⟩
    simp (disch := simp only [L.RXSA_UNTIL_V, L.RXSA_UNTIL, latFld, latBase]; omega) only
      [Dev.setAll_cons, Dev.setAll_nil, Dev.get_set_ne, Dev.get_set_same, hw]
    exact ⟨rfl, trivial⟩
  · rw [if_neg (by tauto)] at hrun
    exact wpActs_refuse he hs hr hrun (by decide)

/-- SA_ENABLE of a transmit SA: late it acts at once, on time it is scheduled, and judged as things will stand then (R18, R190). -/
theorem wpActs_enableTx (hr : wpReady s.d n wpSaEnable = true) (hd : a % 2 = 0) (hb : x < 16384) :
    (s.d.on (L.WP_DUE n) = true → txMayServe s.d x →
      WpActs (.wpSaEnable n) s n s.d (wpFields n ++ serveFields x) [3] fun e =>
        WpRecorded s.d e n s.d.tickTime ∧ saState e false x = saInService ∧ e.get (R.SECY_ENCODING_AN (x / 4)) = x % 4) ∧
    (s.d.on (L.WP_DUE n) = true → (saState s.d false x ≠ saLoaded ∨ secyInService s.d (x / 4) = true) →
      WpActs (.wpSaEnable n) s n s.d (failFields n) [3] fun e => WpFailed s.d e n s.d.tickTime codeState) ∧
    (s.d.on (L.WP_DUE n) = false → txMayServe (heldApply s.d (heldFor (x / 4) (wpInstant s.d n))) x →
      WpActs (.wpSaEnable n) s n (heldAdd s.d (x, true, wpInstant s.d n)) (wpFields n) [3] fun e =>
        WpRecorded s.d e n s.d.tickTime) ∧
    (s.d.on (L.WP_DUE n) = false → (saState (heldApply s.d (heldFor (x / 4) (wpInstant s.d n))) false x ≠ saLoaded ∨
        secyInService (heldApply s.d (heldFor (x / 4) (wpInstant s.d n))) (x / 4) = true) →
      WpActs (.wpSaEnable n) s n s.d (failFields n) [3] fun e => WpFailed s.d e n s.d.tickTime codeState) := by
  have he : exec (.wpSaEnable n) s = wpRow s n wpSaEnable false (onDev (wpEnable n)) := rfl
  have hk := wpRecord_keepsBut s.d s.d.tickTime n.isLt
  have hheld := heldApply_agree hk (wpInstant s.d n) (show x / 4 < 4096 by omega)
  have hrun := (wpRun_eq (wpEnable n) s.d n).trans (wpEnable_tx_eq (wpRecord_sameOperands s.d s.d.tickTime n.isLt) hx ha _ _ hd)
  refine ⟨fun hl hm => ?_, fun hl hm => ?_, fun hl hm => ?_, fun hl hm => ?_⟩
  · rw [if_pos hl, saEnable_tx_of_may ((txMayServe_agree hk hb).2 hm)] at hrun
    exact wpActs_ok he hs hr hrun (txServe_onlyChanges _ _) (wpOwn_serveFields hb) ⟨saState_txServe _ _, encodingAn_txServe _ _⟩
  · rw [if_pos hl, saEnable_tx_of_not (by rwa [saState_tx_agree hk hb, secyInService_agree hk (by omega)])] at hrun
    exact wpActs_refuse he hs hr hrun (by decide)
  · rw [hl, if_neg Bool.false_ne_true, saSchedule_enable_of_may ((txMayServe_agree hheld hb).2 hm)] at hrun
    exact wpActs_schedule he hs hr hrun
  · rw [hl, if_neg Bool.false_ne_true,
      saSchedule_enable_of_not (by rwa [saState_tx_agree hheld hb, secyInService_agree hheld (by omega)])] at hrun
    exact wpActs_refuse he hs hr hrun (by decide)

/-- SA_RETIRE of a transmit SA in service: late it drains, on time it is scheduled (R18, R190). -/
theorem wpActs_retireTx (hr : wpReady s.d n wpSaRetire = true) (hd : a % 2 = 0) (hb : x < 16384) :
    (s.d.on (L.WP_DUE n) = true → saState s.d false x = saInService →
      WpActs (.wpSaRetire n) s n s.d (R.TXSA_STATE x :: wpFields n) [3] fun e =>
        WpRecorded s.d e n s.d.tickTime ∧ saState e false x = saDraining) ∧
    (s.d.on (L.WP_DUE n) = true → saState s.d false x ≠ saInService →
      WpActs (.wpSaRetire n) s n s.d (failFields n) [3] fun e => WpFailed s.d e n s.d.tickTime codeState) ∧
    (s.d.on (L.WP_DUE n) = false → saState (heldApply s.d (heldFor (x / 4) (wpInstant s.d n))) false x = saInService →
      WpActs (.wpSaRetire n) s n (heldAdd s.d (x, false, wpInstant s.d n)) (wpFields n) [3] fun e =>
        WpRecorded s.d e n s.d.tickTime) ∧
    (s.d.on (L.WP_DUE n) = false → saState (heldApply s.d (heldFor (x / 4) (wpInstant s.d n))) false x ≠ saInService →
      WpActs (.wpSaRetire n) s n s.d (failFields n) [3] fun e => WpFailed s.d e n s.d.tickTime codeState) := by
  have he : exec (.wpSaRetire n) s = wpRow s n wpSaRetire false (onDev (wpRetire n)) := rfl
  have hk := wpRecord_keepsBut s.d s.d.tickTime n.isLt
  have hheld := heldApply_agree hk (wpInstant s.d n) (show x / 4 < 4096 by omega)
  have hrun := (wpRun_eq (wpRetire n) s.d n).trans (wpRetire_tx_eq (wpRecord_sameOperands s.d s.d.tickTime n.isLt) hx ha _ _ hd)
  refine ⟨fun hl hm => ?_, fun hl hm => ?_, fun hl hm => ?_, fun hl hm => ?_⟩
  · rw [if_pos hl, saRetire_tx_of_may (by rwa [saState_tx_agree hk hb])] at hrun
    have hc := (Dev.OnlyChanges.refl (wpRecord s.d n s.d.tickTime) [R.TXSA_STATE x] []).set saDraining (List.mem_singleton_self _)
    exact (wpActs_ok he hs hr hrun hc (by simp [wpOwn_txSa hb]) (saState_drained _ _)).mono (by simp [or_comm]) fun _ k => k
  · rw [if_pos hl, saRetire_tx_of_not (by rwa [saState_tx_agree hk hb])] at hrun
    exact wpActs_refuse he hs hr hrun (by decide)
  · rw [hl, if_neg Bool.false_ne_true, saSchedule_retire_of_may (by rwa [saState_tx_agree hheld hb])] at hrun
    exact wpActs_schedule he hs hr hrun
  · rw [hl, if_neg Bool.false_ne_true, saSchedule_retire_of_not (by rwa [saState_tx_agree hheld hb])] at hrun
    exact wpActs_refuse he hs hr hrun (by decide)

end

end Sys2Proof.Machine
end

section
namespace Sys2Proof.Machine

/-! ## The swap of a gate list (R323, R325) -/

/-- The gate fields of a port are not the engine's. -/
theorem wpOwn_gate {x tab lo w r : Nat} (hb : x < 256) (ht : tab < 32) (hl : lo < 512) :
    wpOwn (tblFld (0x80 + x / 32) tab (x % 32) lo w r).key = false :=
  wpOwn_table (by omega) (by omega) ht (by omega) hl

theorem wpOwn_gateChange {x : Nat} (hb : x < 256) : wpOwn (R.GATE_CONFIG_PENDING x).key = false ∧ wpOwn (R.GATE_PAST_BASE x).key = false ∧
    wpOwn (L.GATE_AT x).key = false ∧ wpOwn (R.GATE_CONFIG_CHANGE_SEC x).key = false ∧ wpOwn (R.GATE_CONFIG_CHANGE_NS x).key = false :=
  ⟨wpOwn_gate hb (by decide) (by decide), wpOwn_gate hb (by decide) (by decide), wpOwn_lat (by decide) (by omega),
    wpOwn_gate hb (by decide) (by decide), wpOwn_gate hb (by decide) (by decide)⟩

theorem wpOwn_gateError {x : Nat} (hb : x < 256) : wpOwn (R.GATE_CONFIG_ERROR x).key = false ∧ wpOwn (R.GATE_STATS x 1).key = false :=
  ⟨wpOwn_gate hb (by decide) (by decide), wpOwn_gate hb (by decide) (by decide)⟩

section
variable {d e : Dev} {x : Nat} (h : d.KeepsBut e wpOwn) (hb : x < 256)
include h hb

/-- The administrative list of a port of at most 256 entries reads alike. -/
theorem adminIntervals_agree {m : Nat} (hm : m ≤ 256) : (List.range m).all (fun k => decide (16 ≤ e.get (R.ADMIN_INTERVAL (256 * x + k)))) =
    (List.range m).all fun k => decide (16 ≤ d.get (R.ADMIN_INTERVAL (256 * x + k))) := by
  rw [Bool.eq_iff_iff, List.all_eq_true, List.all_eq_true]
  refine forall_congr' fun k => imp_congr_right fun hk => ?_
  have := List.mem_range.1 hk
  rw [h.get (g := R.ADMIN_INTERVAL (256 * x + k)) (wpOwn_table (by omega) (by omega) (by decide) (by omega) (by decide))]

/-- The checks of a trigger judge alike (R323). -/
theorem gateCheck_agree : gateCheck e x = gateCheck d x := by
  have hg {lo w r : Nat} (hl : lo < 512) : e.get (tblFld (0x80 + x / 32) 1 (x % 32) lo w r) = d.get (tblFld (0x80 + x / 32) 1 (x % 32) lo w r) :=
    h.get (wpOwn_gate hb (by decide) hl)
  have hpage : e.on (L.PAGE_ENABLE (gatePage x)) = d.on (L.PAGE_ENABLE (gatePage x)) :=
    h.on (wpOwn_lat (by decide) (by unfold gatePage; omega))
  have hlen : e.get (R.GATE_ADMIN_LIST_LENGTH x) = d.get (R.GATE_ADMIN_LIST_LENGTH x) := hg (by decide)
  have hcycle : gateAdminCycle e x = gateAdminCycle d x := by
    rw [gateAdminCycle, gateAdminCycle, show e.get (R.GATE_ADMIN_CYCLE_NS x) = d.get (R.GATE_ADMIN_CYCLE_NS x) from hg (by decide),
      show e.get (R.GATE_ADMIN_CYCLE_FRAC x) = d.get (R.GATE_ADMIN_CYCLE_FRAC x) from hg (by decide)]
  have henable : e.on (R.GATE_GATE_ENABLE x) = d.on (R.GATE_GATE_ENABLE x) := h.on (wpOwn_gate hb (by decide) (by decide))
  have hpending : e.on (R.GATE_CONFIG_PENDING x) = d.on (R.GATE_CONFIG_PENDING x) := h.on (wpOwn_gate hb (by decide) (by decide))
  simp only [gateCheck, hpage, henable, hpending, hlen, hcycle]
  by_cases hm : 256 < d.get (R.GATE_ADMIN_LIST_LENGTH x)
  · simp only [hm, true_or, or_true, if_true]
  · rw [adminIntervals_agree h hb (by omega)]

end

theorem gateCheck_lt (d : Dev) (x : Nat) : gateCheck d x < 256 := by
  simp only [gateCheck, codeState, codeArg, codeOk]
  split_ifs <;> decide

theorem gateTrigger_at (d : Dev) (x t : Nat) : gateTrigger d x (some t) =
    if gateCheck d x = codeOk then (gateAccept d x t false, codeOk) else (gateRefuse d x, gateCheck d x) := by
  rw [gateTrigger, ite_not]

/-- A refused trigger moves its error, its counter and the event of its port (R325). -/
theorem gateRefuse_onlyChanges (d : Dev) (x : Nat) :
    d.OnlyChanges (gateRefuse d x) [R.GATE_CONFIG_ERROR x, R.GATE_STATS x 1] [0x80 + x / 32] :=
  (((Dev.OnlyChanges.refl d _ _).set 1 (by simp)).count _ 1 (by simp)).latch _ _ (by simp [gatePage]) (Nat.mod_lt _ (by decide))

theorem gateRefuse_reads (d : Dev) {x : Nat} (hb : x < 256) :
    (gateRefuse d x).get (R.GATE_CONFIG_ERROR x) = 1 ∧ (gateRefuse d x).evt (0x80 + x / 32) (x % 32) = true := by
  have hk : eventKey (gatePage x) (R.GATE_CONFIG_ERROR x).key = false :=
    eventKey_of_not_wpOwn (by unfold gatePage; omega) (wpOwn_gateError hb).1
  have hne : (R.GATE_CONFIG_ERROR x).key ≠ (R.GATE_STATS x 1).key := by
    simp only [R.GATE_CONFIG_ERROR, R.GATE_STATS, tblFld]
    omega
  have hlt : x % 32 < 32 := Nat.mod_lt _ (by decide)
  refine ⟨?_, Dev.evt_latch_same _ _ _ (by unfold gatePage; omega) hlt (evtBitServed_of_not_port _ _ _ (by unfold gatePage; omega))⟩
  rw [gateRefuse, gateEvent, Dev.get_latch_ne _ _ _ hlt _ hk, Dev.get_count_ne _ _ _ _ _ hne, Dev.get_set_same]
  rfl

/-- GATE_LIST_SWAP that passes its checks makes a change pending at its instant, late 2 microseconds on; else it fails with the check's code. -/
theorem wpActs_swap {s : State} {n : Fin 4096} {x : Nat} (hs : s.run.stopped = false) (hx : s.d.get (R.WP_TARGET n) = x)
    (hr : wpReady s.d n wpGateListSwap = true) (hb : x < 256) :
    (gateCheck s.d x = codeOk →
      WpActs (.wpGateListSwap n) s n s.d (wpFields n ++ [R.GATE_CONFIG_PENDING x, R.GATE_CONFIG_ERROR x, R.GATE_PAST_BASE x, L.GATE_AT x,
          R.GATE_CONFIG_CHANGE_SEC x, R.GATE_CONFIG_CHANGE_NS x]) [3] fun e =>
        WpRecorded s.d e n s.d.tickTime ∧ e.get (R.GATE_CONFIG_PENDING x) = 1 ∧
        e.get (L.GATE_AT x) = (if s.d.on (L.WP_DUE n) then wpInstant s.d n + gateMargin else wpInstant s.d n) % 2 ^ 128) ∧
    (gateCheck s.d x ≠ codeOk →
      WpActs (.wpGateListSwap n) s n s.d (failFields n ++ [R.GATE_CONFIG_ERROR x, R.GATE_STATS x 1]) [3, 0x80 + x / 32] fun e =>
        WpFailed s.d e n s.d.tickTime (gateCheck s.d x) ∧ e.get (R.GATE_CONFIG_ERROR x) = 1 ∧ e.evt (0x80 + x / 32) (x % 32) = true) := by
  have he : exec (.wpGateListSwap n) s = wpRow s n wpGateListSwap false (onDev (wpSwap n)) := rfl
  have hrun := wpRun_eq (wpSwap n) s.d n
  rw [wpSwap, (wpRecord_sameOperands s.d s.d.tickTime n.isLt).1, hx, gateTrigger_at,
    gateCheck_agree (wpRecord_keepsBut s.d s.d.tickTime n.isLt) hb] at hrun
  obtain ⟨hpending, hpast, hat, hsec, hns⟩ := wpOwn_gateChange hb
  obtain ⟨herr, hstat⟩ := wpOwn_gateError hb
  refine ⟨fun hc => ?_, fun hc => ?_⟩
  · rw [if_pos hc] at hrun
    refine wpActs_ok he hs hr hrun ((Dev.OnlyChanges.refl _ _ _).setAll _ (by simp)) (by simp [hpending, hpast, hat, hsec, hns, herr]) ?_
    have hw : (R.GATE_CONFIG_PENDING x).w = 1 ∧ (L.GATE_AT x).w = 128 := ⟨rfl, rfl⟩
    simp (disch := simp only [R.GATE_CONFIG_PENDING, R.GATE_CONFIG_ERROR, R.GATE_PAST_BASE, L.GATE_AT, R.GATE_CONFIG_CHANGE_SEC,
        R.GATE_CONFIG_CHANGE_NS, tblFld, latFld, tblBase, latBase]; omega) only
      [gateAccept, Dev.setAll_cons, Dev.setAll_nil, Dev.get_set_ne, Dev.get_set_same, hw]
    exact ⟨rfl, trivial⟩
  · rw [if_neg hc] at hrun
    obtain ⟨herror, hevent⟩ := gateRefuse_reads (wpRecord s.d n s.d.tickTime) hb
    refine wpActs_fail he hs hr hrun ⟨hc, gateCheck_lt _ _⟩ (gateRefuse_onlyChanges _ x) (by simp [herr, hstat])
      (by simp only [List.mem_singleton, forall_eq]; omega) ⟨?_, ?_⟩
    · rw [wpOutcome_get _ _ n.isLt herr, herror]
    · rw [wpOutcome_evt _ _ _ n.isLt (by omega) (by omega), hevent]

end Sys2Proof.Machine
end

section
namespace Sys2Proof.Machine

/-! ## The edge of a window group (R510) -/

/-- Where one step alone moves something, a loop over all indices makes that step. -/
theorem Dev.each_single {d e : Dev} {f : Nat → Dev → Dev} {m q : Nat} (hd : ∀ r < m, r ≠ q → f r d = d) (he : ∀ r < m, r ≠ q → f r e = e)
    (hq : f q d = e) : d.each m f = if q < m then e else d := by
  induction m with
  | zero => rfl
  | succ k ih =>
    rw [Dev.each, ih (fun r hr => hd r (by omega)) fun r hr => he r (by omega)]
    rcases Nat.lt_trichotomy q k with h | h | h
    · rw [if_pos h, if_pos (by omega), he k (by omega) (by omega)]
    · rw [if_neg (by omega), if_pos (by omega), ← h, hq]
    · rw [if_neg (by omega), if_neg (by omega), hd k (by omega) (by omega)]

/-- The next window of port `p` opens at `t`. -/
def winStart (d : Dev) (g t p : Nat) : Dev :=
  (winZero d p 0).setAll [(L.WIN_OPEN p 0, 1), (L.WIN_START p 0, t), (L.WIN_SKIPS p 0, d.get (L.WG_SKIPS g)), (L.WIN_STEPS p 0, d.get L.STEP_SERIAL)]

theorem winEdge_of_disabled {d : Dev} {p : Nat} (g k t : Nat) (h : d.get (R.PTEL_WINDOW_EN p) = 0) : winEdge d g k t p = d := by
  rw [winEdge, if_pos (by simp [Dev.on, h])]

/-- The first edge of an enabled port without a window closes nothing and opens one. -/
theorem winEdge_first {d : Dev} {g p : Nat} (k t : Nat) (hen : d.get (R.PTEL_WINDOW_EN p) = 1) (hg : d.get (R.PTEL_WINDOW_GROUP p) = g)
    (h0 : d.get (L.WIN_OPEN p 0) = 0) (h1 : d.get (L.WIN_OPEN p 1) = 0) : winEdge d g k t p = winStart d g t p := by
  have hclose : winClose d p = d := by rw [winClose, if_pos (by simp [Dev.on, h1])]
  have hopen : d.on (L.WIN_OPEN p 0) = false := by simp [Dev.on, h0]
  rw [winEdge, if_neg (by simp [Dev.on, hen, hg])]
  simp only [hclose, hopen, Bool.false_eq_true, if_false, winStart]

/-- The fields that the opening of a window moves. -/
def winFields (p : Nat) : List Fld :=
  [L.WIN_OPEN p 0, L.WIN_START p 0, L.WIN_SKIPS p 0, L.WIN_STEPS p 0, L.WIN_RX_FRAMES p 0, L.WIN_RX_BYTES p 0, L.WIN_RX_ERRORED p 0,
    L.WIN_TX_FRAMES p 0, L.WIN_TX_BYTES p 0, L.WIN_TX_POISONED p 0]

theorem winStart_onlyChanges (d : Dev) (g t p : Nat) : d.OnlyChanges (winStart d g t p) (winFields p) [] :=
  ((Dev.OnlyChanges.refl d _ _).setAll _ (by simp [winFields])).setAll _ (by simp [winFields])

theorem winStart_get (d : Dev) (g t p : Nat) :
    (winStart d g t p).get (L.WIN_OPEN p 0) = 1 ∧ (winStart d g t p).get (L.WIN_START p 0) = t % 2 ^ 128 ∧
      (winStart d g t p).get (L.WIN_RX_BYTES p 0) = 0 ∧ (winStart d g t p).get (L.WIN_TX_BYTES p 0) = 0 := by
  have hw : (L.WIN_OPEN p 0).w = 1 ∧ (L.WIN_START p 0).w = 128 ∧ (L.WIN_RX_BYTES p 0).w = 64 ∧ (L.WIN_TX_BYTES p 0).w = 64 := ⟨rfl, rfl, rfl, rfl⟩
  simp (disch := simp only [L.WIN_OPEN, L.WIN_START, L.WIN_SKIPS, L.WIN_STEPS, L.WIN_RX_FRAMES, L.WIN_RX_BYTES, L.WIN_RX_ERRORED, L.WIN_TX_FRAMES,
      L.WIN_TX_BYTES, L.WIN_TX_POISONED, latFld, latBase]; omega) only
    [winStart, winZero, Dev.setAll_cons, Dev.setAll_nil, Dev.get_set_ne, Dev.get_set_same, hw]
  exact ⟨rfl, trivial, rfl, rfl⟩

theorem wpOwn_winFields {p : Nat} (hp : p < 256) : ∀ f ∈ winFields p, wpOwn f.key = false := by
  have hl {g i w r : Nat} (hg : 65 ≤ g) (hi : i < 2 ^ 32) : wpOwn (latFld g i w r).key = false := wpOwn_lat (.inl hg) hi
  simp only [winFields, List.forall_mem_cons, List.not_mem_nil, false_imp_iff, implies_true, and_true]
  exact ⟨hl (by decide) (by omega), hl (by decide) (by omega), hl (by decide) (by omega), hl (by decide) (by omega), hl (by decide) (by omega),
    hl (by decide) (by omega), hl (by decide) (by omega), hl (by decide) (by omega), hl (by decide) (by omega), hl (by decide) (by omega)⟩

theorem wpOwn_windowEnable {p : Nat} (hp : p < 256) : wpOwn (R.PTEL_WINDOW_EN p).key = false ∧ wpOwn (R.PTEL_WINDOW_GROUP p).key = false :=
  ⟨wpOwn_table (by decide) (by decide) (by decide) (by omega) (by decide), wpOwn_table (by decide) (by decide) (by decide) (by omega) (by decide)⟩

theorem winGroupEdge_off {d : Dev} (g k t : Nat) (h : d.get (L.PAGE_ENABLE 0xC) = 0) : winGroupEdge d g k t = d := by
  rw [winGroupEdge, telOn, if_neg (by simp [Dev.on, h])]

/-- The edge of a group with one enabled port, which has no window yet. -/
theorem winGroupEdge_single {d : Dev} {g q : Nat} (k t : Nat) (hq : q < 256) (hon : d.get (L.PAGE_ENABLE 0xC) = 1)
    (hother : ∀ r < 256, r ≠ q → d.get (R.PTEL_WINDOW_EN r) = 0) (hen : d.get (R.PTEL_WINDOW_EN q) = 1) (hg : d.get (R.PTEL_WINDOW_GROUP q) = g)
    (h0 : d.get (L.WIN_OPEN q 0) = 0) (h1 : d.get (L.WIN_OPEN q 1) = 0) : winGroupEdge d g k t = winStart d g t q := by
  have hkeep (r : Nat) (hr : r < 256) : (winStart d g t q).get (R.PTEL_WINDOW_EN r) = d.get (R.PTEL_WINDOW_EN r) := by
    refine (winStart_onlyChanges d g t q).2 _ ?_ (by simp)
    simp only [winFields, List.forall_mem_cons, L.WIN_OPEN, L.WIN_START, L.WIN_SKIPS, L.WIN_STEPS, L.WIN_RX_FRAMES, L.WIN_RX_BYTES,
      L.WIN_RX_ERRORED, L.WIN_TX_FRAMES, L.WIN_TX_BYTES, L.WIN_TX_POISONED, R.PTEL_WINDOW_EN, tblFld, latFld, tblBase, latBase, List.not_mem_nil,
      false_imp_iff, implies_true, and_true]
    omega
  rw [winGroupEdge, telOn, if_pos (by simp [Dev.on, hon]), Dev.each_single (q := q) (e := winStart d g t q), if_pos hq]
  · exact fun r hr hne => winEdge_of_disabled g k t (hother r hr hne)
  · exact fun r hr hne => winEdge_of_disabled g k t (by rw [hkeep r hr, hother r hr hne])
  · exact winEdge_first k t hen hg h0 h1

/-- WINDOW_EDGE is the edge of its group at its instant (R510). -/
theorem wpActs_edge {s : State} {n : Fin 4096} {q : Fin 256} {x a : Nat} (hs : s.run.stopped = false) (hx : s.d.get (R.WP_TARGET n) = x)
    (ha : s.d.get (R.WP_ARG0 n) = a) (hr : wpReady s.d n wpWindowEdge = true) :
    (∃ e : Dev, s.d.OnlyChanges e (wpFields n) [3] ∧ WpRecorded s.d e n s.d.tickTime ∧
      exec (.wpWindowEdge n) s = .next (s.setDev (wpErase (winGroupEdge e x (a % 32) (wpInstant s.d n)) n)).flushDue) ∧
    (s.d.get (L.PAGE_ENABLE 0xC) = 0 → WpActs (.wpWindowEdge n) s n s.d (wpFields n) [3] fun e => WpRecorded s.d e n s.d.tickTime) ∧
    (s.d.get (L.PAGE_ENABLE 0xC) = 1 → (∀ r < 256, r ≠ q.val → s.d.get (R.PTEL_WINDOW_EN r) = 0) → s.d.get (R.PTEL_WINDOW_EN q) = 1 →
      s.d.get (R.PTEL_WINDOW_GROUP q) = x → s.d.get (L.WIN_OPEN q 0) = 0 → s.d.get (L.WIN_OPEN q 1) = 0 →
      WpActs (.wpWindowEdge n) s n s.d (wpFields n ++ winFields q) [3] fun e =>
        WpRecorded s.d e n s.d.tickTime ∧ e.get (L.WIN_OPEN q 0) = 1 ∧ e.get (L.WIN_START q 0) = wpInstant s.d n % 2 ^ 128 ∧
        e.get (L.WIN_RX_BYTES q 0) = 0 ∧ e.get (L.WIN_TX_BYTES q 0) = 0) := by
  have he : exec (.wpWindowEdge n) s = wpRow s n wpWindowEdge false (onDev (wpEdge n)) := rfl
  have hk := wpRecord_keepsBut s.d s.d.tickTime n.isLt
  have hpage : wpOwn (L.PAGE_ENABLE 0xC).key = false := wpOwn_lat (by decide) (by decide)
  obtain ⟨htarget, harg⟩ := wpRecord_sameOperands s.d s.d.tickTime n.isLt
  have hrun := wpRun_eq (wpEdge n) s.d n
  rw [wpEdge, htarget, harg, hx, ha] at hrun
  refine ⟨?_, fun hoff => ?_, fun hon hother hen hg h0 h1 => ?_⟩
  · refine ⟨wpRecord s.d n s.d.tickTime, wpRecord_onlyChanges _ _ _, wpRecorded_wpRecord _ n.isLt (wpReady_armed hr), ?_⟩
    rw [he, wpRow_ready hs hr hrun, wpOutcome_ok]
  · rw [winGroupEdge_off _ _ _ (by rw [hk.get hpage, hoff])] at hrun
    have h := wpActs_ok (gs := []) (post := fun _ => True) he hs hr hrun (Dev.OnlyChanges.refl _ _ _) (by simp) trivial
    exact h.mono (by simp) fun _ k => k.1
  · have hopen (j : Nat) (hj : j < 2) : wpOwn (L.WIN_OPEN q j).key = false := wpOwn_lat (by decide) (by omega)
    rw [winGroupEdge_single (q := q) _ _ q.isLt (by rw [hk.get hpage, hon])
      (fun r hr' hne => by rw [hk.get (wpOwn_windowEnable hr').1, hother r hr' hne]) (by rw [hk.get (wpOwn_windowEnable q.isLt).1, hen])
      (by rw [hk.get (wpOwn_windowEnable q.isLt).2, hg]) (by rw [hk.get (hopen 0 (by decide)), h0]) (by rw [hk.get (hopen 1 (by decide)), h1])] at hrun
    exact wpActs_ok he hs hr hrun (winStart_onlyChanges _ _ _ _) (wpOwn_winFields q.isLt) (winStart_get _ _ _ _)

end Sys2Proof.Machine
end

section
namespace Sys2Proof.Machine

/-! ## The start of an eye scan (R117) -/

/-- A request on contents that differ in their cells alone. -/
theorem arbRequest_withCells {d e : Dev} (h : e = { d with cells := e.cells }) (q u cls : Nat) (act : PowerAction) :
    (arbRequest d q u cls act).withCells e = arbRequest e q u cls act := by
  rw [Dev.withCells]
  generalize e.cells = c at h ⊢
  subst h
  rfl

/-- The registers of a lane or a port are not the engine's. -/
theorem wpOwn_laneReg {base x off lo w r : Nat} (hbase : 4 ≤ base) (hpage : base + x / 8 < 256) (ho : off < 2048) (hl : lo < 64) :
    wpOwn (regFld (base + x / 8) (off + 256 * (x % 8)) lo w r).key = false :=
  wpOwn_reg (by omega) hpage (by omega) hl

/-- The registers of a scan profile are not the engine's. -/
theorem wpOwn_profileReg {x off lo w r : Nat} (hb : x < 512) (ho : off < 4096) (hl : lo < 64) :
    wpOwn (regFld (0x10 + x / 16) (off + 16 * (x % 16)) lo w r).key = false :=
  wpOwn_reg (by omega) (by omega) (by omega) hl

theorem wpOwn_scan {x : Nat} (hb : x < 256) : wpOwn (R.SCAN_STATUS_WAIT_GRANT x).key = false ∧ wpOwn (R.SCAN_STATUS_REFUSED x).key = false ∧
    wpOwn (R.SCAN_STATUS_STATE x).key = false :=
  ⟨wpOwn_laneReg (by decide) (by omega) (by decide) (by decide), wpOwn_laneReg (by decide) (by omega) (by decide) (by decide),
    wpOwn_laneReg (by decide) (by omega) (by decide) (by decide)⟩

theorem findSome?_congr_mem {α β : Type} {f g : α → Option β} {l : List α} (h : ∀ a ∈ l, f a = g a) : l.findSome? f = l.findSome? g := by
  induction l with
  | nil => rfl
  | cons a r ih =>
    rw [List.forall_mem_cons] at h
    rw [List.findSome?_cons, List.findSome?_cons, h.1, ih h.2]

/-- The port of a lane lies in the lane's octet. -/
theorem lanePort_lt {d : Dev} {x p : Nat} (hx : x < 256) (hp : lanePort d x = some p) : p < 256 := by
  obtain ⟨j, hj, hs⟩ := List.exists_of_findSome?_eq_some hp
  have := List.mem_range.1 hj
  dsimp only at hs
  split_ifs at hs
  simp only [Option.some.injEq] at hs
  omega

theorem lanePortOn_lt {d : Dev} {x p : Nat} (hx : x < 256) (hp : lanePortOn d x = some p) : p < 256 := by
  unfold lanePortOn at hp
  split at hp
  next q hq =>
    split_ifs at hp
    rw [← Option.some.inj hp]
    exact lanePort_lt hx hq
  next => contradiction

section
variable {d e : Dev} (h : d.KeepsBut e wpOwn)
include h

theorem portWidth_agree {p : Nat} (hp : p < 256) : portWidth e p = portWidth d p := by
  have hmode : e.get (R.OCT_PORT_MODE_MODE (p / 8)) = d.get (R.OCT_PORT_MODE_MODE (p / 8)) :=
    h.get (wpOwn_reg (by omega) (by omega) (by decide) (by decide))
  rw [portWidth, portWidth, octMode, octMode, hmode]

theorem iface_agree {p : Nat} (hp : p < 256) : iface e p = iface d p := by
  rw [iface, iface, portWidth_agree h hp,
    show e.get (R.PORT_CTRL_RATE p) = d.get (R.PORT_CTRL_RATE p) from h.get (wpOwn_laneReg (by decide) (by omega) (by decide) (by decide))]

theorem lanePort_agree {x : Nat} (hx : x < 256) : lanePort e x = lanePort d x := by
  unfold lanePort
  refine findSome?_congr_mem fun j hj => ?_
  have := List.mem_range.1 hj
  dsimp only
  rw [portWidth_agree h (by omega)]

theorem lanePortOn_agree {x : Nat} (hx : x < 256) : lanePortOn e x = lanePortOn d x := by
  unfold lanePortOn
  rw [lanePort_agree h hx]
  split
  next p hp =>
    have := lanePort_lt hx hp
    rw [h.on (g := R.PORT_CTRL_ENABLE p) (wpOwn_laneReg (by decide) (by omega) (by decide) (by decide))]
  next => rfl

/-- A lane's rate reads alike. -/
theorem laneRate_agree {x : Nat} (hx : x < 256) : laneRate e x = laneRate d x := by
  unfold laneRate
  rw [lanePortOn_agree h hx]
  split
  next p hp => rw [iface_agree h (lanePortOn_lt hx hp)]
  next => exact h.get (wpOwn_laneReg (by decide) (by omega) (by decide) (by decide))

/-- The check of a scan start judges alike (R117). -/
theorem scanCheck_agree {x k : Nat} (hx : x < 256) (hk : k < 16) : scanCheck e x k = scanCheck d x k := by
  have hpr : profileOf x k < 512 := by
    rw [profileOf, laneOct]
    omega
  have hp {off lo w r : Nat} (ho : off < 4096) (hl : lo < 64) :
      e.get (regFld (0x10 + profileOf x k / 16) (off + 16 * (profileOf x k % 16)) lo w r) =
        d.get (regFld (0x10 + profileOf x k / 16) (off + 16 * (profileOf x k % 16)) lo w r) := h.get (wpOwn_profileReg hpr ho hl)
  have hmask : e.get (R.SCANP_EYE_MASK (profileOf x k)) = d.get (R.SCANP_EYE_MASK (profileOf x k)) := hp (by decide) (by decide)
  have hphStart : e.get (R.SCANP_PH_START (profileOf x k)) = d.get (R.SCANP_PH_START (profileOf x k)) := hp (by decide) (by decide)
  have hphStop : e.get (R.SCANP_PH_STOP (profileOf x k)) = d.get (R.SCANP_PH_STOP (profileOf x k)) := hp (by decide) (by decide)
  have hphStep : e.get (R.SCANP_PH_STEP_LOG (profileOf x k)) = d.get (R.SCANP_PH_STEP_LOG (profileOf x k)) := hp (by decide) (by decide)
  have hvStart : e.get (R.SCANP_V_START (profileOf x k)) = d.get (R.SCANP_V_START (profileOf x k)) := hp (by decide) (by decide)
  have hvStop : e.get (R.SCANP_V_STOP (profileOf x k)) = d.get (R.SCANP_V_STOP (profileOf x k)) := hp (by decide) (by decide)
  have hvStep : e.get (R.SCANP_V_STEP_LOG (profileOf x k)) = d.get (R.SCANP_V_STEP_LOG (profileOf x k)) := hp (by decide) (by decide)
  have hdwell : e.get (R.SCANP_DWELL_EXP (profileOf x k)) = d.get (R.SCANP_DWELL_EXP (profileOf x k)) := hp (by decide) (by decide)
  have hstage : laneStage e x = laneStage d x := h.get (wpOwn_laneReg (by decide) (by omega) (by decide) (by decide))
  have hstate : e.get (R.SCAN_STATUS_STATE x) = d.get (R.SCAN_STATUS_STATE x) := h.get (wpOwn_scan hx).2.2
  have hwait : e.on (R.SCAN_STATUS_WAIT_GRANT x) = d.on (R.SCAN_STATUS_WAIT_GRANT x) := h.on (wpOwn_scan hx).1
  have hceiling : e.get (R.REQ_CEILING (reqAux (laneOct x))) = d.get (R.REQ_CEILING (reqAux (laneOct x))) :=
    h.get (wpOwn_table (by decide) (by decide) (by decide) (by rw [reqAux, laneOct]; omega) (by decide))
  have hgranted : e.get (R.REQ_GRANTED (reqAux (laneOct x))) = d.get (R.REQ_GRANTED (reqAux (laneOct x))) :=
    h.get (wpOwn_table (by decide) (by decide) (by decide) (by rw [reqAux, laneOct]; omega) (by decide))
  have heyes (b : Bool) : scanEyes e (profileOf x k) b = scanEyes d (profileOf x k) b := by rw [scanEyes, scanEyes, hmask]
  have hphases : scanPhases e (profileOf x k) = scanPhases d (profileOf x k) := by rw [scanPhases, scanPhases, hphStart, hphStop, hphStep]
  have hvolts : scanVolts e (profileOf x k) = scanVolts d (profileOf x k) := by rw [scanVolts, scanVolts, hvStart, hvStop, hvStep]
  have hcount : scanCount e x (profileOf x k) = scanCount d x (profileOf x k) := by
    rw [scanCount, scanCount, laneRate_agree h hx, heyes, hphases, hvolts]
  have hexceeds : arbExceeds e (reqAux (laneOct x)) 1 = arbExceeds d (reqAux (laneOct x)) 1 := by rw [arbExceeds, arbExceeds, hceiling, hgranted]
  unfold scanCheck
  dsimp only
  rw [hstage, hstate, hwait, laneRate_agree h hx, heyes, hphStart, hphStop, hvStart, hvStop, hdwell, hcount, hexceeds]

end

theorem scanCheck_lt (d : Dev) (x k : Nat) : scanCheck d x k < 256 := by
  simp only [scanCheck, codeState, codeArg, codePower, codeOk]
  split_ifs <;> decide

/-- A refused start notes it, counts a refusal of the power arbiter, and raises the lane's event. -/
def scanRefuse (d : Dev) (x code : Nat) : Dev :=
  laneEvent ((if code = codePower then arbError d else d).set (R.SCAN_STATUS_REFUSED x) 1) x 2

theorem scanStart_eq (d : Dev) (x k : Nat) (wp : Option Nat) : scanStart d x k wp =
    if scanCheck d x k = codeOk then
      ((arbRequest d (reqAux (laneOct x)) 1 classD (.eyeScan x k wp)).setAll [(R.SCAN_STATUS_WAIT_GRANT x, 1), (R.SCAN_STATUS_REFUSED x, 0)], codeOk)
    else (scanRefuse d x (scanCheck d x k), scanCheck d x k) := by
  unfold scanStart
  by_cases hc : scanCheck d x k = codeOk
  · simp only [hc, if_true]
  · simp only [hc, if_false, scanRefuse]

theorem scanRefuse_onlyChanges (d : Dev) (x code : Nat) :
    d.OnlyChanges (scanRefuse d x code) [R.SCAN_STATUS_REFUSED x, R.POWER_ERRORS] [0x10 + x / 8] := by
  have h : d.OnlyChanges (if code = codePower then arbError d else d) [R.SCAN_STATUS_REFUSED x, R.POWER_ERRORS] [0x10 + x / 8] :=
    Dev.OnlyChanges.ite (fun _ => (Dev.OnlyChanges.refl d _ _).count 4 1 (by simp)) fun _ => Dev.OnlyChanges.refl d _ _
  exact (h.set 1 (by simp)).latch _ _ (by simp [lanePage]) (by omega)

theorem scanRefuse_refused (d : Dev) {x : Nat} (code : Nat) (hx : x < 256) : (scanRefuse d x code).get (R.SCAN_STATUS_REFUSED x) = 1 := by
  have hk : eventKey (lanePage x) (R.SCAN_STATUS_REFUSED x).key = false :=
    eventKey_of_not_wpOwn (by unfold lanePage; omega) (wpOwn_scan hx).2.1
  rw [scanRefuse, laneEvent, Dev.get_latch_ne _ _ _ (by omega) _ hk, Dev.get_set_same]
  rfl

/-- EYE_SCAN_START requests the grant of the scan, and otherwise fails with the check's code (R117). -/
theorem wpActs_scan {s : State} {n : Fin 4096} {x a : Nat} (hs : s.run.stopped = false) (hx : s.d.get (R.WP_TARGET n) = x)
    (ha : s.d.get (R.WP_ARG0 n) = a) (hr : wpReady s.d n wpEyeScanStart = true) (hb : x < 256) :
    (scanCheck s.d x (a % 16) = codeOk →
      WpActs (.wpEyeScanStart n) s n
        (arbRequest s.d (reqAux (laneOct x)) 1 classD (.eyeScan x (a % 16) (some n)))
        (wpFields n ++ [R.SCAN_STATUS_WAIT_GRANT x, R.SCAN_STATUS_REFUSED x]) [3] fun e =>
        WpRecorded s.d e n s.d.tickTime ∧ e.get (R.SCAN_STATUS_WAIT_GRANT x) = 1) ∧
    (scanCheck s.d x (a % 16) ≠ codeOk →
      WpActs (.wpEyeScanStart n) s n s.d (failFields n ++ [R.SCAN_STATUS_REFUSED x, R.POWER_ERRORS]) [3, 0x10 + x / 8] fun e =>
        WpFailed s.d e n s.d.tickTime (scanCheck s.d x (a % 16)) ∧ e.get (R.SCAN_STATUS_REFUSED x) = 1) := by
  have he : exec (.wpEyeScanStart n) s = wpRow s n wpEyeScanStart false (onDev (wpScan n)) := rfl
  obtain ⟨htarget, harg⟩ := wpRecord_sameOperands s.d s.d.tickTime n.isLt
  have hrun := wpRun_eq (wpScan n) s.d n
  rw [wpScan, htarget, harg, hx, ha, scanStart_eq,
    scanCheck_agree (wpRecord_keepsBut s.d s.d.tickTime n.isLt) hb (Nat.mod_lt _ (by decide))] at hrun
  obtain ⟨hwait, hrefused, -⟩ := wpOwn_scan hb
  have herrors : wpOwn R.POWER_ERRORS.key = false := by decide
  refine ⟨fun hc => ?_, fun hc => ?_⟩
  · rw [if_pos hc] at hrun
    have hq := arbRequest_withCells (wpRecord_onlyChanges s.d n s.d.tickTime).1 (reqAux (laneOct x)) 1 classD (.eyeScan x (a % 16) (some n))
    have hset := (Dev.OnlyChanges.refl (arbRequest (wpRecord s.d n s.d.tickTime) (reqAux (laneOct x)) 1 classD (.eyeScan x (a % 16) (some n))) _
      []).setAll [(R.SCAN_STATUS_WAIT_GRANT x, 1), (R.SCAN_STATUS_REFUSED x, 0)] (fs := [R.SCAN_STATUS_WAIT_GRANT x, R.SCAN_STATUS_REFUSED x]) (by simp)
    refine wpActs_ok_of_queue he hs hr hrun hq rfl hset (by simp [hwait, hrefused]) ?_
    have hne : (R.SCAN_STATUS_WAIT_GRANT x).key ≠ (R.SCAN_STATUS_REFUSED x).key := by
      simp only [R.SCAN_STATUS_WAIT_GRANT, R.SCAN_STATUS_REFUSED, regFld]
      omega
    rw [Dev.setAll_cons, Dev.setAll_cons, Dev.setAll_nil, Dev.get_set_ne _ _ _ _ hne, Dev.get_set_same]
    rfl
  · rw [if_neg hc] at hrun
    refine wpActs_fail he hs hr hrun ⟨hc, scanCheck_lt _ _ _⟩ (scanRefuse_onlyChanges _ x _) (by simp [hrefused, herrors])
      (by simp only [List.mem_singleton, forall_eq]; omega) ?_
    rw [wpOutcome_get _ _ n.isLt hrefused, scanRefuse_refused _ _ hb]

end Sys2Proof.Machine
end

section
namespace Sys2Proof.Machine

/-! ## A scheduled action in the tick that reaches its instant (R18) -/

theorem heldTick_enable {d : Dev} {x t : Nat} (h : d.txHeld = [(x, true, t)]) (ht : t ≤ d.tickTime) (hm : txMayServe d x) :
    heldTick d = txServe { d with txHeld := [] } x := by
  have hm' : txMayServe ({ d with txHeld := [] } : Dev) x := hm
  rw [heldTick_one h ht, heldAct, if_pos rfl, saEnable_tx_of_may hm']

theorem heldTick_retire {d : Dev} {x t : Nat} (h : d.txHeld = [(x, false, t)]) (ht : t ≤ d.tickTime) (hm : saState d false x = saInService) :
    heldTick d = ({ d with txHeld := [] } : Dev).set (R.TXSA_STATE x) saDraining := by
  have hm' : saState ({ d with txHeld := [] } : Dev) false x = saInService := hm
  rw [heldTick_one h ht, heldAct, if_neg Bool.false_ne_true, saRetire_tx_of_may hm']

end Sys2Proof.Machine

open Sys2Proof Sys2Proof.Machine

/-- Settles O20: the record of an execution and the data path's fields lie apart, so each action judges and moves what it would on the contents
before the record, and the record stands behind it. -/
theorem waypointDataRows : Obligations.WaypointDataRows := by
  unfold Obligations.WaypointDataRows
  refine ⟨fun d x enable t h ht => ⟨?_, ?_⟩, fun d x t h => heldApply_other t h, fun s n q hs => ?_⟩
  · rintro rfl hl hservice
    rw [heldTick_enable h ht ⟨hl, hservice⟩]
    exact ⟨txServe_onlyChanges _ _, saState_txServe _ _, encodingAn_txServe _ _⟩
  · rintro rfl hservice
    rw [heldTick_retire h ht hservice]
    exact ⟨(Dev.OnlyChanges.refl _ _ _).set _ (List.mem_singleton_self _), saState_drained _ _⟩
  · refine ⟨fun hr hb => wpActs_switch hs rfl rfl hr hb, fun hr hd hb => wpActs_enableRx hs rfl rfl hr hd hb, fun hr hd hb => ?_,
      fun hr hd hb => wpActs_retireRx hs rfl rfl hr hd hb, fun hr hd hb => wpActs_retireTx hs rfl rfl hr hd hb,
      fun hr hb => wpActs_swap hs rfl hr hb, fun hr => wpActs_edge hs rfl rfl hr, fun hr hb => wpActs_scan hs rfl rfl hr hb⟩
    obtain ⟨hlate, hlateFails, honTime, honTimeFails⟩ := wpActs_enableTx hs rfl rfl hr hd hb
    exact ⟨fun hl hloaded hservice => hlate hl ⟨hloaded, hservice⟩, hlateFails, fun hl hloaded hservice => honTime hl ⟨hloaded, hservice⟩, honTimeFails⟩
end

section
namespace Sys2Proof.Machine

/-! ## Holdover (R73) -/

/-- The fields that the causes of holdover are read from. -/
def causeFields : List Fld :=
  [R.TB_CTRL_DISCIPLINE_SRC, R.ROPE_CFG_ROLE, R.TB_CTRL_FORCE_HOLDOVER, R.TB_STATUS_REF_LOST, L.HO_FW, R.BELAY_STATUS_LINK 0,
    R.BELAY_STATUS_LINK 1, L.B_HOPS 0, L.B_HOPS 1]

theorem holdoverCause_congr {d e : Dev} (h : ∀ f ∈ causeFields, e.get f = d.get f) : holdoverCause e = holdoverCause d := by
  simp only [causeFields, List.forall_mem_cons] at h
  obtain ⟨hsrc, hrole, hforce, hlost, hfw, hl0, hl1, hh0, hh1, -⟩ := h
  simp only [holdoverCause, ropeCause, ropeDisciplined, leadTime, Dev.on, hsrc, hrole, hforce, hlost, hfw, hl0, hl1, hh0, hh1]

theorem holdoverUpdate_onlyChanges (d : Dev) : d.OnlyChanges (holdoverUpdate d) [R.TB_STATUS_HOLDOVER] [2] := by
  have edge (v b : Nat) (hb : b < 32) : d.OnlyChanges ((d.set R.TB_STATUS_HOLDOVER v).latch 2 b) [R.TB_STATUS_HOLDOVER] [2] :=
    ((Dev.OnlyChanges.refl d _ _).set v (by simp)).latch 2 b (by simp) hb
  exact .ite (fun _ => .ite (fun _ => .refl d _ _) fun _ => edge 1 2 (by decide))
    fun _ => .ite (fun _ => edge 0 3 (by decide)) fun _ => .refl d _ _

/-- A field that holdover does not move. -/
theorem holdoverUpdate_get (d : Dev) {g : Fld} (h : g.key ≠ R.TB_STATUS_HOLDOVER.key) (he : eventKey 2 g.key = false) :
    (holdoverUpdate d).get g = d.get g := (holdoverUpdate_onlyChanges d).2 g (by simpa using h) (by simpa using he)

theorem holdoverCause_holdoverUpdate (d : Dev) : holdoverCause (holdoverUpdate d) = holdoverCause d := by
  refine holdoverCause_congr fun f hf => holdoverUpdate_get d ?_ ?_
  · have : ∀ f ∈ causeFields, f.key ≠ R.TB_STATUS_HOLDOVER.key := by decide
    exact this f hf
  · have : ∀ f ∈ causeFields, eventKey 2 f.key = false := by decide
    exact this f hf

/-- An edge of holdover: the bit reads what it was set to. -/
theorem on_holdover_edge (d : Dev) (v b : Nat) (hb : b < 32) :
    ((d.set R.TB_STATUS_HOLDOVER v).latch 2 b).on R.TB_STATUS_HOLDOVER = (v % 2 != 0) := by
  rw [Dev.on, Dev.get_latch_ne _ _ _ hb _ (by decide), Dev.get_set_same]
  rfl

/-- HOLDOVER reads 1 exactly while a cause holds. -/
theorem on_holdover_holdoverUpdate (d : Dev) : (holdoverUpdate d).on R.TB_STATUS_HOLDOVER = holdoverCause d := by
  unfold holdoverUpdate
  split <;> split <;> simp_all [on_holdover_edge]

theorem on_holdover_eq_cause (d : Dev) : (holdoverUpdate d).on R.TB_STATUS_HOLDOVER = holdoverCause (holdoverUpdate d) := by
  rw [on_holdover_holdoverUpdate, holdoverCause_holdoverUpdate]

/-- An event bit of the timebase's page that a step latches. -/
theorem evt2_latch (d : Dev) {b i : Nat} (hb : b < 32) (hi : i < 32) : (d.latch 2 b).evt 2 i = (decide (i = b) || d.evt 2 i) :=
  d.evt_latch 2 b i (by decide) hb hi (evtBitServed_of_not_port d 2 b (by decide))

/-- Holdover keeps what is latched. -/
theorem holdoverUpdate_evt {d : Dev} {i : Nat} (hi : i < 32) (h : d.evt 2 i = true) : (holdoverUpdate d).evt 2 i = true := by
  unfold holdoverUpdate
  split <;> split <;> simp [evt2_latch, hi, Dev.evt_set_ne d R.TB_STATUS_HOLDOVER _ 2 i (by decide), h]

/-- Holdover that begins latches event bit 2. -/
theorem holdoverUpdate_begins {d : Dev} (hc : holdoverCause d = true) (h : d.get R.TB_STATUS_HOLDOVER = 0) : (holdoverUpdate d).evt 2 2 = true := by
  simp [holdoverUpdate, hc, Dev.on, h, evt2_latch]

/-! ## Commands of the powered main domain, and of a page that responds -/

theorem State.inPower_of {s : State} (h : s.power ≠ .baseCampOnly) (f : Dev → Dev) : s.inPower f = .next (s.setDev (f s.d)) := by
  rw [State.inPower, if_neg h]

theorem State.page_of {s : State} {pg : Nat} (h : s.live pg = true) (f : Dev → Dev) : s.page pg f = .next (s.setDev (f s.d)) := by
  rw [State.page, if_pos h]

/-! ## The level of an alarm -/

theorem bitAt_sub_two_pow {v n : Nat} (h : bitAt v n = true) : bitAt (v - 2 ^ n) n = false := by
  simp only [bitAt, beq_iff_eq, beq_eq_false_iff_ne] at h ⊢
  have hpos : 0 < v / 2 ^ n := Nat.pos_of_ne_zero fun e => by simp [e] at h
  have hle : 2 ^ n * 1 ≤ v := by simpa using (Nat.div_pos_iff.1 hpos).2
  have hd : (v - 2 ^ n) / 2 ^ n = v / 2 ^ n - 1 := by simpa using Nat.sub_mul_div v (2 ^ n) 1
  rw [hd]
  generalize v / 2 ^ n = q at h hpos
  omega

theorem bitAt_or_two_pow (v n : Nat) : bitAt (v ||| 2 ^ n) n = true := by
  rw [bitAt_testBit, Nat.testBit_or, Nat.testBit_two_pow_self, Bool.or_true]

/-- The level of an alarm that is set or cleared reads so. -/
theorem bitAt_alarmLevel (d : Dev) {n : Nat} (hn : n < 64) (b : Bool) : bitAt ((d.alarmLevel n b).get L.AL_LEVEL) n = b := by
  have hcut (v : Nat) : bitAt (v % 2 ^ 64) n = bitAt v n := by
    rw [bitAt_testBit, bitAt_testBit, Nat.testBit_mod_two_pow, decide_eq_true hn, Bool.true_and]
  rw [Dev.alarmLevel, Dev.get_set_same, show L.AL_LEVEL.w = 64 from rfl, hcut]
  cases b with
  | true => exact bitAt_or_two_pow _ n
  | false =>
    cases h : bitAt (d.get L.AL_LEVEL) n with
    | true => simpa [h] using bitAt_sub_two_pow h
    | false => simp [h]

/-! ## The reference is lost and comes back (R74) -/

/-- An edge of the reference: alarm 33, the two status bits, its event, and then holdover. -/
def refEdge (d : Dev) (level : Bool) (lost lock b : Nat) : Dev :=
  ((d.alarmLevel 33 level).setAll [(R.TB_STATUS_REF_LOST, lost), (R.TB_STATUS_PLL_LOCKED, lock)]).latch 2 b

/-- What an edge of the reference moves. -/
def refFields : List Fld := [L.AL_LEVEL, R.TB_STATUS_REF_LOST, R.TB_STATUS_PLL_LOCKED, R.TB_STATUS_HOLDOVER]

theorem refEdge_onlyChanges (d : Dev) (level : Bool) (lost lock : Nat) {b : Nat} (hb : b < 32) :
    d.OnlyChanges (holdoverUpdate (refEdge d level lost lock b)) refFields [2] := by
  have edge : d.OnlyChanges (refEdge d level lost lock b) refFields [2] :=
    (((Dev.OnlyChanges.refl d _ _).set _ (by simp [refFields])).setAll _ (by simp [refFields])).latch 2 b (by simp) hb
  exact edge.trans ((holdoverUpdate_onlyChanges _).mono (by simp [refFields]) (by simp))

theorem refEdge_reads (d : Dev) (level : Bool) {lost lock b : Nat} (hl : lost < 2) (hb : b < 32) :
    (refEdge d level lost lock b).get R.TB_STATUS_REF_LOST = lost ∧ bitAt ((refEdge d level lost lock b).get L.AL_LEVEL) 33 = level ∧
      (refEdge d level lost lock b).evt 2 b = true ∧
      (refEdge d level lost lock b).get R.TB_STATUS_HOLDOVER = d.get R.TB_STATUS_HOLDOVER := by
  refine ⟨?_, ?_, ?_, ?_⟩
  · rw [refEdge, Dev.get_latch_ne _ _ _ hb _ (by decide), Dev.setAll_cons, Dev.get_setAll_ne _ _ _ (by simp; decide), Dev.get_set_same]
    exact Nat.mod_eq_of_lt hl
  · rw [refEdge, Dev.get_latch_ne _ _ _ hb _ (by decide), Dev.get_setAll_ne _ _ _ (by simp; decide), bitAt_alarmLevel _ (by decide)]
  · simp [refEdge, evt2_latch, hb]
  · rw [refEdge, Dev.get_latch_ne _ _ _ hb _ (by decide), Dev.get_setAll_ne _ _ _ (by simp; decide), Dev.alarmLevel,
      Dev.get_set_ne _ _ _ _ (by decide)]

/-- What holdover leaves of an edge of the reference. -/
theorem refEdge_holdover_reads (d : Dev) (level : Bool) {lost lock b : Nat} (hl : lost < 2) (hb : b < 32) :
    (holdoverUpdate (refEdge d level lost lock b)).get R.TB_STATUS_REF_LOST = lost ∧
      bitAt ((holdoverUpdate (refEdge d level lost lock b)).get L.AL_LEVEL) 33 = level ∧
      (holdoverUpdate (refEdge d level lost lock b)).evt 2 b = true := by
  obtain ⟨hlost, hlevel, hevt, -⟩ := refEdge_reads d level (lock := lock) hl hb
  rw [holdoverUpdate_get _ (by decide) (by decide), holdoverUpdate_get _ (by decide) (by decide)]
  exact ⟨hlost, hlevel, holdoverUpdate_evt hb hevt⟩

theorem refEdge_lost_cause (d : Dev) : holdoverCause (refEdge d true 1 0 4) = true := by
  obtain ⟨hlost, -, -, -⟩ := refEdge_reads d true (lost := 1) (lock := 0) (b := 4) (by decide) (by decide)
  simp [holdoverCause, Dev.on, hlost]

/-- A change of rate is counted, and nothing else moves. -/
theorem rateMoved_onlyChanges (d : Dev) (z : Int) : d.OnlyChanges (rateMoved d z) [L.RATE_MOVED] [] :=
  (Dev.OnlyChanges.refl d _ _).satAdd _ (by simp)

/-! ## The discipline source takes a new value (R73) -/

/-- The writes of a new discipline source, before holdover follows. -/
def disciplineTake (d : Dev) (rope : Bool) : Dev :=
  if rope then d.setAll [(R.TB_CTRL_DISCIPLINE_SRC, 1), (L.HO_FW, 0)]
  else
    if d.on R.TB_STATUS_HOLDOVER then (d.set R.TB_CTRL_DISCIPLINE_SRC 0).set L.HO_FW 1
    else (d.set R.TB_CTRL_DISCIPLINE_SRC 0).setAll [(L.HO_FW, 0), (L.HO_SINCE, d.cyc)]

theorem disciplineSrc_eq {d : Dev} {rope : Bool} (h : d.on R.TB_CTRL_DISCIPLINE_SRC ≠ rope) :
    disciplineSrc d rope = holdoverUpdate (disciplineTake d rope) := by
  rw [disciplineSrc, if_neg h, disciplineTake]
  cases rope <;> rfl

theorem disciplineTake_onlyChanges (d : Dev) (rope : Bool) :
    d.OnlyChanges (disciplineTake d rope) [R.TB_CTRL_DISCIPLINE_SRC, L.HO_FW, L.HO_SINCE, R.TB_STATUS_HOLDOVER] [2] := by
  have h0 := Dev.OnlyChanges.refl d [R.TB_CTRL_DISCIPLINE_SRC, L.HO_FW, L.HO_SINCE, R.TB_STATUS_HOLDOVER] [2]
  exact .ite (fun _ => h0.setAll _ (by simp)) fun _ =>
    .ite (fun _ => (h0.set _ (by simp)).set _ (by simp)) fun _ => (h0.set _ (by simp)).setAll _ (by simp)

theorem disciplineTake_src (d : Dev) (rope : Bool) : (disciplineTake d rope).get R.TB_CTRL_DISCIPLINE_SRC = b2n rope := by
  unfold disciplineTake
  split
  · next h =>
    rw [Dev.setAll_cons, Dev.get_setAll_ne _ _ _ (by simp; decide), Dev.get_set_same, h]
    rfl
  · next h =>
    rw [Bool.not_eq_true] at h
    split
    · rw [Dev.get_set_ne _ _ _ _ (by decide), Dev.get_set_same, h]
      rfl
    · rw [Dev.get_setAll_ne _ _ _ (by simp; decide), Dev.get_set_same, h]
      rfl

end Sys2Proof.Machine

open Sys2Proof Sys2Proof.Machine

/-- Settles O16: each row is a few writes of its own and then `holdoverUpdate`, which makes HOLDOVER follow its causes. -/
theorem timebaseReferenceRows : Obligations.TimebaseReferenceRows := by
  unfold Obligations.TimebaseReferenceRows
  intro s rope hp
  refine ⟨fun hrun => ?_, fun hlost => ?_, fun hlost => ?_, fun hl hsrc => ?_, fun hr hms hdue => ?_, fun hs hz => ?_⟩
  · refine ⟨_, (State.inPower_of hp _).trans (by rw [timebaseLock, if_neg (by simp [Dev.on, hrun])]),
      (Dev.OnlyChanges.refl _ _ _).setAll _ (by simp), ?_⟩
    simp (disch := decide) only [Dev.setAll_cons, Dev.setAll_nil, Dev.get_set_ne, Dev.get_set_same]
    decide
  · refine ⟨holdoverUpdate (refEdge s.d true 1 0 4), (State.inPower_of hp _).trans ?_, refEdge_onlyChanges _ _ _ _ (by decide), ?_⟩
    · rw [refLost, if_neg (by simp [Dev.on, hlost])]
      rfl
    · obtain ⟨h1, h2, h3⟩ := refEdge_holdover_reads s.d true (lost := 1) (lock := 0) (b := 4) (by decide) (by decide)
      refine ⟨h1, h2, h3, ?_, fun h0 => holdoverUpdate_begins (refEdge_lost_cause _) ?_⟩
      · rw [on_holdover_holdoverUpdate, refEdge_lost_cause]
      · rw [(refEdge_reads s.d true (by decide) (by decide)).2.2.2, h0]
  · refine ⟨holdoverUpdate (refEdge s.d false 0 (s.d.get L.TB_RUN) 5), (State.inPower_of hp _).trans ?_,
      refEdge_onlyChanges _ _ _ _ (by decide), ?_⟩
    · rw [refRestored, if_pos (by simp [Dev.on, hlost])]
      rfl
    · obtain ⟨h1, h2, h3⟩ := refEdge_holdover_reads s.d false (lost := 0) (lock := s.d.get L.TB_RUN) (b := 5) (by decide) (by decide)
      exact ⟨h1, h2, h3, on_holdover_eq_cause _⟩
  · refine ⟨holdoverUpdate (disciplineTake s.d rope), (State.page_of hl fun d => disciplineSrc d rope).trans (by rw [disciplineSrc_eq hsrc]),
      (disciplineTake_onlyChanges _ _).trans ((holdoverUpdate_onlyChanges _).mono (by simp) (by simp)), ?_, on_holdover_eq_cause _⟩
    rw [holdoverUpdate_get _ (by decide) (by decide), disciplineTake_src]
  · have hcause : holdoverCause (s.d.set L.HO_FW 1) = true := by
      have hrope : ropeDisciplined (s.d.set L.HO_FW 1) = false := by
        simpa (disch := decide) only [ropeDisciplined, Dev.on, Dev.get_set_ne] using hr
      have hfw : (s.d.set L.HO_FW 1).on L.HO_FW = true := by
        rw [Dev.on, Dev.get_set_same]
        rfl
      simp only [holdoverCause, hrope, hfw, Bool.not_false, Bool.and_true, Bool.or_true, Bool.true_or]
    refine ⟨holdoverUpdate (s.d.set L.HO_FW 1), (State.inPower_of hp _).trans ?_,
      ((Dev.OnlyChanges.refl _ _ _).set _ (by simp)).trans ((holdoverUpdate_onlyChanges _).mono (by simp) (by simp)), ?_, ?_⟩
    · rw [holdoverTimeout, if_pos (by simp [hr, hms, hdue])]
    · rw [holdoverUpdate_get _ (by decide) (by decide), Dev.get_set_same]
      rfl
    · rw [on_holdover_holdoverUpdate, hcause]
  · refine ⟨_, (State.inPower_of hp _).trans (by rw [slewDone, if_pos (by simp [Dev.on, hs, hz])]),
      (((rateMoved_onlyChanges _ _).mono (by simp) (by simp)).set _ (by simp)).latch 2 1 (by simp) (by decide), ?_, ?_⟩
    · rw [Dev.get_latch_ne _ _ _ (by decide) _ (by decide), Dev.get_set_same]
      rfl
    · simp [evt2_latch]
end

section
namespace Sys2Proof.Machine

/-! ## Accepted steering (R73) -/

/-- What accepted steering moves besides event bits. -/
def steerFields : List Fld := [L.HO_FW, L.HO_SINCE, R.TB_STATUS_HOLDOVER]

theorem steeringAccepted_onlyChanges (d : Dev) : d.OnlyChanges (steeringAccepted d) steerFields [2] :=
  ((Dev.OnlyChanges.refl d _ _).setAll _ (by simp [steerFields])).trans
    ((holdoverUpdate_onlyChanges _).mono (by simp [steerFields]) (by simp))

theorem steeringAccepted_get (d : Dev) {g : Fld} (h : ∀ f ∈ steerFields, g.key ≠ f.key) (he : eventKey 2 g.key = false) :
    (steeringAccepted d).get g = d.get g := (steeringAccepted_onlyChanges d).2 g h (by simpa using he)

theorem steeringAccepted_reads (d : Dev) : (steeringAccepted d).get L.HO_FW = 0 ∧ (steeringAccepted d).get L.HO_SINCE = d.cyc % 2 ^ 64 := by
  rw [steeringAccepted, holdoverUpdate_get _ (by decide) (by decide), holdoverUpdate_get _ (by decide) (by decide)]
  simp (disch := decide) only [Dev.setAll_cons, Dev.setAll_nil, Dev.get_set_ne, Dev.get_set_same]
  exact ⟨rfl, rfl⟩

/-- Accepted steering keeps what is latched. -/
theorem steeringAccepted_evt {d : Dev} {i : Nat} (hi : i < 32) (h : d.evt 2 i = true) : (steeringAccepted d).evt 2 i = true := by
  refine holdoverUpdate_evt hi ?_
  rw [Dev.evt, Dev.get_setAll_ne _ _ _ (by simp; decide)]
  exact h

/-! ## Rates (R69) -/

theorem toSigned_ofSigned40 {z : Int} (h : -2 ^ 39 ≤ z ∧ z < 2 ^ 39) : toSigned 40 (ofSigned 40 z) = z := by
  simp only [toSigned, ofSigned]
  norm_num
  split <;> omega

theorem toSigned_toNat40 (v : BitVec 40) : toSigned 40 v.toNat = v.toInt := by
  have := v.isLt
  rw [toSigned, BitVec.toInt_eq_toNat_cond, Nat.mod_eq_of_lt this]
  norm_num
  split <;> split <;> omega

/-- RATE_ADJ cut to its limit. -/
def rateClamp (z : Int) : Int := if z > rateLimit then rateLimit else if z < -rateLimit then -rateLimit else z

theorem rateClamp_eq (z : Int) : rateClamp z = max (-rateLimit) (min rateLimit z) := by
  unfold rateClamp rateLimit
  split
  · omega
  · split <;> omega

theorem rateClamp_ne (z : Int) : rateClamp z ≠ z ↔ ¬ (-rateLimit ≤ z ∧ z ≤ rateLimit) := by
  rw [rateClamp_eq]
  unfold rateLimit
  omega

/-- The writes of a committed rate, before steering is accepted. -/
def rateTake (d : Dev) (z : Int) : Dev :=
  (((rateMoved d (rateClamp z - toSigned 40 (d.get R.RATE_ADJ))).set R.RATE_ADJ (ofSigned 40 (rateClamp z))).setB R.TB_STATUS_RATE_CLAMPED
    (decide (rateClamp z ≠ z))).latchIf (decide (rateClamp z ≠ z)) 2 8

theorem rateApply_eq (d : Dev) (v : Nat) : rateApply d v = steeringAccepted (rateTake d (toSigned 40 v)) := rfl

theorem rateTake_onlyChanges (d : Dev) (z : Int) :
    d.OnlyChanges (rateTake d z) [R.RATE_ADJ, R.TB_STATUS_RATE_CLAMPED, L.RATE_MOVED] [2] :=
  ((((rateMoved_onlyChanges _ _).mono (by simp) (by simp)).set _ (by simp)).setB _ (by simp)).latchIf _ 2 8 (by simp) (by decide)

theorem rateTake_reads (d : Dev) (z : Int) : toSigned 40 ((rateTake d z).get R.RATE_ADJ) = rateClamp z ∧
    (rateTake d z).get R.TB_STATUS_RATE_CLAMPED = b2n (decide (rateClamp z ≠ z)) ∧
    (rateClamp z ≠ z → (rateTake d z).evt 2 8 = true) := by
  have hclamp : -2 ^ 39 ≤ rateClamp z ∧ rateClamp z < 2 ^ 39 := by
    rw [rateClamp_eq]
    unfold rateLimit
    omega
  refine ⟨?_, ?_, fun h => ?_⟩
  · rw [rateTake, Dev.get_latchIf_ne _ _ _ _ (by decide) _ (by decide), Dev.setB, Dev.get_set_ne _ _ _ _ (by decide), Dev.get_set_same]
    rw [show ofSigned 40 (rateClamp z) % 2 ^ R.RATE_ADJ.w = ofSigned 40 (rateClamp z) from Nat.mod_eq_of_lt ?_, toSigned_ofSigned40 hclamp]
    simp only [ofSigned, R.RATE_ADJ, regFld]
    omega
  · rw [rateTake, Dev.get_latchIf_ne _ _ _ _ (by decide) _ (by decide), Dev.setB, Dev.get_set_same]
    cases decide (rateClamp z ≠ z) <;> rfl
  · rw [rateTake, decide_eq_true h, Dev.latchIf, if_pos rfl, evt2_latch _ (by decide) (by decide)]
    rfl

/-! ## Steps of device time (R70) -/

/-- A frame with whole groups in it, from one with listed fields and events. -/
theorem Dev.OnlyChanges.within {d e : Dev} {fs : List Fld} {evs : List Nat} {p : Nat → Bool} (h : d.OnlyChanges e fs evs)
    (hf : ∀ f ∈ fs, p f.key = true) (he : ∀ pg ∈ evs, ∀ k, eventKey pg k = true → p k = true) : d.KeepsBut e p := by
  refine ⟨h.1, fun g hg => h.2 g (fun f m c => ?_) fun pg m => ?_⟩
  · rw [c, hf f m] at hg
    cases hg
  · by_contra c
    rw [he pg m _ (by simpa using c)] at hg
    cases hg

theorem Dev.KeepsBut.trans {d e f : Dev} {p : Nat → Bool} (h : d.KeepsBut e p) (k : e.KeepsBut f p) : d.KeepsBut f p := by
  refine ⟨?_, fun g hg => (k.2 g hg).trans (h.2 g hg)⟩
  rw [k.1, h.1]

/-- What a step of device time moves of its own registers. -/
def stepFields : List Fld := [L.ADJ_FINE, R.ADJ_REMAIN, R.TB_STATUS_SLEWING, R.TB_STATUS_TIME_SET, R.STEP_COUNT]

/-- What a step of device time writes of its own registers. -/
def stepBefore (d : Dev) : Dev :=
  (((setSlew d 0).setAll [(R.TB_STATUS_SLEWING, 0), (R.TB_STATUS_TIME_SET, 1)]).count 2 R.STEP_COUNT).latch 2 0

theorem stepBefore_onlyChanges (d : Dev) : d.OnlyChanges (stepBefore d) stepFields [2] :=
  ((((Dev.OnlyChanges.refl d _ _).setAll _ (by simp [stepFields])).setAll _ (by simp [stepFields])).count 2 1
    (by simp [stepFields])).latch 2 0 (by simp) (by decide)

/-- What a step has left in its registers. -/
def Stepped (d e : Dev) : Prop :=
  e.get R.TB_STATUS_TIME_SET = 1 ∧ e.get R.TB_STATUS_SLEWING = 0 ∧ e.get R.ADJ_REMAIN = 0 ∧ e.get L.ADJ_FINE = 0 ∧ e.evt 2 0 = true ∧
    (d.get (L.PAGE_FREEZE 2) = 0 → e.get R.STEP_COUNT = min (d.get R.STEP_COUNT + 1) (2 ^ 32 - 1))

theorem stepBefore_stepped (d : Dev) : Stepped d (stepBefore d) := by
  have hget (g : Fld) (he : eventKey 2 g.key = false) : (stepBefore d).get g =
      (((setSlew d 0).setAll [(R.TB_STATUS_SLEWING, 0), (R.TB_STATUS_TIME_SET, 1)]).count 2 R.STEP_COUNT).get g :=
    Dev.get_latch_ne _ _ _ (by decide) _ he
  refine ⟨?_, ?_, ?_, ?_, by simp [stepBefore, evt2_latch], fun hf => ?_⟩
  case refine_5 =>
    rw [hget _ (by decide), Dev.get_count_same]
    simp (disch := decide) only [setSlew, Dev.on, Dev.setAll_cons, Dev.setAll_nil, Dev.get_set_ne, hf]
    rfl
  all_goals
    rw [hget _ (by decide), Dev.get_count_ne _ _ _ _ _ (by decide)]
    simp (disch := decide) only [setSlew, Dev.setAll_cons, Dev.setAll_nil, Dev.get_set_ne, Dev.get_set_same]
    decide

/-- What a step has left stays, where its fields and event stay. -/
theorem Stepped.of_get {d e e' : Dev} (h : Stepped d e) (hf : ∀ f ∈ stepFields, e'.get f = e.get f) (he : e'.evt 2 0 = true) : Stepped d e' := by
  obtain ⟨hset, hslew, hremain, hfine, -, hcount⟩ := h
  simp only [stepFields, List.forall_mem_cons] at hf
  obtain ⟨f1, f2, f3, f4, f5, -⟩ := hf
  exact ⟨f4.trans hset, f3.trans hslew, f2.trans hremain, f1.trans hfine, he, fun h0 => f5.trans (hcount h0)⟩

/-- Device time reads `t1`, before the occurrences that a forward step passes over. -/
def stepTo (d : Dev) (t1 : Nat) : Dev :=
  (({ d with time := t1, nextTick := tickCeil t1 } : Dev).satAdd L.STEP_SERIAL 1).clearGroup (L.CBS_HOLD 0)

/-- Clearing a group leaves the fields outside it. -/
theorem get_clearGroup_ne (d : Dev) {f g : Fld} (h : groupKey f g.key = false) : (d.clearGroup f).get g = d.get g := by
  rw [Dev.clearGroup, Dev.get_clearRange, if_neg]
  intro ⟨hlo, hhi⟩
  rw [← Bool.not_eq_true] at h
  apply h
  simp only [groupKey, Bool.and_eq_true, decide_eq_true_eq, beq_iff_eq]
  generalize (f.key - latBase) / 2 ^ 32 = q at hlo hhi ⊢
  omega

theorem stepTo_get (d : Dev) (t1 : Nat) {g : Fld} (h : g.key ≠ L.STEP_SERIAL.key) (hg : groupKey (L.CBS_HOLD 0) g.key = false) :
    (stepTo d t1).get g = d.get g := by
  rw [stepTo, get_clearGroup_ne _ hg, Dev.satAdd, Dev.get_set_ne _ _ _ _ h]
  exact Dev.get_of_cells rfl g

theorem stepTo_keepsBut {d e : Dev} {p : Nat → Bool} (h : d.KeepsBut e p) (t1 : Nat) (hp : p L.STEP_SERIAL.key = true)
    (hg : ∀ k, groupKey (L.CBS_HOLD 0) k = true → p k = true) :
    ({ d with time := t1, nextTick := tickCeil t1 } : Dev).KeepsBut (stepTo e t1) p := by
  constructor
  · have := h.1
    rw [this]
    rfl
  · intro g hk
    have hne : g.key ≠ L.STEP_SERIAL.key := fun c => by rw [c, hp] at hk; cases hk
    have hout : groupKey (L.CBS_HOLD 0) g.key = false := by
      by_contra c
      rw [hg _ (by simpa using c)] at hk
      cases hk
    rw [stepTo_get _ _ hne hout, h.get hk]
    exact (Dev.get_of_cells rfl g).symm

/-- A step that passes no armed occurrence over moves the time alone. -/
theorem stepTime_of_quiet {d : Dev} {t1 : Nat} (h : d.get (L.PAGE_ENABLE 3) = 0 ∨ t1 ≤ d.time) : stepTime d t1 = stepTo d t1 := by
  have hon : (stepTo d t1).get (L.PAGE_ENABLE 3) = d.get (L.PAGE_ENABLE 3) := stepTo_get _ _ (by decide) (by decide)
  have hq : ((stepTo d t1).on (L.PAGE_ENABLE 3) && decide (d.time < t1)) = false := by
    rw [Dev.on, hon]
    rcases h with h | h
    · simp [h]
    · simp [h]
  exact if_neg (by rw [Bool.not_eq_true]; exact hq)

theorem timeStepBy_eq (d : Dev) (off : Int) : timeStepBy d off = stepTime (stepBefore d) ((d.time : Int) + off).toNat := rfl

/-- A step that passes no armed occurrence over: what its registers read, and its frame. -/
theorem timeStepBy_of_quiet {d : Dev} {off : Int} (h : d.get (L.PAGE_ENABLE 3) = 0 ∨ off ≤ 0) :
    timeStepBy d off = stepTo (stepBefore d) ((d.time : Int) + off).toNat := by
  rw [timeStepBy_eq, stepTime_of_quiet]
  rw [(stepBefore_onlyChanges d).2 _ (by decide) (by decide), (stepBefore_onlyChanges d).1]
  rcases h with h | h
  · exact .inl h
  · right
    show ((d.time : Int) + off).toNat ≤ d.time
    omega

theorem stepTo_stepped {d e : Dev} (h : Stepped d e) (t1 : Nat) : Stepped d (stepTo e t1) := by
  refine h.of_get (fun f hf => stepTo_get _ _ ?_ ?_) ?_
  · have : ∀ f ∈ stepFields, f.key ≠ L.STEP_SERIAL.key := by decide
    exact this f hf
  · have : ∀ f ∈ stepFields, groupKey (L.CBS_HOLD 0) f.key = false := by decide
    exact this f hf
  · obtain ⟨-, -, -, -, hevt, -⟩ := h
    rw [Dev.evt, stepTo_get _ _ (by decide) (by decide)]
    exact hevt

/-! ## Slews (R71) -/

/-- A slew that is loaded or ended: the remainder `z`, the state `v`, and the rate's move before it. -/
def slewTake (d : Dev) (z : Int) (v : Nat) : Dev :=
  (setSlew (rateMoved d (slewMove d)) z).setAll [(R.TB_STATUS_SLEWING, v), (R.TB_STATUS_ADJ_REFUSED, 0)]

/-- What loading, starting or ending a slew moves. -/
def slewFields : List Fld :=
  [L.ADJ_FINE, R.ADJ_REMAIN, R.TB_STATUS_SLEWING, R.TB_STATUS_ADJ_REFUSED, L.RATE_MOVED, L.HO_FW, L.HO_SINCE, R.TB_STATUS_HOLDOVER]

theorem slewTake_onlyChanges (d : Dev) (z : Int) (v : Nat) : d.OnlyChanges (steeringAccepted (slewTake d z v)) slewFields [2] :=
  (((((rateMoved_onlyChanges _ _).mono (by simp [slewFields]) (by simp)).setAll _ (by simp [slewFields])).setAll _
    (by simp [slewFields]))).trans ((steeringAccepted_onlyChanges _).mono (by simp [slewFields, steerFields]) (by simp))

theorem slewTake_reads (d : Dev) (z : Int) (v : Nat) : (steeringAccepted (slewTake d z v)).get R.TB_STATUS_SLEWING = v % 2 ∧
    (steeringAccepted (slewTake d z v)).get L.ADJ_FINE = ofSigned 128 z ∧
    (steeringAccepted (slewTake d z v)).get R.ADJ_REMAIN = ofSigned 64 (z / (fineNs : Int)) % 2 ^ 64 ∧
    (steeringAccepted (slewTake d z v)).get R.TB_STATUS_ADJ_REFUSED = 0 := by
  have hfine : ofSigned 128 z % 2 ^ L.ADJ_FINE.w = ofSigned 128 z := Nat.mod_eq_of_lt (by
    simp only [ofSigned, L.ADJ_FINE, latFld]
    omega)
  refine ⟨?_, ?_, ?_, ?_⟩
  all_goals
    rw [steeringAccepted_get _ (by decide) (by decide)]
    simp (disch := decide) only [slewTake, setSlew, Dev.setAll_cons, Dev.setAll_nil, Dev.get_set_ne, Dev.get_set_same]
  · rfl
  · exact hfine
  · rfl
  · rfl

theorem adjApply_slew {d : Dev} {off : Int} (h : d.get R.SLEW_RATE ≠ 0) :
    adjApply d 2 off = rateMoved (steeringAccepted (slewTake d off 1)) (slewMove (steeringAccepted (slewTake d off 1))) := by
  rw [adjApply, if_neg (by decide), if_pos rfl, if_neg h]
  rfl

theorem adjApply_abort (d : Dev) (off : Int) : adjApply d 3 off = steeringAccepted (slewTake d 0 0) := rfl

/-! ## Steering under rope discipline (R72) -/

theorem disciplineRefused_onlyChanges (d : Dev) : d.OnlyChanges (disciplineRefused d) [R.DISCIPLINE_REFUSED] [2] :=
  ((Dev.OnlyChanges.refl d _ _).count 2 1 (by simp)).latch 2 9 (by simp) (by decide)

theorem disciplineRefused_reads (d : Dev) : (disciplineRefused d).evt 2 9 = true ∧
    (d.get (L.PAGE_FREEZE 2) = 0 → (disciplineRefused d).get R.DISCIPLINE_REFUSED = min (d.get R.DISCIPLINE_REFUSED + 1) (2 ^ 32 - 1)) := by
  refine ⟨by simp [disciplineRefused, evt2_latch], fun h => ?_⟩
  rw [disciplineRefused, Dev.get_latch_ne _ _ _ (by decide) _ (by decide), Dev.get_count_same, if_neg (by simp [Dev.on, h])]
  rfl

/-- The four steering writes are ignored, counted and flagged. -/
theorem steering_refused {s : State} {c : Instr} (hl : s.live 2 = true) (h : ropeDisciplined s.d = true) {rate : BitVec 40}
    (hc : c ∈ [Instr.rateAdjCommit rate, .adjStep, .adjSlew, .adjAbort]) : exec c s = .next (s.setDev (disciplineRefused s.d)) := by
  have hrate : rateCommit s.d rate.toNat = disciplineRefused s.d := if_pos h
  have hadj (mode : Nat) (hm : mode ≠ 0) : adjCmd s.d mode = disciplineRefused s.d := by rw [adjCmd, if_neg hm, if_pos h]
  simp only [List.mem_cons, List.not_mem_nil, or_false] at hc
  rcases hc with rfl | rfl | rfl | rfl
  · exact (State.page_of hl fun d => rateCommit d rate.toNat).trans (by rw [hrate])
  · exact (State.page_of hl fun d => adjCmd d 1).trans (by rw [hadj 1 (by decide)])
  · exact (State.page_of hl fun d => adjCmd d 2).trans (by rw [hadj 2 (by decide)])
  · exact (State.page_of hl fun d => adjCmd d 3).trans (by rw [hadj 3 (by decide)])

/-- Without rope discipline the four wait for the next tick. -/
theorem adjCmd_posts {s : State} (h : ropeDisciplined s.d = false) {mode : Nat} (hm : mode ≠ 0) :
    adjCmd s.d mode = s.d.post (.adj mode (adjOffset s.d)) := by
  rw [adjCmd, if_neg hm, if_neg (by simp [h])]

theorem steering_posts {s : State} (hl : s.live 2 = true) (h : ropeDisciplined s.d = false) (rate : BitVec 40) :
    exec (.rateAdjCommit rate) s = .next (s.setDev (s.d.post (.rate rate.toNat))) ∧
      exec .adjStep s = .next (s.setDev (s.d.post (.adj 1 (adjOffset s.d)))) ∧
      exec .adjSlew s = .next (s.setDev (s.d.post (.adj 2 (adjOffset s.d)))) ∧
      exec .adjAbort s = .next (s.setDev (s.d.post (.adj 3 (adjOffset s.d)))) := by
  refine ⟨(State.page_of hl fun d => rateCommit d rate.toNat).trans ?_, (State.page_of hl fun d => adjCmd d 1).trans ?_,
    (State.page_of hl fun d => adjCmd d 2).trans ?_, (State.page_of hl fun d => adjCmd d 3).trans ?_⟩
  · rw [rateCommit, if_neg (by simp [h])]
  all_goals rw [adjCmd_posts h (by decide)]

/-! ## The waiting writes act -/

/-- A committed rate takes effect (R69). -/
theorem acts_rate (s : State) (rate : BitVec 40) :
    Acts (.rate rate.toNat) s s.d [R.RATE_ADJ, R.TB_STATUS_RATE_CLAMPED, L.RATE_MOVED, L.HO_FW, L.HO_SINCE, R.TB_STATUS_HOLDOVER] [2] fun e =>
      toSigned 40 (e.get R.RATE_ADJ) = max (-rateLimit) (min rateLimit rate.toInt) ∧
      (e.get R.TB_STATUS_RATE_CLAMPED = 1 ↔ ¬ (-rateLimit ≤ rate.toInt ∧ rate.toInt ≤ rateLimit)) ∧
      (e.get R.TB_STATUS_RATE_CLAMPED = 1 → e.evt 2 8 = true) ∧ e.get L.HO_FW = 0 ∧ e.get L.HO_SINCE = s.d.cyc % 2 ^ 64 := by
  obtain ⟨hrate, hclamped, hevt⟩ := rateTake_reads s.d rate.toInt
  obtain ⟨hfw, hsince⟩ := steeringAccepted_reads (rateTake s.d rate.toInt)
  have hone : b2n (decide (rateClamp rate.toInt ≠ rate.toInt)) = 1 ↔ rateClamp rate.toInt ≠ rate.toInt := by
    by_cases h : rateClamp rate.toInt = rate.toInt <;> simp [b2n, h]
  refine ⟨steeringAccepted (rateTake s.d rate.toInt), ?_, ?_, ?_, ?_, fun h => ?_, hfw, ?_⟩
  · rw [postedAct, rateApply_eq, toSigned_toNat40]
  · exact ((rateTake_onlyChanges _ _).mono (by simp) (by simp)).trans ((steeringAccepted_onlyChanges _).mono (by simp [steerFields]) (by simp))
  · rw [steeringAccepted_get _ (by decide) (by decide), hrate, rateClamp_eq]
  · rw [steeringAccepted_get _ (by decide) (by decide), hclamped, hone, rateClamp_ne]
  · rw [steeringAccepted_get _ (by decide) (by decide), hclamped, hone] at h
    exact steeringAccepted_evt (by decide) (hevt h)
  · rw [hsince, (rateTake_onlyChanges _ _).1]

/-- What a step of device time moves, with the acceptance of steering behind it. -/
def stepFrame (k : Nat) : Bool :=
  keyOf [L.ADJ_FINE, R.ADJ_REMAIN, R.TB_STATUS_SLEWING, R.TB_STATUS_TIME_SET, R.TB_STATUS_ADJ_REFUSED, R.STEP_COUNT, L.STEP_SERIAL, L.HO_FW,
    L.HO_SINCE, R.TB_STATUS_HOLDOVER] k || eventKey 2 k || groupKey (L.CBS_HOLD 0) k

theorem stepFrame_events (pg : Nat) (h : pg ∈ [2]) (k : Nat) (hk : eventKey pg k = true) : stepFrame k = true := by
  obtain rfl : pg = 2 := by simpa using h
  simp [stepFrame, hk]

/-- ADJ_STEP in range, with the waypoint engine off (R70). -/
theorem actsSo_step {s : State} {off : Int} (hr : stepInRange s.d off = true) (hoff : s.d.get (L.PAGE_ENABLE 3) = 0) :
    ActsSo (.adj 1 off) s fun e =>
      ({ s.d with time := ((s.d.time : Int) + off).toNat, nextTick := tickCeil ((s.d.time : Int) + off).toNat } : Dev).KeepsBut e stepFrame ∧
        Stepped s.d e := by
  have hengine : (s.d.set R.TB_STATUS_ADJ_REFUSED 0).get (L.PAGE_ENABLE 3) = 0 := by rw [Dev.get_set_ne _ _ _ _ (by decide), hoff]
  have hbefore : s.d.KeepsBut (stepBefore (s.d.set R.TB_STATUS_ADJ_REFUSED 0)) stepFrame := by
    refine Dev.KeepsBut.trans (e := s.d.set R.TB_STATUS_ADJ_REFUSED 0) ?_ ?_
    · refine ((Dev.OnlyChanges.refl s.d [R.TB_STATUS_ADJ_REFUSED] []).set 0 (by simp)).within ?_ (by simp)
      exact fun f hf => by rw [List.mem_singleton.1 hf]; decide
    · exact (stepBefore_onlyChanges _).within (by decide) stepFrame_events
  have hstep := stepTo_keepsBut hbefore ((s.d.time : Int) + off).toNat (by decide) fun k hk => by simp [stepFrame, hk]
  have hread : Stepped s.d (stepTo (stepBefore (s.d.set R.TB_STATUS_ADJ_REFUSED 0)) ((s.d.time : Int) + off).toNat) := by
    refine stepTo_stepped ?_ _
    obtain ⟨hset, hslew, hremain, hfine, hevt, hcount⟩ := stepBefore_stepped (s.d.set R.TB_STATUS_ADJ_REFUSED 0)
    rw [Dev.get_set_ne _ _ _ _ (by decide), Dev.get_set_ne _ _ _ _ (by decide)] at hcount
    exact ⟨hset, hslew, hremain, hfine, hevt, hcount⟩
  refine ⟨steeringAccepted (stepTo (stepBefore (s.d.set R.TB_STATUS_ADJ_REFUSED 0)) ((s.d.time : Int) + off).toNat), ?_, ?_, ?_⟩
  · rw [postedAct, adjApply, if_pos rfl, if_pos hr, timeStepBy_of_quiet (.inl hengine)]
    rfl
  · exact hstep.trans ((steeringAccepted_onlyChanges _).within (by decide) stepFrame_events)
  · refine hread.of_get (fun f hf => steeringAccepted_get _ ?_ ?_) ?_
    · have : ∀ f ∈ stepFields, ∀ g ∈ steerFields, f.key ≠ g.key := by decide
      exact this f hf
    · have : ∀ f ∈ stepFields, eventKey 2 f.key = false := by decide
      exact this f hf
    · obtain ⟨-, -, -, -, hevt, -⟩ := hread
      exact steeringAccepted_evt (by decide) hevt

/-- ADJ_CMD refused: ADJ_REFUSED alone. -/
theorem acts_refused {s : State} {mode : Nat} {off : Int} (h : adjApply s.d mode off = s.d.set R.TB_STATUS_ADJ_REFUSED 1) :
    Acts (.adj mode off) s s.d [R.TB_STATUS_ADJ_REFUSED] [] fun e => e.get R.TB_STATUS_ADJ_REFUSED = 1 := by
  refine ⟨s.d.set R.TB_STATUS_ADJ_REFUSED 1, by rw [postedAct, h], (Dev.OnlyChanges.refl _ _ _).set _ (by simp), ?_⟩
  show (s.d.set R.TB_STATUS_ADJ_REFUSED 1).get R.TB_STATUS_ADJ_REFUSED = 1
  rw [Dev.get_set_same]
  rfl

/-- ADJ_SLEW with a rate loads the remainder and starts slewing (R71). -/
theorem acts_slew {s : State} {off : Int} (h : s.d.get R.SLEW_RATE ≠ 0) :
    Acts (.adj 2 off) s s.d slewFields [2] fun e =>
      e.get R.TB_STATUS_SLEWING = 1 ∧ e.get L.ADJ_FINE = ofSigned 128 off ∧ e.get R.TB_STATUS_ADJ_REFUSED = 0 ∧ e.get L.HO_FW = 0 := by
  have hmoved (z : Int) (g : Fld) (hg : g.key ≠ L.RATE_MOVED.key) : (rateMoved (steeringAccepted (slewTake s.d off 1)) z).get g =
      (steeringAccepted (slewTake s.d off 1)).get g := Dev.get_set_ne _ _ _ _ hg
  obtain ⟨hslew, hfine, -, hrefused⟩ := slewTake_reads s.d off 1
  refine ⟨_, by rw [postedAct, adjApply_slew h],
    (slewTake_onlyChanges _ _ _).trans ((rateMoved_onlyChanges _ _).mono (by simp [slewFields]) (by simp)), ?_, ?_, ?_, ?_⟩
  · rw [hmoved _ _ (by decide), hslew]
  · rw [hmoved _ _ (by decide), hfine]
  · rw [hmoved _ _ (by decide), hrefused]
  · rw [hmoved _ _ (by decide)]
    exact (steeringAccepted_reads _).1

end Sys2Proof.Machine

open Sys2Proof Sys2Proof.Machine

/-- Settles O17: every accepted write of the four is a few writes of its own (`rateTake`, `stepBefore` with `stepTo`, `slewTake`) and then
`steeringAccepted`; rope discipline refuses them all alike. -/
theorem steeringRows : Obligations.SteeringRows := by
  unfold Obligations.SteeringRows
  intro s rate off
  refine ⟨fun hl h => steering_posts hl h rate, ⟨acts_rate s rate, fun hr hoff => ?_, fun hr => acts_refused ?_, acts_slew,
    fun h => acts_refused ?_, ?_⟩, fun hl h c hc => ?_⟩
  · exact actsSo_step hr hoff
  · rw [adjApply, if_pos rfl, if_neg (by simp [hr])]
  · rw [adjApply, if_neg (by decide), if_pos rfl, if_pos h]
  · obtain ⟨hslew, hfine, hremain, -⟩ := slewTake_reads s.d 0 0
    exact ⟨_, by rw [postedAct, adjApply_abort], slewTake_onlyChanges _ _ _, hslew, hfine, hremain⟩
  · exact ⟨_, steering_refused hl h hc, disciplineRefused_onlyChanges _, disciplineRefused_reads _⟩
end

section
namespace Sys2Proof.Machine

/-! ## A grant of a requester that there is none of (R492, R494)

The arbiter knows 67 requesters, and the state's grants carry any number. A grant of a far greater number has its account where the model
keeps the event latch of a lane page. -/

/-- A requester whose account lies at the event latch of page 0x20. -/
def strayRequester : Nat := ((L.EVT_LATCH 0x20).key - (R.REQ_GRANTED 0).key) / 512

/-- Lane 128, ACTIVE and without a port, waits for the grant of an eye scan of which one unit is still to be issued to that requester. -/
def strayGrantState : State :=
  runningState.setDev (({ Dev.empty with issuing := [⟨strayRequester, .eyeScan 128 0 none, 0, 1⟩] } : Dev).setAll
    [(R.LANE_STATUS_STAGE 128, stActive), (R.SCAN_STATUS_WAIT_GRANT 128, 1)])

/-- The loss of lock ends the scan, and the cancelled grant takes the STAGE event with it. -/
theorem lockLoss_strayGrant_evt : (lockLoss strayGrantState.run strayGrantState.d 128).evt 0x20 0 = false := by decide +kernel

theorem State.lanes_of {s : State} (h : s.frozen = false) (f : Dev → Dev) : s.lanes f = .next (s.setDev (f s.d)) := by
  rw [State.lanes, if_neg (by simp [h])]

/-- What holds of the contents that a command leaves holds of those that it answers. -/
theorem Yields.of_exec {c : Instr} {s : State} {d : Dev} {post : Dev → Prop} (h : Yields c s post) (hd : exec c s = .next (s.setDev d)) :
    post d := by
  obtain ⟨e, he, hpost⟩ := h
  rw [hd] at he
  injection he with he
  rw [show d = e from congrArg State.d he]
  exact hpost

end Sys2Proof.Machine

open Sys2Proof Sys2Proof.Machine

/-- Refutes O26: a lane that leaves ACTIVE ends its scan, and cancelling the scan's grant takes the units not yet issued out of the account
of the grant's requester. Nothing bounds that requester by the 67 that there are, and the account of `strayRequester` lies at the event latch
of the lane's page, so the STAGE event that the loss of lock has just latched is gone afterwards. -/
theorem not_laneLossRows : ¬ Obligations.LaneLossRows := by
  unfold Obligations.LaneLossRows
  intro h
  have hlive : strayGrantState.frozen = false := by decide
  obtain ⟨hlock, -⟩ := h strayGrantState 128 0 0 hlive
  have hlost := (hlock (by decide) (by decide)).of_exec (State.lanes_of hlive fun d => lockLoss strayGrantState.run d 128)
  obtain ⟨-, -, hevt, -⟩ := hlost
  exact absurd (lockLoss_strayGrant_evt.symm.trans hevt) (by decide)
end

section
namespace Sys2Proof.Machine

/-! ## A receive SA beyond the table (R187, R189)

The model keeps the statistics of SecYs, SCs and SAs in tables of 2^20 entries each, one behind the other. A frame in progress carries its
receive SA as a number without a bound, so the counters of "SA" 3 * 2^20 are those of SecY 0. -/

/-- A receive SA whose counters of table 9 lie where table 12 begins. -/
def straySa : Nat := 3 * 2 ^ 20

/-- Sixty bytes with a SecTAG whose C bit is 0, and behind them the ICV that the zero key and PN 9 give. -/
def strayWire : List Byte :=
  List.replicate 12 1 ++ [0x88, 0xE5, 0, 0] ++ List.replicate 44 0 ++ beBytes 16 231460628784297285074908278339700520926

/-- Its FCS. -/
def strayRest : List Byte := [91, 114, 99, 65]

/-- A controlled frame in progress on port 0 with that receive SA. -/
def strayFrame : Frame :=
  { id := 1, fromRing := false, src := 0, pmac := false, stamp := 0, stamped := false, tsHold := false, tsUncal := false, wire := strayWire,
    plain := [], errored := false, tail := false, passed := false, failed := false, kind := .controlled, charges := [], secy := none, sc := 0,
    sa := some straySa, pn := 9, key := 0, salt := 0, ssci := 0, sci := 0, suite := 0, off := 0, load := 0, secStatus := 0, bypassClass := 0,
    rule := none, vid := 0, noLearn := false, meter := none, traps := [], cells := 0, cellNos := [], looped := false, status := 0 }

/-- The running part with that frame in progress. -/
def strayFrameState : State := runningState.setDev { Dev.empty with frames := [strayFrame] }

theorem lineFault_strayFrame : lineFault strayFrameState.d 0 (strayFrame.wire ++ strayRest) false = none := by decide +kernel

theorem rxVerify_strayFrame : rxVerify { strayFrame with wire := strayFrame.wire ++ strayRest } = true := by decide +kernel

/-- The tail counts the octets of the frame at SecY 0, and then the frame itself at its SA, which is the same counter. -/
theorem rxTail_strayFrame :
    (rxTail strayFrameState.run strayFrameState.d 0 false strayRest false ⟨0, false, 0⟩).get (secStat 9 straySa 0) = 41 := by decide +kernel
end Sys2Proof.Machine

open Sys2Proof Sys2Proof.Machine

/-- Refutes O31: the tail of a controlled frame first counts the octets that were checked at the frame's SecY, and then one frame at its
receive SA. Nothing bounds the SA number that the frame carries by the 2^16 that there are, and the counter of `straySa` is the octet counter
of SecY 0, so it moves by more than the one of the statement. -/
theorem not_frameRows : ¬ Obligations.FrameRows := by
  unfold Obligations.FrameRows
  intro h
  have hlive : strayFrameState.frozen = false := by decide
  obtain ⟨-, htails⟩ := h strayFrameState 0 false 0 [] strayRest false false strayFrame
  obtain ⟨-, htail⟩ := htails hlive
  obtain ⟨-, -, -, hcontrolled⟩ := htail (by decide +kernel) rfl rfl (by decide +kernel) (by decide +kernel)
  obtain ⟨hpass, -⟩ := hcontrolled rfl lineFault_strayFrame rfl (by decide +kernel)
  have htailed := (hpass rxVerify_strayFrame).of_exec
    (State.lanes_of hlive fun d => rxTail strayFrameState.run d 0 false strayRest false ⟨0, false, 0⟩)
  obtain ⟨-, -, -, hcount, -⟩ := htailed
  exact absurd (rxTail_strayFrame.symm.trans (hcount (by decide) (by decide))) (by decide)
end

section
namespace Sys2Proof.Machine

/-! ## Reading a register of the timebase's page (R34, R68) -/

theorem State.powered_of_live {s : State} {pg : Nat} (h : s.live pg = true) : s.power ≠ .baseCampOnly := by
  intro e
  simp [State.live, pageResponds, e] at h

/-- A read behind the header of page 0x02 is a read of its registers. -/
theorem busRead_page2 {s : State} (m : Nat) {off : Nat} (hl : s.live 2 = true) (h : 0x80 ≤ off) (h4 : off % 4 = 0) (ho : off < 65536) :
    busRead s m (2 * 65536 + off) = (s.setDev (regRead s m 2 off).1, (regRead s m 2 off).2) := by
  have hpg : (2 * 65536 + off) / 65536 = 2 := by omega
  have hoff : (2 * 65536 + off) % 65536 / 4 * 4 = off := by omega
  simp only [busRead, hpg, hoff]
  rw [if_neg (State.powered_of_live hl), if_neg (by decide), if_neg (by simp [hl]), if_neg (show ¬ (True ∧ off < 128) by omega),
    if_neg (by omega), if_neg (by simp [show hasSlots 2 = false from rfl]), if_neg (by simp [show bufferSize 2 = 0 from rfl])]

/-- The row of such a read: the answer leaves the part. -/
theorem readRow_page2 {s : State} (m : Master) {off : Nat} (hl : s.live 2 = true) (h : 0x80 ≤ off) (h4 : off % 4 = 0) (ho : off < 65536) :
    s.readRow m (2 * 65536 + off) = s.setDev ((regRead s m.num 2 off).1.emit (.read m (2 * 65536 + off) (regRead s m.num 2 off).2)) := by
  rw [State.readRow, if_neg (State.powered_of_live hl), busRead_page2 m.num hl h h4 ho]
  rfl

theorem regRead_time (s : State) (m : Nat) (g : Fin 3) : regRead s m 2 (timeGroupOff g) = timeRead s.d m g 0 := by
  have hword : timeWord (timeGroupOff g) = some (g.val, 0) := by
    match g with
    | 0 => rfl
    | 1 => rfl
    | 2 => rfl
  simp only [regRead, hword, Option.isSome_some, and_self, if_true]

/-- What a read of the fraction of a group latches for the master. -/
def timeLatched (d : Dev) (m g : Nat) : Dev :=
  d.setAll [(L.TLATCH_NS m g, (timeGroup d g).2.1), (L.TLATCH_SEC_LO m g, (timeGroup d g).2.2.1), (L.TLATCH_SEC_HI m g, (timeGroup d g).2.2.2),
    (L.TLATCH_LAST m, g + 1)]

theorem exec_timeLatchRead {s : State} (m : Master) (g : Fin 3) (hl : s.live 2 = true) : exec (.timeLatchRead m g) s =
    .next (s.setDev ((timeLatched s.d m.num g).emit (.read m (2 * 65536 + timeGroupOff g) (timeGroup s.d g).1))) := by
  have hoff : 0x80 ≤ timeGroupOff g ∧ timeGroupOff g % 4 = 0 ∧ timeGroupOff g < 65536 := by
    match g with
    | 0 => decide
    | 1 => decide
    | 2 => decide
  obtain ⟨h, h4, ho⟩ := hoff
  show Host.Outcome.next (s.readRow m (2 * 65536 + timeGroupOff g)) = _
  rw [readRow_page2 m hl h h4 ho, regRead_time]
  rfl

theorem timeLatched_onlyChanges (d : Dev) (m g : Nat) :
    d.OnlyChanges (timeLatched d m g) [L.TLATCH_NS m g, L.TLATCH_SEC_LO m g, L.TLATCH_SEC_HI m g, L.TLATCH_LAST m] [] :=
  (Dev.OnlyChanges.refl d _ _).setAll _ (by simp)

theorem timeLatched_reads (d : Dev) {m g : Nat} (hm : m < 3) (hg : g < 3) :
    (timeLatched d m g).get (L.TLATCH_NS m g) = (timeGroup d g).2.1 % 2 ^ 30 ∧
      (timeLatched d m g).get (L.TLATCH_SEC_LO m g) = (timeGroup d g).2.2.1 % 2 ^ 32 ∧
      (timeLatched d m g).get (L.TLATCH_SEC_HI m g) = (timeGroup d g).2.2.2 % 2 ^ 16 ∧ (timeLatched d m g).get (L.TLATCH_LAST m) = g + 1 := by
  have hlast : (g + 1) % 2 ^ (L.TLATCH_LAST m).w = g + 1 := Nat.mod_eq_of_lt (by simp only [L.TLATCH_LAST, latFld]; omega)
  simp (disch := simp only [L.TLATCH_NS, L.TLATCH_SEC_LO, L.TLATCH_SEC_HI, L.TLATCH_LAST, latFld]; omega) only
    [timeLatched, Dev.setAll_cons, Dev.setAll_nil, Dev.get_set_ne, Dev.get_set_same, hlast]
  exact ⟨rfl, rfl, rfl, trivial⟩

/-- An answer that leaves the part is none of the contents' fields. -/
theorem Dev.OnlyChanges.emit {d e : Dev} {fs : List Fld} {evs : List Nat} (h : d.OnlyChanges e fs evs) (x : Out) :
    (d.emit x).OnlyChanges (e.emit x) fs evs := by
  refine ⟨?_, fun g hf he => ?_⟩
  · rw [h.1]
    rfl
  · rw [Dev.get_of_cells (d := d) (e := d.emit x) rfl, Dev.get_of_cells (d := e) (e := e.emit x) rfl]
    exact h.2 g hf he

theorem masterNum_lt (m : Master) : m.num < 3 := by cases m <;> decide

/-- Both clauses of the latch: the answer, what is latched, and the frame. -/
theorem becomes_timeLatchRead {s : State} (m : Master) (g : Fin 3) (hl : s.live 2 = true) :
    Becomes (.timeLatchRead m g) s (s.d.emit (.read m (2 * 65536 + timeGroupOff g) (timeGroup s.d g).1))
      [L.TLATCH_NS m.num g, L.TLATCH_SEC_LO m.num g, L.TLATCH_SEC_HI m.num g, L.TLATCH_LAST m.num] [] fun e =>
        e.get (L.TLATCH_NS m.num g) = (timeGroup s.d g).2.1 % 2 ^ 30 ∧ e.get (L.TLATCH_SEC_LO m.num g) = (timeGroup s.d g).2.2.1 % 2 ^ 32 ∧
        e.get (L.TLATCH_SEC_HI m.num g) = (timeGroup s.d g).2.2.2 % 2 ^ 16 ∧ e.get (L.TLATCH_LAST m.num) = g + 1 := by
  refine ⟨_, exec_timeLatchRead m g hl, (timeLatched_onlyChanges _ _ _).emit _, ?_⟩
  simp only [Dev.get_emit]
  exact timeLatched_reads s.d (masterNum_lt m) g.isLt

/-! ## PPS inputs (R75) -/

/-- Device time `t` is captured from PPS input `n`. -/
def ppsCaptured (d : Dev) (n t : Nat) : Dev :=
  (d.setAll [((ppsFields n).1, fracOf t), ((ppsFields n).2.1, nsOf t), ((ppsFields n).2.2.1, secOf t % 2 ^ 32),
    ((ppsFields n).2.2.2, secOf t / 2 ^ 32), (L.PPS_LAST n, d.cyc + 1)]).latch 2 (6 + n)

theorem ppsCaptured_onlyChanges (d : Dev) {n : Nat} (t : Nat) (hn : n < 2) : d.OnlyChanges (ppsCaptured d n t)
    [(ppsFields n).1, (ppsFields n).2.1, (ppsFields n).2.2.1, (ppsFields n).2.2.2, L.PPS_LAST n] [2] :=
  ((Dev.OnlyChanges.refl d _ _).setAll _ (by simp)).latch 2 _ (by simp) (by omega)

theorem fracOf_lt (t : Nat) : fracOf t < 2 ^ 16 := by
  rw [fracOf, Nat.div_lt_iff_lt_mul (by decide)]
  exact Nat.mod_lt _ (by decide)

theorem ppsCaptured_reads (d : Dev) (n : Fin 2) (t : Nat) :
    (ppsCaptured d n t).get (ppsFields n).1 = fracOf t ∧ (ppsCaptured d n t).get (ppsFields n).2.1 = nsOf t ∧
      (ppsCaptured d n t).get (ppsFields n).2.2.1 = secOf t % 2 ^ 32 ∧
      (ppsCaptured d n t).get (ppsFields n).2.2.2 = secOf t / 2 ^ 32 % 2 ^ 16 ∧ (ppsCaptured d n t).evt 2 (6 + n) = true := by
  have hns (w : Nat) (h : w = 30) : nsOf t % 2 ^ w = nsOf t := Nat.mod_eq_of_lt (by rw [h]; exact nsOf_lt t)
  have hfrac (w : Nat) (h : w = 16) : fracOf t % 2 ^ w = fracOf t := Nat.mod_eq_of_lt (by rw [h]; exact fracOf_lt t)
  have hlo (w : Nat) (h : w = 32) : secOf t % 2 ^ 32 % 2 ^ w = secOf t % 2 ^ 32 := by rw [h, Nat.mod_mod]
  refine ⟨?_, ?_, ?_, ?hi, ?event⟩
  case event => simp [ppsCaptured, evt2_latch, show 6 + n.val < 32 by omega]
  case hi =>
    match n with
    | 0 | 1 =>
      rw [ppsCaptured, Dev.get_latch_ne _ _ _ (by decide) _ (by decide)]
      simp (disch := decide) only [Dev.setAll_cons, Dev.setAll_nil, Dev.get_set_ne, Dev.get_set_same]
      rfl
  all_goals
    match n with
    | 0 | 1 =>
      rw [ppsCaptured, Dev.get_latch_ne _ _ _ (by decide) _ (by decide)]
      simp (disch := decide) only [Dev.setAll_cons, Dev.setAll_nil, Dev.get_set_ne, Dev.get_set_same, hns, hfrac, hlo]

/-- An edge of an enabled, selected input is captured at device time less the input's delay. -/
theorem ppsInEdge_captures {d : Dev} {n : Nat} {rising : Bool} {width ago : Nat} {z : Int}
    (hz : z = (d.time : Int) - (ago * 2 ^ 32 : Nat) - toSigned 32 (d.get (R.PPS_IN_DELAY n)) * 2 ^ 32)
    (hen : bitAt (d.get R.TB_CTRL_PPS_IN_EN) n = true) (hsel : bitAt (d.get R.TB_CTRL_PPS_IN_FALL) n ≠ rising) (hwidth : 10 ≤ width)
    (hlast : d.get (L.PPS_LAST n) = 0 ∨ d.get (L.PPS_LAST n) + 1000 < d.cyc + 1) (hpos : 0 ≤ z) :
    ppsInEdge d n rising width ago = ppsCaptured d n z.toNat := by
  have hsoon : (d.on (L.PPS_LAST n) && decide (d.cyc + 1 ≤ d.get (L.PPS_LAST n) + 1000)) = false := by
    rcases hlast with h | h
    · simp [Dev.on, h]
    · simp [Nat.not_le.2 h]
  have hz' : (d.time : Int) - (ago * 2 ^ 32 : Nat) - toSigned 32 (d.get (R.PPS_IN_DELAY n)) * (2 ^ 32 : Nat) = z := by
    rw [hz]
    norm_num
  rw [ppsInEdge, hz', hsoon, if_pos (by simp [hen, hsel, hwidth])]
  simp only [if_pos hpos]
  rfl

/-! ## The time-of-day UART (R76) -/

theorem todOut_zero (d : Dev) : todOut d 0 = d := rfl

theorem todOut_todTx (d : Dev) (k : Nat) : (todOut d k).todTx = d.todTx.drop k := by
  unfold todOut
  split
  · next h => rw [h, List.drop_zero]
  · rfl

/-- The whole queue leaves. -/
theorem todOut_all {d : Dev} (h : d.todTx ≠ []) : todOut d d.todTx.length = ({ d with todTx := [] } : Dev).emit (.tod d.todTx) := by
  rw [todOut, if_neg (by simpa using h), List.drop_length, List.take_length]

theorem todPump_todTx {d : Dev} (h : d.get L.TOD_TX_BUSY = 1) : (todPump d).todTx = d.todTx.drop
    (min (d.get L.TOD_LEFT) ((d.cyc - d.get L.TOD_AT) * todBaud d / 10000000000 + 1 - d.get L.TOD_SENT)) := by
  rw [todPump, if_pos (by simp [Dev.on, h]), Dev.setAll_todTx, todOut_todTx]

/-- The burst has ended, with what was left of it sent: `d` becomes this. -/
def todEnded (d : Dev) : Dev := (d.setAll [(L.TOD_TX_BUSY, 0), (L.TOD_LEFT, 0)]).latchIf d.todTx.isEmpty 2 11

theorem todTxEmpty_eq {d : Dev} (h : d.get L.TOD_TX_BUSY = 1) : todTxEmpty d = todEnded (todOut d (d.get L.TOD_LEFT)) := by
  rw [todTxEmpty, if_pos (by simp [Dev.on, h])]
  rfl

theorem todEnded_onlyChanges (d : Dev) : d.OnlyChanges (todEnded d) [L.TOD_TX_BUSY, L.TOD_LEFT] [2] :=
  ((Dev.OnlyChanges.refl d _ _).setAll _ (by simp)).latchIf _ 2 11 (by simp) (by decide)

theorem todEnded_reads (d : Dev) : (todEnded d).get L.TOD_TX_BUSY = 0 ∧ (d.todTx = [] → (todEnded d).evt 2 11 = true) := by
  refine ⟨?_, fun h => ?_⟩
  · rw [todEnded, Dev.get_latchIf_ne _ _ _ _ (by decide) _ (by decide)]
    simp (disch := decide) only [Dev.setAll_cons, Dev.setAll_nil, Dev.get_set_ne, Dev.get_set_same]
    rfl
  · simp [todEnded, h, Dev.latchIf, evt2_latch]

/-- A byte is written while FREE_SEND is 0. -/
theorem todTxWrite_waits {d : Dev} (b : Byte) (h : d.get R.TOD_CTRL_FREE_SEND = 0) :
    todTxWrite d b = if d.todTx.length < 64 then { d with todTx := d.todTx ++ [b] } else d := by
  by_cases hl : d.todTx.length < 64
  · have h' : ({ d with todTx := d.todTx ++ [b] } : Dev).on R.TOD_CTRL_FREE_SEND = false := by
      show d.on R.TOD_CTRL_FREE_SEND = false
      rw [Dev.on, h]
      rfl
    simp [todTxWrite, hl, h']
  · simp [todTxWrite, hl, Dev.on, h]

/-- TOD_RX_DATA is read: the oldest byte leaves the queue. -/
theorem regRead_todRx (s : State) (m : Nat) : regRead s m 2 0x178 =
    ({ s.d.set (L.TLATCH_LAST m) 0 with todRx := s.d.todRx.drop 1 }, todRxWord s.d) := by
  have hword : timeWord 0x178 = none := rfl
  simp only [regRead, hword, Option.isSome_none, and_false, if_false, and_self, if_true, Bool.false_eq_true]
  rfl

theorem exec_todRxRead {s : State} (m : Master) (hl : s.live 2 = true) : exec (.todRxRead m) s =
    .next (s.setDev ((({ s.d with todRx := s.d.todRx.drop 1 } : Dev).emit (.read m 0x020178 (todRxWord s.d))).set (L.TLATCH_LAST m.num) 0)) := by
  show Host.Outcome.next (s.readRow m (2 * 65536 + 0x178)) = _
  rw [readRow_page2 m hl (by decide) (by decide) (by decide), regRead_todRx]
  rfl

end Sys2Proof.Machine

open Sys2Proof Sys2Proof.Machine

/-- Settles O18: the three latch groups are one read (`becomes_timeLatchRead`), and the UART's rows are its queue operations. -/
theorem timeReadPpsTodRows : Obligations.TimeReadPpsTodRows := by
  unfold Obligations.TimeReadPpsTodRows
  intro s m n rising width ago b rest hp
  refine ⟨fun hl => ?_, fun hl => ?_, fun hen hsel hwidth hlast hz => ?_, fun hwidth => ?_, fun hl hlen hfree => ?_, fun hl hlen hfree => ?_,
    fun hen hlen => ?_, fun hno => ?_, fun hl hrx => ?_, fun hbusy => ⟨todPump_todTx hbusy, fun hleft htx => ?_, fun hleft => ?_⟩⟩
  · obtain ⟨e, he, hframe, hns, hlo, hhi, hlast⟩ := becomes_timeLatchRead m 0 hl
    refine ⟨e, he, hframe, hns.trans (Nat.mod_eq_of_lt (nsOf_lt _)), hlo.trans (Nat.mod_mod _ _), hhi.trans (Nat.mod_mod _ _), hlast⟩
  · match n with
    | 0 =>
      obtain ⟨e, he, hframe, hns, -, -, hlast⟩ := becomes_timeLatchRead m 1 hl
      exact ⟨e, he, hframe, hns, hlast⟩
    | 1 =>
      obtain ⟨e, he, hframe, hns, -, -, hlast⟩ := becomes_timeLatchRead m 2 hl
      exact ⟨e, he, hframe, hns, hlast⟩
  · refine ⟨_, (State.inPower_of hp fun d => ppsInEdge d n rising width ago).trans (by rw [ppsInEdge_captures rfl hen hsel hwidth hlast hz]),
      ppsCaptured_onlyChanges _ _ n.isLt, ppsCaptured_reads _ _ _⟩
  · have h : ppsInEdge s.d n rising width ago = s.d := if_neg (by simp [Nat.not_le.2 hwidth])
    exact (State.inPower_of hp fun d => ppsInEdge d n rising width ago).trans (by rw [h, State.setDev_self])
  · refine (State.page_of hl fun d => todTxWrite d b).trans ?_
    rw [todTxWrite_waits b hfree, if_pos hlen]
  · refine (State.page_of hl fun d => todTxWrite d b).trans ?_
    rw [todTxWrite_waits b hfree, if_neg (by omega), State.setDev_self]
  · refine ⟨_, (State.inPower_of hp fun d => todRxByte d b).trans (by rw [todRxByte, if_pos (by simp [Dev.on, hen, hlen])]),
      (Dev.OnlyChanges.refl _ _ _).latch 2 10 (by simp) (by decide), by simp [evt2_latch]⟩
  · have h : todRxByte s.d b = s.d := if_neg (by
      rcases hno with h | h
      · simp [Dev.on, h]
      · simp [Nat.not_lt.2 h])
    exact (State.inPower_of hp fun d => todRxByte d b).trans (by rw [h, State.setDev_self])
  · refine ⟨_, exec_todRxRead m hl, ?_, trivial⟩
    rw [todRxWord, hrx]
    exact (Dev.OnlyChanges.refl _ _ _).set _ (by simp)
  · refine ⟨_, (State.inPower_of hp todTxEmpty).trans (by rw [todTxEmpty_eq hbusy, hleft, todOut_all htx]), todEnded_onlyChanges _, ?_⟩
    obtain ⟨h0, hevt⟩ := todEnded_reads (({ s.d with todTx := [] } : Dev).emit (.tod s.d.todTx))
    exact ⟨h0, hevt rfl⟩
  · exact ⟨_, (State.inPower_of hp todTxEmpty).trans (by rw [todTxEmpty_eq hbusy, hleft, todOut_zero]), todEnded_onlyChanges _, todEnded_reads _⟩
end

section
namespace Sys2Proof.Machine

/-! ## Nothing waits behind an entry (R83, R92) -/

/-- Without waiting writes none acts. -/
theorem flushDue_of_none {s : State} (h : s.d.posted = []) : s.flushDue = s := by
  have hact : s.actPosted (postedDue s.d) = s := by
    have hd : ({ s.d with posted := [] } : Dev) = s.d := by rw [← h]
    simp [State.actPosted, h, hd]
  rw [State.flushDue, hact, ite_self]

/-- Without children that wait for the entry none is erased. -/
theorem wpErase_of_noWaits {d : Dev} {n : Nat} (h : NoWaits d n) : wpErase d n = d := by
  have hslots : ((d.listedEntries 5 0 35).filter fun i =>
      d.on (R.SLOT_PARENT_LOST i) && d.get (R.SLOT_ON_PARENT_LOSS i) == 2 && d.get (R.SLOT_ERASE_AT_WP i) == n) = [] := by
    refine List.filter_eq_nil_iff.2 fun i _ hi => (h i).1 ?_
    simpa [and_assoc] using hi
  have hsas (rx : Bool) : ((d.listedEntries 0x70 (saTable rx) ((saParentLostF rx 0).key % 512)).filter fun i =>
      d.on (saParentLostF rx i) && d.get (saOnLossF rx i) == 2 && d.get (saEraseAtF rx i) == n) = [] := by
    refine List.filter_eq_nil_iff.2 fun i _ hi => (h i).2 rx ?_
    simpa [and_assoc] using hi
  rw [wpErase, hslots]
  simp only [List.foldl_nil, hsas]

/-! ## An enable that reads neither 0 nor 1 (R76)

The contents of a state hold any number for a field. The model takes TOD_CTRL.ENABLE as set when it is not 0, and the statement when it is
1, so the two part where it reads 2. -/

/-- The running engine has TOD_SEND due in entry 0, a byte waits, and TOD_CTRL.ENABLE reads 2. -/
def wideEnableState : State :=
  runningState.setDev (({ Dev.empty with cells := [(R.TOD_CTRL_ENABLE.key, 2)], todTx := [0] } : Dev).setAll
    [(L.PAGE_ENABLE 3, 1), (R.WP_STATE 0, wpArmed), (R.WP_ACTION 0, wpTodSend)])

/-- The byte is sent: a transmission is in progress behind the command. -/
theorem todSend_wideEnable : ∃ t, exec (.wpTodSend 0) wideEnableState = .next t ∧ t.d.get L.TOD_TX_BUSY = 1 :=
  ⟨_, rfl, by decide +kernel⟩

/-- The mark of a lost parent, of a key slot or of an SA, wherever its table places it. -/
def parentKey (k : Nat) : Prop := 2 ^ 44 ≤ k ∧ (k % 512 = 35 ∨ k % 512 = 7)

theorem parentKey_slot (i : Nat) : parentKey (R.SLOT_PARENT_LOST i).key := by
  simp only [parentKey, R.SLOT_PARENT_LOST, tblFld, tblBase]
  omega

theorem parentKey_sa (rx : Bool) (i : Nat) : parentKey (saParentLostF rx i).key := by
  cases rx
  · simp only [parentKey, saParentLostF, Bool.false_eq_true, if_false, R.TXSA_PARENT_LOST, tblFld, tblBase]
    omega
  · simp only [parentKey, saParentLostF, if_true, R.RXSA_PARENT_LOST, tblFld, tblBase]
    omega

/-- An execution of entry 0 moves no such mark. -/
theorem wpFields_zero_apart {k : Nat} (h : parentKey k) : (∀ f ∈ wpFields 0, k ≠ f.key) ∧ eventKey 3 k = false := by
  obtain ⟨hk, hplace⟩ := h
  constructor
  · simp only [wpFields, List.forall_mem_cons, R.WP_EXEC_COUNT, R.WP_LAST_EXEC_SEC, R.WP_LAST_EXEC_NS, R.WP_STATE, R.WP_TIME_SEC_LO,
      R.WP_TIME_SEC_HI, R.WP_TIME_NS, R.WP_TIME_FRAC, L.WP_DUE, L.WP_CARRY, tblFld, latFld, tblBase, latBase, List.not_mem_nil, false_imp_iff,
      implies_true, and_true]
    omega
  · rw [Bool.eq_false_iff]
    intro hev
    rcases eventKey_place hev with h | h | ⟨g, -, h⟩ | h <;> omega

/-- None is set in the state. -/
theorem wideEnable_parent {g : Fld} (h : parentKey g.key) (hr : g.reset = 0) : wideEnableState.d.get g = 0 := by
  obtain ⟨hk, hplace⟩ := h
  have hne : ∀ f ∈ [R.TOD_CTRL_ENABLE, L.PAGE_ENABLE 3, R.WP_STATE 0, R.WP_ACTION 0], g.key ≠ f.key := by
    simp only [List.forall_mem_cons, R.TOD_CTRL_ENABLE, L.PAGE_ENABLE, R.WP_STATE, R.WP_ACTION, tblFld, latFld, regFld, tblBase, latBase,
      List.not_mem_nil, false_imp_iff, implies_true, and_true]
    omega
  simp only [List.forall_mem_cons] at hne
  obtain ⟨h1, h2, h3, h4, -⟩ := hne
  rw [wideEnableState, State.setDev_d, Dev.get_setAll_ne _ _ _ (by simp [h2, h3, h4]), Dev.get, hr]
  simp [Cells.find, Ne.symm h1]

/-- So no child waits for entry 0 behind its execution. -/
theorem wideEnable_noWaits {e : Dev} (h : wideEnableState.d.OnlyChanges e (wpFields 0) [3]) : NoWaits e 0 := by
  have hmark (g : Fld) (hg : parentKey g.key) (hr : g.reset = 0) : e.on g = false := by
    obtain ⟨hf, hev⟩ := wpFields_zero_apart hg
    rw [Dev.on, h.2 g hf (by simpa using hev), wideEnable_parent hg hr]
    rfl
  refine fun i => ⟨fun hc => ?_, fun rx hc => ?_⟩
  · rw [hmark _ (parentKey_slot i) rfl] at hc
    exact absurd hc.1 (by decide)
  · rw [hmark _ (parentKey_sa rx i) (by cases rx <;> rfl)] at hc
    exact absurd hc.1 (by decide)

/-- The execution does not keep the frame of one that sends nothing. -/
theorem not_wpActs_wideEnable (post : Dev → Prop) : ¬ WpActs (.wpTodSend 0) wideEnableState 0 wideEnableState.d (wpFields 0) [3] post := by
  rintro ⟨e, he, hframe, -⟩
  obtain ⟨t, ht, hbusy⟩ := todSend_wideEnable
  have hposted : e.posted = [] := by
    rw [hframe.1]
    rfl
  rw [ht, wpErase_of_noWaits (wideEnable_noWaits hframe), flushDue_of_none hposted] at he
  injection he with he
  have hkept : e.get L.TOD_TX_BUSY = wideEnableState.d.get L.TOD_TX_BUSY := hframe.2 _ (by decide) (by decide)
  rw [he, State.setDev_d, hkept] at hbusy
  exact absurd hbusy (by decide +kernel)

theorem wideEnable_ready : wpReady wideEnableState.d 0 wpTodSend = true := by decide +kernel

end Sys2Proof.Machine

open Sys2Proof Sys2Proof.Machine

/-- Refutes O19: TOD_SEND starts a transmission wherever TOD_CTRL.ENABLE is not 0, and the statement lets it start one only where the field
reads 1. In a state whose contents hold 2 there, the entry's execution sets TOD_TX_BUSY, which the frame of the last clause on TOD_SEND
keeps. -/
theorem not_waypointTimeRows : ¬ Obligations.WaypointTimeRows := by
  unfold Obligations.WaypointTimeRows
  rintro ⟨-, -, hrows⟩
  obtain ⟨-, -, htod, -⟩ := hrows wideEnableState 0 0 (by decide)
  obtain ⟨-, hidle⟩ := htod wideEnable_ready
  exact not_wpActs_wideEnable _ (hidle fun hsends => absurd hsends.2.1 (by decide +kernel))
end

section
namespace Sys2Proof.Machine

/-! ## Numbers beyond a field's range as places of the store (R99 to R118, R143, R147)

Grants, frames and the contents of fields carry numbers without a bound, and the model reads some of them as indices. A number far enough
beyond its range names the place of another field, which a later write of the same command then moves. -/

/-- The profile whose settings lie among the results of lane 0's scan, the phase of point 321 at the mask of its eyes. -/
def strayProfile : Nat := ((R.SCANRES_PHASE 321).key - (R.SCANP_EYE_MASK 0).key) / 2 ^ 22 * 16

theorem strayProfile_key : (R.SCANP_EYE_MASK strayProfile).key = (R.SCANRES_PHASE 321).key := by decide

/-- Lane 0 scans 23 phases by 14 voltages under that profile and has 321 of the 322 points behind it. -/
def strayScanState : State :=
  runningState.setDev (({ Dev.empty with cells := [((R.SCAN_STATUS_PROFILE 0).key, strayProfile)] } : Dev).setAll
    [(R.SCAN_STATUS_STATE 0, scRunning), (L.LANE_SCAN_POINT 0, 321), (R.SCANP_PH_STOP strayProfile, 22), (R.SCANP_V_STOP strayProfile, 13)])

theorem scanCount_strayScan : scanCount strayScanState.d 0 strayProfile = 322 := by decide +kernel

/-- The result of the last point changes the eyes that are to be scanned, and the scan does not end. -/
theorem scanPoint_strayScan : (scanPoint strayScanState.d 0 30 0).get (R.SCAN_STATUS_STATE 0) = scRunning := by decide +kernel

/-! ### The record of a port's queue (R143, R517, R523) -/

/-- A record for the host that finds its ring neither full nor empty moves the ring's producer index on. -/
theorem telRecord_producer {d : Dev} {r : Nat} (ws : List Nat) (hon : telOn d = true) (hen : d.on (R.TRING_CFG_ENABLE r) = true)
    (herr : d.on (R.TRING_CFG_ERROR r) = false) (hown : d.on (R.TRING_CFG_OWNER r) = false) (hdma : hostDmaOff d = false)
    (hfull : (d.get (R.PRODUCER r) + 1) % tringSize d r ≠ d.get (R.CONSUMER r)) (hempty : d.get (R.PRODUCER r) ≠ d.get (R.CONSUMER r)) :
    (telRecord d r ws).get (R.PRODUCER r) = (d.get (R.PRODUCER r) + 1) % tringSize d r % 2 ^ 15 := by
  have hkeys : (R.PRODUCER r).key ≠ (R.TRING_RECORDS r).key := by
    simp only [R.PRODUCER, R.TRING_RECORDS, regFld]
    omega
  simp only [telRecord, hon, hen, herr, hown, ownerWrite, hdma, Bool.not_true, Bool.or_self, Bool.false_eq_true, if_false, if_true, if_neg hfull,
    Dev.latchIf, beq_iff_eq, if_neg hempty, Dev.get_count_ne _ _ _ _ _ hkeys, Dev.get_set_same]
  rfl

/-- Steps behind the first that change nothing. -/
theorem Dev.each_of_fixed {d : Dev} {f : Nat → Dev → Dev} (n : Nat) (h : ∀ i, 0 < i → i ≤ n → f i (f 0 d) = f 0 d) :
    d.each (n + 1) f = f 0 d := by
  induction n with
  | zero => rfl
  | succ n ih => rw [Dev.each, ih fun i h0 hi => h i h0 (by omega), h (n + 1) (by omega) le_rfl]

/-- The telemetry ring whose producer index lies at the state of port 0. -/
def strayRing : Nat := ((R.PORT_STATUS_STATE 0).key - (R.PRODUCER 0).key) / 2048

/-- The last lane of port 0 is about to bring it up, and queue 0 writes its records to that ring. -/
def strayRingState : State :=
  runningState.setDev (({ Dev.empty with cells := [(R.SAMPLE_CTRL_TRING.key, strayRing)] } : Dev).setAll
    [(R.OCT_PORT_MODE_MODE 0, 1), (R.PORT_CTRL_ENABLE 0, 1), (R.PORT_STATUS_STATE 0, psBringup), (R.LANE_STATUS_STAGE 0, stCapExchange),
      (L.PAGE_ENABLE 0xC, 1), (R.QTEL_TO_RING 0, 1)])

/-- The lane is ACTIVE and the port aligned. -/
def strayRingAligned : Dev :=
  (((laneSet strayRingState.d 0 stActive).set (L.LANE_RELOCK 0) 0).set (R.PORT_STATUS_ALIGNED 0) 1)

/-- The port has found its start boundaries and is UP. -/
def strayRingUp : Dev := (drawPhase strayRingAligned 0).set (R.PORT_STATUS_STATE 0) psUp

theorem drawPhase_get (d : Dev) (p : Nat) {g : Fld} (h : g.key ≠ (L.LINE_PHASE p).key) : (drawPhase d p).get g = d.get g := by
  rw [drawPhase, Dev.get_tookFree, Dev.get_set_ne _ _ _ _ h]

theorem strayRingUp_get {g : Fld} (h : g.key ≠ (L.LINE_PHASE 0).key) (hs : g.key ≠ (R.PORT_STATUS_STATE 0).key) :
    strayRingUp.get g = strayRingAligned.get g := by
  rw [strayRingUp, Dev.get_set_ne _ _ _ _ hs, drawPhase_get _ _ h]

/-- The state of a port behind its faults and its event. -/
theorem portState_rise (d : Dev) (lf rf : Bool) : portState (portEvent (portFault d 0 lf rf) 0 0) 0 = portState d 0 := by
  have hevent (e : Dev) (b : Nat) (hb : b < 4) : portState (portEvent e 0 b) 0 = portState e 0 := by
    unfold portEvent
    split
    · exact Dev.get_latch_ne _ _ _ (by omega) _ (by decide)
    · rfl
  rw [hevent _ _ (by decide), portFault]
  split
  · rw [hevent _ _ (by decide)]
    exact Dev.get_setAll_ne _ _ _ (by simp; decide)
  · exact Dev.get_setAll_ne _ _ _ (by simp; decide)

theorem capExchange_strayRing_eq : capExchangeDone strayRingState.run strayRingState.d 0 =
    portEvent (portFault (hwmPort .active (drawPhase strayRingAligned 0) strayRingUp 0) 0 false false) 0 0 := by
  have hstage : laneStage strayRingState.d 0 = stCapExchange := by decide +kernel
  have hport : lanePortOn ((laneSet strayRingState.d 0 stActive).set (L.LANE_RELOCK 0) 0) 0 = some 0 := by decide +kernel
  have hactive : allActive ((laneSet strayRingState.d 0 stActive).set (L.LANE_RELOCK 0) 0) 0 = true := by decide +kernel
  have hrise : (!allActive strayRingAligned 0 || !strayRingAligned.on (R.PORT_STATUS_ALIGNED 0) || disableDue strayRingAligned 0) = false := by
    decide +kernel
  have hbringup : portState strayRingAligned 0 = psBringup := by decide +kernel
  have hrf : strayRingAligned.on (R.PORT_STATUS_RF_RECEIVED 0) = false := by decide +kernel
  simp only [capExchangeDone, hstage, ne_eq, not_true, if_false, hport, hactive, if_true]
  rw [← strayRingAligned, portRise, hrise, if_neg Bool.false_ne_true, if_pos hbringup, hrf]
  rfl

/-- A field that coming up does not write. -/
theorem strayRingUp_on {f : Fld} (h : f.key ≠ (L.LINE_PHASE 0).key) (hs : f.key ≠ (R.PORT_STATUS_STATE 0).key) :
    strayRingUp.on f = strayRingAligned.on f := by
  rw [Dev.on, strayRingUp_get h hs, ← Dev.on]

/-- The record of queue 0 leaving high-water mode moves the ring's producer index, and with it the state of the port. -/
theorem hwmChange_strayRing : portState (hwmChange strayRingUp 0 true false) 0 = psHoldoff := by
  have htel : telOn strayRingUp = true := (strayRingUp_on (by decide) (by decide)).trans (by decide +kernel)
  have hto : strayRingUp.on (R.QTEL_TO_RING 0) = true := (strayRingUp_on (by decide) (by decide)).trans (by decide +kernel)
  have hring : strayRingUp.get R.SAMPLE_CTRL_TRING = strayRing := (strayRingUp_get (by decide) (by decide)).trans (by decide +kernel)
  have hprod : strayRingUp.get (R.PRODUCER strayRing) = 3 := Dev.get_set_same _ _ _
  have hcons : strayRingUp.get (R.CONSUMER strayRing) = 0 := (strayRingUp_get (by decide) (by decide)).trans (by decide +kernel)
  have hsize : tringSize strayRingUp strayRing = 64 := by
    rw [tringSize, strayRingUp_get (by decide) (by decide)]
    decide +kernel
  have hdma : hostDmaOff strayRingUp = false := by
    rw [hostDmaOff, strayRingUp_on (by decide) (by decide), strayRingUp_on (by decide) (by decide)]
    decide +kernel
  have hrecord (ws : List Nat) : (telRecord strayRingUp strayRing ws).get (R.PRODUCER strayRing) = 4 := by
    rw [telRecord_producer ws htel ((strayRingUp_on (by decide) (by decide)).trans (by decide +kernel))
      ((strayRingUp_on (by decide) (by decide)).trans (by decide +kernel)) ((strayRingUp_on (by decide) (by decide)).trans (by decide +kernel)) hdma
      (by rw [hprod, hsize, hcons]; decide) (by rw [hprod, hcons]; decide), hprod, hsize]
    rfl
  simp only [hwmChange, show (true == false) = false from rfl, Bool.false_eq_true, if_false, htel, hto, if_true, hring]
  rw [portState, Dev.get_latch_ne _ _ _ (by decide) _ (by decide)]
  exact hrecord _

/-- The queues of a port in BRINGUP or HOLDOFF are in high-water mode. -/
theorem hwmMode_of_waits (run : RunState) {d : Dev} {q : Nat} (hq : q < 16) (h : portState d 0 = psBringup ∨ portState d 0 = psHoldoff) :
    hwmMode run d q = true := by
  have hport : q / 16 = 0 := by omega
  rcases h with h | h <;> simp [hwmMode, hport, h, show q < 4096 by omega]

theorem hwmMode_strayRingUp : hwmMode .active strayRingUp 0 = false := by
  have hup : portState strayRingUp 0 = psUp := Dev.get_set_same _ _ _
  have hforce : strayRingUp.get (R.PORT_CTRL_TX_FORCE 0) = 0 := (strayRingUp_get (by decide) (by decide)).trans (by decide +kernel)
  simp only [hwmMode, Nat.zero_div, hup, hforce]
  rw [strayRingUp_on (by decide) (by decide), strayRingUp_on (by decide) (by decide)]
  decide +kernel

theorem hwmPort_strayRing : portState (hwmPort .active (drawPhase strayRingAligned 0) strayRingUp 0) 0 = psHoldoff := by
  have hbefore : portState (drawPhase strayRingAligned 0) 0 = psBringup := (drawPhase_get _ _ (by decide)).trans (by decide +kernel)
  have hwas (q : Nat) (hq : q < 16) : hwmMode .active (drawPhase strayRingAligned 0) q = true := hwmMode_of_waits _ hq (.inl hbefore)
  rw [hwmPort, Dev.each_of_fixed 15]
  · simp only [Nat.mul_zero, Nat.zero_add, hwas 0 (by decide), hwmMode_strayRingUp, hwmChange_strayRing]
  · intro q _ hq
    simp only [Nat.mul_zero, Nat.zero_add, hwas 0 (by decide), hwas q (by omega), hwmMode_strayRingUp,
      hwmMode_of_waits .active (show q < 16 by omega) (.inr hwmChange_strayRing)]
    rw [hwmChange, beq_self_eq_true, if_pos rfl]

/-- The lane's last stage is over, and its port is in HOLDOFF. -/
theorem capExchange_strayRing : portState (capExchangeDone strayRingState.run strayRingState.d 0) 0 = psHoldoff := by
  rw [capExchange_strayRing_eq, portState_rise, hwmPort_strayRing]

/-! ### The tail of a frame (R147, R149), and the scan of a lane (R101, R118) -/

/-- A trap class whose bucket lies at the start of port 0's hold-off. -/
def strayTrap : Nat := (L.HOLDOFF_AT 0).key - (L.CLS_DEF 0).key

/-- A plain frame in progress on port 0 that is charged to that class at its tail. -/
def strayTrapFrame : Frame := { strayFrame with kind := .plain, sa := none, traps := [strayTrap] }

/-- Port 0 is UP and aligned with that frame in progress. -/
def strayTrapState : State :=
  runningState.setDev (({ Dev.empty with frames := [strayTrapFrame] } : Dev).setAll
    [(R.OCT_PORT_MODE_MODE 0, 1), (R.PORT_STATUS_STATE 0, psUp), (R.PORT_STATUS_ALIGNED 0, 1), (R.PORT_CTRL_LANE_HOLDOFF 0, 1)])

/-- The hold-off begins in cycle 0, and the frame that it ends is charged where that is kept. -/
theorem amLockLoss_strayTrap : (amLockLoss strayTrapState.run strayTrapState.d 0).get (L.HOLDOFF_AT 0) ≠ 0 := by decide +kernel

/-- The loss of the reference latches bit 26 of page 0x20, and the scan that it ends takes the stray requester's unit out of that latch. -/
theorem refLostOct_strayGrant_evt : (refLostOct strayGrantState.run strayGrantState.d 16).evt 0x20 26 = false := by decide +kernel

end Sys2Proof.Machine

open Sys2Proof Sys2Proof.Machine

/-- Refutes O24: OCT_REF_LOST latches bit 26 and then takes the octet's ACTIVE lanes out of ACTIVE. A lane whose eye scan waits for its grant
cancels it, and the units not yet issued leave the account of the grant's requester. Nothing bounds that requester by the 67 that there are,
and the account of `strayRequester` lies at the page's event latch, so bit 26 is gone afterwards. -/
theorem not_laneClockRows : ¬ Obligations.LaneClockRows := by
  unfold Obligations.LaneClockRows
  intro h
  have hlive : strayGrantState.frozen = false := by decide
  obtain ⟨-, hrows⟩ := h strayGrantState 16 0 0 0
  obtain ⟨-, hlost, -⟩ := hrows hlive
  obtain ⟨-, -, hevt, -⟩ := hlost.of_exec (State.lanes_of hlive fun d => refLostOct strayGrantState.run d 16)
  exact absurd (refLostOct_strayGrant_evt.symm.trans hevt) (by decide)

/-- Refutes O25: a port that comes up leaves high-water mode, and each of its queues with TO_RING writes a record to the ring that
SAMPLE_CTRL.TRING names. The contents of a state hold any number for that field, and the producer index of `strayRing` lies at the state of
port 0, so the record moves the port from UP on to HOLDOFF. -/
theorem not_laneBringupRows : ¬ Obligations.LaneBringupRows := by
  unfold Obligations.LaneBringupRows
  intro h
  have hlive : strayRingState.frozen = false := by decide +kernel
  obtain ⟨-, hrows⟩ := h strayRingState 0 [] 0 false 0
  obtain ⟨-, -, -, -, -, -, -, -, hup, -⟩ := hrows hlive
  have hrise := hup 0 (by decide +kernel) (by decide +kernel) (by decide +kernel) (by decide +kernel) (by decide +kernel)
  obtain ⟨-, hstate, -⟩ := hrise.of_exec (State.lanes_of hlive fun d => capExchangeDone strayRingState.run d 0)
  exact absurd (capExchange_strayRing.symm.trans hstate) (by decide)

/-- Refutes O27: a point that ends stores its result and then compares the number of points with the count of the profile. The contents of a
state hold any number for SCAN_STATUS.PROFILE, and the mask of eyes of `strayProfile` lies at the phase of the last point's result, so the
count is another one afterwards and the scan does not end. -/
theorem not_laneAdaptScanRows : ¬ Obligations.LaneAdaptScanRows := by
  unfold Obligations.LaneAdaptScanRows
  intro h
  have hlive : strayScanState.frozen = false := by decide +kernel
  obtain ⟨-, hrows⟩ := h strayScanState 0 0 0 0 0 0 30 0
  obtain ⟨-, -, -, -, hpoint⟩ := hrows hlive
  obtain ⟨-, hlast⟩ := hpoint (by decide +kernel) (by decide) (by decide +kernel) (by decide +kernel) (by decide +kernel)
  obtain ⟨e, he, -, -, hdone, -⟩ := hlast (by decide +kernel)
  have hstate := Yields.of_exec (post := fun e => e.get (R.SCAN_STATUS_STATE 0) = scDone) ⟨e, he, hdone⟩
    (State.lanes_of hlive fun d => scanPoint d 0 30 0)
  exact absurd (scanPoint_strayScan.symm.trans hstate) (by decide)

/-- Refutes O30: a port that enters HOLDOFF ends the frame in progress with error, and the tail charges the frame's trap classes. Nothing
bounds a trap class of a frame by the 16 that there are, and the bucket of `strayTrap` lies at the start of the port's hold-off. -/
theorem not_portFaultRows : ¬ Obligations.PortFaultRows := by
  unfold Obligations.PortFaultRows
  intro h
  have hlive : strayTrapState.frozen = false := by decide +kernel
  obtain ⟨hrows, -⟩ := h strayTrapState 0 false false [] []
  obtain ⟨-, -, -, -, hup⟩ := hrows hlive
  obtain ⟨hloss, -⟩ := hup (by decide +kernel) (by decide +kernel)
  have hheld := hloss (by decide +kernel) (by decide +kernel)
  obtain ⟨-, -, -, hat, -⟩ := hheld.of_exec (State.lanes_of hlive fun d => amLockLoss strayTrapState.run d 0)
  exact amLockLoss_strayTrap hat
end

section
namespace Sys2Proof.Machine

/-! ## Where a lane's pattern is numbered from (R121) -/

/-- Lane 0 is a test lane, and device time has run for 2^61 cycles. -/
def lateTestState : State :=
  runningState.setDev (({ Dev.empty with cyc := 2 ^ 61 } : Dev).setAll [(R.LANE_CTRL_TEST_ENABLE 0, 1)])

/-- The lane has sent more than 2^64 symbols by then. -/
theorem laneUi_lateTest : laneUi lateTestState.d 0 = 165 * 2 ^ 57 := by decide +kernel

/-- The generator that starts there keeps the whole number, whose field has 80 bits. -/
theorem genFrom_lateTest : (genEnable lateTestState.run lateTestState.d 0 true).get (L.LANE_GEN_FROM 0) = 165 * 2 ^ 57 := by decide +kernel

end Sys2Proof.Machine

open Sys2Proof Sys2Proof.Machine

/-- Refutes O28: the statement says that the number of a generator's first symbol is kept modulo 2^64. The model's field for it has 80 bits,
and after 2^61 cycles, with more than ten symbols in each, a lane has sent more than 2^64. -/
theorem not_patternRows : ¬ Obligations.PatternRows := by
  unfold Obligations.PatternRows
  intro h
  have hlive : lateTestState.live 0x10 = true := by decide +kernel
  obtain ⟨hwrites, -⟩ := h lateTestState 0 0 0 0
  obtain ⟨hgen, -⟩ := hwrites hlive
  have hstarts := hgen (by decide +kernel) (by decide +kernel) (by decide)
  obtain ⟨e, he, -, -, -, -, hfrom⟩ := hstarts
  have hkept := Yields.of_exec (post := fun e => e.get (L.LANE_GEN_FROM 0) = laneUi lateTestState.d 0 % 2 ^ 64) ⟨e, he, hfrom (by decide +kernel)⟩
    (State.page_of hlive fun d => genEnable lateTestState.run d 0 true)
  rw [laneUi_lateTest] at hkept
  exact absurd (genFrom_lateTest.symm.trans hkept) (by decide)
end

section
namespace Sys2Proof.Machine

/-! ## The 8b/10b lines (R124 to R127) -/

/-- A line's receiver makes the character of the character's code group at every disparity, and follows its disparity. -/
def CodedOn (i : Nat) (c : LineChar) : Prop :=
  ∀ rd : Bool, decodeChar i rd (encodeChar rd c).1 = some c ∧ codeDisparity rd (encodeChar rd c).1 = (encodeChar rd c).2

/-- No data character before another has its code group. -/
theorem find_dataCode : ∀ (rd : Bool) (b : Fin 256), (((List.range 256).map fun n => LineChar.data (BitVec.ofNat 8 n)).find? fun x =>
    (encodeChar rd x).1 == (encodeChar rd (.data (BitVec.ofFin b))).1) = some (.data (BitVec.ofFin b)) := by decide +kernel

theorem codeDisparity_data : ∀ (rd : Bool) (b : Fin 256), codeDisparity rd (encodeChar rd (.data (BitVec.ofFin b))).1 =
    (encodeChar rd (.data (BitVec.ofFin b))).2 := by decide +kernel

/-- The data characters stand first in every line's alphabet. -/
theorem codedOn_data (i : Nat) (b : Byte) : CodedOn i (.data b) := fun rd =>
  ⟨by rw [decodeChar, lineAlphabet, List.find?_append, show b = BitVec.ofFin b.toFin from rfl, find_dataCode, Option.some_or],
    codeDisparity_data rd b.toFin⟩

theorem codedOn_k (i : Fin 3) {b : Byte} (h : b ∈ (if i.val < 2 then belayCodes else mgmtCodes)) : CodedOn i (.k b) := by
  have hcodes : ∀ (i : Fin 3) (rd : Bool), ∀ b ∈ (if i.val < 2 then belayCodes else mgmtCodes),
      decodeChar i rd (encodeChar rd (.k b)).1 = some (.k b) ∧ codeDisparity rd (encodeChar rd (.k b)).1 = (encodeChar rd (.k b)).2 := by
    decide +kernel
  exact fun rd => hcodes i rd b h

/-- The K-codes of Clause 36 that are not in a Belay port's table. -/
theorem decodeChar_unlisted : ∀ (i : Fin 2) (rd : Bool) (p : Nat × Nat), p ∈ kTable → BitVec.ofNat 8 p.1 ∉ belayCodes →
    decodeChar i rd (encodeChar rd (.k (BitVec.ofNat 8 p.1))).1 = none := by decide +kernel

theorem lineSend_queue (refill : LineTx → LineTx) (t : LineTx) (c : LineChar) (r : List LineChar) :
    lineSend refill { t with queue := c :: r } =
      ((encodeChar t.rd c).1, { t with rd := (encodeChar t.rd c).2, odd := !t.odd, queue := r }) := rfl

/-- What a transmitter sends of its queue is received as its queue. -/
theorem decodeLine_lineSends {i : Nat} (refill : LineTx → LineTx) {cs : List LineChar} (h : ∀ c ∈ cs, CodedOn i c) (t : LineTx) :
    decodeLine i t.rd (lineSends refill cs.length { t with queue := cs }).1 = (cs, 0) := by
  induction cs generalizing t with
  | nil => rfl
  | cons c r ih =>
    obtain ⟨hdec, hdisp⟩ := h c (by simp) t.rd
    have hrest := ih (fun x hx => h x (by simp [hx])) { t with rd := (encodeChar t.rd c).2, odd := !t.odd }
    simp only [List.length_cons, lineSends, lineSend_queue, decodeLine, hdec, hdisp, hrest]

/-- The bytes of a frame under way, up to its end. -/
theorem belayItems_frame (acc bs : List Byte) :
    belayItems (bs.length + 2) (some (acc, false)) (bs.map .data ++ [.k k297]) = [.frame (acc ++ bs) false] := by
  induction bs generalizing acc with
  | nil => simp [belayItems, k297, k285, k280, k281, k277]
  | cons b r ih => simp [belayItems, ih]

theorem belayItems_start (n : Nat) (cur : Option (List Byte × Bool)) (r : List LineChar) :
    belayItems (n + 1) cur (.k k277 :: r) = belayItems n (some ([], false)) r := by
  simp [belayItems, k285, k280, k281, k277]

/-- /RF/ leaves nothing. -/
theorem belayItems_filler (n : Nat) (x y z : LineChar) (r : List LineChar) :
    belayItems (n + 1) none (.k k280 :: x :: y :: z :: r) = belayItems n none r := by
  simp [belayItems, k285, k280]

theorem length_belayChars (bs : List Byte) : (belayChars bs).length = bs.length + 2 := by simp [belayChars]

theorem codedOn_belayChars (bs : List Byte) : ∀ c ∈ belayChars bs, CodedOn 0 c := by
  intro c hc
  simp only [belayChars, List.cons_append, List.mem_cons, List.mem_append, List.mem_map, List.not_mem_nil, or_false] at hc
  rcases hc with rfl | ⟨b, -, rfl⟩ | rfl
  · exact codedOn_k 0 (by decide)
  · exact codedOn_data 0 b
  · exact codedOn_k 0 (by decide)

/-- A frame that is sent is received. -/
theorem belayReceive_belayChars (t : LineTx) (refill : LineTx → LineTx) (bs : List Byte) :
    belayReceive t.rd (lineSends refill (bs.length + 2) { t with queue := belayChars bs }).1 = ([.frame bs false], 0) := by
  have hline := decodeLine_lineSends refill (codedOn_belayChars bs) t
  rw [length_belayChars] at hline
  rw [belayReceive, hline, length_belayChars, belayChars, List.cons_append, belayItems_start, belayItems_frame, List.nil_append]

theorem decodeLine_violation (i : Nat) {rd : Bool} {c : Nat} (r : List Nat) (h : decodeChar i rd c = none) :
    decodeLine i rd (c :: r) = (.k k307 :: (decodeLine i (codeDisparity rd c) r).1, (decodeLine i (codeDisparity rd c) r).2 + 1) := by
  simp only [decodeLine, h]

theorem lineRefill_queue (filler : Bool) (t : LineTx) (h : filler = false ∨ t.idles ≠ 18) : (lineRefill filler t).queue = idleSet t.rd := by
  rw [lineRefill, if_neg (by rcases h with h | h <;> simp [h])]

theorem lineRefill_filler (t : LineTx) (h : t.idles = 18) :
    (lineRefill true t).queue.head? = some (.k k280) ∧ (lineRefill true t).queue.length = 4 := by
  simp [lineRefill, h]

/-! ## On-die SRAM (R340, R344) -/

/-- `n` bytes at `a` lie in on-die SRAM. -/
def InSram (a n : Nat) : Prop := sramBase ≤ a ∧ a + n ≤ sramBase + sramSize

theorem inSram_iff {a n : Nat} : InSram a n ↔ 0x30000000 ≤ a ∧ a + n ≤ 0x30100000 := Iff.rfl

/-- The bytes are stored at `a`. -/
def sramPut (d : Dev) (a : Nat) (bs : List Byte) : Dev :=
  { d with sram := (List.zip (List.range bs.length) bs).foldl (fun c p => Cells.put c (a + p.1) p.2.toNat) d.sram }

theorem dmaRead_sram (d : Dev) {a n : Nat} (h : InSram a n) : dmaRead d a n = (d, true) := by
  rw [dmaRead, if_pos (inSram_iff.mp h)]

theorem dmaWrite_sram (d : Dev) {a : Nat} {bs : List Byte} (h : InSram a bs.length) : dmaWrite d a bs = (sramPut d a bs, true) := by
  rw [dmaWrite, if_pos (inSram_iff.mp h), sramPut]

theorem find_sramPut (d : Dev) (a : Nat) (bs : List Byte) (k : Nat) : Cells.find (sramPut d a bs).sram k =
    if a ≤ k ∧ k < a + bs.length then (bs.getD (k - a) 0).toNat else Cells.find d.sram k := by
  induction bs using List.reverseRecOn with
  | nil => simp [sramPut, show ¬ (a ≤ k ∧ k < a) by omega]
  | append_singleton bs b ih =>
    have hput : (sramPut d a (bs ++ [b])).sram = Cells.put (sramPut d a bs).sram (a + bs.length) b.toNat := by
      simp [sramPut, List.range_succ, List.zip_append]
    rw [hput, List.length_append, List.length_singleton]
    by_cases hk : k = a + bs.length
    · rw [hk, Cells.find_put_same, if_pos (by omega), Nat.add_sub_cancel_left]
      simp
    · rw [Cells.find_put_ne _ _ hk, ih]
      by_cases hin : a ≤ k ∧ k < a + bs.length
      · rw [if_pos hin, if_pos (by omega), List.getD_append _ _ _ _ (by omega)]
      · rw [if_neg hin, if_neg (by omega)]

theorem memBytes_sram (d : Dev) {a n : Nat} (h : InSram a n) :
    memBytes d a n = (List.range n).map fun i => BitVec.ofNat 8 (Cells.find d.sram (a + i)) := by
  rcases Nat.eq_zero_or_pos n with rfl | hn
  · unfold memBytes
    split <;> simp [transferLines, linesOf]
  · rw [inSram_iff] at h
    rw [memBytes, if_pos (by simp only [dramBase]; omega)]

theorem length_memBytes_sram (d : Dev) {a n : Nat} (h : InSram a n) : (memBytes d a n).length = n := by
  rw [memBytes_sram d h, List.length_map, List.length_range]

theorem memBytes_sramPut_same (d : Dev) {a : Nat} {bs : List Byte} (h : InSram a bs.length) : memBytes (sramPut d a bs) a bs.length = bs := by
  rw [memBytes_sram _ h]
  refine List.ext_getElem (by simp) fun i hi hi' => ?_
  rw [List.getElem_map, List.getElem_range, find_sramPut, if_pos (by omega), Nat.add_sub_cancel_left, List.getD_eq_getElem _ _ hi']
  simp

theorem memBytes_sramPut_apart (d : Dev) {a n b : Nat} {bs : List Byte} (h : InSram a n) (hab : a + n ≤ b ∨ b + bs.length ≤ a) :
    memBytes (sramPut d b bs) a n = memBytes d a n := by
  rw [memBytes_sram _ h, memBytes_sram _ h]
  refine List.map_congr_left fun i hi => ?_
  have hi := List.mem_range.mp hi
  rw [find_sramPut, if_neg (by omega)]

/-! ## A descriptor of MGMT0 in SRAM (R344 to R348, R363) -/

theorem length_wordBytes (ws : List Nat) : (wordBytes ws).length = 4 * ws.length := by
  induction ws with
  | nil => rfl
  | cons w r ih =>
    rw [wordBytes] at ih
    rw [wordBytes, List.map_cons, List.flatten_cons, List.length_append, ih, length_leBytes, List.length_cons]
    omega

/-- A ring writes no more back while it has taken nothing. -/
theorem ringFlush_of_none {d : Dev} {n : Nat} (h : ringFirst d n = none) (k : Nat) : ringFlush d n k = d := by
  cases k with
  | zero => rfl
  | succ k => rw [ringFlush, h, ite_self]

theorem ringMgmt_mgmt0 (d : Dev) {n : Nat} (hn : 128 ≤ n) : ringMgmt d n = true := by rw [ringMgmt, if_neg (by omega)]

theorem ringStat_mgmt0 (d : Dev) {n : Nat} (hn : 128 ≤ n) (k c : Nat) : ringStat d n k c = d := by rw [ringStat, if_neg (by omega)]

/-- The words of the next descriptor, as management memory holds them. -/
def nextWords (d : Dev) (n : Nat) : List Nat := (Crypto.chunked 4 (memBytes d (ringBase d n + 32 * ringNext d n) 32)).map leVal

/-- The descriptor that the ring takes next. -/
def nextDesc (d : Dev) (n : Nat) : RingDesc := ⟨n, ringNext d n, nextWords d n, none, 0, 0, none⟩

/-- The ring has taken it. -/
def descTaken (d : Dev) (n : Nat) : Dev := { d with descs := d.descs ++ [nextDesc d n] }

theorem ringFetch_sram {d : Dev} {n : Nat} (hn : 128 ≤ n) (hs : InSram (ringBase d n + 32 * ringNext d n) 32)
    (hown : bitAt ((nextWords d n).getD 7 0) 31 = true) : ringFetch d n [] none = (descTaken d n, some (ringNext d n, nextWords d n)) := by
  have hwords : ringWords d n [] = (d, some (nextWords d n)) := by
    rw [ringWords, if_pos (ringMgmt_mgmt0 d hn), dmaRead_sram d hs]
    rfl
  have htake : ringTake d n (nextWords d n) none = (descTaken d n, some (ringNext d n)) := by
    rw [ringTake, hown, Bool.not_true, if_neg Bool.false_ne_true]
    rfl
  rw [ringFetch, hwords]
  dsimp only
  rw [htake]

theorem length_chunked_four {bs : List Byte} (h : bs.length = 32) : (Crypto.chunked 4 bs).length = 8 := by
  have hne : bs ≠ [] := List.ne_nil_of_length_eq_add_one h
  rw [Crypto.chunked, h]
  simp [Crypto.chunks, h, hne]

theorem length_nextWords {d : Dev} {n : Nat} (hs : InSram (ringBase d n + 32 * ringNext d n) 32) : (nextWords d n).length = 8 := by
  rw [nextWords, List.length_map, length_chunked_four (length_memBytes_sram d hs)]

/-- The descriptor `ix` of ring `n` is back in memory with these words, and HEAD behind it. -/
def writtenBack (d : Dev) (n ix : Nat) (ws : List Nat) : Dev :=
  (sramPut d (ringBase d n + 32 * ix) (wordBytes (ws.set 7 (ws.getD 7 0 % 2 ^ 31)))).set (ringHeadF n) ((ix + 1) % ringSize d n)

theorem ringWriteBack_sram {d : Dev} {x : RingDesc} (hn : 128 ≤ x.ring) (hs : InSram (ringBase d x.ring + 32 * x.index) 32)
    (hl : x.words.length = 8) : ringWriteBack d x = writtenBack d x.ring x.index x.words := by
  have hwrite : ringWrite d x.ring (ringBase d x.ring + 32 * x.index) (wordBytes (x.words.set 7 (x.words.getD 7 0 % 2 ^ 31))) =
      (sramPut d (ringBase d x.ring + 32 * x.index) (wordBytes (x.words.set 7 (x.words.getD 7 0 % 2 ^ 31))), true) := by
    rw [ringWrite, if_pos (ringMgmt_mgmt0 d hn), dmaWrite_sram]
    rw [length_wordBytes, List.length_set, hl]
    exact hs
  simp only [ringWriteBack, hwrite, if_true, if_neg (show ¬ x.ring < 128 by omega)]
  rfl

/-- The taken descriptors are these. -/
def Dev.withDescs (d : Dev) (ds : List RingDesc) : Dev := { d with descs := ds }

/-- A taken descriptor with its final words and STATUS. -/
def RingDesc.asDone (x : RingDesc) (f : List Nat → List Nat) (st : Nat) : RingDesc := { x with words := f x.words, done := some st }

/-- The descriptor `ix` of ring `n` is marked so. -/
def markDone (n ix : Nat) (f : List Nat → List Nat) (st : Nat) (y : RingDesc) : RingDesc :=
  if y.ring == n && y.index == ix && y.done.isNone then y.asDone f st else y

theorem descDone_eq (d : Dev) (n ix : Nat) (f : List Nat → List Nat) (st : Nat) :
    descDone d n ix f st = ringFlush (d.withDescs (d.descs.map (markDone n ix f st))) n (d.descs.map (markDone n ix f st)).length := rfl

/-- A ring whose only taken descriptor is complete writes it back. -/
theorem ringFlush_only {d : Dev} {y : RingDesc} {ds : List RingDesc} (hds : ∀ z ∈ ds, z.ring ≠ y.ring) (hy : y.done.isSome = true)
    (herr : d.on (ringErrorF y.ring) = false) (k : Nat) :
    ringFlush (d.withDescs (ds ++ [y])) y.ring (k + 1) = ringFlush (ringWriteBack (d.withDescs ds) y) y.ring k := by
  have hfind : ds.find? (·.ring == y.ring) = none := List.find?_eq_none.mpr fun z hz => by simpa using hds z hz
  have hfirst : ringFirst (d.withDescs (ds ++ [y])) y.ring = some y := by
    rw [ringFirst, Dev.withDescs, List.find?_append, hfind]
    simp
  have hkeep : ds.filter (fun z => !(z.ring == y.ring && z.index == y.index)) = ds :=
    List.filter_eq_self.mpr fun z hz => by simp [hds z hz]
  have hremove : descRemove (d.withDescs (ds ++ [y])) y = d.withDescs ds := by
    rw [descRemove, Dev.withDescs, List.filter_append, hkeep]
    simp [Dev.withDescs]
  obtain ⟨st, hst⟩ := Option.isSome_iff_exists.mp hy
  rw [ringFlush, if_neg (by rw [show (d.withDescs (ds ++ [y])).on (ringErrorF y.ring) = _ from herr]; exact Bool.false_ne_true), hfirst]
  simp only [hst, hremove]

/-- The only descriptor that a ring has taken is done: it is written back, and the ring has taken none. -/
theorem descDone_only {d : Dev} {x : RingDesc} {ds : List RingDesc} (hds : ∀ z ∈ ds, z.ring ≠ x.ring)
    (hx : x.done = none) (hn : 128 ≤ x.ring) (herr : d.on (ringErrorF x.ring) = false) (hs : InSram (ringBase d x.ring + 32 * x.index) 32)
    {f : List Nat → List Nat} (hl : (f x.words).length = 8) (st : Nat) :
    descDone (d.withDescs (ds ++ [x])) x.ring x.index f st = writtenBack (d.withDescs ds) x.ring x.index (f x.words) := by
  have hmark : (ds ++ [x]).map (markDone x.ring x.index f st) = ds ++ [x.asDone f st] := by
    rw [List.map_append, List.map_congr_left (g := id) fun y hy => by simp [markDone, hds y hy]]
    simp [markDone, hx]
  have hnone : ds.find? (·.ring == x.ring) = none := List.find?_eq_none.mpr fun z hz => by simpa using hds z hz
  have hfirst : ringFirst (writtenBack (d.withDescs ds) x.ring x.index (f x.words)) x.ring = none := by
    rw [ringFirst, writtenBack, Dev.set_descs]
    exact hnone
  calc descDone (d.withDescs (ds ++ [x])) x.ring x.index f st
    _ = ringFlush (d.withDescs (ds ++ [x.asDone f st])) x.ring (ds.length + 1) := by
      rw [descDone_eq, show (d.withDescs (ds ++ [x])).descs = ds ++ [x] from rfl, hmark, List.length_append]
      rfl
    _ = ringFlush (ringWriteBack (d.withDescs ds) (x.asDone f st)) x.ring ds.length := ringFlush_only (y := x.asDone f st) hds rfl herr _
    _ = ringFlush (writtenBack (d.withDescs ds) x.ring x.index (f x.words)) x.ring ds.length := by
      rw [ringWriteBack_sram (d := d.withDescs ds) (x := x.asDone f st) hn hs hl]
      rfl
    _ = writtenBack (d.withDescs ds) x.ring x.index (f x.words) := ringFlush_of_none hfirst _

/-- The next descriptor of an MGMT0 ring can be taken from SRAM. -/
structure DescReady (d : Dev) (n : Nat) : Prop where
  mgmt0 : 128 ≤ n
  enabled : ringEnabled d n = true
  noError : d.on (ringErrorF n) = false
  hasDesc : ringHasDesc d n = true
  noneTaken : ∀ z ∈ d.descs, z.ring ≠ n
  inSram : InSram (ringBase d n + 32 * ringNext d n) 32
  owned : bitAt ((nextWords d n).getD 7 0) 31 = true

theorem DescReady.runs {d : Dev} {n : Nat} (h : DescReady d n) (hm : m0Runs d = true) : ringRuns d n = true := by
  have hon : ringsOn d n = true := by
    rw [ringsOn, if_neg (by have := h.mgmt0; omega)]
    exact hm
  simp [ringRuns, hon, h.enabled, h.noError, ringMgmt_mgmt0 d h.mgmt0]

theorem DescReady.fetch {d : Dev} {n : Nat} (h : DescReady d n) : ringFetch d n [] none = (descTaken d n, some (ringNext d n, nextWords d n)) :=
  ringFetch_sram h.mgmt0 h.inSram h.owned

theorem DescReady.find {d : Dev} {n : Nat} (h : DescReady d n) :
    (descTaken d n).descs.find? (fun x => x.ring == n && x.index == ringNext d n) = some (nextDesc d n) := by
  have hnone : d.descs.find? (fun x => x.ring == n && x.index == ringNext d n) = none :=
    List.find?_eq_none.mpr fun z hz => by simp [h.noneTaken z hz]
  rw [descTaken, List.find?_append, hnone]
  simp [nextDesc]

/-- The descriptor just taken completes. -/
theorem DescReady.done {d : Dev} {n : Nat} (h : DescReady d n) {e : Dev} (he : e.descs = d.descs) (hc : e.cells = d.cells)
    {f : List Nat → List Nat} (hl : (f (nextWords d n)).length = 8) (st : Nat) :
    descDone (e.withDescs (e.descs ++ [nextDesc d n])) n (ringNext d n) f st = writtenBack e n (ringNext d n) (f (nextWords d n)) := by
  have hget (g : Fld) : e.get g = d.get g := Dev.get_of_cells hc g
  have herr : e.on (ringErrorF n) = false := by rw [Dev.on, hget]; exact h.noError
  have hbase : ringBase e n = ringBase d n := hget _
  exact descDone_only (x := nextDesc d n) (by rw [he]; exact h.noneTaken) rfl h.mgmt0 herr (by rw [nextDesc, hbase]; exact h.inSram) hl st

theorem ringTaken_writtenBack (d : Dev) (n ix : Nat) (ws : List Nat) : ringTaken (writtenBack d n ix ws) n = ringTaken d n := by
  rw [ringTaken, writtenBack, Dev.set_descs]
  rfl

theorem head_writtenBack (d : Dev) {n : Nat} (hn : 128 ≤ n) (ix : Nat) (ws : List Nat) :
    (writtenBack d n ix ws).get (L.M0_HEAD (n - 128)) = (ix + 1) % ringSize d n % 2 ^ 16 := by
  rw [writtenBack, ringHeadF, if_neg (by omega), Dev.get_set_same]
  rfl

theorem memBytes_writtenBack (d : Dev) {n ix a k : Nat} {ws : List Nat} (hl : ws.length = 8) (h : InSram a k)
    (hab : a + k ≤ ringBase d n + 32 * ix ∨ ringBase d n + 32 * ix + 32 ≤ a) : memBytes (writtenBack d n ix ws) a k = memBytes d a k := by
  rw [← memBytes_sramPut_apart d h (b := ringBase d n + 32 * ix) (bs := wordBytes (ws.set 7 (ws.getD 7 0 % 2 ^ 31)))
    (by rw [length_wordBytes, List.length_set, hl]; exact hab), memBytes_sram _ h, memBytes_sram _ h, writtenBack, Dev.set_sram]

theorem DescReady.ringTaken {d : Dev} {n : Nat} (h : DescReady d n) : Machine.ringTaken d n = [] :=
  List.filter_eq_nil_iff.mpr fun z hz => by simpa using h.noneTaken z hz

/-- The buffer of the next descriptor. -/
def nextBuffer (d : Dev) (n : Nat) : Nat := (nextWords d n).getD 0 0 + (nextWords d n).getD 1 0 * 2 ^ 32

/-- The frame of the descriptor just taken goes to its buffer in SRAM. -/
theorem DescReady.rxDescEnd {d : Dev} {n : Nat} (h : DescReady d n) {f : Frame} (hs : f.status = 0) (hfit : f.plain.length ≤ ringBufSize d n)
    (hbuf : InSram (nextBuffer d n) f.plain.length) :
    rxDescEnd (descTaken d n) (nextDesc d n) f = writtenBack (sramPut d (nextBuffer d n) f.plain) n (ringNext d n)
      (rxDescWords f f.plain.length 0 (nextWords d n)) := by
  have herr : (descTaken d n).on (ringErrorF n) = false := h.noError
  have hstatus : (if f.status ≠ 0 then f.status else if ringBufSize (descTaken d n) n < f.plain.length then 6 else 0) = 0 := by
    rw [if_neg (by simp [hs]), if_neg (show ¬ ringBufSize (descTaken d n) n < f.plain.length from Nat.not_lt.mpr hfit)]
  have hwrite : ringWrite (descTaken d n) n (nextBuffer d n) f.plain =
      ((sramPut d (nextBuffer d n) f.plain).withDescs (d.descs ++ [nextDesc d n]), true) := by
    rw [ringWrite, if_pos (ringMgmt_mgmt0 _ h.mgmt0), dmaWrite_sram _ hbuf]
    rfl
  have hdone := h.done (e := sramPut d (nextBuffer d n) f.plain) rfl rfl (f := rxDescWords f f.plain.length 0) rfl 0
  rw [Machine.rxDescEnd]
  simp only [show (nextDesc d n).ring = n from rfl, herr, Bool.false_eq_true, if_false, hstatus, if_true, show ¬ (0 = 6) by decide,
    ringStat_mgmt0 _ h.mgmt0]
  rw [show (nextDesc d n).words.getD 0 0 + (nextDesc d n).words.getD 1 0 * 2 ^ 32 = nextBuffer d n from rfl, hwrite]
  simp only [if_true]
  exact hdone

/-! ## Frames of MGMT0 (R363) -/

/-- The frame that MGMT0 gives its receive ring. -/
def m0Frame (body : List Byte) : Frame := { ringFrame 0 0 body with fromRing := false, status := 0 }

/-- A ring has a descriptor by its HEAD, TAIL and size and what it has taken. -/
theorem ringHasDesc_count (d : Dev) (pg : Nat) {f : Fld} (n : Nat) (h : ∀ g ∈ [L.M0_HEAD 0, L.M0_TAIL 0, tblFld 8 0 0 3 5 0], g.key ≠ f.key) :
    ringHasDesc (d.count pg f n) 128 = ringHasDesc d 128 := by
  have hget : ∀ g ∈ [L.M0_HEAD 0, L.M0_TAIL 0, tblFld 8 0 0 3 5 0], (d.count pg f n).get g = d.get g :=
    fun g hg => Dev.get_count_ne _ _ _ _ _ (h g hg)
  have hdescs : (d.count pg f n).descs = d.descs := by
    rw [Dev.count]
    split <;> rfl
  simp only [List.forall_mem_cons, List.not_mem_nil, false_imp_iff, implies_true, and_true] at hget
  obtain ⟨hhead, htail, hsize⟩ := hget
  have hring : ringSize (d.count pg f n) 128 = ringSize d 128 := congrArg (2 ^ ·) hsize
  rw [ringHasDesc, ringHasDesc, ringNext, ringNext, ringTaken, ringTaken, hdescs, hring]
  exact congrArg₂ (fun x y => (x + _) % _ != y) hhead htail

theorem m0Receive_lost {d : Dev} (bs : List Byte) (viol : Nat) (hm : m0Runs d = true) (hl : d.on R.MGMT0_STATUS_LINK = true)
    (h : ringHasDesc d 128 = false) : m0Receive d bs false viol = if viol = 0 then d else d.count 8 R.MGMT0_CODE_VIOL viol := by
  have hnone : ringHasDesc (if viol = 0 then d else d.count 8 R.MGMT0_CODE_VIOL viol) 128 = false := by
    split
    · exact h
    · rw [ringHasDesc_count _ _ _ (by decide)]
      exact h
  rw [m0Receive, if_neg (by simp [hm, hl])]
  simp only [hnone, Bool.not_false, Bool.or_true, if_true]

theorem m0Receive_ready {d : Dev} {bs : List Byte} (hm : m0Runs d = true) (hl : d.on R.MGMT0_STATUS_LINK = true) (h : DescReady d 128)
    (hlen : 64 ≤ bs.length) (hfit : bs.length - 4 ≤ ringBufSize d 128)
    (hfcs : Crypto.fcs (bs.take (bs.length - 4)) = bs.drop (bs.length - 4)) (hbuf : InSram (nextBuffer d 128) (bs.length - 4)) :
    m0Receive d bs false 0 = writtenBack (sramPut d (nextBuffer d 128) (bs.take (bs.length - 4))) 128 (ringNext d 128)
      (rxDescWords (m0Frame (bs.take (bs.length - 4))) (bs.length - 4) 0 (nextWords d 128)) := by
  have hbody : (bs.take (bs.length - 4)).length = bs.length - 4 := by rw [List.length_take]; omega
  have hend := h.rxDescEnd (f := m0Frame (bs.take (bs.length - 4))) rfl (hbody.trans_le hfit) (by rw [m0Frame, ringFrame, hbody]; exact hbuf)
  rw [m0Receive, if_neg (by simp [hm, hl])]
  simp only [if_true, h.runs hm, h.hasDesc, Bool.not_true, Bool.or_self, Bool.false_eq_true, if_false, h.fetch, h.find, hfcs, bne_self_eq_false,
    decide_eq_false (Nat.not_lt.mpr hlen)]
  rw [show (m0Frame (bs.take (bs.length - 4))).plain = bs.take (bs.length - 4) from rfl, hbody] at hend
  exact hend

theorem m0Transmit_none {d : Dev} (h : ringHasDesc d 129 = false) : m0Transmit d = d := by
  rw [m0Transmit, if_pos (by simp [h])]

/-- The frame of a transmit descriptor leaves with its FCS. -/
def m0Sent (d : Dev) (body : List Byte) : Dev :=
  (d.lineMap 2 fun t => lineAppend t (mgmtChars (body ++ Crypto.fcs body))).emit (.frame m0Port d.time (body ++ Crypto.fcs body))

theorem m0Transmit_ready {d : Dev} (hm : m0Runs d = true) (hl : d.on R.MGMT0_STATUS_LINK = true) (h : DescReady d 129)
    (hmin : 60 ≤ txLen (nextWords d 129)) (hmax : txLen (nextWords d 129) ≤ 15996) (hts : txTsReq (nextWords d 129) = false)
    (hop : txCdOp (nextWords d 129) = 0) (hbuf : InSram (nextBuffer d 129) (txLen (nextWords d 129))) :
    m0Transmit d = writtenBack (m0Sent d (memBytes d (nextBuffer d 129) (txLen (nextWords d 129)))) 129 (ringNext d 129)
      (txDescStatus 0 (nextWords d 129)) := by
  have hdata : txData (descTaken d 129) 129 (nextWords d 129) [] =
      (descTaken d 129, some (memBytes d (nextBuffer d 129) (txLen (nextWords d 129)))) := by
    rw [txData, if_pos (ringMgmt_mgmt0 _ h.mgmt0), txAddr, ← nextBuffer, dmaRead_sram _ hbuf]
    rfl
  have hdone := h.done (e := m0Sent d (memBytes d (nextBuffer d 129) (txLen (nextWords d 129)))) rfl rfl (f := txDescStatus 0)
    (by rw [txDescStatus, List.length_set, length_nextWords h.inSram]) 0
  rw [m0Transmit, if_neg (by simp [hm, hl, h.runs hm, h.hasDesc])]
  simp only [h.fetch, hts, hop, Bool.false_eq_true, ne_eq, not_true, or_false, if_neg (show ¬ (txLen (nextWords d 129) < 60 ∨
    15996 < txLen (nextWords d 129)) by omega), hdata, txDescEnd, show ¬ (0 = 2) by decide, if_false]
  exact hdone

theorem m0Sent_line (d : Dev) (body : List Byte) (h : d.lines.length = 3) :
    ((m0Sent d body).line 2).queue = (d.line 2).queue ++ mgmtChars (body ++ Crypto.fcs body) := by
  rw [m0Sent, Dev.line, Dev.emit_lines, Dev.lineMap, List.getD_eq_getElem _ _ (by simp [h]), List.getElem_set_self]
  rfl

/-! ## Access faults, MSIP and the timer (R340, R342), and the link of MGMT0 (R365) -/

/-- The fields that an access fault may write. -/
def faultFields : List Fld := [R.ACCESS_FAULTS, R.ACCESS_FAULT_ADDR, R.ACCESS_FAULT_INFO_CORE, R.ACCESS_FAULT_INFO_VALID]

/-- What the first access fault captures. -/
def faultCaptured (d : Dev) (core a : Nat) : Dev :=
  if d.on R.ACCESS_FAULT_INFO_VALID then d
  else d.setAll [(R.ACCESS_FAULT_ADDR, a), (R.ACCESS_FAULT_INFO_CORE, core), (R.ACCESS_FAULT_INFO_VALID, 1)]

theorem accessFault_eq (d : Dev) (core a : Nat) : accessFault d core a = (faultCaptured (d.count 8 R.ACCESS_FAULTS) core a).latch 8 16 := rfl

theorem accessFault_onlyChanges (d : Dev) (core a : Nat) : d.OnlyChanges (accessFault d core a) faultFields [8] := by
  rw [accessFault_eq, faultCaptured]
  refine Dev.OnlyChanges.latch ?_ 8 16 (by simp) (by decide)
  have hcount := (Dev.OnlyChanges.refl d faultFields [8]).count 8 (f := R.ACCESS_FAULTS) 1 (by simp [faultFields])
  exact Dev.OnlyChanges.ite (fun _ => hcount) fun _ => hcount.setAll _ (by simp [faultFields])

theorem accessFault_get (d : Dev) (core a : Nat) {g : Fld} (h : eventKey 8 g.key = false) :
    (accessFault d core a).get g = (faultCaptured (d.count 8 R.ACCESS_FAULTS) core a).get g := by
  rw [accessFault_eq, Dev.get_latch_ne _ _ _ (by decide) _ h]

theorem accessFault_valid (d : Dev) (core a : Nat) : (accessFault d core a).get R.ACCESS_FAULT_INFO_VALID ≠ 0 := by
  rw [accessFault_get _ _ _ (by decide), faultCaptured]
  split
  · next hon => simpa [Dev.on] using hon
  · rw [Dev.setAll_cons, Dev.setAll_cons, Dev.setAll_cons, Dev.setAll_nil, Dev.get_set_same]
    decide

/-- The first fault's address and core stay for the interrupt. -/
theorem accessFault_first {d : Dev} {core a : Nat} (h : d.get R.ACCESS_FAULT_INFO_VALID = 0) (hc : core < 4) (ha : a < 2 ^ 64) :
    (accessFault d core a).get R.ACCESS_FAULT_ADDR = a ∧ (accessFault d core a).get R.ACCESS_FAULT_INFO_CORE = core := by
  have hoff : (d.count 8 R.ACCESS_FAULTS).on R.ACCESS_FAULT_INFO_VALID = false := by
    rw [Dev.on, Dev.get_count_ne _ _ _ _ _ (by decide), h]
    rfl
  rw [accessFault_get _ _ _ (by decide), accessFault_get _ _ _ (by decide), faultCaptured, hoff, if_neg Bool.false_ne_true]
  simp only [Dev.setAll_cons, Dev.setAll_nil]
  constructor
  · rw [Dev.get_set_ne _ _ _ _ (by decide), Dev.get_set_ne _ _ _ _ (by decide), Dev.get_set_same]
    exact Nat.mod_eq_of_lt ha
  · rw [Dev.get_set_ne _ _ _ _ (by decide), Dev.get_set_same]
    exact Nat.mod_eq_of_lt hc

theorem accessFault_evt (d : Dev) (core a : Nat) : (accessFault d core a).evt 8 16 = true := by
  rw [accessFault_eq]
  exact Dev.evt_latch_same _ _ _ (by decide) (by decide) (evtBitServed_of_not_port _ _ _ (by decide))

theorem coreFault_outside {d : Dev} {core a : Nat} {write : Bool} (hr : coreRegion a 1 = none) (hs : ¬ InSram a 1)
    (hd : ¬ (dramBase ≤ a ∧ a < dramBase + dramSize d)) : coreFault d core a write = (accessFault d core a).emit (.mem core a none) := by
  have hsram : ¬ (sramBase ≤ a ∧ a < sramBase + sramSize) := fun h => hs ⟨h.1, h.2⟩
  have hfaults : coreFaults d core a write = true := by simp only [coreFaults, hr, if_neg hsram, if_neg hd]
  rw [coreFault, hfaults, if_pos rfl, if_neg hd]

theorem becomes_accessFault {s : State} (core : Fin 4) (addr : BitVec 64) (write : Bool) (hf : s.frozen = false)
    (hr : coreRegion addr.toNat 1 = none) (hs : ¬ InSram addr.toNat 1) (hd : ¬ (dramBase ≤ addr.toNat ∧ addr.toNat < dramBase + dramSize s.d)) :
    Becomes (.accessFault core addr write) s (s.d.emit (.mem core addr.toNat none)) faultFields [8] fun e =>
      e.get R.ACCESS_FAULT_INFO_VALID ≠ 0 ∧ e.evt 8 16 = true ∧
      (s.d.get R.ACCESS_FAULT_INFO_VALID = 0 → e.get R.ACCESS_FAULT_ADDR = addr.toNat ∧ e.get R.ACCESS_FAULT_INFO_CORE = core.val) := by
  have hexec : exec (.accessFault core addr write) s = .next (s.setDev (coreFault s.d core addr.toNat write)) :=
    State.lanes_of hf fun d => coreFault d core addr.toNat write
  rw [coreFault_outside hr hs hd] at hexec
  refine ⟨_, hexec, (accessFault_onlyChanges s.d core addr.toNat).emit _, ?_, ?_, fun h => ?_⟩
  · rw [Dev.get_emit]
    exact accessFault_valid _ _ _
  · rw [Dev.evt, Dev.get_emit]
    exact accessFault_evt _ _ _
  · rw [Dev.get_emit, Dev.get_emit]
    exact accessFault_first h core.isLt addr.isLt

theorem msipSet_onlyChanges (d : Dev) (c v : Nat) : d.OnlyChanges (msipSet d c v) [L.MSIP c, L.CORE_WAIT] [] := by
  have hset := (Dev.OnlyChanges.refl d [L.MSIP c, L.CORE_WAIT] []).set (f := L.MSIP c) v (by simp)
  exact Dev.OnlyChanges.ite (fun _ => hset.set _ (by simp)) fun _ => hset

theorem msip_ne_coreWait {c : Nat} : (L.MSIP c).key ≠ L.CORE_WAIT.key ↔ c ≠ 2 ^ 32 := by
  simp only [L.MSIP, L.CORE_WAIT, latFld]
  omega

theorem msipSet_msip (d : Dev) {c : Nat} (v : Nat) (hc : c < 4) : (msipSet d c v).get (L.MSIP c) = v % 2 := by
  have hne := msip_ne_coreWait.mpr (show c ≠ 2 ^ 32 by omega)
  rw [msipSet]
  split
  · rw [Dev.setBit, Dev.get_set_ne _ _ _ _ hne, Dev.get_set_same]
    rfl
  · exact Dev.get_set_same _ _ _

theorem bitAt_mod_two_pow {v n w : Nat} (h : n < w) : bitAt (v % 2 ^ w) n = bitAt v n := by
  rw [bitAt_testBit, bitAt_testBit, Nat.testBit_mod_two_pow, decide_eq_true h, Bool.true_and]

/-- A bit that is cleared in a field that has it. -/
theorem bitAt_setBit_false (d : Dev) {f : Fld} {n : Nat} (h : n < f.w) : bitAt ((d.setBit f n false).get f) n = false := by
  rw [Dev.setBit, Dev.get_set_same, bitAt_mod_two_pow h, if_neg Bool.false_ne_true]
  split
  · next hbit => exact bitAt_sub_two_pow hbit
  · next hbit => simpa using hbit

theorem msipSet_wakes (d : Dev) {c : Nat} (hc : c < 4) : bitAt ((msipSet d c 1).get L.CORE_WAIT) c = false :=
  bitAt_setBit_false _ hc

theorem completes_msipWrite {s : State} (core : Fin 4) (v : Bool) (hf : s.frozen = false) :
    Completes (.msipWrite core v) s [L.MSIP core, L.CORE_WAIT] [] fun e =>
      e.get (L.MSIP core) = b2n v ∧ (v = true → bitAt (e.get L.CORE_WAIT) core = false) := by
  refine ⟨_, State.lanes_of hf fun d => msipSet d core (b2n v), msipSet_onlyChanges _ _ _, ?_, ?_⟩
  · exact (msipSet_msip _ _ core.isLt).trans (by cases v <;> rfl)
  · rintro rfl
    exact msipSet_wakes _ core.isLt

theorem exec_timer {s : State} (core : Fin 4) (hf : s.frozen = false) : exec (.machineTimerInterrupt core) s =
    .next (s.setDev (if timerDue s.d core then s.d.set (L.MTIP core) 1 else s.d)) :=
  State.lanes_of hf fun d => if timerDue d core then d.set (L.MTIP core) 1 else d

theorem completes_timer {s : State} (core : Fin 4) (hf : s.frozen = false) (h : s.d.get (L.MTIMECMP core) ≤ s.d.cyc) :
    Completes (.machineTimerInterrupt core) s [L.MTIP core] [] fun e => e.get (L.MTIP core) = 1 := by
  have hexec := exec_timer core hf
  rw [timerDue, decide_eq_true h, if_pos rfl] at hexec
  exact ⟨_, hexec, (Dev.OnlyChanges.refl _ _ _).set _ (by simp), Dev.get_set_same _ _ _⟩

theorem noEffect_timer {s : State} (core : Fin 4) (hf : s.frozen = false) (h : s.d.cyc < s.d.get (L.MTIMECMP core)) :
    NoEffect (.machineTimerInterrupt core) s := by
  have hexec := exec_timer core hf
  rw [timerDue, decide_eq_false (Nat.not_le.mpr h), if_neg Bool.false_ne_true] at hexec
  exact hexec

/-- The link takes a value. -/
def m0LinkSet (d : Dev) (up an : Bool) : Dev :=
  d.setAll [(R.MGMT0_STATUS_LINK, b2n up), (R.MGMT0_STATUS_AN_DONE, b2n (up && an && d.on R.MGMT0_CTRL_AN_EN))]

theorem m0Link_eq (d : Dev) (up an : Bool) : m0Link d up an = (m0LinkSet d up an).latchIf (d.on R.MGMT0_STATUS_LINK != up) 8 12 := rfl

theorem m0Link_onlyChanges (d : Dev) (up an : Bool) : d.OnlyChanges (m0Link d up an) [R.MGMT0_STATUS_LINK, R.MGMT0_STATUS_AN_DONE] [8] :=
  ((Dev.OnlyChanges.refl d [R.MGMT0_STATUS_LINK, R.MGMT0_STATUS_AN_DONE] [8]).setAll
    [(R.MGMT0_STATUS_LINK, b2n up), (R.MGMT0_STATUS_AN_DONE, b2n (up && an && d.on R.MGMT0_CTRL_AN_EN))] (by simp)).latchIf _ 8 12
    (by simp) (by decide)

theorem m0Link_reads (d : Dev) (up an : Bool) : (m0Link d up an).get R.MGMT0_STATUS_LINK = b2n up ∧
    (up = false → (m0Link d up an).get R.MGMT0_STATUS_AN_DONE = 0) := by
  rw [m0Link_eq, Dev.get_latchIf_ne _ _ _ _ (by decide) _ (by decide), Dev.get_latchIf_ne _ _ _ _ (by decide) _ (by decide), m0LinkSet,
    Dev.setAll_cons, Dev.setAll_cons, Dev.setAll_nil]
  constructor
  · rw [Dev.get_set_ne _ _ _ _ (show R.MGMT0_STATUS_LINK.key ≠ R.MGMT0_STATUS_AN_DONE.key by decide), Dev.get_set_same]
    cases up <;> rfl
  · rintro rfl
    exact Dev.get_set_same _ _ _

theorem m0Link_event {d : Dev} {up : Bool} (an : Bool) (h : d.get R.MGMT0_STATUS_LINK = b2n (!up)) : (m0Link d up an).evt 8 12 = true := by
  have hchanges : (d.on R.MGMT0_STATUS_LINK != up) = true := by
    rw [Dev.on, h]
    cases up <;> rfl
  rw [m0Link_eq, hchanges, Dev.latchIf, if_pos rfl]
  exact Dev.evt_latch_same _ _ _ (by decide) (by decide) (evtBitServed_of_not_port _ _ _ (by decide))

theorem completes_linkChange {s : State} (up an : Bool) (hf : s.frozen = false) (hm : m0Runs s.d = true) :
    Completes (.mgmt0LinkChange up an) s [R.MGMT0_STATUS_LINK, R.MGMT0_STATUS_AN_DONE] [8] fun e =>
      e.get R.MGMT0_STATUS_LINK = b2n up ∧ (up = false → e.get R.MGMT0_STATUS_AN_DONE = 0) ∧
      (s.d.get R.MGMT0_STATUS_LINK = b2n (!up) → e.evt 8 12 = true) := by
  have hexec : exec (.mgmt0LinkChange up an) s = .next (s.setDev (if m0Runs s.d then m0Link s.d up an else s.d)) :=
    State.lanes_of hf fun d => if m0Runs d then m0Link d up an else d
  rw [hm, if_pos rfl] at hexec
  obtain ⟨hlink, hdone⟩ := m0Link_reads s.d up an
  exact ⟨_, hexec, m0Link_onlyChanges s.d up an, hlink, hdone, m0Link_event an⟩

/-! ## The commands of MGMT0 (R363) -/

theorem completes_rxLost {s : State} (bytes : List Byte) (viol : Nat) (hf : s.frozen = false) (hm : m0Runs s.d = true)
    (hl : s.d.on R.MGMT0_STATUS_LINK = true) (h : ringHasDesc s.d 128 = false) :
    Completes (.mgmt0RxFrame bytes false viol) s [R.MGMT0_CODE_VIOL] [] fun e => s.d.get (L.PAGE_FREEZE 8) = 0 → viol ≠ 0 →
      e.get R.MGMT0_CODE_VIOL = min (s.d.get R.MGMT0_CODE_VIOL + viol) (2 ^ R.MGMT0_CODE_VIOL.w - 1) := by
  have hexec : exec (.mgmt0RxFrame bytes false viol) s = .next (s.setDev (m0Receive s.d bytes false viol)) :=
    State.lanes_of hf fun d => m0Receive d bytes false viol
  rw [m0Receive_lost bytes viol hm hl h] at hexec
  refine ⟨_, hexec, ?_, fun hfreeze hviol => ?_⟩
  · exact Dev.OnlyChanges.ite (fun _ => .refl _ _ _) fun _ => (Dev.OnlyChanges.refl _ _ _).count 8 viol (by simp)
  · rw [if_neg hviol, Dev.get_count_same, Dev.on, hfreeze]
    rfl

theorem yields_rxFrame {s : State} {bytes : List Byte} (hf : s.frozen = false) (hm : m0Runs s.d = true)
    (hl : s.d.on R.MGMT0_STATUS_LINK = true) (h : DescReady s.d 128) (hlen : 64 ≤ bytes.length) (hfit : bytes.length - 4 ≤ ringBufSize s.d 128)
    (hfcs : Crypto.fcs (bytes.take (bytes.length - 4)) = bytes.drop (bytes.length - 4)) (hbuf : InSram (nextBuffer s.d 128) (bytes.length - 4))
    (hapart : nextBuffer s.d 128 + (bytes.length - 4) ≤ ringBase s.d 128 + 32 * ringNext s.d 128 ∨
      ringBase s.d 128 + 32 * ringNext s.d 128 + 32 ≤ nextBuffer s.d 128) :
    Yields (.mgmt0RxFrame bytes false 0) s fun e => ringTaken e 128 = [] ∧
      e.get (L.M0_HEAD 0) = (ringNext s.d 128 + 1) % ringSize s.d 128 % 2 ^ 16 ∧
      memBytes e (nextBuffer s.d 128) (bytes.length - 4) = bytes.take (bytes.length - 4) := by
  have hexec : exec (.mgmt0RxFrame bytes false 0) s = .next (s.setDev (m0Receive s.d bytes false 0)) :=
    State.lanes_of hf fun d => m0Receive d bytes false 0
  rw [m0Receive_ready hm hl h hlen hfit hfcs hbuf] at hexec
  have hbody : (bytes.take (bytes.length - 4)).length = bytes.length - 4 := by rw [List.length_take]; omega
  have hstored := memBytes_sramPut_same s.d (a := nextBuffer s.d 128) (bs := bytes.take (bytes.length - 4)) (by rw [hbody]; exact hbuf)
  rw [hbody] at hstored
  refine ⟨_, hexec, ?_, head_writtenBack _ (by decide) _ _, ?_⟩
  · rw [ringTaken_writtenBack]
    exact h.ringTaken
  · rw [memBytes_writtenBack (sramPut _ _ _) rfl hbuf hapart, hstored]

theorem noEffect_txDescriptor {s : State} (hf : s.frozen = false) (h : ringHasDesc s.d 129 = false) : NoEffect .mgmt0TxDescriptor s := by
  have hexec : exec .mgmt0TxDescriptor s = .next (s.setDev (m0Transmit s.d)) := State.lanes_of hf m0Transmit
  rw [m0Transmit_none h] at hexec
  exact hexec

theorem yields_txDescriptor {s : State} (hf : s.frozen = false) (hm : m0Runs s.d = true) (hl : s.d.on R.MGMT0_STATUS_LINK = true)
    (h : DescReady s.d 129) (hmin : 60 ≤ txLen (nextWords s.d 129)) (hmax : txLen (nextWords s.d 129) ≤ 15996)
    (hts : txTsReq (nextWords s.d 129) = false) (hop : txCdOp (nextWords s.d 129) = 0)
    (hbuf : InSram (nextBuffer s.d 129) (txLen (nextWords s.d 129))) :
    let body := memBytes s.d (nextBuffer s.d 129) (txLen (nextWords s.d 129))
    Yields .mgmt0TxDescriptor s fun e => ringTaken e 129 = [] ∧ e.out = s.d.out ++ [.frame 256 s.d.time (body ++ Crypto.fcs body)] ∧
      (s.d.lines.length = 3 → (e.line 2).queue = (s.d.line 2).queue ++ mgmtChars (body ++ Crypto.fcs body)) ∧
      e.get (L.M0_HEAD 1) = (ringNext s.d 129 + 1) % ringSize s.d 129 % 2 ^ 16 := by
  intro body
  have hexec : exec .mgmt0TxDescriptor s = .next (s.setDev (m0Transmit s.d)) := State.lanes_of hf m0Transmit
  rw [m0Transmit_ready hm hl h hmin hmax hts hop hbuf] at hexec
  refine ⟨_, hexec, ?_, ?_, fun h3 => ?_, head_writtenBack _ (by decide) _ _⟩
  · rw [ringTaken_writtenBack]
    exact h.ringTaken
  · rw [writtenBack, Dev.set_out]
    rfl
  · rw [← m0Sent_line _ _ h3, writtenBack, Dev.line, Dev.set_lines]
    rfl

end Sys2Proof.Machine

open Sys2Proof Sys2Proof.Machine

/-- Settles O40: the frames and the lines by the layers above, each clause by the lemma of its command. -/
theorem coreRows : Obligations.CoreRows := by
  unfold Obligations.CoreRows
  intro s core addr write v up an bytes viol hf d a words inSram ready buffer
  have hready (n : Nat) (hn : 128 ≤ n) (h : ready n) : DescReady d n := by
    obtain ⟨herr, hen, hdesc, htaken, hsram, hown⟩ := h
    exact ⟨hn, hen, by rw [Dev.on, herr]; rfl, hdesc, fun z hz => by simpa using List.filter_eq_nil_iff.mp htaken z hz, hsram, hown⟩
  refine ⟨fun hr hs hd => becomes_accessFault core addr write hf hr hs hd, completes_msipWrite core v hf, completes_timer core hf,
    noEffect_timer core hf, fun hm => ⟨completes_linkChange up an hf hm, fun hlink => ?_⟩, fun i rd b => codedOn_data i b rd,
    fun i rd b hb => codedOn_k i hb rd, decodeChar_unlisted, fun i rd c r h => decodeLine_violation i r h, belayReceive_belayChars,
    belayItems_filler, fun t => ⟨lineRefill_queue false t (.inl rfl), fun h => lineRefill_queue true t (.inr h.ne), lineRefill_filler t⟩⟩
  have hl : d.on R.MGMT0_STATUS_LINK = true := by rw [Dev.on, hlink]; rfl
  exact ⟨completes_rxLost bytes viol hf hm hl,
    fun hr hlen hfit hfcs hbuf hapart => yields_rxFrame hf hm hl (hready 128 (by decide) hr) hlen hfit hfcs hbuf hapart,
    noEffect_txDescriptor hf,
    fun hr hmin hmax hts hop hbuf => yields_txDescriptor hf hm hl (hready 129 (by decide) hr) hmin hmax hts hop hbuf⟩
end

section
namespace Sys2Proof.Machine

/-! ## A copy of a queue that there is none of (R168, R297)

The part has 4,224 queues, and an issued copy carries its queue as a number without a bound. The charge of a far greater number lies where the
model keeps the alarm conditions that the next tick samples. -/

/-- The queue whose charge lies at the alarm conditions. -/
def strayQueue : Nat := (L.AL_PULSE.key - (R.QSTAT_CHARGE 0).key) / 512

theorem strayQueue_key : (R.QSTAT_CHARGE strayQueue).key = L.AL_PULSE.key := by decide

/-- A copy of `strayFrame` that is charged to that queue. -/
def strayCopy : Copy :=
  { id := 9, frame := 1, queue := strayQueue, edit := ⟨false, false, 0, 0, false, false, false⟩, cdOp := 0, cdTime := 0, flow := 0, colour := 0,
    joined := 0, desc := none, tsReq := false }

/-- The copy issued in clear on port 0, with its planned start in the first cycle. -/
def strayTx : TxCopy :=
  { copy := strayCopy, port := 0, start := 0, phys := 0, sa := none, pn := 0, key := 0, tag := [], iv := 0, klen := 0, conf := false, off := 0,
    tc := 0, cut := false, s := 84, started := false, drop := 0, steps := 0, moved := 0, poison := none, pre := false, suspended := false,
    sent := 0, fragStart := 0 }

/-- The running part with that copy issued; port 0 has MUST_PROTECT for every class. -/
def strayTxState : State := runningState.setDev { Dev.empty with frames := [strayFrame], txs := [strayTx] }

theorem guardPasses_strayTx : guardPasses strayTxState.d 0 (copyBytes strayFrame strayCopy strayTx.tc) = false := by decide +kernel

/-- The guard's alarm is gone once the dropped copy has left its queue's charge. -/
theorem copyStart_strayTx_alarm : bitAt ((copyStart strayTxState.run strayTxState.d 0).get L.AL_PULSE) 54 = false := by decide +kernel

/-- Unless the run state stops the transmitters, COPY_START is the port's next start. -/
theorem exec_copyStart {s : State} (h : s.run.stopped = false) (p : Fin 256) :
    exec (.copyStart p) s = .next (s.setDev (copyStart s.run s.d p)) := by
  show Host.Outcome.next (s.setDev (if s.run.stopped then s.d else copyStart s.run s.d p)) = _
  rw [h, if_neg Bool.false_ne_true]

end Sys2Proof.Machine

open Sys2Proof Sys2Proof.Machine

/-- Refutes O32: a copy that the clear-egress guard does not pass raises alarm 54 and then leaves the charge of its queue. Nothing bounds the
queue number that an issued copy carries by the 4,224 that there are, and the charge of `strayQueue` lies at the alarm conditions, so writing
it takes alarm 54 away before the next tick samples it. -/
theorem not_copyRows : ¬ Obligations.CopyRows := by
  unfold Obligations.CopyRows
  intro h
  have hruns : strayTxState.run.stopped = false := by decide
  obtain ⟨-, -, hrows⟩ := h strayTxState 0 0 0 0 0 0 0 strayFrame strayCopy strayTx strayTxState.d strayTxState.d [] L.AL_PULSE
  obtain ⟨hstarts, -⟩ := hrows hruns (by decide +kernel)
  obtain ⟨-, hdue⟩ := hstarts (by decide +kernel)
  obtain ⟨-, -, hguard⟩ := hdue (by decide)
  obtain ⟨-, halarm⟩ := (hguard (by decide) rfl guardPasses_strayTx).of_exec (exec_copyStart hruns 0)
  exact absurd (copyStart_strayTx_alarm.symm.trans halarm) (by decide)
end

section
namespace Sys2Proof.Machine

/-! ## Writing SA_CMD (R193) -/

/-- The fields in which SA_CMD reports. -/
def saCmdFields : List Fld := [R.SA_CMD_STATUS_CODE, R.SA_CMD_STATUS_BUSY]

/-- SA_CMD reports a code, and whether an operation waits. -/
def saCmdReport (d : Dev) (code busy : Nat) : Dev := d.setAll [(R.SA_CMD_STATUS_CODE, code), (R.SA_CMD_STATUS_BUSY, busy)]

theorem saCmdReport_onlyChanges (d : Dev) (code busy : Nat) : d.OnlyChanges (saCmdReport d code busy) saCmdFields [] :=
  (Dev.OnlyChanges.refl d _ _).setAll _ (by simp [saCmdFields])

theorem saCmdReport_reads (d : Dev) {code busy : Nat} (hc : code < 2 ^ 8) (hb : busy < 2 ^ 1) :
    (saCmdReport d code busy).get R.SA_CMD_STATUS_CODE = code ∧ (saCmdReport d code busy).get R.SA_CMD_STATUS_BUSY = busy := by
  constructor
  · rw [saCmdReport, Dev.setAll_cons, Dev.get_setAll_ne _ _ _ (by simp; decide), Dev.get_set_same]
    exact Nat.mod_eq_of_lt hc
  · rw [saCmdReport, Dev.setAll_cons, Dev.setAll_cons, Dev.setAll_nil, Dev.get_set_same]
    exact Nat.mod_eq_of_lt hb

/-- The report moves no table field and no field of the model's own. -/
theorem saCmdReport_get (d : Dev) (code busy : Nat) {g : Fld} (hg : tblBase ≤ g.key) : (saCmdReport d code busy).get g = d.get g := by
  refine (saCmdReport_onlyChanges d code busy).2 g (fun f hf => ?_) (by simp)
  have hlt : ∀ f ∈ saCmdFields, f.key < tblBase := by decide
  exact (Nat.lt_of_lt_of_le (hlt f hf) hg).ne'

/-- A write while one waits is ignored. -/
theorem saCmd_of_busy {d : Dev} (enable rx : Bool) (i : Nat) (h : d.get R.SA_CMD_STATUS_BUSY ≠ 0) : saCmd d enable rx i = d :=
  if_pos (by simpa [Dev.on] using h)

theorem saCmd_of_free {d : Dev} (enable rx : Bool) (i : Nat) (h : d.get R.SA_CMD_STATUS_BUSY = 0) :
    saCmd d enable rx i = saCmdReport (d.post (.saCmd enable rx i)) codeRunning 1 := by
  rw [saCmd, if_neg (by simp [Dev.on, h])]
  rfl

/-- The two rows are writes of SA_CMD. -/
theorem exec_saCmd {s : State} (hl : s.live 0x70 = true) (rx : Bool) (k : BitVec 17) :
    exec (.saCmdEnable rx k) s = .next (s.setDev (saCmd s.d true rx k.toNat)) ∧
      exec (.saCmdRetire rx k) s = .next (s.setDev (saCmd s.d false rx k.toNat)) :=
  have hlive (enable : Bool) : (if s.live 0x70 then saCmd s.d enable rx k.toNat else s.d) = saCmd s.d enable rx k.toNat := if_pos hl
  ⟨congrArg (fun d => Host.Outcome.next (s.setDev d)) (hlive true), congrArg (fun d => Host.Outcome.next (s.setDev d)) (hlive false)⟩

/-- A write of SA_CMD while none waits reads RUNNING and BUSY and waits for the next tick. -/
theorem defers_saCmd {s : State} {c : Instr} {enable rx : Bool} {i : Nat} (hc : exec c s = .next (s.setDev (saCmd s.d enable rx i)))
    (h : s.d.get R.SA_CMD_STATUS_BUSY = 0) :
    Defers c s (.saCmd enable rx i) saCmdFields fun e => e.get R.SA_CMD_STATUS_CODE = codeRunning ∧ e.get R.SA_CMD_STATUS_BUSY = 1 := by
  rw [saCmd_of_free enable rx i h] at hc
  exact ⟨_, hc, saCmdReport_onlyChanges _ _ _, saCmdReport_reads _ (by decide) (by decide)⟩

theorem noEffect_saCmd {s : State} {c : Instr} {enable rx : Bool} {i : Nat} (hc : exec c s = .next (s.setDev (saCmd s.d enable rx i)))
    (h : s.d.get R.SA_CMD_STATUS_BUSY ≠ 0) : NoEffect c s := by
  rw [saCmd_of_busy enable rx i h, State.setDev_self] at hc
  exact hc

/-! ## Receive SAs that enter and leave service (R190, R231) -/

/-- The fields that a receive SA's entry into service moves. -/
def rxServeFields (j : Nat) : List Fld := [R.RXSA_STATE j, L.RXSA_FROM_V j, L.RXSA_FROM j, L.RXSA_UNTIL_V j, L.RXSA_UNTIL j]

/-- Receive SA `j` is in service for frames of any time. -/
def rxServe (d : Dev) (j : Nat) : Dev :=
  d.setAll [(R.RXSA_STATE j, saInService), (L.RXSA_FROM_V j, 0), (L.RXSA_FROM j, 0), (L.RXSA_UNTIL_V j, 0), (L.RXSA_UNTIL j, 0)]

theorem rxServe_onlyChanges (d : Dev) (j : Nat) : d.OnlyChanges (rxServe d j) (rxServeFields j) [] :=
  (Dev.OnlyChanges.refl d _ _).setAll _ (by simp [rxServeFields])

theorem rxServe_reads (d : Dev) (j : Nat) : saState (rxServe d j) true j = saInService ∧ (rxServe d j).get (L.RXSA_FROM_V j) = 0 := by
  simp (disch := simp only [R.RXSA_STATE, L.RXSA_FROM_V, L.RXSA_FROM, L.RXSA_UNTIL_V, L.RXSA_UNTIL, tblFld, latFld, tblBase, latBase]; omega) only
    [rxServe, saState, saStateF, if_true, Dev.setAll_cons, Dev.setAll_nil, Dev.get_set_ne, Dev.get_set_same]
  exact ⟨rfl, rfl⟩

theorem saEnable_rx_of_loaded {d : Dev} {j : Nat} (h : saState d true j = saLoaded) : saEnable d true j none = (rxServe d j, codeOk) := by
  rw [saEnable, if_neg (by simp [h]), if_pos rfl]
  rfl

theorem saEnable_of_not_loaded {d : Dev} {rx : Bool} {i : Nat} {t : Option Nat} (h : saState d rx i ≠ saLoaded) :
    saEnable d rx i t = (d, codeState) := if_pos h

theorem saRetire_rx_of_may {d : Dev} {j : Nat} (h : saState d true j = saInService) (hu : d.get (L.RXSA_UNTIL_V j) = 0) :
    saRetire d true j none = (d.set (R.RXSA_STATE j) saDraining, codeOk) := by
  rw [saRetire, if_neg (by simp [h, Dev.on, hu]), if_pos rfl]
  rfl

theorem saRetire_rx_of_not {d : Dev} {j : Nat} (h : saState d true j ≠ saInService ∨ d.get (L.RXSA_UNTIL_V j) ≠ 0) :
    saRetire d true j none = (d, codeState) := by
  rw [saRetire, if_pos (by simpa [Dev.on] using h)]

theorem saState_rx_drained (d : Dev) (j : Nat) : saState (d.set (R.RXSA_STATE j) saDraining) true j = saDraining :=
  Dev.get_set_same _ _ _

/-! ## An SA_CMD operation acts (R193) -/

theorem Acts.mono {x : Posted} {s : State} {d0 : Dev} {fs fs' : List Fld} {evs : List Nat} {post post' : Dev → Prop}
    (h : Acts x s d0 fs evs post) (hf : ∀ f ∈ fs, f ∈ fs') (hp : ∀ e, post e → post' e) : Acts x s d0 fs' evs post' := by
  obtain ⟨e, he, hframe, hpost⟩ := h
  exact ⟨e, he, hframe.mono hf fun _ => id, hp e hpost⟩

/-- What the operation of an SA_CMD does to the contents, and its code. -/
def saCmdResult (d : Dev) (enable rx : Bool) (i : Nat) : Dev × Nat := if enable then saEnable d rx i none else saRetire d rx i none

theorem saCmdApply_eq {d : Dev} {enable rx : Bool} {i : Nat} (hi : i < numSa rx) :
    saCmdApply d enable rx i = saCmdReport (saCmdResult d enable rx i).1 (saCmdResult d enable rx i).2 0 := by
  rw [saCmdApply, if_neg (by omega)]
  rfl

/-- An operation that leaves `e` and ends with a code: the tables and the model's own fields read as in `e`, and SA_CMD reports the code. -/
theorem acts_saCmd {s : State} {enable rx : Bool} {i code : Nat} {e : Dev} {gs : List Fld} (hi : i < numSa rx)
    (hr : saCmdResult s.d enable rx i = (e, code)) (hcode : code < 2 ^ 8) (hc : s.d.OnlyChanges e gs []) :
    Acts (.saCmd enable rx i) s s.d (saCmdFields ++ gs) [] fun e' =>
      (∀ g : Fld, tblBase ≤ g.key → e'.get g = e.get g) ∧ e'.get R.SA_CMD_STATUS_CODE = code ∧ e'.get R.SA_CMD_STATUS_BUSY = 0 := by
  refine ⟨saCmdReport e code 0, ?_, ?_, fun g => saCmdReport_get e code 0, saCmdReport_reads e hcode (by decide)⟩
  · show s.setDev (saCmdApply s.d enable rx i) = _
    rw [saCmdApply_eq hi, hr]
  · exact (hc.mono (by simp +contextual) (by simp)).trans ((saCmdReport_onlyChanges e code 0).mono (by simp +contextual) (by simp))

/-- A refused operation changes nothing and reports ERR_STATE. -/
theorem acts_saCmd_refused {s : State} {enable rx : Bool} {i : Nat} (hi : i < numSa rx) (hr : saCmdResult s.d enable rx i = (s.d, codeState)) :
    Acts (.saCmd enable rx i) s s.d saCmdFields [] fun e => e.get R.SA_CMD_STATUS_CODE = codeState ∧ e.get R.SA_CMD_STATUS_BUSY = 0 :=
  (acts_saCmd hi hr (by decide) (Dev.OnlyChanges.refl s.d [] [])).mono (by simp) fun _ h => h.2

/-- The fields of an SA are table fields or the model's own. -/
theorem tblBase_le_saFields (rx : Bool) (i : Nat) : tblBase ≤ (saStateF rx i).key ∧ tblBase ≤ (L.RXSA_FROM_V i).key ∧
    tblBase ≤ (R.SECY_ENCODING_AN i).key := by
  cases rx <;>
    simp only [saStateF, if_true, if_false, Bool.false_eq_true, R.RXSA_STATE, R.TXSA_STATE, L.RXSA_FROM_V, R.SECY_ENCODING_AN, tblFld, latFld,
      tblBase, latBase] <;>
    omega

/-- ENABLE of a LOADED receive SA. -/
theorem acts_saCmd_enableRx {s : State} {j : Nat} (hj : j < 65536) (h : saState s.d true j = saLoaded) :
    Acts (.saCmd true true j) s s.d (saCmdFields ++ rxServeFields j) [] fun e => saState e true j = saInService ∧
      (e.get R.SA_CMD_STATUS_CODE = codeOk ∧ e.get R.SA_CMD_STATUS_BUSY = 0) ∧ e.get (L.RXSA_FROM_V j) = 0 := by
  obtain ⟨hstate, hfrom⟩ := rxServe_reads s.d j
  obtain ⟨hkey, hkeyV, -⟩ := tblBase_le_saFields true j
  refine (acts_saCmd (enable := true) hj (saEnable_rx_of_loaded h) (by decide) (rxServe_onlyChanges s.d j)).mono (fun _ => id) ?_
  rintro e ⟨hget, hends⟩
  exact ⟨(hget _ hkey).trans hstate, hends, (hget _ hkeyV).trans hfrom⟩

/-- ENABLE of a LOADED transmit SA whose SecY has none in service. -/
theorem acts_saCmd_enableTx {s : State} {i : Nat} (hi : i < 16384) (h : txMayServe s.d i) :
    Acts (.saCmd true false i) s s.d (saCmdFields ++ serveFields i) [] fun e => saState e false i = saInService ∧
      e.get (R.SECY_ENCODING_AN (i / 4)) = i % 4 ∧ e.get R.SA_CMD_STATUS_CODE = codeOk ∧ e.get R.SA_CMD_STATUS_BUSY = 0 := by
  refine (acts_saCmd (enable := true) hi (saEnable_tx_of_may h) (by decide) (txServe_onlyChanges s.d i)).mono (fun _ => id) ?_
  rintro e ⟨hget, hends⟩
  exact ⟨(hget _ (tblBase_le_saFields false i).1).trans (saState_txServe s.d i),
    (hget _ (tblBase_le_saFields false (i / 4)).2.2).trans (encodingAn_txServe s.d i), hends⟩

/-- RETIRE of an SA in service: it drains. -/
theorem acts_saCmd_retire {s : State} {rx : Bool} {i : Nat} (hi : i < numSa rx)
    (hr : saCmdResult s.d false rx i = (s.d.set (saStateF rx i) saDraining, codeOk)) :
    Acts (.saCmd false rx i) s s.d (saStateF rx i :: saCmdFields) [] fun e => saState e rx i = saDraining ∧
      e.get R.SA_CMD_STATUS_CODE = codeOk ∧ e.get R.SA_CMD_STATUS_BUSY = 0 := by
  have hc : s.d.OnlyChanges (s.d.set (saStateF rx i) saDraining) [saStateF rx i] [] := (Dev.OnlyChanges.refl _ _ _).set _ (by simp)
  refine (acts_saCmd hi hr (by decide) hc).mono (by simp [or_comm]) ?_
  rintro e ⟨hget, hends⟩
  refine ⟨(hget _ (tblBase_le_saFields rx i).1).trans ?_, hends⟩
  rw [Dev.get_set_same]
  cases rx <;> rfl

/-! ## A transmit SA has drained (R191, R198) -/

/-- Transmit SA `i` reads EMPTY: its scheduled actions, its key, its salt, its frame count and its entry are gone. -/
def txEmptied (d : Dev) (i : Nat) : Dev :=
  ((saHeldDrop d i).setAll [(L.SA_KEY i, 0), (L.SA_SALT i, 0), (R.TXSA_KEY_PRESENT i, 0), (L.SA_FRAMES i, 0)]).clearEntry 0x70 1 i

/-- A DRAINING SA is not the one that a pending switch waits for, so none is cancelled (R229). -/
theorem saToEmpty_of_draining {d : Dev} {i : Nat} (h : saState d false i = saDraining) : saToEmpty d false i = txEmptied d i := by
  have hloaded : ¬ saState d false i = saLoaded := by
    rw [h]
    decide
  simp only [saToEmpty, if_neg hloaded]
  rfl

/-- Where the entry of a transmit SA lies. -/
theorem entryKey_iff {i k : Nat} : entryKey 0x70 1 i k = true ↔
    2 ^ 44 + (0x70 * 32 + 1) * 2 ^ 29 + i * 512 ≤ k ∧ k < 2 ^ 44 + (0x70 * 32 + 1) * 2 ^ 29 + (i + 1) * 512 := by
  simp only [entryKey, Bool.and_eq_true, decide_eq_true_eq]
  simp only [tblKey, tblBase]
  omega

theorem txEmptied_get (d : Dev) (i : Nat) (g : Fld) : (txEmptied d i).get g = if entryKey 0x70 1 i g.key = true then g.reset else
    ((saHeldDrop d i).setAll [(L.SA_KEY i, 0), (L.SA_SALT i, 0), (R.TXSA_KEY_PRESENT i, 0), (L.SA_FRAMES i, 0)]).get g := by
  rw [txEmptied, Dev.clearEntry, Dev.get_clearRange]
  simp [entryKey]

theorem txEmptied_entry (d : Dev) (i : Nat) {g : Fld} (h : entryKey 0x70 1 i g.key = true) : (txEmptied d i).get g = g.reset := by
  rw [txEmptied_get, if_pos h]

theorem txEmptied_key (d : Dev) {i : Nat} (hi : i < 16384) : (txEmptied d i).get (L.SA_KEY i) = 0 ∧ (txEmptied d i).get (L.SA_SALT i) = 0 := by
  have hlat (g : Nat) (w : Nat) : entryKey 0x70 1 i (latFld g i w 0).key = false := by
    rw [← Bool.not_eq_true, entryKey_iff]
    simp only [latFld, latBase]
    omega
  rw [txEmptied_get, txEmptied_get, L.SA_KEY, L.SA_SALT, hlat, hlat, if_neg Bool.false_ne_true, if_neg Bool.false_ne_true]
  simp (disch := simp only [R.TXSA_KEY_PRESENT, L.SA_FRAMES, tblFld, latFld, tblBase, latBase]; omega) only
    [Dev.setAll_cons, Dev.setAll_nil, Dev.get_set_ne, Dev.get_set_same]
  exact ⟨rfl, rfl⟩

/-- What emptying a transmit SA and its record may write. -/
def txDrainKey (i k : Nat) : Bool := entryKey 0x70 1 i k || keyOf [L.SA_KEY i, L.SA_SALT i, L.SA_FRAMES i] k || eventKey 0x70 k

theorem txDrainKey_entry {i k : Nat} (h : entryKey 0x70 1 i k = true) : txDrainKey i k = true := by simp [txDrainKey, h]

theorem txEmptied_keepsBut (d : Dev) (i : Nat) : (saHeldDrop d i).KeepsBut (txEmptied d i) (txDrainKey i) := by
  refine ⟨rfl, fun g hg => ?_⟩
  have hentry : entryKey 0x70 1 i g.key = false := by
    rw [← Bool.not_eq_true]
    exact fun c => Bool.false_ne_true (hg.symm.trans (txDrainKey_entry c))
  have hpresent : g.key ≠ (R.TXSA_KEY_PRESENT i).key := by
    intro c
    refine Bool.false_ne_true (hentry.symm.trans (entryKey_iff.2 ?_))
    rw [c]
    simp only [R.TXSA_KEY_PRESENT, tblFld, tblBase]
    omega
  simp only [txDrainKey, keyOf, List.any_cons, List.any_nil, Bool.or_false, Bool.or_eq_false_iff, beq_eq_false_iff_ne] at hg
  obtain ⟨⟨-, hkey, hsalt, hframes⟩, -⟩ := hg
  rw [txEmptied_get, hentry, if_neg Bool.false_ne_true]
  exact Dev.get_setAll_ne _ _ _ (by simpa using ⟨hkey.symm, hsalt.symm, hpresent, hframes.symm⟩)

/-- The event queue takes a record (R198). -/
def saEventAdd (d : Dev) (w : Nat) : Dev := { d with saEvents := d.saEvents ++ [w] }

theorem Dev.KeepsBut.saEventAdd {d e : Dev} {p : Nat → Bool} (h : d.KeepsBut e p) (w : Nat) :
    (Machine.saEventAdd d w).KeepsBut (Machine.saEventAdd e w) p := by
  refine ⟨?_, h.2⟩
  rw [h.1]
  rfl

theorem saRecord_of_room {d : Dev} {rx : Bool} {i kind : Nat} (h : d.saEvents.length < 256) :
    saRecord d rx i kind = (saEventAdd d (i + b2n rx * 2 ^ 17 + kind * 2 ^ 20 + 2 ^ 31)).latch 0x70 (saRegion rx i) := by
  rw [saRecord, if_pos h]
  rfl

/-- A DRAINING transmit SA is empty now: it is emptied and an EMPTIED record joins the queue. -/
theorem saDrained_of_draining {d : Dev} {i : Nat} (h : saState d false i = saDraining) (hroom : d.saEvents.length < 256) :
    saDrained d false i = (saEventAdd (txEmptied d i) (i + 3 * 2 ^ 20 + 2 ^ 31)).latch 0x70 (i / 512) := by
  have hroom' : (txEmptied d i).saEvents.length < 256 := hroom
  rw [saDrained, if_pos h, saToEmpty_of_draining h, saRecord_of_room hroom', b2n, if_neg Bool.false_ne_true]
  rfl

/-- No field of an SA's entry is an event field, nor is one of the model's own behind the events' groups. -/
theorem eventKey_saEntry {i k : Nat} (hi : i < 16384) (h : entryKey 0x70 1 i k = true) : eventKey 0x70 k = false := by
  rw [← Bool.not_eq_true]
  intro hev
  rw [entryKey_iff] at h
  rcases eventKey_place hev with h | h | ⟨g, hg, h⟩ | h <;> omega

theorem eventKey_saLat {g i w r : Nat} (hg : 48 ≤ g) (pg : Nat) (hp : pg < 256) (hi : i < 2 ^ 32) : eventKey pg (latFld g i w r).key = false := by
  rw [← Bool.not_eq_true]
  intro hev
  simp only [latFld, latBase] at hev
  rcases eventKey_place hev with h | h | ⟨g', hg', h⟩ | h <;> omega

/-- SA_DRAIN_COMPLETE of a DRAINING transmit SA, with room in the event queue. -/
theorem becomesBut_saDrainComplete {s : State} {i : Nat} (hi : i < 16384) (hf : s.frozen = false) (h : saState s.d false i = saDraining)
    (hroom : s.d.saEvents.length < 256) :
    BecomesBut (.saDrainComplete false (BitVec.ofNat 17 i)) s (saEventAdd (saHeldDrop s.d i) (i + 3 * 2 ^ 20 + 2 ^ 31)) (txDrainKey i) fun e =>
      (∀ g : Fld, entryKey 0x70 1 i g.key = true → e.get g = g.reset) ∧ e.get (L.SA_KEY i) = 0 ∧ e.get (L.SA_SALT i) = 0 ∧
        e.evt 0x70 (i / 512) = true := by
  have hindex : (BitVec.ofNat 17 i).toNat = i := Nat.mod_eq_of_lt (by omega)
  have hb : i / 512 < 32 := by omega
  obtain ⟨hkey, hsalt⟩ := txEmptied_key s.d hi
  refine ⟨(saEventAdd (txEmptied s.d i) (i + 3 * 2 ^ 20 + 2 ^ 31)).latch 0x70 (i / 512), ?_, ?_, fun g hg => ?_, ?_, ?_, ?_⟩
  · show s.lanes _ = _
    rw [State.lanes_of hf, hindex, if_pos (show i < numSa false from hi), saDrained_of_draining h hroom]
  · have hlatch (d : Dev) : d.KeepsBut (d.latch 0x70 (i / 512)) (txDrainKey i) :=
      ((Dev.OnlyChanges.refl d [] [0x70]).latch 0x70 _ (by simp) hb).within (by simp) (by simp +contextual [txDrainKey])
    exact ((txEmptied_keepsBut s.d i).saEventAdd _).trans (hlatch _)
  · exact (Dev.get_latch_ne _ _ _ hb _ (eventKey_saEntry hi hg)).trans (txEmptied_entry s.d i hg)
  · exact (Dev.get_latch_ne _ _ _ hb _ (eventKey_saLat (by decide) _ (by decide) (by omega))).trans hkey
  · exact (Dev.get_latch_ne _ _ _ hb _ (eventKey_saLat (by decide) _ (by decide) (by omega))).trans hsalt
  · exact Dev.evt_latch_same _ _ _ (by decide) hb (evtBitServed_of_not_port _ _ _ (.inr (by decide)))

theorem rxSaDrainStart_of_retired {d : Dev} {j : Nat} (h : saState d true j = saInService) (hu : d.get (L.RXSA_UNTIL_V j) = 1) :
    rxSaDrainStart d j = d.set (R.RXSA_STATE j) saDraining := if_pos ⟨h, by simp [Dev.on, hu]⟩

/-- RX_SA_DRAINING of a retired receive SA (R231). -/
theorem completes_rxSaDraining {s : State} {j : Nat} (hj : j < 65536) (hf : s.frozen = false) (h : saState s.d true j = saInService)
    (hu : s.d.get (L.RXSA_UNTIL_V j) = 1) :
    Completes (.rxSaDraining (BitVec.ofNat 16 j)) s [R.RXSA_STATE j] [] fun e => saState e true j = saDraining := by
  have hindex : (BitVec.ofNat 16 j).toNat = j := Nat.mod_eq_of_lt hj
  refine ⟨s.d.set (R.RXSA_STATE j) saDraining, ?_, (Dev.OnlyChanges.refl _ _ _).set _ (by simp), saState_rx_drained _ _⟩
  show s.lanes (fun d => rxSaDrainStart d (BitVec.ofNat 16 j).toNat) = _
  rw [State.lanes_of hf, hindex, rxSaDrainStart_of_retired h hu]

/-! ## Reading the event queue (R198) -/

/-- SA_EVT_POP is a register of page 0x70 behind its header. -/
theorem busRead_saEvtPop {s : State} (m : Nat) (hl : s.live 0x70 = true) : busRead s m 0x70010C =
    (s.setDev { s.d with saEvents := s.d.saEvents.drop 1 }, s.d.saEvents.headD 0) := by
  have hpg : 0x70010C / 65536 = 0x70 := rfl
  have hoff : 0x70010C % 65536 / 4 * 4 = 0x10C := rfl
  simp only [busRead, hpg, hoff]
  rw [if_neg (State.powered_of_live hl), if_neg (by decide), if_neg (by simp [hl]), if_neg (by decide), if_neg (by decide),
    if_neg (by decide), if_neg (by decide)]
  rfl

theorem exec_saEvtPopRead {s : State} (m : Master) {ev : Nat} {rest : List Nat} (hl : s.live 0x70 = true) (h : s.d.saEvents = ev :: rest) :
    exec (.saEvtPopRead m) s = .next (s.setDev (({ s.d with saEvents := rest } : Dev).emit (.read m 0x70010C ev))) := by
  show Host.Outcome.next (s.readRow m 0x70010C) = _
  rw [State.readRow, if_neg (State.powered_of_live hl), busRead_saEvtPop m.num hl, h]
  rfl

end Sys2Proof.Machine

open Sys2Proof Sys2Proof.Machine

/-- Settles O21: an SA_CMD write waits (`defers_saCmd`); acting, it is SA_ENABLE or SA_RETIRE with a report (`acts_saCmd`); the drain's end is
the emptied entry with its record. -/
theorem saRows : Obligations.SaRows := by
  unfold Obligations.SaRows
  intro s m i j k ev rest
  refine ⟨fun hl rx => ?_, acts_saCmd_enableRx j.isLt, fun h hs => acts_saCmd_enableTx i.isLt ⟨h, hs⟩, fun h => ?_, fun h => ?_, fun h hu => ?_,
    fun h => ?_, fun h => ?_, fun h => ?_, fun hf h hroom => becomesBut_saDrainComplete i.isLt hf h hroom,
    fun hf h hu => completes_rxSaDraining j.isLt hf h hu, exec_saEvtPopRead m⟩
  · obtain ⟨henable, hretire⟩ := exec_saCmd hl rx k
    refine ⟨fun hb x hx => ?_, fun hb => ⟨noEffect_saCmd henable hb, noEffect_saCmd hretire hb⟩⟩
    simp only [List.mem_cons, List.not_mem_nil, or_false] at hx
    rcases hx with rfl | rfl
    · exact defers_saCmd henable hb
    · exact defers_saCmd hretire hb
  · exact acts_saCmd_refused j.isLt (saEnable_of_not_loaded h)
  · exact acts_saCmd_refused i.isLt (saEnable_tx_of_not h)
  · exact acts_saCmd_retire j.isLt (saRetire_rx_of_may h hu)
  · exact acts_saCmd_refused j.isLt (saRetire_rx_of_not h)
  · exact acts_saCmd_retire i.isLt (saRetire_tx_of_may h)
  · exact acts_saCmd_refused i.isLt (saRetire_tx_of_not h)
end

section
namespace Sys2Proof.Machine

/-! ## A derived key of 64 bytes (R247, R248, R264)

A slot holds a key of up to 512 bits, and KEY_DERIVE makes KDKs of 48 and 64 bytes. The statement cuts every key that a command stores to 256
bits. -/

/-- The contents in which the last step of KEY_DERIVE of host slot 0 ends: a KDK of 64 bytes, operation DERIVE, goes into slot 1, derived by
CMAC from the KDK of 32 zero bytes in slot 0 with a label of one zero byte and no context. -/
def longDeriveDev : Dev := Dev.empty.setAll
  [(R.SLOT_STATE 0, vsValid), (R.SLOT_TYPE 0, tyKdk), (R.SLOT_LENGTH 0, 1), (R.SLOT_OPS 0, 1), (R.SLOT_USE_LIMIT 0, 2 ^ 32 - 1),
    (L.SLOT_CODE (vId 0), codeRunning), (L.SLOT_OPCODE (vId 0), opKeyDerive), (L.SLOT_CAP (vId 0) 0, 1),
    (L.SLOT_CAP (vId 0) 1, tyKdk + 3 * 2 ^ 4 + 2 ^ 16), (L.SLOT_CAP (vId 0) 2, 2 ^ 32 - 1), (L.SLOT_CAP (vId 0) 6, 1), (L.V_SRC 0 0, 1),
    (L.V_DST 0 0, 2), (L.V_STEP 0, 3), (L.V_DUE 0, 1)]

/-- The running part with these contents. -/
def longDeriveState : State := runningState.setDev longDeriveDev

theorem longDerive_ends : VaultEnds longDeriveState 0 opKeyDerive :=
  ⟨⟨by decide +kernel, by decide +kernel, by decide +kernel⟩, by decide +kernel, by decide +kernel, by decide +kernel, by decide +kernel⟩

/-- The slot holds the whole key. -/
theorem vaultTick_longDerive : 2 ^ 256 ≤ (vaultTick longDeriveState.d longDeriveState.power).get (L.VKEY 1) := by decide +kernel

/-- Unless nothing moves in the main domain, what holds of the contents that the engine's steps leave holds of those behind `vaultTick`. -/
theorem StepEndsSo.vaultTick {s : State} {post : Dev → Prop} (h : StepEndsSo s post) (hf : s.frozen = false) :
    post (Machine.vaultTick s.d s.power) := by
  obtain ⟨e, he, hpost⟩ := h
  rw [State.vaultEnd, if_neg (by simp [hf])] at he
  rwa [show Machine.vaultTick s.d s.power = e from congrArg State.d he]

end Sys2Proof.Machine

open Sys2Proof Sys2Proof.Machine

/-- Refutes O36: the statement says that a slot then holds the stored key modulo 2^256. A slot has 512 bits (R247), and the KDK of 64 bytes
that KEY_DERIVE makes in `longDeriveState` is kept whole, so it reads 2^256 or more. -/
theorem not_vaultCommitRows : ¬ Obligations.VaultCommitRows := by
  unfold Obligations.VaultCommitRows
  intro h
  obtain ⟨-, -, hderive, -⟩ := h longDeriveState 0 [] 0
  obtain ⟨-, ⟨hkey, -⟩⟩ := (hderive longDerive_ends (by decide +kernel)).vaultTick (by decide +kernel)
  have hcut : (vaultTick longDeriveState.d longDeriveState.power).get (L.VKEY 1) < 2 ^ 256 := hkey ▸ Nat.mod_lt _ (Nat.two_pow_pos 256)
  exact absurd vaultTick_longDerive (Nat.not_le.2 hcut)
end

section
namespace Sys2Proof.Machine

/-! ## A protected copy of a queue that there is none of (R206, R297) -/

/-- The copy of `strayTx`, issued under transmit SA 0 and not started. -/
def strayCheckedTx : TxCopy := { strayTx with sa := some 0 }

/-- The running part with that copy issued. -/
def strayCheckedState : State := runningState.setDev { Dev.empty with frames := [strayFrame], txs := [strayCheckedTx] }

theorem find_strayCheckedTx : (strayCheckedState.d.txs.find? fun x => x.port == 0 && x.sa.isSome) = some strayCheckedTx := by decide

/-- The alarm is gone once the suppressed copy has left its queue's charge. -/
theorem checkTx_strayChecked_alarm :
    bitAt ((checkTx strayCheckedState.run strayCheckedState.d 0 0 0).get L.AL_PULSE) 52 = false := by decide +kernel

end Sys2Proof.Machine

open Sys2Proof Sys2Proof.Machine

/-- Refutes O33: a copy that has not started when its check fails raises alarm 52 and then leaves the charge of its queue. Nothing bounds the
queue number that an issued copy carries by the 4,224 that there are, and the charge of `strayQueue` lies at the alarm conditions, so writing
it takes alarm 52 away before the next tick samples it. -/
theorem not_clusterRows : ¬ Obligations.ClusterRows := by
  unfold Obligations.ClusterRows
  intro h
  have hlive : strayCheckedState.frozen = false := by decide
  obtain ⟨hrows, -⟩ := h strayCheckedState 0 0 false false false [] 0 0 0 0 strayCheckedTx strayFrame
  obtain ⟨-, -, hsuppressed, -⟩ := hrows hlive
  obtain ⟨-, halarm, -⟩ := (hsuppressed find_strayCheckedTx rfl).of_exec
    (State.lanes_of hlive fun d => checkMismatch strayCheckedState.run d (.tx 0) 0 0)
  exact absurd (checkTx_strayChecked_alarm.symm.trans halarm) (by decide)
end

section
namespace Sys2Proof.Machine

/-! ## A generated key of 64 bytes (R247, R248, R264) -/

/-- The contents in which KEY_GENERATE of host slot 0 is QUEUED and its step ends: a KDK of 64 bytes, operation DERIVE, for slot 1. -/
def longGenerateDev : Dev := Dev.empty.setAll
  [(R.VAULT_STATUS_SELFTEST_PASS, 1), (R.VAULT_STATUS_DRBG_STATE, drbgReady), (R.RIGHTS_HOST_CLASSES, 255), (R.RIGHTS_HOST_RANGE_FIRST, 0),
    (R.RIGHTS_HOST_RANGE_LAST, 1023), (L.SLOT_CODE (vId 0), codeQueued), (L.SLOT_OPCODE (vId 0), opKeyGenerate), (L.SLOT_CAP (vId 0) 0, 1),
    (L.SLOT_CAP (vId 0) 1, tyKdk + 3 * 2 ^ 4 + 2 ^ 16), (L.SLOT_CAP (vId 0) 2, 2 ^ 32 - 1), (L.V_DUE 0, 1)]

/-- The running part with these contents. -/
def longGenerateState : State := runningState.setDev longGenerateDev

theorem longGenerate_starts : VaultStarts longGenerateState 0 opKeyGenerate :=
  ⟨⟨by decide +kernel, by decide +kernel, by decide +kernel⟩, by decide +kernel, by decide +kernel, by decide +kernel⟩

/-- The slot holds the whole key. -/
theorem vaultTick_longGenerate : 2 ^ 256 ≤ (vaultTick longGenerateState.d longGenerateState.power).get (L.VKEY 1) := by decide +kernel

end Sys2Proof.Machine

open Sys2Proof Sys2Proof.Machine

/-- Refutes O35: the statement says that KEY_GENERATE stores the generator's next key modulo 2^256. A slot has 512 bits (R247), a KDK may have
as many (R248), and the KDK of 64 bytes that `longGenerateState` asks for is kept whole, so the slot reads 2^256 or more. -/
theorem not_vaultStepRows : ¬ Obligations.VaultStepRows := by
  unfold Obligations.VaultStepRows
  intro h
  obtain ⟨-, -, hcommits⟩ := h longGenerateState 0 0 0 0 false
  obtain ⟨hgenerate, -⟩ := hcommits (by decide +kernel)
  obtain ⟨-, -, hkey, -⟩ := (hgenerate longGenerate_starts (by decide +kernel) (by decide +kernel)).vaultTick (by decide +kernel)
  have hcut : (vaultTick longGenerateState.d longGenerateState.power).get (L.VKEY 1) < 2 ^ 256 := hkey ▸ Nat.mod_lt _ (Nat.two_pow_pos 256)
  exact absurd vaultTick_longGenerate (Nat.not_le.2 hcut)
end

section
namespace Sys2Proof.Machine

/-! ## Seeding the two generators (R276, R277) -/

/-- The fields of generator `n`, with the count that the output generator shows. -/
def drbgFields (n : Nat) : List Fld := [L.DRBG_KEY n, L.DRBG_VAL n, L.DRBG_GEN n, R.DRBG_REQUESTS]

theorem drbgCount_onlyChanges (d : Dev) (n k : Nat) : d.OnlyChanges (drbgCount d n k) (drbgFields n) [] := by
  have hgen := (Dev.OnlyChanges.refl d (drbgFields n) []).set (f := L.DRBG_GEN n) k (by simp [drbgFields])
  exact Dev.OnlyChanges.ite (fun _ => hgen.set _ (by simp [drbgFields])) fun _ => hgen

theorem drbgSeed_onlyChanges (d : Dev) (n : Nat) (fresh : Bool) : d.tookFree.OnlyChanges (drbgSeed d n fresh) (drbgFields n) [] :=
  ((Dev.OnlyChanges.refl _ _ _).setAll _ (by simp [drbgFields])).trans (drbgCount_onlyChanges _ n 0)

theorem drbgSeed_gen (d : Dev) (n : Nat) (fresh : Bool) : (drbgSeed d n fresh).get (L.DRBG_GEN n) = 0 := by
  rw [drbgSeed, drbgCount]
  split
  · next h =>
    subst h
    rw [Dev.get_set_ne _ _ _ _ (by decide), Dev.get_set_same]
    rfl
  · exact Dev.get_set_same _ _ _

theorem drbgSeed_requests (d : Dev) (fresh : Bool) : (drbgSeed d 1 fresh).get R.DRBG_REQUESTS = 0 := Dev.get_set_same _ _ _

/-- The fields of both generators. -/
def seedFields : List Fld :=
  [L.DRBG_KEY 0, L.DRBG_VAL 0, L.DRBG_GEN 0, L.DRBG_KEY 1, L.DRBG_VAL 1, L.DRBG_GEN 1, R.DRBG_REQUESTS]

/-- The groups of the model's own fields below the generators' lie apart from them. -/
theorem latFld_ne_seedFields {g i w r : Nat} (hg : g < 175) (hi : i < 2 ^ 32) : ∀ f ∈ seedFields, (latFld g i w r).key ≠ f.key := by
  simp only [seedFields, List.forall_mem_cons, L.DRBG_KEY, L.DRBG_VAL, L.DRBG_GEN, R.DRBG_REQUESTS, latFld, regFld, latBase]
  refine ⟨?_, ?_, ?_, ?_, ?_, ?_, ?_, by simp⟩ <;> omega

/-- Both generators take seeds, key generation first. -/
def drbgSeedBoth (d : Dev) (fresh : Bool) : Dev := drbgSeed (drbgSeed d 0 fresh) 1 fresh

theorem Dev.OnlyChanges.tookFree {d e : Dev} {fs : List Fld} {evs : List Nat} (h : d.OnlyChanges e fs evs) :
    d.tookFree.OnlyChanges e.tookFree fs evs := by
  refine ⟨?_, h.2⟩
  rw [h.1]
  rfl

/-- Seeding both takes two of the values that the spec leaves open. -/
theorem drbgSeedBoth_onlyChanges (d : Dev) (fresh : Bool) :
    ({ d with freeCtr := d.freeCtr + 2 } : Dev).OnlyChanges (drbgSeedBoth d fresh) seedFields [] :=
  ((drbgSeed_onlyChanges d 0 fresh).tookFree.mono (by simp [drbgFields, seedFields]) (by simp)).trans
    ((drbgSeed_onlyChanges _ 1 fresh).mono (by simp [drbgFields, seedFields]) (by simp))

theorem drbgSeedBoth_reads (d : Dev) (fresh : Bool) : (drbgSeedBoth d fresh).get (L.DRBG_GEN 0) = 0 ∧
    (drbgSeedBoth d fresh).get (L.DRBG_GEN 1) = 0 ∧ (drbgSeedBoth d fresh).get R.DRBG_REQUESTS = 0 := by
  refine ⟨?_, drbgSeed_gen _ 1 fresh, drbgSeed_requests _ fresh⟩
  exact ((drbgSeed_onlyChanges _ 1 fresh).2 _ (by decide) (by simp)).trans (drbgSeed_gen d 0 fresh)

/-! ## The vault's rows besides its command slots (R266, R272, R276, R277, R279) -/

theorem completes_parentCascadeDone {s : State} (hf : s.frozen = false) :
    Completes .parentCascadeDone s [R.VAULT_STATUS_CASCADE_ACTIVE] [] fun e => e.get R.VAULT_STATUS_CASCADE_ACTIVE = 0 :=
  ⟨_, State.lanes_of hf fun d => d.set R.VAULT_STATUS_CASCADE_ACTIVE 0, (Dev.OnlyChanges.refl _ _ _).set _ (by simp), Dev.get_set_same _ _ _⟩

/-- The grant is released once the engine has been idle long enough. -/
theorem vaultRelease_of_idle {d : Dev} (hg : d.get R.VAULT_STATUS_ENGINE_GRANTED = 1) (hi : vIdle d = true)
    (ht : d.get L.V_IDLE_AT + 100000 ≤ d.cyc) :
    vaultRelease d = ({ d with releasing := d.releasing ++ [(reqVault, 2)] } : Dev).set R.VAULT_STATUS_ENGINE_GRANTED 0 := by
  rw [vaultRelease, if_pos (by simp [Dev.on, hg, hi, ht]), arbRelease, if_neg (by decide)]
  rfl

theorem vaultRelease_of_recent {d : Dev} (ht : d.cyc < d.get L.V_IDLE_AT + 100000) : vaultRelease d = d := by
  rw [vaultRelease, if_neg (by simp [Nat.not_le.mpr ht])]

theorem becomes_vaultGrantIdleRelease {s : State} (hf : s.frozen = false) (hg : s.d.get R.VAULT_STATUS_ENGINE_GRANTED = 1)
    (hi : vIdle s.d = true) (ht : s.d.get L.V_IDLE_AT + 100000 ≤ s.d.cyc) :
    Becomes .vaultGrantIdleRelease s { s.d with releasing := s.d.releasing ++ [(reqVault, 2)] } [R.VAULT_STATUS_ENGINE_GRANTED] [] fun e =>
      e.get R.VAULT_STATUS_ENGINE_GRANTED = 0 := by
  have hexec : exec .vaultGrantIdleRelease s = .next (s.setDev (vaultRelease s.d)) := State.lanes_of hf vaultRelease
  rw [vaultRelease_of_idle hg hi ht] at hexec
  exact ⟨_, hexec, (Dev.OnlyChanges.refl _ _ _).set _ (by simp), Dev.get_set_same _ _ _⟩

theorem noEffect_vaultGrantIdleRelease {s : State} (hf : s.frozen = false) (ht : s.d.cyc < s.d.get L.V_IDLE_AT + 100000) :
    NoEffect .vaultGrantIdleRelease s := by
  have hexec : exec .vaultGrantIdleRelease s = .next (s.setDev (vaultRelease s.d)) := State.lanes_of hf vaultRelease
  rwa [vaultRelease_of_recent ht] at hexec

theorem exec_vaultSelftestDone {s : State} (pass : Bool) (hf : s.frozen = false) :
    exec (.vaultSelftestDone pass) s = .next (s.setDev (selftestDone s.d pass)) := State.lanes_of hf fun d => selftestDone d pass

/-- A later self-test has no effect. -/
theorem noEffect_vaultSelftestDone {s : State} (pass : Bool) (hf : s.frozen = false) (h : s.d.get L.VAULT_TESTED = 1) :
    NoEffect (.vaultSelftestDone pass) s := by
  rw [NoEffect, exec_vaultSelftestDone pass hf, selftestDone, if_pos (by simp [Dev.on, h]), State.setDev_self]

/-- What the first self-test leaves when it passes. -/
def selftestPassed (d : Dev) : Dev :=
  (drbgSeedBoth d true).setAll [(L.VAULT_TESTED, 1), (R.VAULT_STATUS_SELFTEST_PASS, 1), (R.VAULT_STATUS_DRBG_STATE, drbgReady)]

/-- What the first self-test leaves when it fails. -/
def selftestFailed (d : Dev) : Dev := ((d.setAll [(L.VAULT_TESTED, 1), (L.PAGE_FAULT 5, 1)]).latch 5 10).alarm 52

theorem selftestDone_first {d : Dev} (pass : Bool) (h : d.get L.VAULT_TESTED = 0) :
    selftestDone d pass = if pass then selftestPassed d else selftestFailed d := by
  rw [selftestDone, if_neg (by simp [Dev.on, h])]
  rfl

theorem becomes_selftestPassed {s : State} (hf : s.frozen = false) (h : s.d.get L.VAULT_TESTED = 0) :
    Becomes (.vaultSelftestDone true) s { s.d with freeCtr := s.d.freeCtr + 2 }
      (seedFields ++ [L.VAULT_TESTED, R.VAULT_STATUS_SELFTEST_PASS, R.VAULT_STATUS_DRBG_STATE]) [] fun e =>
      e.get R.VAULT_STATUS_SELFTEST_PASS = 1 ∧ e.get R.VAULT_STATUS_DRBG_STATE = drbgReady ∧ e.get (L.DRBG_GEN 0) = 0 ∧
        e.get R.DRBG_REQUESTS = 0 := by
  have hexec := exec_vaultSelftestDone true hf
  rw [selftestDone_first true h, if_pos rfl] at hexec
  obtain ⟨hgen, -, hrequests⟩ := drbgSeedBoth_reads s.d true
  refine ⟨_, hexec, ((drbgSeedBoth_onlyChanges s.d true).mono (fun _ => List.mem_append_left _) (by simp)).setAll _ (by simp), ?_, ?_, ?_, ?_⟩
  · rw [selftestPassed, Dev.setAll_cons, Dev.setAll_cons, Dev.setAll_cons, Dev.setAll_nil, Dev.get_set_ne _ _ _ _ (by decide), Dev.get_set_same]
    rfl
  · exact Dev.get_set_same _ _ _
  · exact (Dev.get_setAll_ne _ _ _ (by decide)).trans hgen
  · exact (Dev.get_setAll_ne _ _ _ (by decide)).trans hrequests

theorem bitAt_alarm_same (d : Dev) {n : Nat} (hn : n < 64) : bitAt ((d.alarm n).get L.AL_PULSE) n = true := by
  rw [Dev.alarm, Dev.get_set_same, show L.AL_PULSE.w = 64 from rfl, bitAt_mod_two_pow hn]
  exact bitAt_or_two_pow _ n

theorem Dev.get_alarm_ne (d : Dev) (n : Nat) {g : Fld} (h : g.key ≠ L.AL_PULSE.key) : (d.alarm n).get g = d.get g := Dev.get_set_ne _ _ _ _ h

theorem Dev.evt_alarm (d : Dev) (n pg b : Nat) (hp : pg < 2 ^ 32) : (d.alarm n).evt pg b = d.evt pg b := by
  refine Dev.evt_set_ne _ _ _ _ _ ?_
  simp only [L.EVT_LATCH, L.AL_PULSE, latFld]
  omega

theorem completes_selftestFailed {s : State} (hf : s.frozen = false) (h : s.d.get L.VAULT_TESTED = 0) :
    Completes (.vaultSelftestDone false) s [L.VAULT_TESTED, L.PAGE_FAULT 5, L.AL_PULSE] [5] fun e =>
      e.get R.VAULT_STATUS_SELFTEST_PASS = s.d.get R.VAULT_STATUS_SELFTEST_PASS ∧ e.get (L.PAGE_FAULT 5) = 1 ∧ e.evt 5 10 = true ∧
        bitAt (e.get L.AL_PULSE) 52 = true := by
  have hexec := exec_vaultSelftestDone false hf
  rw [selftestDone_first false h, if_neg Bool.false_ne_true] at hexec
  have hframe : s.d.OnlyChanges (selftestFailed s.d) [L.VAULT_TESTED, L.PAGE_FAULT 5, L.AL_PULSE] [5] :=
    (((Dev.OnlyChanges.refl _ _ _).setAll _ (by simp)).latch 5 10 (by simp) (by decide)).set _ (by simp)
  refine ⟨_, hexec, hframe, hframe.2 _ (by decide) (by decide), ?_, ?_, bitAt_alarm_same _ (by decide)⟩
  · rw [selftestFailed, Dev.get_alarm_ne _ _ (by decide), Dev.get_latch_ne _ _ _ (by decide) _ (by decide)]
    exact Dev.get_set_same _ _ _
  · rw [selftestFailed, Dev.evt_alarm _ _ _ _ (by decide)]
    exact Dev.evt_latch_same _ _ _ (by decide) (by decide) (evtBitServed_of_not_port _ _ _ (by decide))

/-- The command of slot `c` has its entropy. -/
def entropyTaken (d : Dev) (c : Nat) : Dev := d.setAll [(L.V_COLLECT c, 0), (L.V_FRESH c, 1)]

theorem entropyDone_reseed {d : Dev} {c : Nat} (hc : d.get (L.V_COLLECT c) = 1) (ho : d.get (L.SLOT_OPCODE (vId c)) = opDrbgReseed) :
    entropyDone d c = (drbgSeedBoth (entropyTaken d c) false).set R.VAULT_STATUS_DRBG_STATE drbgReady := by
  rw [entropyDone, if_neg (by simp [Dev.on, hc])]
  exact if_pos ho

/-- Taking the entropy and the seeds move the fields of both. -/
theorem entropySeeded_onlyChanges (d : Dev) (c : Nat) : ({ d with freeCtr := d.freeCtr + 2 } : Dev).OnlyChanges
    (drbgSeedBoth (entropyTaken d c) false) (seedFields ++ [L.V_COLLECT c, L.V_FRESH c]) [] := by
  have htaken := (Dev.OnlyChanges.refl d [L.V_COLLECT c, L.V_FRESH c] []).setAll [(L.V_COLLECT c, 0), (L.V_FRESH c, 1)] (by simp)
  exact (htaken.tookFree.tookFree.mono (fun _ => List.mem_append_right _) (by simp)).trans
    ((drbgSeedBoth_onlyChanges _ false).mono (fun _ => List.mem_append_left _) (by simp))

theorem entropySeeded_reads (d : Dev) {c : Nat} (hc : c < 8) : (drbgSeedBoth (entropyTaken d c) false).get (L.V_COLLECT c) = 0 ∧
    (drbgSeedBoth (entropyTaken d c) false).get (L.V_FRESH c) = 1 := by
  have hkeep {g : Fld} (h : ∀ f ∈ seedFields, g.key ≠ f.key) : (drbgSeedBoth (entropyTaken d c) false).get g = (entropyTaken d c).get g :=
    (drbgSeedBoth_onlyChanges _ false).2 g h (by simp)
  have hne : (L.V_COLLECT c).key ≠ (L.V_FRESH c).key := by
    simp only [L.V_COLLECT, L.V_FRESH, latFld]
    omega
  constructor
  · rw [L.V_COLLECT, hkeep (latFld_ne_seedFields (by decide) (by omega)), ← L.V_COLLECT]
    exact (Dev.get_set_ne _ _ _ _ hne).trans (Dev.get_set_same _ _ _)
  · rw [L.V_FRESH, hkeep (latFld_ne_seedFields (by decide) (by omega)), ← L.V_FRESH]
    exact Dev.get_set_same _ _ _

theorem becomes_entropyReseed {s : State} (c : Fin 8) (hf : s.frozen = false) (hc : s.d.get (L.V_COLLECT c) = 1)
    (ho : s.d.get (L.SLOT_OPCODE (vId c)) = opDrbgReseed) :
    Becomes (.entropyCollectionDone c) s { s.d with freeCtr := s.d.freeCtr + 2 }
      (seedFields ++ [L.V_COLLECT c, L.V_FRESH c, R.VAULT_STATUS_DRBG_STATE]) [] fun e =>
      e.get (L.V_COLLECT c) = 0 ∧ e.get (L.V_FRESH c) = 1 ∧ e.get R.VAULT_STATUS_DRBG_STATE = drbgReady ∧ e.get (L.DRBG_GEN 0) = 0 ∧
        e.get (L.DRBG_GEN 1) = 0 := by
  have hexec : exec (.entropyCollectionDone c) s = .next (s.setDev (entropyDone s.d c)) := State.lanes_of hf fun d => entropyDone d c
  rw [entropyDone_reseed hc ho] at hexec
  obtain ⟨hcollect, hfresh⟩ := entropySeeded_reads s.d c.isLt
  obtain ⟨hgen, hgen', -⟩ := drbgSeedBoth_reads (entropyTaken s.d c) false
  have hlat {g i w r : Nat} : (latFld g i w r).key ≠ R.VAULT_STATUS_DRBG_STATE.key := by
    simp only [R.VAULT_STATUS_DRBG_STATE, regFld, latFld, latBase]
    omega
  exact ⟨_, hexec, ((entropySeeded_onlyChanges s.d c).mono (by simp +contextual [or_imp]) (by simp)).set _ (by simp),
    (Dev.get_set_ne _ _ _ _ hlat).trans hcollect, (Dev.get_set_ne _ _ _ _ hlat).trans hfresh, Dev.get_set_same _ _ _,
    (Dev.get_set_ne _ _ _ _ hlat).trans hgen, (Dev.get_set_ne _ _ _ _ hlat).trans hgen'⟩

/-- A loop whose steps change nothing. -/
theorem Dev.each_of_noop {d : Dev} {f : Nat → Dev → Dev} (n : Nat) (h : ∀ i < n, f i d = d) : d.each n f = d := by
  induction n with
  | zero => rfl
  | succ n ih => rw [Dev.each, ih fun i hi => h i (by omega), h n (by omega)]

/-- What a failed entropy test leaves: the state, the count, and alarm 53; the event comes with the change to ERROR. -/
def entropyFailed (d : Dev) : Dev :=
  (((d.latchIf (!drbgIs d drbgError) 5 9).set R.VAULT_STATUS_DRBG_STATE drbgError).count 5 R.DRBG_HEALTH_FAILS).alarm 53

theorem entropyFailed_onlyChanges (d : Dev) : d.OnlyChanges (entropyFailed d) [R.VAULT_STATUS_DRBG_STATE, R.DRBG_HEALTH_FAILS, L.AL_PULSE] [5] :=
  ((((Dev.OnlyChanges.refl _ _ _).latchIf _ 5 9 (by simp) (by decide)).set _ (by simp)).count 5 1 (by simp)).set _ (by simp)

/-- With no command that collects entropy, the test's failure ends none. -/
theorem entropyFail_of_idle {d : Dev} (h : ∀ x < 8, d.get (L.V_COLLECT x) = 0) : entropyFail d = entropyFailed d := by
  have hidle : ∀ x < 8, (entropyFailed d).on (L.V_COLLECT x) = false := by
    intro x hx
    have hkeep : (entropyFailed d).get (L.V_COLLECT x) = d.get (L.V_COLLECT x) := by
      refine (entropyFailed_onlyChanges d).2 _ ?_ ?_
      · simp only [List.forall_mem_cons, L.V_COLLECT, R.VAULT_STATUS_DRBG_STATE, R.DRBG_HEALTH_FAILS, L.AL_PULSE, latFld, regFld, latBase]
        refine ⟨?_, ?_, ?_, by simp⟩ <;> omega
      · exact List.forall_mem_singleton.mpr (eventKey_saLat (by decide) 5 (by decide) (by omega))
    simp [Dev.on, hkeep, h x hx]
  have hhead : (if drbgIs d drbgError then d else d.latch 5 9) = d.latchIf (!drbgIs d drbgError) 5 9 := by
    rw [Dev.latchIf]
    cases drbgIs d drbgError <;> rfl
  rw [entropyFail, hhead]
  exact Dev.each_of_noop 8 fun x hx => if_neg (Bool.not_eq_true _ ▸ hidle x hx)

theorem completes_entropyTestFail {s : State} (hf : s.frozen = false) (h : ∀ x < 8, s.d.get (L.V_COLLECT x) = 0) :
    Completes .entropyTestFail s [R.VAULT_STATUS_DRBG_STATE, R.DRBG_HEALTH_FAILS, L.AL_PULSE] [5] fun e =>
      e.get R.VAULT_STATUS_DRBG_STATE = drbgError ∧ bitAt (e.get L.AL_PULSE) 53 = true ∧
      (s.d.get R.VAULT_STATUS_DRBG_STATE ≠ drbgError → e.evt 5 9 = true) ∧
      (s.d.get (L.PAGE_FREEZE 5) = 0 →
        e.get R.DRBG_HEALTH_FAILS = min (s.d.get R.DRBG_HEALTH_FAILS + 1) (2 ^ R.DRBG_HEALTH_FAILS.w - 1)) := by
  have hexec : exec .entropyTestFail s = .next (s.setDev (entropyFail s.d)) := State.lanes_of hf entropyFail
  rw [entropyFail_of_idle h] at hexec
  refine ⟨_, hexec, entropyFailed_onlyChanges s.d, ?_, bitAt_alarm_same _ (by decide), fun hready => ?_, fun hfreeze => ?_⟩
  · rw [entropyFailed, Dev.get_alarm_ne _ _ (by decide), Dev.get_count_ne _ _ _ _ _ (by decide)]
    exact Dev.get_set_same _ _ _
  · rw [entropyFailed, Dev.evt_alarm _ _ _ _ (by decide), Dev.evt, Dev.get_count_ne _ _ _ _ _ (by decide), Dev.get_set_ne _ _ _ _ (by decide),
      ← Dev.evt, Dev.latchIf, if_pos (by simpa [drbgIs] using hready)]
    exact Dev.evt_latch_same _ _ _ (by decide) (by decide) (evtBitServed_of_not_port _ _ _ (by decide))
  · have hkeep {g : Fld} (hs : g.key ≠ R.VAULT_STATUS_DRBG_STATE.key) (he : eventKey 5 g.key = false) :
        ((s.d.latchIf (!drbgIs s.d drbgError) 5 9).set R.VAULT_STATUS_DRBG_STATE drbgError).get g = s.d.get g :=
      (Dev.get_set_ne _ _ _ _ hs).trans (Dev.get_latchIf_ne _ _ _ _ (by decide) _ he)
    rw [entropyFailed, Dev.get_alarm_ne _ _ (by decide), Dev.get_count_same, Dev.on, hkeep (by decide) (by decide), hfreeze,
      hkeep (by decide) (by decide)]
    rfl

end Sys2Proof.Machine

open Sys2Proof Sys2Proof.Machine

/-- Settles O37: seeding both generators is one operation (`drbgSeedBoth`) that the first self-test and DRBG_RESEED share; each other row is a
few writes with an event and an alarm. -/
theorem vaultEngineRows : Obligations.VaultEngineRows := by
  unfold Obligations.VaultEngineRows
  intro s c hf
  exact ⟨completes_parentCascadeDone hf,
    fun hg hi => ⟨becomes_vaultGrantIdleRelease hf hg hi, noEffect_vaultGrantIdleRelease hf⟩,
    fun h => ⟨becomes_selftestPassed hf h, completes_selftestFailed hf h⟩, noEffect_vaultSelftestDone false hf,
    becomes_entropyReseed c hf, completes_entropyTestFail hf⟩
end

section
namespace Sys2Proof.Machine

/-! ## The cells that a zero-fill clears (R304, R305) -/

/-- Writes to fields leave the buffer cells as they are. -/
theorem Dev.foldl_set_cellMem {α : Type} (l : List α) (f : α → Fld) (v : Nat) (d : Dev) :
    (l.foldl (fun d x => d.set (f x) v) d).cellMem = d.cellMem := by
  induction l generalizing d with
  | nil => rfl
  | cons x l ih => exact (ih _).trans (Dev.set_cellMem d _ _)

theorem bufferEmpty_cellMem (d : Dev) : (bufferEmpty d).cellMem = [] := Dev.foldl_set_cellMem _ R.QSTAT_CHARGE 0 _

theorem Dev.OnlyChanges.cellMem {d e : Dev} {fs : List Fld} {evs : List Nat} (h : d.OnlyChanges e fs evs) : e.cellMem = d.cellMem := by
  rw [h.1]

theorem Dev.latch_cellMem (d : Dev) (pg b : Nat) (h : b < 32) : (d.latch pg b).cellMem = d.cellMem :=
  ((Dev.OnlyChanges.refl d [] [pg]).latch pg b (by simp) h).cellMem

/-- At the end of a zero-fill every cell of the buffer is zero. -/
theorem zeroFillDone_cellMem {d : Dev} (h : d.get R.BUF_STATUS_ZERO_FILL = 1) : (zeroFillDone d).cellMem = [] := by
  rw [zeroFillDone, if_pos (by simp [Dev.on, h]), Dev.latch_cellMem _ _ _ (by decide), Dev.set_cellMem, bufferEmpty_cellMem]

/-- The running part while its buffer is zero-filled, with the last contents of a transmitted frame in cell 0. -/
def zeroFillState : State := runningState.setDev (({ Dev.empty with cellMem := [(0, 2)] } : Dev).set R.BUF_STATUS_ZERO_FILL 1)

end Sys2Proof.Machine

open Sys2Proof Sys2Proof.Machine

/-- Refutes O38: the statement's frame for the end of a zero-fill lets frames, copies and register contents change and nothing else. A zero-fill
also clears the buffer's cells (R305), which the model keeps beside the frames: a cell that a transmitted frame left with its contents (R304)
does not keep them, as in `zeroFillState`. -/
theorem not_bufferRows : ¬ Obligations.BufferRows := by
  unfold Obligations.BufferRows
  intro h
  obtain ⟨-, -, -, hfill, -⟩ := h zeroFillState 0 0 0 0 0
  have hactive : zeroFillState.d.get R.BUF_STATUS_ZERO_FILL = 1 := by decide
  obtain ⟨hframe, -⟩ := (hfill hactive).of_exec (d := zeroFillDone zeroFillState.d) rfl
  have hkept : (zeroFillDone zeroFillState.d).cellMem = [(0, 2)] := congrArg Dev.cellMem hframe
  exact absurd ((zeroFillDone_cellMem hactive).symm.trans hkept) (by decide)
end

section
namespace Sys2Proof.Machine

/-! ## Writing GATE_CMD (R323, R325, R337) -/

/-- The fields in which GATE_CMD of gate page `m` reports. -/
def gateCmdFields (m : Nat) : List Fld := [R.GATE_CMD_STATUS_CODE m, R.GATE_CMD_STATUS_BUSY m, R.GATE_CMD_STATUS_PORT m]

/-- GATE_CMD of gate page `m` reports a code, whether a command waits, and the local port. -/
def gateCmdReport (d : Dev) (m code busy n : Nat) : Dev :=
  d.setAll [(R.GATE_CMD_STATUS_CODE m, code), (R.GATE_CMD_STATUS_BUSY m, busy), (R.GATE_CMD_STATUS_PORT m, n)]

/-- What the report reads. -/
def GateReports (e : Dev) (m code busy n : Nat) : Prop :=
  e.get (R.GATE_CMD_STATUS_CODE m) = code ∧ e.get (R.GATE_CMD_STATUS_BUSY m) = busy ∧ e.get (R.GATE_CMD_STATUS_PORT m) = n

theorem gateCmdReport_onlyChanges (d : Dev) (m code busy n : Nat) : d.OnlyChanges (gateCmdReport d m code busy n) (gateCmdFields m) [] :=
  (Dev.OnlyChanges.refl d _ _).setAll _ (by simp [gateCmdFields])

theorem gateCmdReport_reads (d : Dev) (m : Nat) {code busy n : Nat} (hc : code < 2 ^ 8) (hb : busy < 2 ^ 1) (hn : n < 2 ^ 5) :
    GateReports (gateCmdReport d m code busy n) m code busy n := by
  have hw : (R.GATE_CMD_STATUS_CODE m).w = 8 ∧ (R.GATE_CMD_STATUS_BUSY m).w = 1 ∧ (R.GATE_CMD_STATUS_PORT m).w = 5 := ⟨rfl, rfl, rfl⟩
  simp (disch := simp only [R.GATE_CMD_STATUS_CODE, R.GATE_CMD_STATUS_BUSY, R.GATE_CMD_STATUS_PORT, regFld]; omega) only
    [GateReports, gateCmdReport, Dev.setAll_cons, Dev.setAll_nil, Dev.get_set_ne, Dev.get_set_same, hw]
  exact ⟨Nat.mod_eq_of_lt hc, Nat.mod_eq_of_lt hb, Nat.mod_eq_of_lt hn⟩

/-- The report moves no table field and no field of the model's own. -/
theorem gateCmdReport_get (d : Dev) {m : Nat} (hm : m < 8) (code busy n : Nat) {g : Fld} (hg : tblBase ≤ g.key) :
    (gateCmdReport d m code busy n).get g = d.get g := by
  refine (gateCmdReport_onlyChanges d m code busy n).2 g (fun f hf => ?_) (by simp)
  have hlt : f.key < tblBase := by
    simp only [gateCmdFields, List.mem_cons, List.not_mem_nil, or_false] at hf
    rcases hf with rfl | rfl | rfl <;>
      simp only [R.GATE_CMD_STATUS_CODE, R.GATE_CMD_STATUS_BUSY, R.GATE_CMD_STATUS_PORT, regFld, tblBase] <;> omega
  exact (Nat.lt_of_lt_of_le hlt hg).ne'

section
variable {d : Dev} {p m n : Nat} (hm : p / 32 = m) (hn : p % 32 = n)
include hm

/-- A write while one waits is ignored. -/
theorem gateCmd_of_busy (cancel : Bool) (h : d.get (R.GATE_CMD_STATUS_BUSY m) ≠ 0) : gateCmd d p cancel = d := by
  rw [gateCmd, hm, if_pos (by simpa [Dev.on] using h)]

include hn

theorem gateCmd_of_free (cancel : Bool) (h : d.get (R.GATE_CMD_STATUS_BUSY m) = 0) :
    gateCmd d p cancel = gateCmdReport (d.post (.gateCmd p cancel)) m codeRunning 1 n := by
  rw [gateCmd, hm, hn, if_neg (by simp [Dev.on, h])]
  rfl

end

/-- The two rows are writes of GATE_CMD. -/
theorem exec_gateCmd {s : State} {m : Fin 8} (hl : s.live (0x80 + m) = true) (n : Fin 32) :
    exec (.gateCmdConfigChange m n) s = .next (s.setDev (gateCmd s.d (32 * m + n) false)) ∧
      exec (.gateCmdCancel m n) s = .next (s.setDev (gateCmd s.d (32 * m + n) true)) :=
  have hlive (cancel : Bool) : (if s.live (0x80 + m) then gateCmd s.d (32 * m + n) cancel else s.d) = gateCmd s.d (32 * m + n) cancel := if_pos hl
  ⟨congrArg (fun d => Host.Outcome.next (s.setDev d)) (hlive false), congrArg (fun d => Host.Outcome.next (s.setDev d)) (hlive true)⟩

section
variable {s : State} {c : Instr} {cancel : Bool} {p m n : Nat} (hc : exec c s = .next (s.setDev (gateCmd s.d p cancel))) (hm : p / 32 = m)
include hc hm

/-- A write of GATE_CMD while none waits reads RUNNING and BUSY and waits for the next tick. -/
theorem defers_gateCmd (hn : p % 32 = n) (h : s.d.get (R.GATE_CMD_STATUS_BUSY m) = 0) :
    Defers c s (.gateCmd p cancel) (gateCmdFields m) fun e => GateReports e m codeRunning 1 n := by
  rw [gateCmd_of_free hm hn cancel h] at hc
  exact ⟨_, hc, gateCmdReport_onlyChanges _ _ _ _ _, gateCmdReport_reads _ m (by decide) (by decide) (by omega)⟩

theorem noEffect_gateCmd (h : s.d.get (R.GATE_CMD_STATUS_BUSY m) ≠ 0) : NoEffect c s := by
  rw [gateCmd_of_busy hm cancel h, State.setDev_self] at hc
  exact hc

end

/-! ## The time of a change (R322, R323) -/

/-- The admin cycle of a list that passes the checks lies within R322. -/
theorem gateAdminCycle_bounds {d : Dev} {p : Nat} (h : gateCheck d p = codeOk) :
    1000 * fineNs ≤ gateAdminCycle d p ∧ gateAdminCycle d p ≤ fineSec := by
  simp only [gateCheck, codeState, codeArg, codeOk] at h
  split at h
  · contradiction
  · split at h
    · contradiction
    next hargs =>
      simp only [not_or, not_lt] at hargs
      obtain ⟨-, -, hmin, hmax, -⟩ := hargs
      exact ⟨hmin, hmax⟩

/-- Whole cycles that reach a span overshoot it by less than a cycle. -/
theorem ceilDiv_mul_bounds (x : Nat) {c : Nat} (hc : 0 < c) : x ≤ (x + c - 1) / c * c ∧ (x + c - 1) / c * c < x + c := by
  have hle := Nat.div_mul_le_self (x + c - 1) c
  have hlt := Nat.lt_div_mul_add (a := x + c - 1) hc
  omega

theorem configTime_of_ahead {d : Dev} {p t : Nat} (h : t + gateMargin ≤ gateAdminBase d p) :
    configTime d p t = (gateAdminBase d p, false) := if_pos h

/-- A base that has passed: the change takes the first whole number of cycles after it that is 2 microseconds or more ahead. -/
theorem configTime_of_past {d : Dev} {p t : Nat} (hc : 0 < gateAdminCycle d p) (h : gateAdminBase d p < t + gateMargin) :
    ∃ x, configTime d p t = (x, true) ∧ t + gateMargin ≤ x ∧ x < t + gateMargin + gateAdminCycle d p ∧ gateAdminBase d p ≤ x ∧
      (x - gateAdminBase d p) % gateAdminCycle d p = 0 := by
  refine ⟨gateAdminBase d p + (t + gateMargin - gateAdminBase d p + gateAdminCycle d p - 1) / gateAdminCycle d p * gateAdminCycle d p,
    if_neg (by omega), ?_⟩
  obtain ⟨hle, hlt⟩ := ceilDiv_mul_bounds (t + gateMargin - gateAdminBase d p) hc
  refine ⟨by omega, by omega, by omega, ?_⟩
  rw [Nat.add_sub_cancel_left, Nat.mul_mod_left]

/-! ## A trigger acts (R323, R325) -/

/-- The fields that an accepted trigger moves. -/
def gateAcceptFields (p : Nat) : List Fld :=
  [R.GATE_CONFIG_PENDING p, R.GATE_CONFIG_ERROR p, R.GATE_PAST_BASE p, L.GATE_AT p, R.GATE_CONFIG_CHANGE_SEC p, R.GATE_CONFIG_CHANGE_NS p]

theorem gateAccept_onlyChanges (d : Dev) (p t : Nat) (past : Bool) : d.OnlyChanges (gateAccept d p t past) (gateAcceptFields p) [] :=
  (Dev.OnlyChanges.refl d _ _).setAll _ (by simp [gateAcceptFields])

theorem gateAccept_reads (d : Dev) {p t : Nat} (past : Bool) (hp : p < 256) (ht : t < 2 ^ 128) :
    (gateAccept d p t past).get (R.GATE_CONFIG_PENDING p) = 1 ∧ (gateAccept d p t past).get (L.GATE_AT p) = t ∧
      (gateAccept d p t past).get (R.GATE_PAST_BASE p) = b2n past := by
  have hw : (R.GATE_CONFIG_PENDING p).w = 1 ∧ (L.GATE_AT p).w = 128 ∧ (R.GATE_PAST_BASE p).w = 1 := ⟨rfl, rfl, rfl⟩
  simp (disch := simp only [R.GATE_CONFIG_PENDING, R.GATE_CONFIG_ERROR, R.GATE_PAST_BASE, L.GATE_AT, R.GATE_CONFIG_CHANGE_SEC,
      R.GATE_CONFIG_CHANGE_NS, tblFld, latFld, tblBase, latBase]; omega) only
    [gateAccept, Dev.setAll_cons, Dev.setAll_nil, Dev.get_set_ne, Dev.get_set_same, hw]
  exact ⟨rfl, Nat.mod_eq_of_lt ht, by cases past <;> rfl⟩

/-! ## A GATE_CMD acts (R323, R325) -/

/-- What the operation of a GATE_CMD does to the contents, and its code. -/
def gateCmdResult (d : Dev) (p : Nat) (cancel : Bool) : Dev × Nat :=
  if cancel then
    if d.on (R.GATE_CONFIG_PENDING p) && decide (d.get (L.GATE_AT p) ≤ d.tickTime + gateMargin) then (d, codeState)
    else (d.set (R.GATE_CONFIG_PENDING p) 0, codeOk)
  else gateTrigger d p none

theorem gateCmdResult_change (d : Dev) (p : Nat) : gateCmdResult d p false =
    if gateCheck d p = codeOk then (gateAccept d p (configTime d p d.tickTime).1 (configTime d p d.tickTime).2, codeOk)
    else (gateRefuse d p, gateCheck d p) := by
  rw [gateCmdResult, if_neg Bool.false_ne_true, gateTrigger, ite_not]

theorem postedAct_gateCmd (s : State) (p : Nat) (cancel : Bool) : postedAct s (.gateCmd p cancel) =
    s.setDev (gateCmdReport (gateCmdResult s.d p cancel).1 (p / 32) (gateCmdResult s.d p cancel).2 0 (p % 32)) := by
  cases cancel with
  | false =>
    show s.setDev (gateConfigChange s.d p) = _
    rw [gateConfigChange, gateCmdResult, if_neg Bool.false_ne_true]
    rfl
  | true =>
    show s.setDev (gateCancel s.d p) = _
    rw [gateCancel, gateCmdResult, if_pos rfl]
    split <;> rfl

/-- An operation that leaves `e` and ends with a code: the tables and the model's own fields read as in `e`, and GATE_CMD reports the code. -/
theorem acts_gateCmd {s : State} {cancel : Bool} {p m n code : Nat} {e : Dev} {gs : List Fld} {evs : List Nat} (hp : p < 256) (hm : p / 32 = m)
    (hn : p % 32 = n) (hr : gateCmdResult s.d p cancel = (e, code)) (hcode : code < 2 ^ 8) (hc : s.d.OnlyChanges e gs evs) :
    Acts (.gateCmd p cancel) s s.d (gateCmdFields m ++ gs) evs fun e' =>
      (∀ g : Fld, tblBase ≤ g.key → e'.get g = e.get g) ∧ GateReports e' m code 0 n := by
  refine ⟨gateCmdReport e m code 0 n, ?_, ?_, fun g => gateCmdReport_get e (by omega) code 0 n,
    gateCmdReport_reads e m hcode (by decide) (by omega)⟩
  · rw [postedAct_gateCmd, hr, hm, hn]
  · exact (hc.mono (by simp +contextual) (by simp)).trans ((gateCmdReport_onlyChanges e m code 0 n).mono (by simp +contextual) (by simp))

/-- The gate fields of a port are table fields or the model's own. -/
theorem tblBase_le_gateFields (p : Nat) : tblBase ≤ (R.GATE_CONFIG_PENDING p).key ∧ tblBase ≤ (R.GATE_CONFIG_ERROR p).key ∧
    tblBase ≤ (R.GATE_PAST_BASE p).key ∧ tblBase ≤ (L.GATE_AT p).key := by
  simp only [R.GATE_CONFIG_PENDING, R.GATE_CONFIG_ERROR, R.GATE_PAST_BASE, L.GATE_AT, tblFld, latFld, tblBase, latBase]
  omega

section
variable {s : State} {p m n : Nat} (hp : p < 256) (hm : p / 32 = m) (hn : p % 32 = n)
include hp hm hn

/-- CONFIG_CHANGE that passes its checks: the change is pending at its ConfigChangeTime. -/
theorem acts_gateCmd_accepted (h : gateCheck s.d p = codeOk) (ht : (configTime s.d p s.d.tickTime).1 < 2 ^ 128) :
    Acts (.gateCmd p false) s s.d (gateCmdFields m ++ gateAcceptFields p) [] fun e =>
      e.get (R.GATE_CONFIG_PENDING p) = 1 ∧ GateReports e m codeOk 0 n ∧ e.get (L.GATE_AT p) = (configTime s.d p s.d.tickTime).1 ∧
        e.get (R.GATE_PAST_BASE p) = b2n (configTime s.d p s.d.tickTime).2 := by
  have hr := (gateCmdResult_change s.d p).trans (if_pos h)
  refine (acts_gateCmd hp hm hn hr (by decide) (gateAccept_onlyChanges _ _ _ _)).mono (fun _ => id) ?_
  rintro e ⟨hget, hends⟩
  obtain ⟨hpending, hat, hpast⟩ := gateAccept_reads s.d (configTime s.d p s.d.tickTime).2 hp ht
  obtain ⟨kpending, -, kpast, kat⟩ := tblBase_le_gateFields p
  exact ⟨(hget _ kpending).trans hpending, hends, (hget _ kat).trans hat, (hget _ kpast).trans hpast⟩

/-- CONFIG_CHANGE that fails a check. -/
theorem acts_gateCmd_refused (h : gateCheck s.d p ≠ codeOk) :
    Acts (.gateCmd p false) s s.d (gateCmdFields m ++ [R.GATE_CONFIG_ERROR p, R.GATE_STATS p 1]) [0x80 + m] fun e =>
      e.get (R.GATE_CONFIG_ERROR p) = 1 ∧ GateReports e m (gateCheck s.d p) 0 n ∧ e.evt (0x80 + m) n = true := by
  have hr := (gateCmdResult_change s.d p).trans (if_neg h)
  obtain ⟨herror, hevent⟩ := gateRefuse_reads s.d hp
  have hframe := gateRefuse_onlyChanges s.d p
  rw [hm] at hevent hframe
  rw [hn] at hevent
  refine (acts_gateCmd hp hm hn hr (gateCheck_lt _ _) hframe).mono (fun _ => id) ?_
  rintro e ⟨hget, hends⟩
  obtain ⟨-, kerror, -, -⟩ := tblBase_le_gateFields p
  refine ⟨(hget _ kerror).trans herror, hends, ?_⟩
  rw [Dev.evt, hget _ (by simp only [L.EVT_LATCH, latFld, tblBase, latBase]; omega)]
  exact hevent

/-- CANCEL of a change more than 2 microseconds ahead withdraws it. -/
theorem acts_gateCmd_withdrawn (h : s.d.tickTime + gateMargin < s.d.get (L.GATE_AT p)) :
    Acts (.gateCmd p true) s s.d (R.GATE_CONFIG_PENDING p :: gateCmdFields m) [] fun e =>
      e.get (R.GATE_CONFIG_PENDING p) = 0 ∧ GateReports e m codeOk 0 n := by
  have hr : gateCmdResult s.d p true = (s.d.set (R.GATE_CONFIG_PENDING p) 0, codeOk) := by
    rw [gateCmdResult, if_pos rfl, if_neg (by simp [h])]
  refine (acts_gateCmd hp hm hn hr (by decide) ((Dev.OnlyChanges.refl s.d [R.GATE_CONFIG_PENDING p] []).set 0 (by simp))).mono
    (by simp [or_comm]) ?_
  rintro e ⟨hget, hends⟩
  exact ⟨(hget _ (tblBase_le_gateFields p).1).trans (Dev.get_set_same _ _ _), hends⟩

/-- CANCEL of a pending change within 2 microseconds is refused, and the change stays. -/
theorem acts_gateCmd_tooLate (hpending : s.d.get (R.GATE_CONFIG_PENDING p) = 1) (h : s.d.get (L.GATE_AT p) ≤ s.d.tickTime + gateMargin) :
    Acts (.gateCmd p true) s s.d (gateCmdFields m) [] fun e => GateReports e m codeState 0 n := by
  have hr : gateCmdResult s.d p true = (s.d, codeState) := by
    rw [gateCmdResult, if_pos rfl, if_pos (by simp [Dev.on, hpending, h])]
  exact (acts_gateCmd hp hm hn hr (by decide) (Dev.OnlyChanges.refl s.d [] [])).mono (by simp) fun _ ⟨_, hends⟩ => hends

end

end Sys2Proof.Machine

open Sys2Proof Sys2Proof.Machine

/-- Settles O22: a GATE_CMD write waits (`defers_gateCmd`); acting, it is the trigger's or the withdrawal's effect with a report
(`acts_gateCmd`), at the time that `configTime_of_ahead` and `configTime_of_past` give. -/
theorem gateCommandRows : Obligations.GateCommandRows := by
  unfold Obligations.GateCommandRows
  intro s m n p st b c
  have hp : p < 256 := by omega
  have hm : p / 32 = m.val := by omega
  have hn : p % 32 = n.val := by omega
  refine ⟨fun hl => ?_, fun hcheck hb ht => ?_, fun hcheck => ?_, fun _ hat => ?_, fun hpending hat => ?_⟩
  · obtain ⟨hchange, hcancel⟩ := exec_gateCmd hl n
    refine ⟨fun hbusy x hx => ?_, fun hbusy => ⟨noEffect_gateCmd hchange hm hbusy, noEffect_gateCmd hcancel hm hbusy⟩⟩
    simp only [List.mem_cons, List.not_mem_nil, or_false] at hx
    rcases hx with rfl | rfl
    · exact defers_gateCmd hchange hm hn hbusy
    · exact defers_gateCmd hcancel hm hn hbusy
  · have hcycle : 0 < c ∧ c ≤ fineSec := ⟨lt_of_lt_of_le (by decide) (gateAdminCycle_bounds hcheck).1, (gateAdminCycle_bounds hcheck).2⟩
    have hmargin : gateMargin + fineSec < 2 ^ 127 := by decide
    rcases Nat.lt_or_ge b (s.d.tickTime + gateMargin) with hpast | hahead
    · obtain ⟨x, hx, hlead, hnear, hbase, hwhole⟩ := configTime_of_past hcycle.1 hpast
      refine (acts_gateCmd_accepted hp hm hn hcheck (by rw [hx]; omega)).mono (fun _ => id) ?_
      rintro e ⟨hset, ⟨hcode, hidle, hport⟩, hat, hflag⟩
      rw [hx] at hat hflag
      exact ⟨hset, hcode, hidle, hport, hat ▸ hlead, fun h => absurd hpast (by omega),
        fun _ => ⟨hflag, hat ▸ hbase, hat ▸ hwhole, hat ▸ hnear⟩⟩
    · have hx := configTime_of_ahead hahead
      refine (acts_gateCmd_accepted hp hm hn hcheck (by rw [hx]; omega)).mono (fun _ => id) ?_
      rintro e ⟨hset, ⟨hcode, hidle, hport⟩, hat, hflag⟩
      rw [hx] at hat hflag
      exact ⟨hset, hcode, hidle, hport, hat ▸ hahead, fun _ => ⟨hat, hflag⟩, fun h => absurd h (by omega)⟩
  · exact (acts_gateCmd_refused hp hm hn hcheck).mono (fun _ => id) fun e ⟨herror, ⟨hcode, _⟩, hevent⟩ => ⟨herror, hcode, hevent⟩
  · exact (acts_gateCmd_withdrawn hp hm hn hat).mono (fun _ => id) fun e ⟨hclear, hcode, _⟩ => ⟨hclear, hcode⟩
  · exact (acts_gateCmd_tooLate hp hm hn hpending hat).mono (fun _ => id) fun e ⟨hcode, _⟩ => hcode
end

section
namespace Sys2Proof.Machine

/-! ## What the gates of a port move as they change (R315, R331, R332) -/

/-- The keys of the credit of the queues. -/
def creditKey (k : Nat) : Bool := groupKey (L.CBS_FINE 0) k || groupKey (L.CBS_SINCE 0) k || decide ((L.CBS_HOLD 0).key ≤ k)

theorem creditKey_eq_false {k : Nat} : creditKey k = false ↔
    ¬ (2 ^ 48 + 123 * 2 ^ 32 ≤ k ∧ k < 2 ^ 48 + 125 * 2 ^ 32) ∧ k < 2 ^ 48 + 276 * 2 ^ 32 := by
  rw [← Bool.not_eq_true]
  simp only [creditKey, groupKey, Bool.or_eq_true, Bool.and_eq_true, decide_eq_true_eq, beq_iff_eq]
  simp only [L.CBS_FINE, L.CBS_SINCE, L.CBS_HOLD, latFld, latBase]
  omega

theorem creditKey_fields {q : Nat} (hq : q < 4096) : ∀ f ∈ [L.CBS_SINCE q, L.CBS_FINE q], creditKey f.key = true := by
  simp only [List.forall_mem_cons, List.not_mem_nil, false_imp_iff, implies_true, and_true, ← Bool.not_eq_false, creditKey_eq_false,
    L.CBS_SINCE, L.CBS_FINE, latFld, latBase]
  omega

/-- Bringing the credit of a queue up to now moves that credit alone; of a queue that there is none of, nothing. -/
theorem cbsSync_keepsBut (d : Dev) (q : Nat) : d.KeepsBut (cbsSync d q) creditKey := by
  rcases Nat.lt_or_ge q 4096 with hq | hq
  · have hc : d.OnlyChanges (cbsSync d q) [L.CBS_SINCE q, L.CBS_FINE q] [] := by
      have hsince := (Dev.OnlyChanges.refl d [L.CBS_SINCE q, L.CBS_FINE q] []).set (f := L.CBS_SINCE q) d.time (by simp)
      rw [cbsSync, if_neg (by omega)]
      refine Dev.OnlyChanges.ite (fun _ => hsince) fun _ => Dev.OnlyChanges.ite (fun _ => ?_) fun _ => ?_
      · exact hsince.set _ (by simp)
      · exact hsince.set _ (by simp)
    exact hc.within (creditKey_fields hq) (by simp)
  · rw [cbsSync, if_pos hq]
    exact ⟨rfl, fun _ _ => rfl⟩

theorem Dev.KeepsBut.each {d : Dev} {p : Nat → Bool} {f : Nat → Dev → Dev} (n : Nat) (h : ∀ (i : Nat) (e : Dev), e.KeepsBut (f i e) p) :
    d.KeepsBut (d.each n f) p := by
  induction n with
  | zero => exact ⟨rfl, fun _ _ => rfl⟩
  | succ n ih => exact ih.trans (h n _)

theorem cbsSyncPort_keepsBut (d : Dev) (p : Nat) : d.KeepsBut (cbsSyncPort d p) creditKey :=
  Dev.KeepsBut.each 16 fun _ e => cbsSync_keepsBut e _

theorem cbsSyncPort_txs (d : Dev) (p : Nat) : (cbsSyncPort d p).txs = d.txs := by rw [(cbsSyncPort_keepsBut d p).1]

theorem preTx_port {d : Dev} {p : Nat} {t : TxCopy} (h : preTx d p = some t) : t.port = p := by
  have hfound := List.find?_some h
  simp only [Bool.and_eq_true, beq_iff_eq] at hfound
  obtain ⟨⟨⟨hport, -⟩, -⟩, -⟩ := hfound
  exact hport

theorem putTx_get (d : Dev) (t : TxCopy) (g : Fld) : (putTx d t).get g = d.get g := Dev.get_of_cells (d := d) (e := putTx d t) rfl g

/-- An interruption moves the credit of the copy's queue, the copy, the line's free instant and the queue's hold. -/
theorem suspendTx_eq (d : Dev) (t : TxCopy) (n : Nat) : ∃ free hold, suspendTx d t n =
    ((putTx (cbsSync d t.copy.queue) { t with suspended := true, sent := t.sent + n }).setAll
      [(L.TX_FREE t.port, free), (L.CBS_HOLD t.copy.queue, hold)]).emit (.fragment t.port (t.sent + n)) := ⟨_, _, rfl⟩

/-- An interruption suspends the port's preemptable transmission, or there is none that may be cut. `cut` is the cut length, under a name that
has no body to evaluate. -/
theorem interrupt_cases {d : Dev} {cut : TxCopy → Nat → Option Nat} (hcut : cutLength d = cut) (p : Nat) (close : Bool) :
    interrupt d p close = d ∨ ∃ t n, preTx d p = some t ∧
      interrupt d p close = suspendTx (if close then d.count (gatePage p) (R.GATE_STATS p 2) else d) t n := by
  rw [interrupt, hcut]
  split
  next t ht =>
    split
    next n _ => exact .inr ⟨t, n, ht, rfl⟩
    next => exact .inl rfl
  next => exact .inl rfl

/-- The fields of port `p`, besides the credit, that the gates' change may move: the entry in force with its gate states, the hold, the line's
free instant and the counters of interruptions and holds. -/
def applyFields (p : Nat) : List Fld :=
  [L.GATE_ENTRY p, R.GATE_OPER_GATE_STATES p, L.GATE_HOLD p, L.TX_FREE p, R.GATE_STATS p 2, R.PORT_MM_STATS p 5]

section
variable {p : Nat} {g : Fld} (hc : creditKey g.key = false)
include hc

theorem ne_cbsHold_of_creditKey (q : Nat) : g.key ≠ (L.CBS_HOLD q).key := by
  rw [creditKey_eq_false] at hc
  simp only [L.CBS_HOLD, latFld, latBase]
  omega

theorem suspendTx_get (d : Dev) {t : TxCopy} (n : Nat) (hfree : g.key ≠ (L.TX_FREE t.port).key) : (suspendTx d t n).get g = d.get g := by
  obtain ⟨free, hold, h⟩ := suspendTx_eq d t n
  rw [h, Dev.get_emit, Dev.get_setAll_ne _ _ _ (by simp [hfree, ne_cbsHold_of_creditKey hc]), putTx_get]
  exact (cbsSync_keepsBut d _).get hc

variable (hf : ∀ f ∈ applyFields p, g.key ≠ f.key)
include hf

theorem interrupt_get (d : Dev) (close : Bool) : (interrupt d p close).get g = d.get g := by
  have hcount : (if close then d.count (gatePage p) (R.GATE_STATS p 2) else d).get g = d.get g := by
    split
    · exact Dev.get_count_ne _ _ _ _ _ (hf _ (by simp [applyFields]))
    · rfl
  rcases interrupt_cases (d := d) rfl p close with h | ⟨t, n, ht, h⟩
  · rw [h]
  · rw [h, suspendTx_get hc _ _ (by rw [preTx_port ht]; exact hf _ (by simp [applyFields])), hcount]

theorem gateStatesSet_get (d : Dev) (v : Nat) : (gateStatesSet d p v).get g = d.get g := by
  have hset : ((cbsSyncPort d p).set (R.GATE_OPER_GATE_STATES p) v).get g = d.get g :=
    (Dev.get_set_ne _ _ _ _ (hf _ (by simp [applyFields]))).trans ((cbsSyncPort_keepsBut d p).get hc)
  simp only [gateStatesSet]
  split
  · split
    · exact (interrupt_get hc hf _ _).trans hset
    · exact hset
  · exact hset

theorem gateHoldOp_get (d : Dev) (op : Nat) : (gateHoldOp d p op).get g = d.get g := by
  have hhold (e : Dev) (v : Nat) : (e.set (L.GATE_HOLD p) v).get g = e.get g := Dev.get_set_ne _ _ _ _ (hf _ (by simp [applyFields]))
  unfold gateHoldOp
  split
  · split
    · rfl
    · rw [interrupt_get hc hf, Dev.get_count_ne _ _ _ _ _ (hf _ (by simp [applyFields])), hhold]
  · exact hhold d 0

theorem gateApply_get (d : Dev) : (gateApply d p).get g = d.get g := by
  rw [gateApply, gateHoldOp_get hc hf, gateStatesSet_get hc hf, Dev.get_set_ne _ _ _ _ (hf _ (by simp [applyFields]))]

end

/-! ## The entry in force with no preemptable transmission (R322) -/

section
variable {d : Dev} {p : Nat} (h : preTx d p = none)
include h

theorem interrupt_of_idle (close : Bool) : interrupt d p close = d := by rw [interrupt, h]

theorem gateStatesSet_of_idle (v : Nat) : gateStatesSet d p v = (cbsSyncPort d p).set (R.GATE_OPER_GATE_STATES p) v := by
  have hidle : preTx ((cbsSyncPort d p).set (R.GATE_OPER_GATE_STATES p) v) p = none := by
    unfold preTx at h ⊢
    rw [Dev.set_txs, cbsSyncPort_txs, h]
  rw [gateStatesSet, hidle]

end

/-- With no preemptable transmission an entry's operation moves the hold and its counter alone. -/
theorem gateHoldOp_onlyChanges_of_idle {d : Dev} {p : Nat} (h : preTx d p = none) (op : Nat) :
    d.OnlyChanges (gateHoldOp d p op) [L.GATE_HOLD p, R.PORT_MM_STATS p 5] [] := by
  have hset (v : Nat) : d.OnlyChanges (d.set (L.GATE_HOLD p) v) [L.GATE_HOLD p, R.PORT_MM_STATS p 5] [] :=
    (Dev.OnlyChanges.refl d _ _).set v (by simp)
  have hheld := (hset 1).count (0x78 + p / 32) (f := R.PORT_MM_STATS p 5) 1 (by simp)
  have hidle : preTx ((d.set (L.GATE_HOLD p) 1).count (0x78 + p / 32) (R.PORT_MM_STATS p 5)) p = none := by
    unfold preTx at h ⊢
    rw [hheld.1, h]
  unfold gateHoldOp
  refine Dev.OnlyChanges.ite (fun _ => Dev.OnlyChanges.ite (fun _ => Dev.OnlyChanges.refl d _ _) fun _ => ?_) fun _ => hset 0
  rw [interrupt_of_idle hidle]
  exact hheld

/-- Putting the gates of a port with no preemptable transmission to an entry leaves the entry's index and gate states. -/
theorem gateEntrySet_reads {d : Dev} {p : Nat} (hp : p < 256) (h : preTx d p = none) (i v op : Nat) :
    (gateHoldOp (gateStatesSet (d.set (L.GATE_ENTRY p) i) p v) p op).get (L.GATE_ENTRY p) = i % 2 ^ 9 ∧
      (gateHoldOp (gateStatesSet (d.set (L.GATE_ENTRY p) i) p v) p op).get (R.GATE_OPER_GATE_STATES p) = v % 2 ^ 16 := by
  have hentry : preTx (d.set (L.GATE_ENTRY p) i) p = none := h
  have hset : preTx ((cbsSyncPort (d.set (L.GATE_ENTRY p) i) p).set (R.GATE_OPER_GATE_STATES p) v) p = none := by
    unfold preTx at h ⊢
    rw [Dev.set_txs, cbsSyncPort_txs, Dev.set_txs, h]
  have hhold := (gateHoldOp_onlyChanges_of_idle hset op).2
  have hcredit : creditKey (L.GATE_ENTRY p).key = false := by
    simp only [creditKey_eq_false, L.GATE_ENTRY, latFld, latBase]
    omega
  rw [gateStatesSet_of_idle hentry, hhold (L.GATE_ENTRY p) _ (by simp), hhold (R.GATE_OPER_GATE_STATES p) _ (by simp), Dev.get_set_same,
    Dev.get_set_ne, (cbsSyncPort_keepsBut _ p).get hcredit, Dev.get_set_same]
  · exact ⟨rfl, rfl⟩
  all_goals
    simp only [List.forall_mem_cons, List.not_mem_nil, false_imp_iff, implies_true, and_true, L.GATE_ENTRY, R.GATE_OPER_GATE_STATES, L.GATE_HOLD,
      R.PORT_MM_STATS, tblFld, latFld, tblBase, latBase]
    omega

theorem yields_gateEntryBoundary {s : State} {p : Fin 256} (hf : s.frozen = false) (hon : gatesOn s.d p = true) (hrun : s.d.get (L.GATE_RUN p) = 1)
    (h : preTx s.d p = none) : Yields (.gateEntryBoundary p) s fun e =>
      e.get (L.GATE_ENTRY p) = ((operList s.d p).at s.d.time).1 % 2 ^ 9 ∧
      e.get (R.GATE_OPER_GATE_STATES p) = ((operList s.d p).at s.d.time).2.1 % 2 ^ 16 := by
  have happly : gateBoundary s.d p = gateApply s.d p := if_pos (by simp [hon, Dev.on, hrun])
  refine ⟨gateApply s.d p, ?_, gateEntrySet_reads p.isLt h _ _ _⟩
  show s.lanes (fun d => gateBoundary d p) = _
  rw [State.lanes_of hf, happly]

/-! ## A change takes effect (R324, R327) -/

/-- Entry `i` of the operational list as a change to an admin list of `n` entries leaves it. -/
def listEntry (p n i : Nat) (d : Dev) : Dev :=
  if i < n then
    d.setAll [(R.OPER_GATE_STATES (256 * p + i), d.get (R.ADMIN_GATE_STATES (256 * p + i))),
      (R.OPER_OP (256 * p + i), d.get (R.ADMIN_OP (256 * p + i))), (R.OPER_INTERVAL (256 * p + i), d.get (R.ADMIN_INTERVAL (256 * p + i)))]
  else d.clearEntry (gatePage p) 2 (256 * (p % 32) + i)

/-- The operational list of port `p` has the contents of its admin list of `n` entries. -/
def listCopied (d : Dev) (p n : Nat) : Dev := (cbsSyncPort d p).each 256 (listEntry p n)

/-- The list runs from the change's time with the admin length and cycle, and nothing is pending. -/
def listRuns (d : Dev) (p n : Nat) : Dev :=
  d.setAll [(R.GATE_CONFIG_PENDING p, 0), (L.GATE_RUN p, 1), (L.GATE_BASE p, d.get (L.GATE_AT p)), (R.GATE_OPER_LIST_LENGTH p, n),
    (R.GATE_OPER_CYCLE_NS p, d.get (R.GATE_ADMIN_CYCLE_NS p)), (R.GATE_OPER_CYCLE_FRAC p, d.get (R.GATE_ADMIN_CYCLE_FRAC p))]

/-- The longest open times of the port's gates follow its list. -/
def gateWidths (d : Dev) (p : Nat) : Dev := d.each 16 fun q e => e.set (L.GATE_W p q) (gateW (operList d p) q)

theorem configChange_of_due {d : Dev} {p : Nat} (hpending : d.get (R.GATE_CONFIG_PENDING p) = 1) (hat : d.get (L.GATE_AT p) ≤ d.time) :
    configChange d p = gateApply (gateEvent ((gateWidths (listRuns (listCopied d p ((cbsSyncPort d p).get (R.GATE_ADMIN_LIST_LENGTH p))) p
      ((cbsSyncPort d p).get (R.GATE_ADMIN_LIST_LENGTH p))) p).count (gatePage p) (R.GATE_STATS p 0)) p) p := by
  rw [configChange, if_pos (by simp [Dev.on, hpending, hat])]
  rfl

/-- The fields that a change gives its port, with those of entry `k`. -/
def changeFields (p k : Nat) : List Fld :=
  [R.GATE_CONFIG_PENDING p, L.GATE_RUN p, L.GATE_BASE p, R.GATE_OPER_LIST_LENGTH p, R.OPER_GATE_STATES (256 * p + k), R.OPER_INTERVAL (256 * p + k)]

/-- Entry `k` of a list of port `p` is entry `256 * (p % 32) + k` of the table of its page. -/
theorem listFields_eq {p k : Nat} (hk : k < 256) :
    R.OPER_GATE_STATES (256 * p + k) = tblFld (0x80 + p / 32) 2 (256 * (p % 32) + k) 0 16 0 ∧
      R.OPER_OP (256 * p + k) = tblFld (0x80 + p / 32) 2 (256 * (p % 32) + k) 16 2 0 ∧
      R.OPER_INTERVAL (256 * p + k) = tblFld (0x80 + p / 32) 2 (256 * (p % 32) + k) 32 32 0 ∧
      R.ADMIN_GATE_STATES (256 * p + k) = tblFld (0x80 + p / 32) 0 (256 * (p % 32) + k) 0 16 0 ∧
      R.ADMIN_INTERVAL (256 * p + k) = tblFld (0x80 + p / 32) 0 (256 * (p % 32) + k) 32 32 0 := by
  have hpage : (256 * p + k) / 8192 = p / 32 := by omega
  have hindex : (256 * p + k) % 8192 = 256 * (p % 32) + k := by omega
  simp only [R.OPER_GATE_STATES, R.OPER_OP, R.OPER_INTERVAL, R.ADMIN_GATE_STATES, R.ADMIN_INTERVAL, hpage, hindex, and_self]

/-- No field that a change gives its port is moved again when the change is recorded and its first entry applied. -/
theorem changeFields_apart {p k : Nat} (hp : p < 256) (hk : k < 256) : ∀ f ∈ changeFields p k, creditKey f.key = false ∧
    (∀ g ∈ applyFields p, f.key ≠ g.key) ∧ f.key ≠ (R.GATE_STATS p 0).key ∧ ∀ q < 16, f.key ≠ (L.GATE_W p q).key := by
  obtain ⟨hstates, -, hinterval, -, -⟩ := listFields_eq (p := p) hk
  simp only [changeFields, applyFields, List.forall_mem_cons, List.not_mem_nil, false_imp_iff, implies_true, and_true, creditKey_eq_false,
    hstates, hinterval]
  simp only [R.GATE_CONFIG_PENDING, L.GATE_RUN, L.GATE_BASE, R.GATE_OPER_LIST_LENGTH, L.GATE_ENTRY, R.GATE_OPER_GATE_STATES, L.GATE_HOLD,
    L.TX_FREE, R.GATE_STATS, R.PORT_MM_STATS, L.GATE_W, tblFld, latFld, tblBase, latBase]
  refine ⟨?_, ?_, ?_, ?_, ?_, ?_⟩ <;> exact ⟨by omega, by omega, by omega, fun q hq => by omega⟩

theorem eventKey_changeFields {p k : Nat} (hp : p < 256) (hk : k < 256) : ∀ f ∈ changeFields p k, eventKey (gatePage p) f.key = false := by
  intro f hf
  refine eventKey_of_not_wpOwn (by unfold gatePage; omega) ?_
  simp only [changeFields, List.mem_cons, List.not_mem_nil, or_false] at hf
  rcases hf with rfl | rfl | rfl | rfl | rfl | rfl
  · exact wpOwn_gate hp (by decide) (by decide)
  · exact wpOwn_lat (by decide) (by omega)
  · exact wpOwn_lat (by decide) (by omega)
  · exact wpOwn_gate hp (by decide) (by decide)
  · exact wpOwn_table (by omega) (by omega) (by decide) (by omega) (by decide)
  · exact wpOwn_table (by omega) (by omega) (by decide) (by omega) (by decide)

theorem Dev.get_each_ne {d : Dev} {f : Nat → Dev → Dev} {n : Nat} {g : Fld} (h : ∀ i < n, ∀ e : Dev, (f i e).get g = e.get g) :
    (d.each n f).get g = d.get g := by
  induction n with
  | zero => rfl
  | succ n ih => exact (h n (Nat.lt_succ_self n) _).trans (ih fun i hi => h i (Nat.lt_succ_of_lt hi))

/-- A field that no step of a loop moves after step `k` reads what that step left. -/
theorem Dev.get_each_at {d : Dev} {f : Nat → Dev → Dev} {n k : Nat} {g : Fld} (hk : k < n)
    (h : ∀ i < n, k < i → ∀ e : Dev, (f i e).get g = e.get g) : (d.each n f).get g = (f k (d.each k f)).get g := by
  induction n with
  | zero => omega
  | succ n ih =>
    rcases Nat.lt_succ_iff_lt_or_eq.1 hk with hlt | rfl
    · exact (h n (Nat.lt_succ_self n) hlt _).trans (ih hlt fun i hi => h i (Nat.lt_succ_of_lt hi))
    · rfl

theorem change_get {p k : Nat} (hp : p < 256) (hk : k < 256) (e : Dev) : ∀ f ∈ changeFields p k,
    (gateApply (gateEvent ((gateWidths e p).count (gatePage p) (R.GATE_STATS p 0)) p) p).get f = e.get f := by
  intro f hf
  obtain ⟨hcredit, happly, hcount, hwidth⟩ := changeFields_apart hp hk f hf
  rw [gateApply_get hcredit happly, gateEvent, Dev.get_latch_ne _ _ _ (by omega) _ (eventKey_changeFields hp hk f hf),
    Dev.get_count_ne _ _ _ _ _ hcount]
  exact Dev.get_each_ne fun q hq x => Dev.get_set_ne _ _ _ _ (hwidth q hq)

/-- Where entry `i` of the operational list of a port lies. -/
theorem operEntry_iff {p i k : Nat} : entryKey (gatePage p) 2 (256 * (p % 32) + i) k = true ↔
    2 ^ 44 + ((0x80 + p / 32) * 32 + 2) * 2 ^ 29 + (256 * (p % 32) + i) * 512 ≤ k ∧
      k < 2 ^ 44 + ((0x80 + p / 32) * 32 + 2) * 2 ^ 29 + (256 * (p % 32) + i + 1) * 512 := by
  simp only [entryKey, Bool.and_eq_true, decide_eq_true_eq]
  simp only [gatePage, tblKey, tblBase]
  omega

theorem operEntry_eq_false {p i k : Nat} : entryKey (gatePage p) 2 (256 * (p % 32) + i) k = false ↔
    ¬ (2 ^ 44 + ((0x80 + p / 32) * 32 + 2) * 2 ^ 29 + (256 * (p % 32) + i) * 512 ≤ k ∧
      k < 2 ^ 44 + ((0x80 + p / 32) * 32 + 2) * 2 ^ 29 + (256 * (p % 32) + i + 1) * 512) := by
  rw [← Bool.not_eq_true, operEntry_iff]

/-- Entry `i` moves alone. -/
theorem listEntry_get {p n i : Nat} (hi : i < 256) (e : Dev) {g : Fld} (hg : entryKey (gatePage p) 2 (256 * (p % 32) + i) g.key = false) :
    (listEntry p n i e).get g = e.get g := by
  obtain ⟨hstates, hop, hinterval, -, -⟩ := listFields_eq (p := p) hi
  unfold listEntry
  split
  · rw [operEntry_eq_false] at hg
    refine Dev.get_setAll_ne _ _ _ ?_
    simp only [List.forall_mem_cons, List.not_mem_nil, false_imp_iff, implies_true, and_true, hstates, hop, hinterval, tblFld, tblBase]
    omega
  · rw [Dev.clearEntry, Dev.get_clearRange, if_neg]
    simpa [entryKey] using hg

/-- A covered entry takes the admin entry's gate states and interval. -/
theorem listEntry_reads {p n k : Nat} (hk : k < 256) (hn : k < n) (e : Dev) :
    (listEntry p n k e).get (R.OPER_GATE_STATES (256 * p + k)) = e.get (R.ADMIN_GATE_STATES (256 * p + k)) % 2 ^ 16 ∧
      (listEntry p n k e).get (R.OPER_INTERVAL (256 * p + k)) = e.get (R.ADMIN_INTERVAL (256 * p + k)) % 2 ^ 32 := by
  obtain ⟨hstates, hop, hinterval, -, -⟩ := listFields_eq (p := p) hk
  rw [listEntry, if_pos hn, hstates, hop, hinterval]
  simp (disch := simp only [tblFld]; omega) only [Dev.setAll_cons, Dev.setAll_nil, Dev.get_set_ne, Dev.get_set_same]
  exact ⟨rfl, rfl⟩

/-- What a change reads of its port, with admin entry `k`, lies outside the credit and the operational list. -/
theorem sourceFields_apart {p k : Nat} (hp : p < 256) (hk : k < 256) :
    ∀ f ∈ [L.GATE_AT p, R.ADMIN_GATE_STATES (256 * p + k), R.ADMIN_INTERVAL (256 * p + k)],
      creditKey f.key = false ∧ ∀ i < 256, entryKey (gatePage p) 2 (256 * (p % 32) + i) f.key = false := by
  obtain ⟨-, -, -, hstates, hinterval⟩ := listFields_eq (p := p) hk
  simp only [List.forall_mem_cons, List.not_mem_nil, false_imp_iff, implies_true, and_true, creditKey_eq_false, operEntry_eq_false, hstates,
    hinterval]
  simp only [L.GATE_AT, tblFld, latFld, tblBase, latBase]
  refine ⟨?_, ?_, ?_⟩ <;> exact ⟨by omega, fun i hi => by omega⟩

section
variable {d : Dev} {p n k : Nat} (hp : p < 256) (hk : k < 256)
include hp hk

/-- The source of a change reads the same throughout the copying. -/
theorem listCopied_source {m : Nat} (hm : m ≤ 256) : ∀ f ∈ [L.GATE_AT p, R.ADMIN_GATE_STATES (256 * p + k), R.ADMIN_INTERVAL (256 * p + k)],
    ((cbsSyncPort d p).each m (listEntry p n)).get f = d.get f := by
  intro f hf
  obtain ⟨hcredit, hentry⟩ := sourceFields_apart hp hk f hf
  exact (Dev.get_each_ne fun i hi e => listEntry_get (by omega) e (hentry i (by omega))).trans ((cbsSyncPort_keepsBut d p).get hcredit)

theorem listCopied_reads (hn : k < n) :
    (listCopied d p n).get (R.OPER_GATE_STATES (256 * p + k)) = d.get (R.ADMIN_GATE_STATES (256 * p + k)) % 2 ^ 16 ∧
      (listCopied d p n).get (R.OPER_INTERVAL (256 * p + k)) = d.get (R.ADMIN_INTERVAL (256 * p + k)) % 2 ^ 32 := by
  obtain ⟨hstates, -, hinterval, -, -⟩ := listFields_eq (p := p) hk
  have hlater : ∀ f ∈ [R.OPER_GATE_STATES (256 * p + k), R.OPER_INTERVAL (256 * p + k)],
      ∀ i < 256, k < i → ∀ e : Dev, (listEntry p n i e).get f = e.get f := by
    intro f hf i hi hki e
    refine listEntry_get hi e ?_
    simp only [List.mem_cons, List.not_mem_nil, or_false] at hf
    rcases hf with rfl | rfl
    · rw [operEntry_eq_false, hstates]
      simp only [tblFld, tblBase]
      omega
    · rw [operEntry_eq_false, hinterval]
      simp only [tblFld, tblBase]
      omega
  obtain ⟨hreads, hreads'⟩ := listEntry_reads (p := p) hk hn ((cbsSyncPort d p).each k (listEntry p n))
  rw [listCopied, Dev.get_each_at hk (hlater _ (by simp)), Dev.get_each_at hk (hlater _ (by simp)), hreads, hreads',
    listCopied_source hp hk (by omega) _ (by simp), listCopied_source hp hk (by omega) _ (by simp)]
  exact ⟨rfl, rfl⟩

end

theorem listRuns_reads (d : Dev) {p n : Nat} (hp : p < 256) (hn : n ≤ 256) :
    (listRuns d p n).get (R.GATE_CONFIG_PENDING p) = 0 ∧ (listRuns d p n).get (L.GATE_RUN p) = 1 ∧
      (listRuns d p n).get (L.GATE_BASE p) = d.get (L.GATE_AT p) % 2 ^ 128 ∧ (listRuns d p n).get (R.GATE_OPER_LIST_LENGTH p) = n := by
  have hw : (R.GATE_CONFIG_PENDING p).w = 1 ∧ (L.GATE_RUN p).w = 1 ∧ (L.GATE_BASE p).w = 128 ∧ (R.GATE_OPER_LIST_LENGTH p).w = 9 :=
    ⟨rfl, rfl, rfl, rfl⟩
  simp (disch := simp only [R.GATE_CONFIG_PENDING, L.GATE_RUN, L.GATE_BASE, R.GATE_OPER_LIST_LENGTH, R.GATE_OPER_CYCLE_NS,
      R.GATE_OPER_CYCLE_FRAC, tblFld, latFld, tblBase, latBase]; omega) only
    [listRuns, Dev.setAll_cons, Dev.setAll_nil, Dev.get_set_ne, Dev.get_set_same, hw]
  exact ⟨rfl, rfl, trivial, Nat.mod_eq_of_lt (by omega)⟩

/-- The entries of the operational list are not among the fields that start it. -/
theorem listRuns_get (d : Dev) {p n k : Nat} (hk : k < 256) : ∀ f ∈ [R.OPER_GATE_STATES (256 * p + k), R.OPER_INTERVAL (256 * p + k)],
    (listRuns d p n).get f = d.get f := by
  obtain ⟨hstates, -, hinterval, -, -⟩ := listFields_eq (p := p) hk
  intro f hf
  refine Dev.get_setAll_ne _ _ _ ?_
  simp only [List.forall_mem_cons, List.not_mem_nil, false_imp_iff, implies_true, and_true]
  simp only [List.mem_cons, List.not_mem_nil, or_false, hstates, hinterval] at hf
  rcases hf with rfl | rfl <;>
    simp only [R.GATE_CONFIG_PENDING, L.GATE_RUN, L.GATE_BASE, R.GATE_OPER_LIST_LENGTH, R.GATE_OPER_CYCLE_NS, R.GATE_OPER_CYCLE_FRAC, tblFld,
      latFld, tblBase, latBase] <;>
    omega

theorem yields_configChange {s : State} {p : Fin 256} (hf : s.frozen = false) (hpending : s.d.get (R.GATE_CONFIG_PENDING p) = 1)
    (hat : s.d.get (L.GATE_AT p) ≤ s.d.time) (hlen : s.d.get (R.GATE_ADMIN_LIST_LENGTH p) ≤ 256) :
    Yields (.configChange p) s fun e => e.get (R.GATE_CONFIG_PENDING p) = 0 ∧ e.get (L.GATE_RUN p) = 1 ∧
      e.get (L.GATE_BASE p) = s.d.get (L.GATE_AT p) % 2 ^ 128 ∧ e.get (R.GATE_OPER_LIST_LENGTH p) = s.d.get (R.GATE_ADMIN_LIST_LENGTH p) ∧
      ∀ k < s.d.get (R.GATE_ADMIN_LIST_LENGTH p),
        e.get (R.OPER_GATE_STATES (256 * p + k)) = s.d.get (R.ADMIN_GATE_STATES (256 * p + k)) % 2 ^ 16 ∧
        e.get (R.OPER_INTERVAL (256 * p + k)) = s.d.get (R.ADMIN_INTERVAL (256 * p + k)) % 2 ^ 32 := by
  have hp := p.isLt
  have hcredit : creditKey (R.GATE_ADMIN_LIST_LENGTH p).key = false := by
    simp only [creditKey_eq_false, R.GATE_ADMIN_LIST_LENGTH, tblFld, tblBase]
    omega
  have hexec : exec (.configChange p) s = .next (s.setDev (configChange s.d p)) := State.lanes_of hf fun d => configChange d p
  rw [configChange_of_due hpending hat, (cbsSyncPort_keepsBut s.d p).get hcredit] at hexec
  have hget (k : Nat) (hk : k < 256) := change_get hp hk (listRuns (listCopied s.d p (s.d.get (R.GATE_ADMIN_LIST_LENGTH p))) p
    (s.d.get (R.GATE_ADMIN_LIST_LENGTH p)))
  obtain ⟨hclear, hrun, hbase, hlength⟩ := listRuns_reads (listCopied s.d p (s.d.get (R.GATE_ADMIN_LIST_LENGTH p))) hp hlen
  rw [listCopied, listCopied_source hp (k := 0) (by omega) (Nat.le_refl _) _ (by simp), ← listCopied] at hbase
  refine ⟨_, hexec, ?_, ?_, ?_, ?_, fun k hk => ?_⟩
  · exact (hget 0 (by omega) _ (by simp [changeFields])).trans hclear
  · exact (hget 0 (by omega) _ (by simp [changeFields])).trans hrun
  · exact (hget 0 (by omega) _ (by simp [changeFields])).trans hbase
  · exact (hget 0 (by omega) _ (by simp [changeFields])).trans hlength
  · have hk' : k < 256 := by omega
    obtain ⟨hstates, hinterval⟩ := listCopied_reads (d := s.d) hp hk' hk
    exact ⟨((hget k hk' _ (by simp [changeFields])).trans (listRuns_get _ hk' _ (by simp))).trans hstates,
      ((hget k hk' _ (by simp [changeFields])).trans (listRuns_get _ hk' _ (by simp))).trans hinterval⟩

end Sys2Proof.Machine
end

section
namespace Sys2Proof.Machine

/-! ## The verification of preemption (R329) -/

theorem iface_congr {d e : Dev} {p : Nat} (hmode : e.get (R.OCT_PORT_MODE_MODE (p / 8)) = d.get (R.OCT_PORT_MODE_MODE (p / 8)))
    (hrate : e.get (R.PORT_CTRL_RATE p) = d.get (R.PORT_CTRL_RATE p)) : iface e p = iface d p := by
  rw [iface, iface, portWidth, portWidth, octMode, octMode, hmode, hrate]

theorem verifyStatus_onlyChanges (d : Dev) (p v : Nat) : d.OnlyChanges (verifyStatus d p v) [R.PSCHED_VERIFY_STATUS p] [0x78 + p / 32] :=
  Dev.OnlyChanges.ite (fun _ => Dev.OnlyChanges.refl d _ _) fun _ =>
    ((Dev.OnlyChanges.refl d _ _).set v (by simp)).latch _ _ (by simp) (by decide)

/-- The fields of the verification and of preemption are no event fields. -/
theorem eventKey_verify {p : Nat} (hp : p < 256) : ∀ f ∈ [R.PSCHED_VERIFY_STATUS p, R.PSCHED_PREEMPT_EN p, L.MM_VERIFIED p, L.MM_TRIES p,
    R.OCT_PORT_MODE_MODE (p / 8), R.PORT_CTRL_RATE p], eventKey (0x78 + p / 32) f.key = false := by
  intro f hf
  refine eventKey_of_not_wpOwn (by omega) ?_
  simp only [List.mem_cons, List.not_mem_nil, or_false] at hf
  rcases hf with rfl | rfl | rfl | rfl | rfl | rfl
  · exact wpOwn_table (by omega) (by omega) (by decide) (by omega) (by decide)
  · exact wpOwn_table (by omega) (by omega) (by decide) (by omega) (by decide)
  · exact wpOwn_lat (by decide) (by omega)
  · exact wpOwn_lat (by decide) (by omega)
  · exact wpOwn_reg (by omega) (by omega) (by decide) (by decide)
  · exact wpOwn_laneReg (by decide) (by omega) (by decide) (by decide)

section
variable {d : Dev} {p : Nat} (hp : p < 256)
include hp

theorem verifyStatus_status {v : Nat} (hv : v < 8) : (verifyStatus d p v).get (R.PSCHED_VERIFY_STATUS p) = v := by
  unfold verifyStatus
  split
  next h => exact h
  next =>
    rw [Dev.get_latch_ne _ _ _ (by decide) _ (eventKey_verify hp _ (by simp)), Dev.get_set_same]
    exact Nat.mod_eq_of_lt hv

/-- VERIFY_STATUS moves no other field of the verification, nor the interface. -/
theorem verifyStatus_get (v : Nat) : ∀ f ∈ [R.PSCHED_PREEMPT_EN p, L.MM_VERIFIED p, L.MM_TRIES p, R.OCT_PORT_MODE_MODE (p / 8),
    R.PORT_CTRL_RATE p],
    (verifyStatus d p v).get f = d.get f := by
  intro f hf
  refine (verifyStatus_onlyChanges d p v).2 f ?_ (by simpa using eventKey_verify hp f (List.mem_cons_of_mem _ hf))
  simp only [List.mem_singleton, forall_eq]
  simp only [List.mem_cons, List.not_mem_nil, or_false] at hf
  rcases hf with rfl | rfl | rfl | rfl | rfl <;>
    simp only [R.PSCHED_VERIFY_STATUS, R.PSCHED_PREEMPT_EN, L.MM_VERIFIED, L.MM_TRIES, R.OCT_PORT_MODE_MODE, R.PORT_CTRL_RATE, tblFld, latFld,
      regFld, tblBase, latBase] <;>
    omega

/-- A change of VERIFY_STATUS latches event bit 2. -/
theorem verifyStatus_evt {v : Nat} (h : d.get (R.PSCHED_VERIFY_STATUS p) ≠ v) : (verifyStatus d p v).evt (0x78 + p / 32) 2 = true := by
  rw [verifyStatus, if_neg h]
  exact Dev.evt_latch_same _ _ _ (by omega) (by decide) (evtBitServed_of_not_port _ _ _ (.inr (by omega)))

end

/-- A port of one lane whose verification has succeeded has preemption active. -/
theorem preemptFollow_of_verified {d : Dev} {p : Nat} (hen : d.get (R.PSCHED_PREEMPT_EN p) = 1) (hface : iface d p ≤ 3)
    (hver : d.get (L.MM_VERIFIED p) = 1) : preemptFollow d p = d.setB (R.PSCHED_PREEMPT_ACTIVE p) true := by
  have hon : (!d.on (R.PSCHED_VERIFY_EN p) || d.on (L.MM_VERIFIED p)) = true := by simp [Dev.on, hver]
  rw [preemptFollow, if_pos (by simp [Dev.on, hen, hface])]
  simp only [hon, if_true]

theorem preemptFollow_of_disabled {d : Dev} {p : Nat} (hen : d.get (R.PSCHED_PREEMPT_EN p) = 0) (hs : suspendedTx d p = none) :
    preemptFollow d p = d.setAll [(R.PSCHED_PREEMPT_ACTIVE p, 0), (L.PREEMPT_WANT p, 0), (L.GATE_HOLD p, 0)] := by
  rw [preemptFollow, if_neg (by simp [Dev.on, hen]), hs]
  rfl

/-- A port with PREEMPT_EN and VERIFY_EN that verifies. -/
def Verifies (d : Dev) (p : Nat) : Prop := d.get (R.PSCHED_PREEMPT_EN p) = 1 ∧ d.get (R.PSCHED_VERIFY_EN p) = 1 ∧
  (d.get (R.PSCHED_VERIFY_STATUS p) = 1 ∨ d.get (R.PSCHED_VERIFY_STATUS p) = 2)

theorem mmVerify_of_verifies {d : Dev} {p : Nat} (h : Verifies d p) (responded : Bool) : mmVerify d p responded =
    if responded then preemptFollow (verifyStatus (d.set (L.MM_VERIFIED p) 1) p 3) p
    else verifyStatus (d.set (L.MM_TRIES p) (d.get (L.MM_TRIES p) + 1)) p (if 3 ≤ d.get (L.MM_TRIES p) + 1 then 4 else 2) := by
  obtain ⟨hen, hver, hst⟩ := h
  rw [mmVerify, if_neg (by rcases hst with hst | hst <;> simp [Dev.on, hen, hver, hst])]

/-- The port is verified (R329). -/
def mmVerified (d : Dev) (p : Nat) : Dev := verifyStatus (d.set (L.MM_VERIFIED p) 1) p 3

theorem mmVerified_onlyChanges (d : Dev) (p : Nat) :
    d.OnlyChanges (mmVerified d p) [L.MM_VERIFIED p, R.PSCHED_VERIFY_STATUS p] [0x78 + p / 32] :=
  ((Dev.OnlyChanges.refl d _ _).set 1 (by simp)).trans ((verifyStatus_onlyChanges _ p 3).mono (by simp +contextual) (by simp))

/-- Marking the port verified moves neither its settings nor its interface. -/
theorem get_setVerified_ne (d : Dev) {p : Nat} (hp : p < 256) :
    ∀ f ∈ [R.PSCHED_VERIFY_STATUS p, R.PSCHED_PREEMPT_EN p, R.OCT_PORT_MODE_MODE (p / 8), R.PORT_CTRL_RATE p],
      (d.set (L.MM_VERIFIED p) 1).get f = d.get f := by
  intro f hf
  have hlat : latBase ≤ (L.MM_VERIFIED p).key := by
    simp only [L.MM_VERIFIED, latFld]
    omega
  have hlt : f.key < latBase := by
    simp only [List.mem_cons, List.not_mem_nil, or_false] at hf
    rcases hf with rfl | rfl | rfl | rfl <;>
      simp only [R.PSCHED_VERIFY_STATUS, R.PSCHED_PREEMPT_EN, R.OCT_PORT_MODE_MODE, R.PORT_CTRL_RATE, tblFld, regFld, tblBase, latBase] <;>
      omega
  exact Dev.get_set_ne _ _ _ _ (Nat.lt_of_lt_of_le hlt hlat).ne

theorem mmVerified_reads {d : Dev} {p : Nat} (hp : p < 256) (h : Verifies d p) : (mmVerified d p).get (L.MM_VERIFIED p) = 1 ∧
    (mmVerified d p).get (R.PSCHED_VERIFY_STATUS p) = 3 ∧ (mmVerified d p).evt (0x78 + p / 32) 2 = true := by
  obtain ⟨-, -, hst⟩ := h
  refine ⟨(verifyStatus_get hp 3 _ (by simp)).trans (Dev.get_set_same _ _ _), verifyStatus_status hp (by decide), verifyStatus_evt hp ?_⟩
  rw [get_setVerified_ne d hp _ (by simp)]
  omega

/-- A response verifies the port, and preemption follows. -/
theorem mmVerify_response {d : Dev} {p : Nat} (hp : p < 256) (h : Verifies d p) (hface : iface d p ≤ 3) :
    mmVerify d p true = (mmVerified d p).setB (R.PSCHED_PREEMPT_ACTIVE p) true := by
  have hiface : iface (mmVerified d p) p = iface d p :=
    iface_congr ((verifyStatus_get hp 3 _ (by simp)).trans (get_setVerified_ne d hp _ (by simp)))
      ((verifyStatus_get hp 3 _ (by simp)).trans (get_setVerified_ne d hp _ (by simp)))
  have hen : (mmVerified d p).get (R.PSCHED_PREEMPT_EN p) = 1 :=
    ((verifyStatus_get hp 3 _ (by simp)).trans (get_setVerified_ne d hp _ (by simp))).trans h.1
  rw [mmVerify_of_verifies h, if_pos rfl, ← mmVerified, preemptFollow_of_verified hen (hiface ▸ hface) (mmVerified_reads hp h).1]

section
variable {s : State} {p : Fin 256} (hf : s.frozen = false) (h : Verifies s.d p)
include hf h

/-- A response verifies the port: preemption becomes active. -/
theorem completes_mmVerify_response (hface : iface s.d p ≤ 3) : Completes (.mmVerifyAttempt p true) s
    [L.MM_VERIFIED p, R.PSCHED_VERIFY_STATUS p, R.PSCHED_PREEMPT_ACTIVE p] [0x78 + p.val / 32] fun e =>
      e.get (L.MM_VERIFIED p) = 1 ∧ e.get (R.PSCHED_VERIFY_STATUS p) = 3 ∧ e.get (R.PSCHED_PREEMPT_ACTIVE p) = 1 ∧
      e.evt (0x78 + p / 32) 2 = true := by
  have hexec : exec (.mmVerifyAttempt p true) s = .next (s.setDev (mmVerify s.d p true)) :=
    State.lanes_of hf fun d => mmVerify d p true
  rw [mmVerify_response p.isLt h hface] at hexec
  obtain ⟨hver, hstatus, hevent⟩ := mmVerified_reads p.isLt h
  refine ⟨_, hexec, ((mmVerified_onlyChanges s.d p).mono (by simp +contextual) (by simp)).setB true (by simp), ?_, ?_, ?_, ?_⟩
  · rw [Dev.setB, Dev.get_set_ne, hver]
    simp only [L.MM_VERIFIED, R.PSCHED_PREEMPT_ACTIVE, tblFld, latFld, tblBase, latBase]
    omega
  · rw [Dev.setB, Dev.get_set_ne, hstatus]
    simp only [R.PSCHED_VERIFY_STATUS, R.PSCHED_PREEMPT_ACTIVE, tblFld]
    omega
  · rw [Dev.setB, Dev.get_set_same]
    rfl
  · rw [Dev.setB, Dev.evt_set_ne, hevent]
    simp only [L.EVT_LATCH, R.PSCHED_PREEMPT_ACTIVE, tblFld, latFld, tblBase, latBase]
    omega

/-- Without a response the try counts, and the third fails the verification. -/
theorem completes_mmVerify_silence : Completes (.mmVerifyAttempt p false) s [L.MM_TRIES p, R.PSCHED_VERIFY_STATUS p] [0x78 + p.val / 32] fun e =>
    e.get (L.MM_TRIES p) = (s.d.get (L.MM_TRIES p) + 1) % 2 ^ 8 ∧
    e.get (R.PSCHED_VERIFY_STATUS p) = if 2 ≤ s.d.get (L.MM_TRIES p) then 4 else 2 := by
  have hthird : (if 3 ≤ s.d.get (L.MM_TRIES p) + 1 then 4 else 2) = if 2 ≤ s.d.get (L.MM_TRIES p) then 4 else 2 :=
    if_congr (by omega) rfl rfl
  have happly : mmVerify s.d p false = verifyStatus (s.d.set (L.MM_TRIES p) (s.d.get (L.MM_TRIES p) + 1)) p
      (if 2 ≤ s.d.get (L.MM_TRIES p) then 4 else 2) := by
    rw [mmVerify_of_verifies h, if_neg Bool.false_ne_true, hthird]
  have hexec : exec (.mmVerifyAttempt p false) s = .next (s.setDev (mmVerify s.d p false)) :=
    State.lanes_of hf fun d => mmVerify d p false
  rw [happly] at hexec
  refine ⟨_, hexec, ?_, (verifyStatus_get p.isLt _ _ (by simp)).trans (Dev.get_set_same _ _ _), verifyStatus_status p.isLt (by split <;> decide)⟩
  exact ((Dev.OnlyChanges.refl s.d [L.MM_TRIES p, R.PSCHED_VERIFY_STATUS p] [0x78 + p.val / 32]).set _ (by simp)).trans
    ((verifyStatus_onlyChanges _ p _).mono (by simp +contextual) (by simp))

end

/-- A delayed write of 0 to PREEMPT_EN takes effect. -/
theorem completes_preemptDisableDone {s : State} {p : Fin 256} (hf : s.frozen = false) (hwant : s.d.get (L.PREEMPT_WANT p) = 1)
    (hs : suspendedTx s.d p = none) (hen : s.d.get (R.PSCHED_PREEMPT_EN p) = 0) :
    Completes (.preemptDisableDone p) s [R.PSCHED_PREEMPT_ACTIVE p, L.PREEMPT_WANT p, L.GATE_HOLD p] [] fun e =>
      e.get (R.PSCHED_PREEMPT_ACTIVE p) = 0 ∧ e.get (L.PREEMPT_WANT p) = 0 := by
  have happly : preemptDisableDone s.d p = s.d.setAll [(R.PSCHED_PREEMPT_ACTIVE p, 0), (L.PREEMPT_WANT p, 0), (L.GATE_HOLD p, 0)] := by
    rw [preemptDisableDone, if_pos (by simp [Dev.on, hwant, hs]), preemptFollow_of_disabled hen hs]
  have hexec : exec (.preemptDisableDone p) s = .next (s.setDev (preemptDisableDone s.d p)) :=
    State.lanes_of hf fun d => preemptDisableDone d p
  rw [happly] at hexec
  refine ⟨_, hexec, (Dev.OnlyChanges.refl s.d _ _).setAll _ (by simp), ?_⟩
  simp (disch := simp only [R.PSCHED_PREEMPT_ACTIVE, L.PREEMPT_WANT, L.GATE_HOLD, tblFld, latFld, tblBase, latBase]; omega) only
    [Dev.setAll_cons, Dev.setAll_nil, Dev.get_set_ne, Dev.get_set_same, Nat.zero_mod, and_self]

end Sys2Proof.Machine

open Sys2Proof Sys2Proof.Machine

/-- Settles O23: a change that is due copies the list (`listCopied_reads`) and starts it (`listRuns_reads`), and neither recording it nor its
first entry moves these fields again (`change_get`); the entry in force and the verification are one lemma each. -/
theorem gateEffectRows : Obligations.GateEffectRows := by
  unfold Obligations.GateEffectRows
  intro s p hf
  exact ⟨yields_configChange hf, yields_gateEntryBoundary hf,
    fun hen hver hst => ⟨completes_mmVerify_response hf ⟨hen, hver, hst⟩, completes_mmVerify_silence hf ⟨hen, hver, hst⟩⟩,
    completes_preemptDisableDone hf⟩
end

section
namespace Sys2Proof.Machine

/-! ## The watchdog (R358 to R360) -/

theorem noEffect_of_page_fixed {c : Instr} {s : State} {pg : Nat} {f : Dev → Dev} (hc : exec c s = s.page pg f) (h : f s.d = s.d) :
    NoEffect c s := by
  rw [NoEffect, hc, State.page, h, State.setDev_self, ite_self]

/-- The watchdog enters a stage, and its count starts at the present cycle. -/
def wdStage (d : Dev) (stage : Nat) : Dev := d.setAll [(R.WD_STATUS_STAGE, stage), (L.WD_SINCE, d.cyc)]

theorem wdStage_onlyChanges (d : Dev) (stage : Nat) : d.OnlyChanges (wdStage d stage) [R.WD_STATUS_STAGE, L.WD_SINCE] [] :=
  (Dev.OnlyChanges.refl _ _ _).setAll _ (by simp)

theorem wdStage_reads (d : Dev) {stage : Nat} (h : stage < 4) :
    (wdStage d stage).get R.WD_STATUS_STAGE = stage ∧ (wdStage d stage).get L.WD_SINCE = d.cyc % 2 ^ 64 := by
  refine ⟨?_, Dev.get_set_same _ _ _⟩
  exact (Dev.get_set_ne _ _ _ _ (by decide)).trans ((Dev.get_set_same _ _ _).trans (Nat.mod_eq_of_lt h))

theorem wdEnable_of_off {d : Dev} (h : d.get R.WD_CTRL_ENABLE = 0) : wdEnable d = wdStage (d.set R.WD_CTRL_ENABLE 1) 1 := by
  rw [wdEnable, if_neg (by simp [Dev.on, h])]
  rfl

theorem completes_watchdogEnable {s : State} (hl : s.live 8 = true) (h : s.d.get R.WD_CTRL_ENABLE = 0) :
    Completes .watchdogEnable s [R.WD_CTRL_ENABLE, R.WD_STATUS_STAGE, L.WD_SINCE] [] fun e =>
      e.get R.WD_CTRL_ENABLE = 1 ∧ e.get R.WD_STATUS_STAGE = 1 ∧ e.get L.WD_SINCE = s.d.cyc % 2 ^ 64 := by
  have hexec : exec .watchdogEnable s = .next (s.setDev (wdEnable s.d)) := State.page_of hl wdEnable
  rw [wdEnable_of_off h] at hexec
  have hset : s.d.OnlyChanges (s.d.set R.WD_CTRL_ENABLE 1) [R.WD_CTRL_ENABLE, R.WD_STATUS_STAGE, L.WD_SINCE] [] :=
    (Dev.OnlyChanges.refl _ _ _).set _ (by simp)
  have hstage := wdStage_onlyChanges (s.d.set R.WD_CTRL_ENABLE 1) 1
  exact ⟨_, hexec, hset.trans (hstage.mono (by simp) (by simp)), (hstage.2 _ (by decide) (by simp)).trans (Dev.get_set_same _ _ _),
    wdStage_reads _ (by decide)⟩

theorem wdService_of_running {d : Dev} (hs : d.get R.WD_STATUS_STAGE ≠ 0) (ha : bitAt (d.get L.AL_LEVEL) 56 = false) :
    wdService d = wdStage d 1 := by
  rw [wdService, if_neg hs, ha]
  rfl

theorem completes_wdService {s : State} {key : BitVec 16} (hl : s.live 8 = true) (hk : key.toNat = 0xA5C3)
    (hs : s.d.get R.WD_STATUS_STAGE ≠ 0) (ha : bitAt (s.d.get L.AL_LEVEL) 56 = false) :
    Completes (.wdService .mgmt key) s [R.WD_STATUS_STAGE, L.WD_SINCE] [] fun e =>
      e.get R.WD_STATUS_STAGE = 1 ∧ e.get L.WD_SINCE = s.d.cyc % 2 ^ 64 := by
  have hexec : exec (.wdService .mgmt key) s = .next (s.setDev (if Master.mgmt = .mgmt ∧ key.toNat = 0xA5C3 then wdService s.d else s.d)) :=
    State.page_of hl fun d => if Master.mgmt = .mgmt ∧ key.toNat = 0xA5C3 then wdService d else d
  rw [if_pos ⟨rfl, hk⟩, wdService_of_running hs ha] at hexec
  exact ⟨_, hexec, wdStage_onlyChanges _ _, wdStage_reads _ (by decide)⟩

/-- A service that is not the management complex's, or without the key, is none (R360). -/
theorem noEffect_wdService {s : State} {m : Master} {key : BitVec 16} (h : ¬ (m = .mgmt ∧ key.toNat = 0xA5C3)) :
    NoEffect (.wdService m key) s :=
  noEffect_of_page_fixed (f := fun d => if m = .mgmt ∧ key.toNat = 0xA5C3 then wdService d else d) rfl (if_neg h)

theorem wdTimeout_of_passed {d : Dev} (hs : d.get R.WD_STATUS_STAGE = 1) (ht : wdPassed d (d.get R.WD_TIMEOUT) = true) :
    wdTimeout d = (wdStage d 2).latch 8 4 := if_pos ⟨hs, ht⟩

theorem completes_watchdogTimeout {s : State} (hf : s.frozen = false) (hs : s.d.get R.WD_STATUS_STAGE = 1)
    (ht : wdPassed s.d (s.d.get R.WD_TIMEOUT) = true) :
    Completes .watchdogTimeout s [R.WD_STATUS_STAGE, L.WD_SINCE] [8] fun e =>
      e.get R.WD_STATUS_STAGE = 2 ∧ e.get L.WD_SINCE = s.d.cyc % 2 ^ 64 ∧ e.evt 8 4 = true := by
  have hexec : exec .watchdogTimeout s = .next (s.setDev (wdTimeout s.d)) := State.lanes_of hf wdTimeout
  rw [wdTimeout_of_passed hs ht] at hexec
  obtain ⟨hstage, hsince⟩ := wdStage_reads s.d (stage := 2) (by decide)
  have hkeep {g : Fld} (hg : eventKey 8 g.key = false) : ((wdStage s.d 2).latch 8 4).get g = (wdStage s.d 2).get g :=
    Dev.get_latch_ne _ _ _ (by decide) _ hg
  exact ⟨_, hexec, ((wdStage_onlyChanges _ _).mono (by simp) (by simp)).latch 8 4 (by simp) (by decide), (hkeep (by decide)).trans hstage,
    (hkeep (by decide)).trans hsince, Dev.evt_latch_same _ _ _ (by decide) (by decide) (evtBitServed_of_not_port _ _ _ (by decide))⟩

/-- An expiry records the action `a` that it takes, counts and latches its event (R359). -/
def wdExpired (d : Dev) (a : Nat) : Dev := (((wdStage d 1).set R.WD_STATUS_LAST_ACTION a).count 8 R.WD_EXPIRIES).latch 8 5

/-- What an expiry moves besides its action. -/
def expiryFields : List Fld := [R.WD_STATUS_STAGE, L.WD_SINCE, R.WD_STATUS_LAST_ACTION, R.WD_EXPIRIES]

theorem wdExpiry_of_passed {s : State} (hs : s.d.get R.WD_STATUS_STAGE = 2) (ht : wdPassed s.d (s.d.get R.WD_GRACE) = true) {a : Nat}
    (ha : min (s.d.get R.WD_CTRL_ACTION) (s.d.get R.WD_LIMIT) = a) (h2 : a ≠ 2) :
    wdExpiry s = if a = 3 then s.setDev ((wdExpired s.d a).alarmLevel 56 true) else if a = 4 then deviceReset s 3
      else s.setDev (wdExpired s.d a) := by
  rw [wdExpiry]
  simp only [if_pos (And.intro hs ht), ha, if_neg h2]
  rfl

theorem wdExpired_onlyChanges (d : Dev) (a : Nat) : d.OnlyChanges (wdExpired d a) expiryFields [8] :=
  ((((wdStage_onlyChanges d 1).mono (by simp [expiryFields]) (by simp)).set _ (by simp [expiryFields])).count 8 1
    (by simp [expiryFields])).latch 8 5 (by simp) (by decide)

theorem wdExpired_reads (d : Dev) {a : Nat} (ha : a < 8) : (wdExpired d a).get R.WD_STATUS_STAGE = 1 ∧
    (wdExpired d a).get R.WD_STATUS_LAST_ACTION = a ∧ (wdExpired d a).evt 8 5 = true ∧
    (d.get (L.PAGE_FREEZE 8) = 0 → (wdExpired d a).get R.WD_EXPIRIES = min (d.get R.WD_EXPIRIES + 1) (2 ^ 32 - 1)) := by
  have hkeep {g : Fld} (hg : eventKey 8 g.key = false) : (wdExpired d a).get g =
      (((wdStage d 1).set R.WD_STATUS_LAST_ACTION a).count 8 R.WD_EXPIRIES).get g := Dev.get_latch_ne _ _ _ (by decide) _ hg
  have hbefore {g : Fld} (hl : g.key ≠ R.WD_STATUS_LAST_ACTION.key) (hw : ∀ f ∈ [R.WD_STATUS_STAGE, L.WD_SINCE], g.key ≠ f.key) :
      ((wdStage d 1).set R.WD_STATUS_LAST_ACTION a).get g = d.get g :=
    (Dev.get_set_ne _ _ _ _ hl).trans ((wdStage_onlyChanges d 1).2 g hw (by simp))
  refine ⟨?_, ?_, ?_, fun hfreeze => ?_⟩
  · rw [hkeep (by decide), Dev.get_count_ne _ _ _ _ _ (by decide), Dev.get_set_ne _ _ _ _ (by decide)]
    exact (wdStage_reads d (by decide)).1
  · rw [hkeep (by decide), Dev.get_count_ne _ _ _ _ _ (by decide), Dev.get_set_same]
    exact Nat.mod_eq_of_lt ha
  · exact Dev.evt_latch_same _ _ _ (by decide) (by decide) (evtBitServed_of_not_port _ _ _ (by decide))
  · rw [hkeep (by decide), Dev.get_count_same, Dev.on, hbefore (by decide) (by decide), hfreeze, hbefore (by decide) (by decide)]
    rfl

theorem exec_watchdogExpiry {s : State} (hf : s.frozen = false) : exec .watchdogExpiry s = .next (wdExpiry s) := by
  show Host.Outcome.next (if s.frozen then s else wdExpiry s) = _
  rw [hf, if_neg Bool.false_ne_true]

/-- The actions 1, nothing more, and 3, the level of alarm 56. -/
theorem completes_watchdogExpiry {s : State} (hf : s.frozen = false) (hs : s.d.get R.WD_STATUS_STAGE = 2)
    (ht : wdPassed s.d (s.d.get R.WD_GRACE) = true) {a : Nat} (ha : min (s.d.get R.WD_CTRL_ACTION) (s.d.get R.WD_LIMIT) = a)
    (h : a = 1 ∨ a = 3) :
    Completes .watchdogExpiry s [R.WD_STATUS_STAGE, L.WD_SINCE, R.WD_STATUS_LAST_ACTION, R.WD_EXPIRIES, L.AL_LEVEL] [8] fun e =>
      e.get R.WD_STATUS_STAGE = 1 ∧ e.get R.WD_STATUS_LAST_ACTION = a ∧ e.evt 8 5 = true ∧
      (s.d.get (L.PAGE_FREEZE 8) = 0 → e.get R.WD_EXPIRIES = min (s.d.get R.WD_EXPIRIES + 1) (2 ^ 32 - 1)) ∧
      (a = 1 → e.get L.AL_LEVEL = s.d.get L.AL_LEVEL) ∧ (a = 3 → bitAt (e.get L.AL_LEVEL) 56 = true) := by
  have hexec := exec_watchdogExpiry hf
  rw [wdExpiry_of_passed hs ht ha (by omega)] at hexec
  have hframe : s.d.OnlyChanges (wdExpired s.d a) [R.WD_STATUS_STAGE, L.WD_SINCE, R.WD_STATUS_LAST_ACTION, R.WD_EXPIRIES, L.AL_LEVEL] [8] :=
    (wdExpired_onlyChanges s.d a).mono (by simp [expiryFields]) (by simp)
  obtain ⟨hstage, hlast, hevt, hcount⟩ := wdExpired_reads s.d (a := a) (by omega)
  rcases h with rfl | rfl
  · exact ⟨_, hexec, hframe, hstage, hlast, hevt, hcount, fun _ => (wdExpired_onlyChanges s.d 1).2 _ (by decide) (by decide), by simp⟩
  · have hkeep {g : Fld} (hg : g.key ≠ L.AL_LEVEL.key) : ((wdExpired s.d 3).alarmLevel 56 true).get g = (wdExpired s.d 3).get g :=
      Dev.get_set_ne _ _ _ _ hg
    exact ⟨_, hexec, hframe.set _ (by simp), (hkeep (by decide)).trans hstage, (hkeep (by decide)).trans hlast,
      (congrArg (bitAt · 5) (hkeep (by decide))).trans hevt, fun h => (hkeep (by decide)).trans (hcount h), by simp,
      fun _ => bitAt_alarmLevel _ (by decide) _⟩

theorem State.powered_of_moving {s : State} (hf : s.frozen = false) : s.power ≠ .baseCampOnly := by
  intro hp
  simp [State.frozen, hp] at hf

/-- Action 4 is a device reset with the watchdog's cause. -/
theorem watchdogExpiry_resets {s : State} (hf : s.frozen = false) (hs : s.d.get R.WD_STATUS_STAGE = 2)
    (ht : wdPassed s.d (s.d.get R.WD_GRACE) = true) (ha : min (s.d.get R.WD_CTRL_ACTION) (s.d.get R.WD_LIMIT) = 4) :
    ∃ t, exec .watchdogExpiry s = .next t ∧ MainStarts s t 3 [] ∧ (s.intentQuiet → t.otp = s.otp) := by
  have hexec := exec_watchdogExpiry hf
  rw [wdExpiry_of_passed hs ht ha (by decide)] at hexec
  exact ⟨_, hexec, deviceReset_mainStarts (State.powered_of_moving hf) (by decide)⟩

end Sys2Proof.Machine

open Sys2Proof Sys2Proof.Machine

/-- Settles O7: a stage is entered with its count at the present cycle (`wdStage`), by the enable, a service and the timeout; an expiry records
and counts before it takes its action (`wdExpired`). -/
theorem watchdogRows : Obligations.WatchdogRows := by
  unfold Obligations.WatchdogRows
  intro s key
  exact ⟨completes_watchdogEnable, completes_wdService, noEffect_wdService (by simp), fun h => noEffect_wdService (by simp [h]),
    completes_watchdogTimeout, fun hf hs ht => ⟨completes_watchdogExpiry hf hs ht rfl, watchdogExpiry_resets hf hs ht⟩⟩
end

section
namespace Sys2Proof.Machine

/-! ## A pool that there is none of (R297, R347)

The buffer has eight pools, and the contents of QCFG.POOL carry a number without a bound. The charge of a far greater number lies where the
model keeps the HEAD of a ring. -/

/-- The pool whose charge lies at the HEAD of ring 0. -/
def strayPool : Nat := ((R.RINGST_HEAD 0).key - (R.POOL_CHARGE 0).key) / 256

theorem strayPool_key : (R.POOL_CHARGE strayPool).key = (R.RINGST_HEAD 0).key := by decide

/-- A received frame with its tail, which takes five cells. -/
def punted : Frame := { ringFrame 0 0 [] with fromRing := false, cells := 5 }

/-- Its copy in the queue of ring 0. -/
def puntedCopy : Copy :=
  { id := 0, frame := 0, queue := 4096, edit := ⟨false, false, 0, 0, false, false, false⟩, cdOp := 0, cdTime := 0, flow := 0, colour := 0,
    joined := 0, desc := none, tsReq := false }

/-- The running part delivers that copy next: ring 0 runs, has one free descriptor and is visited with DEFICIT enough in both tiers. Its queue
has a charge of five cells in the stray pool. -/
def strayPoolState : State :=
  runningState.setDev (({ Dev.empty with cells := [((R.QCFG_POOL 4096).key, strayPool)], frames := [punted], copies := [puntedCopy] } : Dev).setAll
    [(L.PAGE_ENABLE 0xB, 1), (R.RING_ENABLE 0, 1), (R.RING_SIZE_LOG 0, 1), (R.RINGST_TAIL 0, 1), (R.QSTAT_CHARGE 4096, 5), (L.RING_POS 1, 1),
      (L.RING_POS 2, 1), (L.RING_VISIT 1, 1), (L.RING_VISIT 2, 1), (L.RING_DEFICIT 0 0, 4), (L.RING_DEFICIT 0 1, 4)])

/-- A descriptor that the device owns. -/
def ownedWords : List Word := [0, 0, 0, 0, 0, 0, 0, 0x80000000]

/-- The delivered copy leaves the charge of its queue and pool, and HEAD with them. -/
theorem head_strayPool : (puntServe strayPoolState.run strayPoolState.d ownedWords).get (R.RINGST_HEAD 0) = 0 := by decide +kernel

end Sys2Proof.Machine

open Sys2Proof Sys2Proof.Machine

/-- Refutes O39: a delivered copy leaves the charge of its queue's pool. Nothing bounds the pool number in the contents by the eight there
are, and the charge of `strayPool` lies at HEAD of ring 0, so the completed descriptor's HEAD is gone afterwards. -/
theorem not_ringRows : ¬ Obligations.RingRows := by
  unfold Obligations.RingRows
  intro h
  have hmoves : strayPoolState.frozen = false := by decide
  obtain ⟨-, hmoving, -⟩ := h strayPoolState .host 0 0 0 ownedWords [] puntedCopy punted 0 0 Dev.empty
  obtain ⟨-, -, hdelivers, -⟩ := hmoving hmoves
  have hdelivered := hdelivers (by decide) (by decide) (by decide) (by decide) rfl rfl rfl rfl rfl rfl rfl (by decide)
    (by decide +kernel) (by decide +kernel)
  obtain ⟨-, -, hhead, -⟩ := hdelivered.of_exec (State.lanes_of hmoves fun d => puntServe strayPoolState.run d ownedWords)
  exact absurd (head_strayPool.symm.trans hhead) (by decide)
end

section
namespace Sys2Proof.Machine

/-! ## An access of one line (R433, R434, R447) -/

/-- A transfer that stays within a line has one part. -/
theorem transferLines_of_line {x n : Nat} (hn : 0 < n) (h : x % 64 + n ≤ 64) : transferLines x n = [(x / 64, x % 64, n)] := by
  have hmin : min n (64 - x % 64) = n := by omega
  rw [transferLines, linesOf, if_neg (by omega), hmin]
  simp [linesOf]

/-- Bytes that an access moves. -/
def accessLen (n : Nat) (data : Option (List Byte)) : Nat := (data.map List.length).getD n

/-- Above the flash, the cores' address map has no other regions than SRAM and DRAM (R340). -/
theorem coreRegion_of_memory {a n : Nat} (hn : 0 < n) (ha : sramBase ≤ a) : coreRegion a n = none := by
  have ha : 0x30000000 ≤ a := ha
  rw [coreRegion, if_neg (by omega), if_neg (by omega), if_neg (by omega), if_neg (by omega), if_neg (by omega), if_neg (by omega),
    if_neg (by omega)]

/-- An access that meets none of the cores' own regions is one of memory. -/
theorem exec_memoryAccess {s : State} (u : Fin 6) (a : BitVec 36) (n : Nat) (data : Option (List Byte)) (fs : List (Nat × Finding))
    (hf : s.frozen = false) (h : u.val < 4 → coreRegion a.toNat (accessLen n data) = none) :
    exec (.memoryAccess u a n data fs) s = .next (s.setDev (memAccess s.d u a.toNat n data fs)) := by
  have hpages : onPages u a.toNat n data = false := by
    by_cases hu : u.val < 4
    · have := h hu
      cases data <;> simp_all [onPages, accessLen]
    · simp [onPages, hu]
  have hany : anyAccess s.d u a.toNat n data fs = memAccess s.d u a.toNat n data fs := by
    have hregion : (if u.val < 4 then coreRegion a.toNat (accessLen n data) else none) = none := by
      split
      · next hu => exact h hu
      · rfl
    cases data with
    | none =>
      rw [accessLen, Option.map_none, Option.getD_none] at hregion
      simp only [anyAccess, hregion]
    | some bs =>
      rw [accessLen, Option.map_some, Option.getD_some] at hregion
      simp only [anyAccess, hregion]
  show (if onPages u a.toNat n data && !s.frozen then _ else s.lanes fun d => anyAccess d u a.toNat n data fs) = _
  rw [hpages, Bool.false_and, if_neg Bool.false_ne_true, State.lanes_of hf, hany]

/-- The debug master has no access before the full debug path is open (R447). -/
theorem memAccess_no_debug {d : Dev} (h : d.get R.DEBUG_STATUS_FULL_OPEN = 0) (a n : Nat) (data : Option (List Byte))
    (fs : List (Nat × Finding)) : memAccess d 5 a n data fs = d.emit (.mem 5 a none) := by
  unfold memAccess
  exact if_pos (by simp [Dev.on, h])

/-- A master that is not the debug master, or the debug master on its open path. -/
def MayAccess (d : Dev) (u : Nat) : Prop := u = 5 → d.get R.DEBUG_STATUS_FULL_OPEN = 1

theorem MayAccess.not_closed {d : Dev} {u : Nat} (h : MayAccess d u) : ¬ (u = 5 ∧ ¬ d.on R.DEBUG_STATUS_FULL_OPEN = true) :=
  fun ⟨hu, hoff⟩ => hoff (by simp [Dev.on, h hu])

theorem memAccess_sram_read {d : Dev} {u a n : Nat} (hu : MayAccess d u) (h : InSram a n) (fs : List (Nat × Finding)) :
    memAccess d u a n none fs = d.emit (.mem u a (some ((List.range n).map fun i => BitVec.ofNat 8 (Cells.find d.sram (a + i))))) := by
  rw [memAccess, if_neg hu.not_closed]
  exact if_pos h

theorem memAccess_sram_write {d : Dev} {u a : Nat} {bs : List Byte} (hu : MayAccess d u) (h : InSram a bs.length) (n : Nat)
    (fs : List (Nat × Finding)) : memAccess d u a n (some bs) fs = (sramPut d a bs).emit (.mem u a (some [])) := by
  rw [memAccess, if_neg hu.not_closed]
  exact if_pos h

/-- The access of `len` bytes at `a` lies in one line of the fitted DRAM, and its master may access memory. -/
structure InLine (d : Dev) (u a len : Nat) : Prop where
  base : dramBase ≤ a
  line : (a - dramBase) % 64 + len ≤ 64
  pos : 0 < len
  limit : a + len ≤ dramBase + dramSize d
  may : MayAccess d u

/-- Number of the DRAM line at a core address, and the address at which that line begins. -/
def lineOf (a : Nat) : Nat := (a - dramBase) / 64
def lineStart (a : Nat) : Nat := dramBase + lineOf a * 64

theorem InLine.coreRegion {d : Dev} {u a len : Nat} (h : InLine d u a len) : coreRegion a len = none :=
  coreRegion_of_memory h.pos (le_trans (by decide) h.base)

theorem InLine.not_sram {d : Dev} {u a len : Nat} (h : InLine d u a len) : ¬ (sramBase ≤ a ∧ a + len ≤ sramBase + sramSize) := by
  have : 0x800000000 ≤ a := h.base
  simp only [sramBase, sramSize]
  omega

theorem InLine.parts {d : Dev} {u a len : Nat} (h : InLine d u a len) :
    transferLines (a - dramBase) len = [(lineOf a, (a - dramBase) % 64, len)] := transferLines_of_line h.pos h.line

/-- A line that the master may not read or write (R446). -/
theorem memAccess_refused {d : Dev} {u a n : Nat} {data : Option (List Byte)} (h : InLine d u a (accessLen n data))
    (hm : mgMay d u data.isSome (lineStart a) = false) (fs : List (Nat × Finding)) :
    memAccess d u a n data fs = refuseTo (mgRefuse d u data.isSome (lineStart a + (a - dramBase) % 64)) u a := by
  have hfind : [(lineOf a, (a - dramBase) % 64, accessLen n data)].find? (fun p => !mgMay d u data.isSome (dramBase + p.1 * 64)) =
      some (lineOf a, (a - dramBase) % 64, accessLen n data) := List.find?_cons_of_pos (by simpa [lineStart] using hm)
  rw [← h.parts] at hfind
  have hsram := h.not_sram
  have hdram : ¬ ¬ (dramBase ≤ a ∧ a + accessLen n data ≤ dramBase + dramSize d) := not_not_intro ⟨h.base, h.limit⟩
  cases data <;>
  · simp only [accessLen, Option.map_none, Option.map_some, Option.getD_none, Option.getD_some] at hsram hdram hfind
    unfold memAccess
    simp only [if_neg h.may.not_closed, if_neg hsram, if_neg hdram, hfind]
    rfl

/-- No part of it is refused. -/
theorem InLine.find_none {d : Dev} {u a len : Nat} {w : Bool} (h : InLine d u a len) (hm : mgMay d u w (lineStart a) = true) :
    (transferLines (a - dramBase) len).find? (fun p => !mgMay d u w (dramBase + p.1 * 64)) = none := by
  rw [h.parts]
  exact List.find?_eq_none.mpr (by simpa [lineStart] using hm)

theorem memAccess_read {d : Dev} {u a n : Nat} (h : InLine d u a n) (hm : mgMay d u false (lineStart a) = true) :
    memAccess d u a n none [] = guardAnswer d u a n := by
  have hfind : (transferLines (a - dramBase) n).find? (fun p => !mgMay d u (none : Option (List Byte)).isSome (dramBase + p.1 * 64)) = none :=
    h.find_none hm
  unfold memAccess
  simp only [if_neg h.may.not_closed, if_neg h.not_sram, if_neg (not_not_intro (And.intro h.base h.limit)), hfind]
  rfl

theorem memAccess_write {d : Dev} {u a : Nat} {bs : List Byte} (h : InLine d u a bs.length) (hm : mgMay d u true (lineStart a) = true) (n : Nat) :
    memAccess d u a n (some bs) [] = (mgWriteParts d [(lineOf a, (a - dramBase) % 64, bs.length)] bs).emit (.mem u a (some [])) := by
  have hfind : (transferLines (a - dramBase) bs.length).find? (fun p => !mgMay d u (some bs).isSome (dramBase + p.1 * 64)) = none :=
    h.find_none hm
  unfold memAccess
  simp only [if_neg h.may.not_closed, if_neg h.not_sram, if_neg (not_not_intro (And.intro h.base h.limit)), hfind]
  rw [h.parts]
  rfl

/-- A read that finds a wrong MAC in a line of a PROTECTED range halts the device and answers nothing (R448). -/
theorem memAccess_macFails {d : Dev} {u a n r : Nat} (h : InLine d u a n) (hm : mgMay d u false (lineStart a) = true)
    (hr : rangeOf d (lineStart a) = some r) (hmode : d.get (R.RANGE_CTRL_MODE r) = 2) :
    memAccess d u a n none [(0, .macFails)] = guardHalt d 1 0 r (lineOf a * 64) := by
  have hfind : (transferLines (a - dramBase) n).find? (fun p => !mgMay d u (none : Option (List Byte)).isSome (dramBase + p.1 * 64)) = none :=
    h.find_none hm
  have hr : rangeOf d (dramBase + lineOf a * 64) = some r := hr
  unfold memAccess
  simp only [if_neg h.may.not_closed, if_neg h.not_sram, if_neg (not_not_intro (And.intro h.base h.limit)), hfind]
  rw [h.parts]
  simp [hr, findingCounts, dataFinding, classifyAll, classify1, hmode]

/-- A read of a line whose page is not being re-encrypted is answered with the bytes of the line. -/
theorem guardAnswer_of_inLine {d : Dev} {u a n r : Nat} (h : InLine d u a n) (hr : rangeOf d (lineStart a) = some r)
    (hmode : d.get (R.RANGE_CTRL_MODE r) ≠ 2) (hbusy : mgBusy d r (linePage d r (lineOf a)) = false) :
    guardAnswer d u a n = d.emit (.mem u a (some (bytesAt (lineBytes (Cells.find d.dram (lineOf a))) ((a - dramBase) % 64) n))) := by
  have hr : rangeOf d (dramBase + lineOf a * 64) = some r := hr
  rw [guardAnswer, h.parts]
  simp [hr, hbusy, hmode]

/-- A write within a line of a PLAIN or CONFIDENTIAL range stores the merged line. -/
theorem mgWriteParts_of_line {d : Dev} {r line off : Nat} {bs : List Byte} (hr : rangeOf d (dramBase + line * 64) = some r)
    (hmode : d.get (R.RANGE_CTRL_MODE r) ≠ 2) : mgWriteParts d [(line, off, bs.length)] bs =
      (dramPut d line (mergeLine (Cells.find d.dram line) off bs)).emit
        (storedLine d r (line * 64) (mergeLine (Cells.find d.dram line) off bs)) := by
  simp only [mgWriteParts, hr, List.take_length, mgWriteLine, if_neg hmode]

/-! ## A refused access (R447) -/

/-- The fields in which the guard counts and captures a refusal. -/
def refuseFields : List Fld := [R.MG_REFUSED, R.REFUSE_ADDR, R.REFUSE_INFO_MASTER, R.REFUSE_INFO_WRITE, R.REFUSE_INFO_VALID]

/-- What the first refusal captures. -/
def refuseCaptured (d : Dev) (u : Nat) (write : Bool) (a : Nat) : Dev :=
  if d.on R.REFUSE_INFO_VALID then d
  else d.setAll [(R.REFUSE_ADDR, a), (R.REFUSE_INFO_MASTER, u), (R.REFUSE_INFO_WRITE, b2n write), (R.REFUSE_INFO_VALID, 1)]

theorem mgRefuse_eq (d : Dev) (u : Nat) (write : Bool) (a : Nat) :
    mgRefuse d u write a = (refuseCaptured (d.count 9 R.MG_REFUSED) u write a).latch 9 8 := rfl

theorem refuseCaptured_onlyChanges (d : Dev) (u : Nat) (write : Bool) (a : Nat) : d.OnlyChanges (refuseCaptured d u write a)
    [R.REFUSE_ADDR, R.REFUSE_INFO_MASTER, R.REFUSE_INFO_WRITE, R.REFUSE_INFO_VALID] [] :=
  Dev.OnlyChanges.ite (fun _ => .refl _ _ _) fun _ => (Dev.OnlyChanges.refl _ _ _).setAll _ (by simp)

theorem mgRefuse_onlyChanges (d : Dev) (u : Nat) (write : Bool) (a : Nat) : d.OnlyChanges (mgRefuse d u write a) refuseFields [9] := by
  rw [mgRefuse_eq]
  have hcount := (Dev.OnlyChanges.refl d refuseFields [9]).count 9 (f := R.MG_REFUSED) 1 (by simp [refuseFields])
  exact (hcount.trans ((refuseCaptured_onlyChanges _ u write a).mono (by simp [refuseFields]) (by simp))).latch 9 8 (by simp) (by decide)

theorem mgRefuse_evt (d : Dev) (u : Nat) (write : Bool) (a : Nat) : (mgRefuse d u write a).evt 9 8 = true :=
  Dev.evt_latch_same _ _ _ (by decide) (by decide) (evtBitServed_of_not_port _ _ _ (by decide))

theorem mgRefuse_get (d : Dev) (u : Nat) (write : Bool) (a : Nat) {g : Fld} (h : eventKey 9 g.key = false) :
    (mgRefuse d u write a).get g = (refuseCaptured (d.count 9 R.MG_REFUSED) u write a).get g := Dev.get_latch_ne _ _ _ (by decide) _ h

theorem mgRefuse_count {d : Dev} (u : Nat) (write : Bool) (a : Nat) (h : d.get (L.PAGE_FREEZE 9) = 0) :
    (mgRefuse d u write a).get R.MG_REFUSED = min (d.get R.MG_REFUSED + 1) (2 ^ R.MG_REFUSED.w - 1) := by
  rw [mgRefuse_get _ _ _ _ (by decide), (refuseCaptured_onlyChanges _ _ _ _).2 _ (by decide) (by simp), Dev.get_count_same, Dev.on, h]
  rfl

/-- The first refusal's master and direction stay. -/
theorem mgRefuse_first {d : Dev} {u : Nat} (write : Bool) (a : Nat) (hu : u < 8) (h : d.get R.REFUSE_INFO_VALID = 0) :
    (mgRefuse d u write a).get R.REFUSE_INFO_MASTER = u ∧ (mgRefuse d u write a).get R.REFUSE_INFO_WRITE = b2n write := by
  have hoff : (d.count 9 R.MG_REFUSED).on R.REFUSE_INFO_VALID = false := by
    rw [Dev.on, Dev.get_count_ne _ _ _ _ _ (by decide), h]
    rfl
  rw [mgRefuse_get _ _ _ _ (by decide), mgRefuse_get _ _ _ _ (by decide), refuseCaptured, hoff, if_neg Bool.false_ne_true]
  simp only [Dev.setAll_cons, Dev.setAll_nil]
  constructor
  · rw [Dev.get_set_ne _ _ _ _ (by decide), Dev.get_set_ne _ _ _ _ (by decide), Dev.get_set_same]
    exact Nat.mod_eq_of_lt hu
  · rw [Dev.get_set_ne _ _ _ _ (by decide), Dev.get_set_same]
    cases write <;> rfl

/-- A core takes its access fault. -/
def coreTakes (d : Dev) (u a : Nat) : Dev := if u < 4 then accessFault d u a else d

theorem refuseTo_eq (d : Dev) (u a : Nat) : refuseTo d u a = (coreTakes d u a).emit (.mem u a none) := rfl

theorem coreTakes_onlyChanges (d : Dev) (u a : Nat) : d.OnlyChanges (coreTakes d u a) faultFields [8] :=
  Dev.OnlyChanges.ite (fun _ => accessFault_onlyChanges d u a) fun _ => .refl _ _ _

/-- The guard refuses the access at `x`, of which the address `a` is reported to a core. -/
def accessRefused (d : Dev) (u : Nat) (write : Bool) (x a : Nat) : Dev := coreTakes (mgRefuse d u write x) u a

theorem accessRefused_onlyChanges (d : Dev) (u : Nat) (write : Bool) (x a : Nat) :
    d.OnlyChanges (accessRefused d u write x a) (refuseFields ++ faultFields) [9, 8] :=
  ((mgRefuse_onlyChanges d u write x).mono (fun _ => List.mem_append_left _) (by simp)).trans
    ((coreTakes_onlyChanges _ u a).mono (fun _ => List.mem_append_right _) (by simp))

/-- What the guard has recorded stays when the core takes its fault. -/
theorem accessRefused_get (d : Dev) (u : Nat) (write : Bool) (x a : Nat) {g : Fld} (hg : ∀ f ∈ faultFields, g.key ≠ f.key)
    (he : eventKey 8 g.key = false) : (accessRefused d u write x a).get g = (mgRefuse d u write x).get g :=
  (coreTakes_onlyChanges _ u a).2 g hg (by simpa using he)

theorem accessRefused_evt (d : Dev) (u : Nat) (write : Bool) (x a : Nat) : (accessRefused d u write x a).evt 9 8 = true := by
  rw [Dev.evt, accessRefused_get _ _ _ _ _ (by decide) (by decide), ← Dev.evt]
  exact mgRefuse_evt d u write x

theorem accessRefused_core_evt (d : Dev) {u : Nat} (write : Bool) (x a : Nat) (hu : u < 4) : (accessRefused d u write x a).evt 8 16 = true := by
  rw [accessRefused, coreTakes, if_pos hu]
  exact accessFault_evt _ _ _

/-! ## The halt (R448, R449) -/

/-- The fields of a halt record, and the alarm's condition. -/
def haltFields : List Fld :=
  [R.HALT_RECORD_CAUSE, R.HALT_RECORD_LEVEL, R.HALT_RECORD_RANGE, R.HALT_RECORD_VALID, R.HALT_ADDR, R.HALT_TIME_NS, R.HALT_TIME_SEC,
    L.MG_HALT_TICK, L.AL_PULSE]

theorem guardHalt_onlyChanges (d : Dev) (cause level r x : Nat) : d.OnlyChanges (guardHalt d cause level r x) haltFields [] :=
  (Dev.OnlyChanges.ite (fun _ => .refl _ _ _) fun _ => (Dev.OnlyChanges.refl _ _ _).setAll _ (by simp [haltFields])).set _
    (by simp [haltFields])

theorem guardHalt_alarm (d : Dev) (cause level r x : Nat) : bitAt ((guardHalt d cause level r x).get L.AL_PULSE) 55 = true :=
  bitAt_alarm_same _ (by decide)

/-- The first finding of a tick is the one recorded. -/
theorem guardHalt_first {d : Dev} {cause r x : Nat} (level : Nat) (h : d.get L.MG_HALT_TICK ≠ d.tick + 1) (hc : cause < 16) (hr : r < 8)
    (hx : x < 2 ^ 64) :
    (guardHalt d cause level r x).get R.HALT_RECORD_CAUSE = cause ∧ (guardHalt d cause level r x).get R.HALT_RECORD_RANGE = r ∧
      (guardHalt d cause level r x).get R.HALT_RECORD_VALID = 1 ∧ (guardHalt d cause level r x).get R.HALT_ADDR = x := by
  have hkeep {g : Fld} (hg : g.key ≠ L.AL_PULSE.key) : (guardHalt d cause level r x).get g = (d.setAll [(R.HALT_RECORD_CAUSE, cause),
      (R.HALT_RECORD_LEVEL, level), (R.HALT_RECORD_RANGE, r), (R.HALT_RECORD_VALID, 1), (R.HALT_ADDR, x), (R.HALT_TIME_NS, nsOf d.tickTime),
      (R.HALT_TIME_SEC, secOf d.tickTime % 2 ^ 32), (L.MG_HALT_TICK, d.tick + 1)]).get g := by
    rw [guardHalt, Dev.get_alarm_ne _ _ hg]
    simp only [beq_eq_false_iff_ne.mpr h, Bool.false_and, Bool.false_eq_true, if_false]
  rw [hkeep (by decide), hkeep (by decide), hkeep (by decide), hkeep (by decide)]
  simp only [Dev.setAll_cons, Dev.setAll_nil]
  refine ⟨?_, ?_, ?_, ?_⟩
  · iterate 7 rw [Dev.get_set_ne _ _ _ _ (by decide)]
    exact (Dev.get_set_same _ _ _).trans (Nat.mod_eq_of_lt hc)
  · iterate 5 rw [Dev.get_set_ne _ _ _ _ (by decide)]
    exact (Dev.get_set_same _ _ _).trans (Nat.mod_eq_of_lt hr)
  · iterate 4 rw [Dev.get_set_ne _ _ _ _ (by decide)]
    exact Dev.get_set_same _ _ _
  · iterate 3 rw [Dev.get_set_ne _ _ _ _ (by decide)]
    exact (Dev.get_set_same _ _ _).trans (Nat.mod_eq_of_lt hx)

end Sys2Proof.Machine
end

section
namespace Sys2Proof.Machine

/-! ## Enabling a range (R435) -/

theorem noEffect_rangeEnable {s : State} {r : Fin 8} (h : s.d.get (R.RANGE_STATUS_STATE r) ≠ rangeOff) : NoEffect (.rangeEnable r) s := by
  show (s.page 9 fun d => rangeRequest d r) = .next s
  rw [State.page, rangeRequest, if_pos h, State.setDev_self, ite_self]

theorem defers_rangeEnable {s : State} {r : Fin 8} (hl : s.live 9 = true) (h : s.d.get (R.RANGE_STATUS_STATE r) = rangeOff) :
    Defers (.rangeEnable r) s (.rangeEnable r) [R.RANGE_CTRL_ENABLE r] fun e => e.get (R.RANGE_CTRL_ENABLE r) = 1 := by
  have hrequest : rangeRequest s.d r = (s.d.set (R.RANGE_CTRL_ENABLE r) 1).post (.rangeEnable r) := if_neg (not_not_intro h)
  have hset := (Dev.OnlyChanges.refl (s.d.post (.rangeEnable r)) [R.RANGE_CTRL_ENABLE r] []).set (f := R.RANGE_CTRL_ENABLE r) 1 (by simp)
  exact ⟨_, (State.page_of hl fun d => rangeRequest d r).trans (by rw [hrequest]; rfl), hset, Dev.get_set_same _ _ _⟩

theorem postedAct_rangeEnable (s : State) (r : Nat) : postedAct s (.rangeEnable r) = s.setDev (rangeEnable s.run s.d r) := rfl

theorem postedAct_rangeEnable_on {s : State} {r : Nat} (h : s.d.get (R.RANGE_STATUS_STATE r) ≠ rangeOff) :
    postedAct s (.rangeEnable r) = s := by
  rw [postedAct_rangeEnable, rangeEnable, if_pos h, State.setDev_self]

/-- The answer to a request that fails its check. -/
def rangeRefused (d : Dev) (r c : Nat) : Dev := (if c = codePower then arbError d else d).set (R.RANGE_STATUS_ENABLE_CODE r) c

theorem rangeRefused_onlyChanges (d : Dev) (r c : Nat) :
    d.OnlyChanges (rangeRefused d r c) [R.RANGE_STATUS_ENABLE_CODE r, R.POWER_ERRORS] [] :=
  (Dev.OnlyChanges.ite (fun _ => (Dev.OnlyChanges.refl d _ _).count 4 1 (by simp)) fun _ => .refl _ _ _).set _ (by simp)

theorem rangeEnable_refused {run : RunState} {d : Dev} {r : Nat} (h : d.get (R.RANGE_STATUS_STATE r) = rangeOff)
    (hc : rangeCheck run d r ≠ codeOk) : rangeEnable run d r = (rangeRefused d r (rangeCheck run d r)).latch 9 1 := by
  rw [rangeEnable, if_neg (not_not_intro h)]
  exact if_pos hc

/-- Every code of the check fits its field. -/
theorem rangeCheck_lt (run : RunState) (d : Dev) (r : Nat) : rangeCheck run d r < 256 := by
  unfold rangeCheck
  repeat' split
  all_goals decide

theorem acts_rangeRefused {s : State} (r : Fin 8) (h : s.d.get (R.RANGE_STATUS_STATE r) = rangeOff) (hc : rangeCheck s.run s.d r ≠ codeOk) :
    Acts (.rangeEnable r) s s.d [R.RANGE_STATUS_ENABLE_CODE r, R.POWER_ERRORS] [9] fun e =>
      e.get (R.RANGE_STATUS_ENABLE_CODE r) = rangeCheck s.run s.d r ∧ e.evt 9 1 = true := by
  have hcode : ∀ r : Fin 8, eventKey 9 (R.RANGE_STATUS_ENABLE_CODE r).key = false := by decide
  refine ⟨_, by rw [postedAct_rangeEnable, rangeEnable_refused h hc], ?_, ?_, ?_⟩
  · exact ((rangeRefused_onlyChanges _ _ _).mono (fun _ => id) (by simp)).latch 9 1 (by simp) (by decide)
  · rw [Dev.get_latch_ne _ _ _ (by decide) _ (hcode r), rangeRefused, Dev.get_set_same]
    exact Nat.mod_eq_of_lt (rangeCheck_lt _ _ _)
  · exact Dev.evt_latch_same _ _ _ (by decide) (by decide) (evtBitServed_of_not_port _ _ _ (by decide))

/-! ## The two keys of a range (R435, R276) -/

/-- The state of the key generator. -/
def keyGenFields : List Fld := [L.DRBG_KEY 0, L.DRBG_VAL 0, L.DRBG_GEN 0]

theorem drbgGen_onlyChanges (d : Dev) (bytes : Nat) : d.OnlyChanges (drbgGen d 0 bytes).1 keyGenFields [] := by
  have hput : d.OnlyChanges (drbgPut d 0 ((drbgOf d 0).generate bytes).2) keyGenFields [] :=
    (Dev.OnlyChanges.refl _ _ _).setAll _ (by simp [keyGenFields])
  exact hput.set _ (by simp [keyGenFields])

theorem drbgGen_bytes (d : Dev) (bytes : Nat) : (drbgGen d 0 bytes).2 = ((drbgOf d 0).generate bytes).1 := rfl

theorem drbgGen_gen {d : Dev} (bytes : Nat) (h : d.get (L.DRBG_GEN 0) < 2 ^ 20) :
    (drbgGen d 0 bytes).1.get (L.DRBG_GEN 0) = d.get (L.DRBG_GEN 0) + 1 := by
  refine (Dev.get_set_same _ (L.DRBG_GEN 0) _).trans (Nat.mod_eq_of_lt ?_)
  show _ < 2 ^ 21
  omega

/-- A generator that is not due for a reseed generates at once. -/
theorem drbgKey_of_fresh {d : Dev} (bytes : Nat) (h : d.get (L.DRBG_GEN 0) < 2 ^ 20) : drbgKey d bytes = drbgGen d 0 bytes := by
  rw [drbgKey, drbgDue, decide_eq_false (Nat.not_le.2 h), if_neg Bool.false_ne_true]

/-- The contents after the draws and the keys drawn: none for a PLAIN range. -/
def rangeDraw (d : Dev) (r : Nat) : Dev × Nat × Nat :=
  let k1 := if d.get (R.RANGE_CTRL_MODE r) = 0 then (d, []) else drbgKey d 32
  let k2 := if d.get (R.RANGE_CTRL_MODE r) = 0 then (k1.1, []) else drbgKey k1.1 32
  (k2.1, beVal k1.2, beVal k2.2)

/-- An accepted range is QUEUED with its keys. -/
def rangeQueued (d : Dev) (r : Nat) : Dev :=
  (rangeDraw d r).1.setAll [(L.MG_KEY1 r, (rangeDraw d r).2.1), (L.MG_KEY2 r, (rangeDraw d r).2.2), (R.RANGE_STATUS_ENABLE_CODE r, codeQueued)]

/-- Fields that the acceptance of a range changes. -/
def acceptFields (r : Nat) : List Fld :=
  [L.MG_KEY1 r, L.MG_KEY2 r, L.DRBG_KEY 0, L.DRBG_VAL 0, L.DRBG_GEN 0] ++ [R.RANGE_STATUS_ENABLE_CODE r, R.RANGE_STATUS_STATE r]

theorem rangeDraw_plain {d : Dev} {r : Nat} (h : d.get (R.RANGE_CTRL_MODE r) = 0) : rangeDraw d r = (d, 0, 0) := by
  simp only [rangeDraw, h, if_true]
  rfl

theorem rangeDraw_enciphering {d : Dev} {r : Nat} (h : d.get (R.RANGE_CTRL_MODE r) ≠ 0) (hg : d.get (L.DRBG_GEN 0) + 1 < 2 ^ 20) :
    rangeDraw d r = ((drbgGen (drbgGen d 0 32).1 0 32).1, beVal (drbgGen d 0 32).2, beVal (drbgGen (drbgGen d 0 32).1 0 32).2) := by
  have hfirst : d.get (L.DRBG_GEN 0) < 2 ^ 20 := Nat.lt_of_succ_lt hg
  have hnext : (drbgGen d 0 32).1.get (L.DRBG_GEN 0) < 2 ^ 20 := (drbgGen_gen 32 hfirst).trans_lt hg
  simp only [rangeDraw, if_neg h, drbgKey_of_fresh 32 hfirst, drbgKey_of_fresh 32 hnext]

theorem rangeDraw_onlyChanges {d : Dev} {r : Nat} (h : d.get (R.RANGE_CTRL_MODE r) = 0 ∨ d.get (L.DRBG_GEN 0) + 1 < 2 ^ 20) :
    d.OnlyChanges (rangeDraw d r).1 keyGenFields [] := by
  by_cases hm : d.get (R.RANGE_CTRL_MODE r) = 0
  · rw [rangeDraw_plain hm]
    exact .refl _ _ _
  · rw [rangeDraw_enciphering hm (h.resolve_left hm)]
    exact (drbgGen_onlyChanges d 32).trans (drbgGen_onlyChanges _ 32)

theorem rangeQueued_onlyChanges {d : Dev} {r : Nat} (h : d.get (R.RANGE_CTRL_MODE r) = 0 ∨ d.get (L.DRBG_GEN 0) + 1 < 2 ^ 20) :
    d.OnlyChanges (rangeQueued d r) (acceptFields r) [] :=
  ((rangeDraw_onlyChanges h).mono (by simp [keyGenFields, acceptFields]) (by simp)).setAll _ (by simp [acceptFields])

theorem rangeQueued_code (d : Dev) (r : Nat) : (rangeQueued d r).get (R.RANGE_STATUS_ENABLE_CODE r) = codeQueued :=
  Dev.get_set_same _ _ _

theorem rangeQueued_get (d : Dev) (r : Nat) {g : Fld}
    (h : ∀ f ∈ [L.MG_KEY1 r, L.MG_KEY2 r, R.RANGE_STATUS_ENABLE_CODE r], g.key ≠ f.key) :
    (rangeQueued d r).get g = (rangeDraw d r).1.get g :=
  Dev.get_setAll_ne _ _ _ (by simpa using h)

theorem rangeQueued_key (d : Dev) (r : Fin 8) : (rangeQueued d r).get (L.MG_KEY1 r) = (rangeDraw d r).2.1 % 2 ^ 256 := by
  have hkey2 : ∀ r : Fin 8, (L.MG_KEY1 r).key ≠ (L.MG_KEY2 r).key := by decide
  have hcode : ∀ r : Fin 8, (L.MG_KEY1 r).key ≠ (R.RANGE_STATUS_ENABLE_CODE r).key := by decide
  rw [rangeQueued, Dev.setAll_cons, Dev.get_setAll_ne _ _ _ (by simpa using ⟨hkey2 r, hcode r⟩), Dev.get_set_same]
  rfl

/-- An accepted range of which the guard's engine is granted. -/
theorem rangeEnable_init {run : RunState} {d : Dev} {r : Nat} (h : d.get (R.RANGE_STATUS_STATE r) = rangeOff)
    (hc : rangeCheck run d r = codeOk) (hg : (rangeQueued d r).on R.MG_STATUS_ENGINE_GRANTED = true) :
    rangeEnable run d r = (rangeQueued d r).set (R.RANGE_STATUS_STATE r) rangeInit := by
  rw [rangeEnable, if_neg (not_not_intro h), hc]
  exact if_pos hg

/-- None of the fields that an acceptance writes says whether the engine is granted. -/
theorem granted_ne_acceptFields : ∀ r : Fin 8, ∀ f ∈ acceptFields r, R.MG_STATUS_ENGINE_GRANTED.key ≠ f.key := by decide

theorem rangeQueued_granted {d : Dev} {r : Fin 8} (h : d.get (R.RANGE_CTRL_MODE r) = 0 ∨ d.get (L.DRBG_GEN 0) + 1 < 2 ^ 20) :
    (rangeQueued d r).on R.MG_STATUS_ENGINE_GRANTED = d.on R.MG_STATUS_ENGINE_GRANTED := by
  rw [Dev.on, (rangeQueued_onlyChanges h).2 _ (granted_ne_acceptFields r) (by simp)]
  rfl

/-- The code, the key and the generator's count stay when the range's state is written. -/
theorem state_key_ne : ∀ r : Fin 8, (R.RANGE_STATUS_ENABLE_CODE r).key ≠ (R.RANGE_STATUS_STATE r).key ∧
    (L.MG_KEY1 r).key ≠ (R.RANGE_STATUS_STATE r).key ∧ (L.DRBG_GEN 0).key ≠ (R.RANGE_STATUS_STATE r).key := by decide

theorem gen_key_ne : ∀ r : Fin 8, ∀ f ∈ [L.MG_KEY1 r, L.MG_KEY2 r, R.RANGE_STATUS_ENABLE_CODE r], (L.DRBG_GEN 0).key ≠ f.key := by decide

theorem acts_rangeInit {s : State} (r : Fin 8) (h : s.d.get (R.RANGE_STATUS_STATE r) = rangeOff) (hc : rangeCheck s.run s.d r = codeOk)
    (hg : s.d.get R.MG_STATUS_ENGINE_GRANTED = 1) (hn : s.d.get (L.DRBG_GEN 0) + 1 < 2 ^ 20) :
    Acts (.rangeEnable r) s s.d (acceptFields r) [] fun e =>
      e.get (R.RANGE_STATUS_STATE r) = rangeInit ∧ e.get (R.RANGE_STATUS_ENABLE_CODE r) = codeQueued ∧
      (s.d.get (R.RANGE_CTRL_MODE r) = 0 → e.get (L.MG_KEY1 r) = 0 ∧ e.get (L.DRBG_GEN 0) = s.d.get (L.DRBG_GEN 0)) ∧
      (s.d.get (R.RANGE_CTRL_MODE r) ≠ 0 → e.get (L.MG_KEY1 r) = beVal ((drbgOf s.d 0).generate 32).1 % 2 ^ 256 ∧
        e.get (L.DRBG_GEN 0) = s.d.get (L.DRBG_GEN 0) + 2) := by
  obtain ⟨hcode, hkey, hgen⟩ := state_key_ne r
  have hgranted : (rangeQueued s.d r).on R.MG_STATUS_ENGINE_GRANTED = true := by
    rw [rangeQueued_granted (.inr hn), Dev.on, hg]
    rfl
  refine ⟨_, by rw [postedAct_rangeEnable, rangeEnable_init h hc hgranted], (rangeQueued_onlyChanges (.inr hn)).set _ (by simp [acceptFields]),
    Dev.get_set_same _ _ _, ?_, fun hm => ?_, fun hm => ?_⟩
  · rw [Dev.get_set_ne _ _ _ _ hcode, rangeQueued_code]
  · rw [Dev.get_set_ne _ _ _ _ hkey, Dev.get_set_ne _ _ _ _ hgen, rangeQueued_key, rangeQueued_get _ _ (gen_key_ne r), rangeDraw_plain hm]
    exact ⟨rfl, rfl⟩
  · rw [Dev.get_set_ne _ _ _ _ hkey, Dev.get_set_ne _ _ _ _ hgen, rangeQueued_key, rangeQueued_get _ _ (gen_key_ne r),
      rangeDraw_enciphering hm hn]
    have hfirst : (drbgGen s.d 0 32).1.get (L.DRBG_GEN 0) = s.d.get (L.DRBG_GEN 0) + 1 := drbgGen_gen 32 (Nat.lt_of_succ_lt hn)
    exact ⟨by rw [drbgGen_bytes], by rw [drbgGen_gen 32 (hfirst.trans_lt hn), hfirst]⟩

/-- A frame survives an addition to the arbiter's queue. -/
theorem Dev.OnlyChanges.arbRequest {d e : Dev} {fs : List Fld} {evs : List Nat} (h : d.OnlyChanges e fs evs) (q u cls : Nat) (x : PowerAction) :
    (arbRequest d q u cls x).OnlyChanges (arbRequest e q u cls x) fs evs := by
  refine ⟨?_, h.2⟩
  rw [h.1]
  rfl

/-- A request to the arbiter changes no field. -/
theorem get_arbRequest_unless (p : Bool) (d : Dev) (f : Fld) :
    (if p then d else arbRequest d reqMemGuard 2 classA .memGuard).get f = d.get f := by
  split <;> rfl

/-- The arbiter's queues are outside every frame. -/
theorem Dev.OnlyChanges.arbPending {d e : Dev} {fs : List Fld} {evs : List Nat} (h : d.OnlyChanges e fs evs) (x : PowerAction) :
    arbPending e x = arbPending d x := by
  have hwaiting : e.waiting = d.waiting := by rw [h.1]
  have hissuing : e.issuing = d.issuing := by rw [h.1]
  rw [Machine.arbPending, Machine.arbPending, hwaiting, hissuing]

/-- The range waits for the guard's engine. -/
def rangeWaits (d : Dev) (r : Nat) : Dev := (rangeQueued d r).set (R.RANGE_STATUS_STATE r) rangePending

theorem rangeWaits_onlyChanges {d : Dev} {r : Nat} (hm : d.get (R.RANGE_CTRL_MODE r) = 0) : d.OnlyChanges (rangeWaits d r) (acceptFields r) [] :=
  (rangeQueued_onlyChanges (.inl hm)).set _ (by simp [acceptFields])

theorem rangeWaits_state (d : Dev) (r : Nat) : (rangeWaits d r).get (R.RANGE_STATUS_STATE r) = rangePending := Dev.get_set_same _ _ _

theorem rangeWaits_code (d : Dev) (r : Fin 8) : (rangeWaits d r).get (R.RANGE_STATUS_ENABLE_CODE r) = codeQueued :=
  (Dev.get_set_ne _ _ _ _ (state_key_ne r).1).trans (rangeQueued_code _ _)

/-- An accepted range of which the guard's engine is not granted. -/
theorem rangeEnable_pending {run : RunState} {d : Dev} {r : Fin 8} (h : d.get (R.RANGE_STATUS_STATE r) = rangeOff)
    (hc : rangeCheck run d r = codeOk) (hm : d.get (R.RANGE_CTRL_MODE r) = 0) (hg : d.get R.MG_STATUS_ENGINE_GRANTED = 0) :
    rangeEnable run d r = if arbPending d .memGuard then rangeWaits d r else arbRequest (rangeWaits d r) reqMemGuard 2 classA .memGuard := by
  have hoff : ¬ (rangeQueued d r).on R.MG_STATUS_ENGINE_GRANTED = true := by
    rw [rangeQueued_granted (.inl hm), Dev.on, hg]
    exact Bool.false_ne_true
  rw [rangeEnable, if_neg (not_not_intro h), hc, ← (rangeWaits_onlyChanges hm).arbPending .memGuard]
  exact if_neg hoff

theorem acts_rangePending {s : State} (r : Fin 8) (h : s.d.get (R.RANGE_STATUS_STATE r) = rangeOff) (hc : rangeCheck s.run s.d r = codeOk)
    (hg : s.d.get R.MG_STATUS_ENGINE_GRANTED = 0) (hm : s.d.get (R.RANGE_CTRL_MODE r) = 0) :
    Acts (.rangeEnable r) s (if arbPending s.d .memGuard then s.d else arbRequest s.d reqMemGuard 2 classA .memGuard) (acceptFields r) [] fun e =>
      e.get (R.RANGE_STATUS_STATE r) = rangePending ∧ e.get (R.RANGE_STATUS_ENABLE_CODE r) = codeQueued := by
  have hframe := rangeWaits_onlyChanges hm
  refine ⟨_, by rw [postedAct_rangeEnable, rangeEnable_pending h hc hm hg], ?_, ?_⟩
  · split
    · exact hframe
    · exact hframe.arbRequest _ _ _ _
  · exact ⟨(get_arbRequest_unless _ _ _).trans (rangeWaits_state _ _), (get_arbRequest_unless _ _ _).trans (rangeWaits_code _ _)⟩

/-! ## The end of an initialization (R435) -/

theorem noEffect_rangeInitDone {s : State} {r : Fin 8} (hf : s.frozen = false) (h : s.d.get (R.RANGE_STATUS_STATE r) ≠ rangeInit) :
    NoEffect (.rangeInitDone r) s := by
  show (s.lanes fun d => rangeInitDone d r) = .next s
  rw [State.lanes_of hf, rangeInitDone, if_pos h, State.setDev_self]

/-- Memory and the guard's counters without a range's own. -/
def rangeCleared (d : Dev) (r : Nat) : Dev :=
  { d with dram := Cells.dropRange d.dram ((d.get (R.RANGE_BASE r) - dramBase) / 64) ((d.get (R.RANGE_LIMIT r) - dramBase) / 64),
           mgMinor := Cells.dropRange d.mgMinor ((d.get (R.RANGE_BASE r) - dramBase) / 64) ((d.get (R.RANGE_LIMIT r) - dramBase) / 64),
           mgMajor := Cells.dropRange d.mgMajor (majorKey r 0) (majorKey (r + 1) 0),
           mgTree := Cells.dropRange d.mgTree (treeKey r 0 0) (treeKey (r + 1) 0 0) }

/-- A range that has become ACTIVE. -/
def rangeActivated (d : Dev) (r : Nat) : Dev := d.setAll [(R.RANGE_STATUS_STATE r, rangeActive), (R.RANGE_STATUS_ENABLE_CODE r, codeOk)]

theorem rangeInitDone_eq {d : Dev} {r : Nat} (h : d.get (R.RANGE_STATUS_STATE r) = rangeInit) :
    rangeInitDone d r = (rangeActivated (rangeCleared d r) r).latch 9 0 := by
  rw [rangeInitDone, if_neg (not_not_intro h)]
  rfl

theorem rangeActivated_latch_onlyChanges (d : Dev) (r : Nat) :
    d.OnlyChanges ((rangeActivated d r).latch 9 0) [R.RANGE_STATUS_STATE r, R.RANGE_STATUS_ENABLE_CODE r] [9] :=
  ((Dev.OnlyChanges.refl _ _ _).setAll _ (by simp)).latch 9 0 (by simp) (by decide)

theorem yields_rangeInitDone {s : State} (r : Fin 8) (line : Nat) (hf : s.frozen = false) (h : s.d.get (R.RANGE_STATUS_STATE r) = rangeInit) :
    Yields (.rangeInitDone r) s fun e =>
      e.get (R.RANGE_STATUS_STATE r) = rangeActive ∧ e.get (R.RANGE_STATUS_ENABLE_CODE r) = codeOk ∧ e.evt 9 0 = true ∧
      Cells.find e.dram line = (if (s.d.get (R.RANGE_BASE r) - dramBase) / 64 ≤ line ∧ line < (s.d.get (R.RANGE_LIMIT r) - dramBase) / 64 then 0
        else Cells.find s.d.dram line) := by
  have hkeys : ∀ r : Fin 8, eventKey 9 (R.RANGE_STATUS_STATE r).key = false ∧ eventKey 9 (R.RANGE_STATUS_ENABLE_CODE r).key = false ∧
    (R.RANGE_STATUS_STATE r).key ≠ (R.RANGE_STATUS_ENABLE_CODE r).key := by decide
  obtain ⟨hstate, hcode, hne⟩ := hkeys r
  refine ⟨_, (State.lanes_of hf fun d => rangeInitDone d r).trans (by rw [rangeInitDone_eq h]), ?_, ?_, ?_, ?_⟩
  · rw [Dev.get_latch_ne _ _ _ (by decide) _ hstate, rangeActivated, Dev.setAll_cons, Dev.get_setAll_ne _ _ _ (by simpa using hne),
      Dev.get_set_same]
    rfl
  · rw [Dev.get_latch_ne _ _ _ (by decide) _ hcode]
    exact Dev.get_set_same _ _ _
  · exact Dev.evt_latch_same _ _ _ (by decide) (by decide) (evtBitServed_of_not_port _ _ _ (by decide))
  · rw [(rangeActivated_latch_onlyChanges _ _).1]
    exact Cells.find_dropRange _ _ _ _

/-! ## Scrubbing (R451) -/

/-- Lines of data and metadata of the ACTIVE ranges. -/
def scrubTotal (d : Dev) : Nat := sumBelow (fun r => (scrubLines d r).1 + (scrubLines d r).2) 8

/-- The next line of a pass that finds nothing. -/
def scrubNext (d : Dev) : Dev :=
  if d.get L.MG_SCRUB_LINE + 1 < scrubTotal d then (d.set R.MG_STATUS_SCRUB_ACTIVE 1).set L.MG_SCRUB_LINE (d.get L.MG_SCRUB_LINE + 1)
  else ((d.set R.MG_STATUS_SCRUB_ACTIVE 1).setAll [(L.MG_SCRUB_LINE, 0), (R.MG_STATUS_SCRUB_ACTIVE, 0)]).latch 9 24

theorem scrubRead_idle {d : Dev} (h : d.get R.MG_CTRL_SCRUB_EN = 0 ∨ scrubTotal d = 0) (f : Option Finding) : scrubRead d f = d := by
  by_cases hon : d.on R.MG_CTRL_SCRUB_EN = true
  · have htotal : scrubTotal d = 0 := h.resolve_left fun h0 => by simp [Dev.on, h0] at hon
    rw [scrubRead, hon]
    exact if_pos htotal
  · rw [scrubRead, if_pos (by simpa using hon)]

theorem scrubRead_none {d : Dev} (hon : d.get R.MG_CTRL_SCRUB_EN = 1) (h : scrubTotal d ≠ 0) : scrubRead d none = scrubNext d := by
  have hon : d.on R.MG_CTRL_SCRUB_EN = true := by rw [Dev.on, hon]; rfl
  unfold scrubRead scrubNext
  rw [hon]
  simp only [Bool.not_true, Bool.false_eq_true, if_false]
  rw [if_neg (show ¬ sumBelow (fun r => (scrubLines d r).1 + (scrubLines d r).2) 8 = 0 from h)]
  rcases scrubAt (d.set R.MG_STATUS_SCRUB_ACTIVE 1) 8 0 (d.get L.MG_SCRUB_LINE) with _ | ⟨r, i, ofMeta⟩
  · rfl
  · cases ofMeta <;> rfl

theorem noEffect_scrubRead {s : State} (hf : s.frozen = false) (h : s.d.get R.MG_CTRL_SCRUB_EN = 0 ∨ scrubTotal s.d = 0) :
    NoEffect (.scrubRead none) s := by
  show (s.lanes fun d => scrubRead d none) = .next s
  rw [State.lanes_of hf, scrubRead_idle h, State.setDev_self]

theorem completes_scrubRead {s : State} (hf : s.frozen = false) (hon : s.d.get R.MG_CTRL_SCRUB_EN = 1) (h : scrubTotal s.d ≠ 0) :
    (s.d.get L.MG_SCRUB_LINE + 1 < scrubTotal s.d → Completes (.scrubRead none) s [R.MG_STATUS_SCRUB_ACTIVE, L.MG_SCRUB_LINE] [] fun e =>
      e.get R.MG_STATUS_SCRUB_ACTIVE = 1 ∧ e.get L.MG_SCRUB_LINE = (s.d.get L.MG_SCRUB_LINE + 1) % 2 ^ L.MG_SCRUB_LINE.w) ∧
    (scrubTotal s.d ≤ s.d.get L.MG_SCRUB_LINE + 1 →
      Completes (.scrubRead none) s [R.MG_STATUS_SCRUB_ACTIVE, L.MG_SCRUB_LINE] [9] fun e =>
        e.get R.MG_STATUS_SCRUB_ACTIVE = 0 ∧ e.get L.MG_SCRUB_LINE = 0 ∧ e.evt 9 24 = true) := by
  have hexec : exec (.scrubRead none) s = .next (s.setDev (scrubNext s.d)) :=
    (State.lanes_of hf fun d => scrubRead d none).trans (by rw [scrubRead_none hon h])
  have hstart {evs : List Nat} : s.d.OnlyChanges (s.d.set R.MG_STATUS_SCRUB_ACTIVE 1) [R.MG_STATUS_SCRUB_ACTIVE, L.MG_SCRUB_LINE] evs :=
    (Dev.OnlyChanges.refl _ _ _).set _ (by simp)
  refine ⟨fun hmore => ?_, fun hlast => ?_⟩
  · rw [scrubNext, if_pos hmore] at hexec
    exact ⟨_, hexec, hstart.set _ (by simp), (Dev.get_set_ne _ _ _ _ (by decide)).trans (Dev.get_set_same _ _ _), Dev.get_set_same _ _ _⟩
  · rw [scrubNext, if_neg (Nat.not_lt.2 hlast)] at hexec
    refine ⟨_, hexec, (hstart.setAll _ (by simp)).latch 9 24 (by simp) (by decide), ?_, ?_, ?_⟩
    · rw [Dev.get_latch_ne _ _ _ (by decide) _ (by decide)]
      exact Dev.get_set_same _ _ _
    · rw [Dev.get_latch_ne _ _ _ (by decide) _ (by decide), Dev.setAll_cons, Dev.get_setAll_ne _ _ _ (by simp; decide)]
      exact Dev.get_set_same _ _ _
    · exact Dev.evt_latch_same _ _ _ (by decide) (by decide) (evtBitServed_of_not_port _ _ _ (by decide))

end Sys2Proof.Machine
end

section
namespace Sys2Proof.Machine

/-! ## What the walk of the counter tree leaves alone (R444) -/

/-- Memory, the lines' counters, the pages under re-encryption and the accesses that wait for them stay. -/
structure KeepsLines (d e : Dev) : Prop where
  major : e.mgMajor = d.mgMajor
  minor : e.mgMinor = d.mgMinor
  reenc : e.mgReenc = d.mgReenc
  dram : e.dram = d.dram
  pending : e.mgPending = d.mgPending

theorem KeepsLines.refl (d : Dev) : KeepsLines d d := ⟨rfl, rfl, rfl, rfl, rfl⟩

theorem KeepsLines.trans {d e f : Dev} (h : KeepsLines d e) (k : KeepsLines e f) : KeepsLines d f :=
  ⟨k.major.trans h.major, k.minor.trans h.minor, k.reenc.trans h.reenc, k.dram.trans h.dram, k.pending.trans h.pending⟩

/-- A change of fields is one of cells alone. -/
theorem Dev.OnlyChanges.keepsLines {d e : Dev} {fs : List Fld} {evs : List Nat} (h : d.OnlyChanges e fs evs) : KeepsLines d e := by
  obtain ⟨h, -⟩ := h
  exact ⟨by rw [h], by rw [h], by rw [h], by rw [h], by rw [h]⟩

theorem keepsLines_count (d : Dev) (pg : Nat) (f : Fld) : KeepsLines d (d.count pg f) :=
  ((Dev.OnlyChanges.refl d [f] []).count pg 1 (by simp)).keepsLines

theorem keepsLines_mgReencFlag (d : Dev) (r : Nat) : KeepsLines d (mgReencFlag d r) :=
  ((Dev.OnlyChanges.refl d [R.RANGE_STATUS_REENCRYPTING r] []).setB _ (by simp)).keepsLines

theorem keepsLines_mgDirty (d : Dev) (r level n : Nat) : KeepsLines d (mgDirty d r level n) := ⟨rfl, rfl, rfl, rfl, rfl⟩

theorem keepsLines_mgEvict (d : Dev) (m : MetaLine) : KeepsLines d (mgEvict d m) := by
  rw [mgEvict]
  split <;> exact ⟨rfl, rfl, rfl, rfl, rfl⟩

theorem keepsLines_mgInsert (d : Dev) (r level n : Nat) : KeepsLines d (mgInsert d r level n) := by
  have hevict (m : MetaLine) : KeepsLines d (mgEvict d.tookFree m) :=
    KeepsLines.trans (e := d.tookFree) ⟨rfl, rfl, rfl, rfl, rfl⟩ (keepsLines_mgEvict _ _)
  have hcache {e : Dev} (h : KeepsLines d e) : KeepsLines d { e with mgCache := ⟨r, level, n, false⟩ :: e.mgCache } :=
    h.trans ⟨rfl, rfl, rfl, rfl, rfl⟩
  refine hcache ?_
  split
  · exact .refl d
  · dsimp only
    split
    · exact hevict _
    · exact .refl d

theorem keepsLines_mgWalk (d : Dev) (r level n up : Nat) : KeepsLines d (mgWalk d r level n up) := by
  induction up generalizing level n with
  | zero => exact .refl d
  | succ up ih =>
    rw [mgWalk]
    split
    · exact keepsLines_count _ _ _
    · exact ((ih _ _).trans (keepsLines_count _ _ _)).trans (keepsLines_mgInsert _ _ _ _)

theorem keepsLines_mgTrust (d : Dev) (r page : Nat) : KeepsLines d (mgTrust d r page) := keepsLines_mgWalk _ _ _ _ _

/-! ## A step of a re-encryption (R444) -/

/-- Answers that leave the part one after the other change nothing else. -/
theorem foldl_emit (g : Dev → Nat → Out) (l : List Nat) (d : Dev) :
    l.foldl (fun d i => d.emit (g d i)) d = { d with out := (l.foldl (fun d i => d.emit (g d i)) d).out } ∧
      (l.foldl (fun d i => d.emit (g d i)) d).out.length = d.out.length + l.length := by
  induction l generalizing d with
  | nil => exact ⟨rfl, rfl⟩
  | cons i l ih =>
    obtain ⟨hsame, hlength⟩ := ih (d.emit (g d i))
    rw [List.foldl_cons]
    refine ⟨hsame.trans rfl, hlength.trans ?_⟩
    simp [Dev.emit]
    omega

/-- The first line of a page. -/
def pageLine (d : Dev) (r page : Nat) : Nat := (d.get (R.RANGE_BASE r) - dramBase) / 64 + 64 * page

/-- The eight lines of a page at a step, stored under the page's next major counter. -/
def reencWritten (d : Dev) (r page done : Nat) : Dev :=
  (List.range 8).foldl (fun d' i => d'.emit (storedLine
    { d' with mgMajor := Cells.put d'.mgMajor (majorKey r page) (mgGetMajor d r page + 1),
              mgMinor := Cells.put d'.mgMinor (pageLine d r page + 8 * done + i) 0 } r ((pageLine d r page + 8 * done + i) * 64)
    (Cells.find d'.dram (pageLine d r page + 8 * done + i)))) d

theorem reencWritten_eq (d : Dev) (r page done : Nat) :
    reencWritten d r page done = { d with out := (reencWritten d r page done).out } := (foldl_emit _ _ d).1

theorem reencWritten_out (d : Dev) (r page done : Nat) : (reencWritten d r page done).out.length = d.out.length + 8 :=
  (foldl_emit _ _ d).2

/-- A step that is not the page's last advances it. -/
def reencAdvanced (d : Dev) (r page done : Nat) : Dev :=
  { reencWritten d r page done with
    mgReenc := (reencWritten d r page done).mgReenc.map fun y => if y.range == r && y.page == page then { y with done := y.done + 1 } else y }

theorem reencAdvanced_out (d : Dev) (r page done : Nat) : (reencAdvanced d r page done).out = (reencWritten d r page done).out := by
  rw [reencAdvanced]

theorem reencAdvanced_mgReenc (d : Dev) (r page done : Nat) : (reencAdvanced d r page done).mgReenc =
    (reencWritten d r page done).mgReenc.map fun y => if y.range == r && y.page == page then { y with done := y.done + 1 } else y := by
  rw [reencAdvanced]

theorem reencAdvanced_eq (d : Dev) (r page done : Nat) : reencAdvanced d r page done =
    { d with mgReenc := (reencAdvanced d r page done).mgReenc, out := (reencAdvanced d r page done).out } := by
  rw [reencAdvanced_mgReenc, reencAdvanced_out, reencAdvanced]
  generalize (reencWritten d r page done).mgReenc.map _ = l
  rw [reencWritten_eq]

/-- Lines that are cleared one after the other. -/
theorem find_foldl_put_zero (l : List Nat) (x : Nat) (m : List (Nat × Nat)) (k : Nat) (h : k ∈ l.map (x + ·) ∨ Cells.find m k = 0) :
    Cells.find (l.foldl (fun m i => Cells.put m (x + i) 0) m) k = 0 := by
  induction l generalizing m with
  | nil => simpa using h
  | cons i l ih =>
    refine ih _ ?_
    by_cases hk : k = x + i
    · exact .inr (hk ▸ Cells.find_put_same _ _ _)
    · rw [Cells.find_put_ne _ _ hk]
      simpa [hk] using h

/-- Minor counters with those of the 64 lines from `x` on zero. -/
def pageCleared (x : Nat) (m : List (Nat × Nat)) : List (Nat × Nat) := (List.range 64).foldl (fun m i => Cells.put m (x + i) 0) m

theorem find_pageCleared (x : Nat) (m : List (Nat × Nat)) {i : Nat} (hi : i < 64) : Cells.find (pageCleared x m) (x + i) = 0 :=
  find_foldl_put_zero (List.range 64) x m (x + i) (.inl (List.mem_map.2 ⟨i, List.mem_range.2 hi, rfl⟩))

/-- The page's counters at the end of its re-encryption: the next major, and every minor zero. -/
def reencCounted (d e : Dev) (r page : Nat) : Dev :=
  { e with mgMajor := Cells.put e.mgMajor (majorKey r page) (mgGetMajor d r page + 1),
           mgMinor := pageCleared (pageLine d r page) e.mgMinor,
           mgReenc := e.mgReenc.filter fun y => !(y.range == r && y.page == page) }

theorem keepsLines_reencWritten (d : Dev) (r page done : Nat) : KeepsLines d (reencWritten d r page done) := by
  have h := reencWritten_eq d r page done
  exact ⟨by rw [h], by rw [h], by rw [h], by rw [h], by rw [h]⟩

/-- The page's counter block is fetched, made dirty and counted. -/
def reencEnded (d : Dev) (r page : Nat) : Dev := mgReencFlag ((mgDirty (mgTrust d r page) r 0 page).count 9 (R.REENCRYPTIONS r)) r

theorem keepsLines_reencEnded (d : Dev) (r page : Nat) : KeepsLines d (reencEnded d r page) :=
  (((keepsLines_mgTrust d r page).trans (keepsLines_mgDirty _ _ _ _)).trans (keepsLines_count _ _ _)).trans (keepsLines_mgReencFlag _ _)

theorem reencStep_absent {d : Dev} {r page : Nat} (h : d.mgReenc.find? (fun e => e.range == r && e.page == page) = none)
    (f : Option Finding) : reencStep d r page f = d := by
  rw [reencStep, h]

theorem reencStep_more {d : Dev} {r page : Nat} {e : MgReenc} (h : d.mgReenc.find? (fun e => e.range == r && e.page == page) = some e)
    (hd : e.done < 7) : reencStep d r page none = reencAdvanced d r page e.done := by
  rw [reencStep, h]
  exact if_pos hd

theorem reencCounted_mgMajor (d e : Dev) (r page : Nat) :
    (reencCounted d e r page).mgMajor = Cells.put e.mgMajor (majorKey r page) (mgGetMajor d r page + 1) := rfl
theorem reencCounted_mgMinor (d e : Dev) (r page : Nat) :
    (reencCounted d e r page).mgMinor = pageCleared (pageLine d r page) e.mgMinor := by
  rw [reencCounted]
theorem reencCounted_mgReenc (d e : Dev) (r page : Nat) :
    (reencCounted d e r page).mgReenc = e.mgReenc.filter fun y => !(y.range == r && y.page == page) := rfl
theorem reencCounted_dram (d e : Dev) (r page : Nat) : (reencCounted d e r page).dram = e.dram := rfl
theorem reencCounted_mgPending (d e : Dev) (r page : Nat) : (reencCounted d e r page).mgPending = e.mgPending := rfl

/-- The contents after a page's last step. -/
def reencFinished (d : Dev) (r page done : Nat) : Dev :=
  { reencEnded (reencCounted d (reencWritten d r page done) r page) r page with mgPending := [] }

theorem reencFinished_counters (d : Dev) (r page done : Nat) :
    (reencFinished d r page done).mgMajor = Cells.put (reencWritten d r page done).mgMajor (majorKey r page) (mgGetMajor d r page + 1) ∧
      (reencFinished d r page done).mgMinor = pageCleared (pageLine d r page) (reencWritten d r page done).mgMinor ∧
      (reencFinished d r page done).mgReenc = d.mgReenc.filter (fun y => !(y.range == r && y.page == page)) ∧
      (reencFinished d r page done).dram = d.dram := by
  obtain ⟨hmajor, hminor, hreenc, hdram, -⟩ := keepsLines_reencEnded (reencCounted d (reencWritten d r page done) r page) r page
  have hwritten := keepsLines_reencWritten d r page done
  refine ⟨hmajor.trans (reencCounted_mgMajor _ _ _ _), hminor.trans (reencCounted_mgMinor _ _ _ _), ?_, ?_⟩
  · rw [← hwritten.reenc]
    exact hreenc.trans (reencCounted_mgReenc _ _ _ _)
  · exact hdram.trans ((reencCounted_dram _ _ _ _).trans hwritten.dram)

/-- With no access waiting for the page, its last step ends in its counters. -/
theorem reencStep_last {d : Dev} {r page : Nat} {e : MgReenc} (h : d.mgReenc.find? (fun e => e.range == r && e.page == page) = some e)
    (hd : 7 ≤ e.done) (hp : d.mgPending = []) : reencStep d r page none = reencFinished d r page e.done := by
  have hpending : (reencEnded (reencCounted d (reencWritten d r page e.done) r page) r page).mgPending = [] :=
    (keepsLines_reencEnded _ r page).pending.trans <|
      (reencCounted_mgPending d _ r page).trans <| (keepsLines_reencWritten d r page e.done).pending.trans hp
  have hfinished : reencStep d r page none =
      (reencEnded (reencCounted d (reencWritten d r page e.done) r page) r page).mgPending.foldl guardReplay
        (reencFinished d r page e.done) := by
    rw [reencStep, h]
    exact if_neg (Nat.not_lt.2 hd)
  rw [hfinished, hpending, List.foldl_nil]

theorem noEffect_reencryptStep {s : State} {r : Fin 8} {page : Nat} (hf : s.frozen = false)
    (h : s.d.mgReenc.find? (fun y => y.range == r.val && y.page == page) = none) : NoEffect (.reencryptStep r page none) s := by
  show (s.lanes fun d => reencStep d r page none) = .next s
  rw [State.lanes_of hf, reencStep_absent h, State.setDev_self]

theorem yields_reencryptStep_more {s : State} {r : Fin 8} {page : Nat} {e0 : MgReenc} (hf : s.frozen = false)
    (h : s.d.mgReenc.find? (fun y => y.range == r.val && y.page == page) = some e0) (hd : e0.done < 7) :
    Yields (.reencryptStep r page none) s fun e =>
      e = { s.d with mgReenc := e.mgReenc, out := e.out } ∧ e.out.length = s.d.out.length + 8 ∧
      e.mgReenc = s.d.mgReenc.map fun y => if y.range = r.val ∧ y.page = page then { y with done := y.done + 1 } else y := by
  refine ⟨reencAdvanced s.d r page e0.done, (State.lanes_of hf fun d => reencStep d r page none).trans (by rw [reencStep_more h hd]),
    reencAdvanced_eq _ _ _ _, ?_, ?_⟩
  · rw [reencAdvanced_out, reencWritten_out]
  · rw [reencAdvanced_mgReenc, (keepsLines_reencWritten _ _ _ _).reenc]
    simp only [Bool.and_eq_true, beq_iff_eq]

theorem yields_reencryptStep_last {s : State} {r : Fin 8} {page : Nat} {e0 : MgReenc} (n : Nat) (hf : s.frozen = false)
    (h : s.d.mgReenc.find? (fun y => y.range == r.val && y.page == page) = some e0) (hd : 7 ≤ e0.done) (hp : s.d.mgPending = []) :
    Yields (.reencryptStep r page none) s fun e =>
      mgGetMajor e r page = mgGetMajor s.d r page + 1 ∧ mgGetMinor e (pageLine s.d r page + n % 64) = 0 ∧
      e.mgReenc = s.d.mgReenc.filter (fun y => !(y.range == r.val && y.page == page)) ∧ e.dram = s.d.dram := by
  obtain ⟨hmajor, hminor, hreenc, hdram⟩ := reencFinished_counters s.d r page e0.done
  refine ⟨reencFinished s.d r page e0.done, (State.lanes_of hf fun d => reencStep d r page none).trans (by rw [reencStep_last h hd hp]),
    ?_, ?_, hreenc, hdram⟩
  · rw [mgGetMajor, hmajor, Cells.find_put_same]
  · rw [mgGetMinor, hminor]
    exact find_pageCleared _ _ (Nat.mod_lt n (by decide))

end Sys2Proof.Machine
end

section
namespace Sys2Proof.Machine

/-! ## Accesses at the interconnect (R447, R448) -/

/-- An access of SRAM is one of memory. -/
theorem exec_sramAccess {s : State} (u : Fin 6) {a : BitVec 36} {n : Nat} {data : Option (List Byte)} (hf : s.frozen = false)
    (hn : 0 < accessLen n data) (ha : sramBase ≤ a.toNat) :
    exec (.memoryAccess u a n data []) s = .next (s.setDev (memAccess s.d u a.toNat n data [])) :=
  exec_memoryAccess u a n data [] hf fun _ => coreRegion_of_memory hn ha

/-- An access within a line is one of memory. -/
theorem exec_lineAccess {s : State} {u : Fin 6} {a : BitVec 36} {n : Nat} {data : Option (List Byte)} (h : InLine s.d u a.toNat (accessLen n data))
    (hf : s.frozen = false) (fs : List (Nat × Finding)) :
    exec (.memoryAccess u a n data fs) s = .next (s.setDev (memAccess s.d u a.toNat n data fs)) :=
  exec_memoryAccess u a n data fs hf fun _ => h.coreRegion

theorem becomes_sramWrite {s : State} {u : Fin 6} {a : BitVec 36} (n : Nat) {bs : List Byte} (hf : s.frozen = false) (hu : MayAccess s.d u)
    (hn : 0 < bs.length) (ha : InSram a.toNat bs.length) : Becomes (.memoryAccess u a n (some bs) []) s
      { s.d with sram := (List.zip (List.range bs.length) bs).foldl (fun c p => Cells.put c (a.toNat + p.1) p.2.toNat) s.d.sram,
                 out := s.d.out ++ [.mem u a.toNat (some [])] } [] [] fun _ => True :=
  ⟨(sramPut s.d a.toNat bs).emit (.mem u a.toNat (some [])), (exec_sramAccess (data := some bs) u hf hn ha.1).trans
    (by rw [memAccess_sram_write hu ha]), .refl ((sramPut s.d a.toNat bs).emit _) _ _, trivial⟩

/-- A refused access changes what the guard and the core record, and is answered with nothing. -/
theorem exec_refusedAccess {s : State} {u : Fin 6} {a : BitVec 36} {n : Nat} {data : Option (List Byte)}
    (h : InLine s.d u a.toNat (accessLen n data)) (hf : s.frozen = false) (hm : mgMay s.d u data.isSome (lineStart a.toNat) = false) :
    exec (.memoryAccess u a n data []) s = .next (s.setDev ((accessRefused s.d u data.isSome
      (lineStart a.toNat + (a.toNat - dramBase) % 64) a.toNat).emit (.mem u a.toNat none))) := by
  rw [exec_lineAccess h hf, memAccess_refused h hm, refuseTo_eq]
  rfl

theorem becomes_readRefused {s : State} {u : Fin 6} {a : BitVec 36} {n : Nat} (h : InLine s.d u a.toNat n) (hf : s.frozen = false)
    (hm : mgMay s.d u false (lineStart a.toNat) = false) : Becomes (.memoryAccess u a n none []) s (s.d.emit (.mem u a.toNat none))
      (refuseFields ++ faultFields) [9, 8] fun e => e.evt 9 8 = true ∧ (u.val < 4 → e.evt 8 16 = true) ∧
        (s.d.get R.REFUSE_INFO_VALID = 0 → e.get R.REFUSE_INFO_MASTER = u.val ∧ e.get R.REFUSE_INFO_WRITE = 0) ∧
        (s.d.get (L.PAGE_FREEZE 9) = 0 → e.get R.MG_REFUSED = min (s.d.get R.MG_REFUSED + 1) (2 ^ R.MG_REFUSED.w - 1)) := by
  refine ⟨_, exec_refusedAccess (data := none) h hf hm, (accessRefused_onlyChanges _ _ _ _ _).emit _, accessRefused_evt _ _ _ _ _,
    accessRefused_core_evt _ _ _ _, fun hv => ?_, fun hz => ?_⟩
  · obtain ⟨hmaster, hwrite⟩ := mgRefuse_first false (lineStart a.toNat + (a.toNat - dramBase) % 64) (show u.val < 8 by omega) hv
    rw [Dev.get_emit, Dev.get_emit, accessRefused_get _ _ _ _ _ (by decide) (by decide), accessRefused_get _ _ _ _ _ (by decide) (by decide)]
    exact ⟨hmaster, hwrite⟩
  · rw [Dev.get_emit, accessRefused_get _ _ _ _ _ (by decide) (by decide)]
    exact mgRefuse_count _ _ _ hz

/-- What has left the part is outside every frame. -/
theorem Dev.OnlyChanges.out {d e : Dev} {fs : List Fld} {evs : List Nat} (h : d.OnlyChanges e fs evs) : e.out = d.out := by
  rw [h.1]

theorem yields_writeRefused {s : State} {u : Fin 6} {a : BitVec 36} (n : Nat) {bs : List Byte} (h : InLine s.d u a.toNat bs.length)
    (hf : s.frozen = false) (hm : mgMay s.d u true (lineStart a.toNat) = false) : Yields (.memoryAccess u a n (some bs) []) s fun e =>
      e.dram = s.d.dram ∧ e.evt 9 8 = true ∧ e.out = s.d.out ++ [.mem u a.toNat none] := by
  have hframe := accessRefused_onlyChanges s.d u true (lineStart a.toNat + (a.toNat - dramBase) % 64) a.toNat
  refine ⟨_, exec_refusedAccess (data := some bs) h hf hm, ?_, accessRefused_evt _ _ _ _ _, ?_⟩
  · exact hframe.keepsLines.dram
  · exact congrArg (· ++ [Out.mem u a.toNat none]) hframe.out

theorem exec_lineRead {s : State} {u : Fin 6} {a : BitVec 36} {n r : Nat} (h : InLine s.d u a.toNat n) (hf : s.frozen = false)
    (hm : mgMay s.d u false (lineStart a.toNat) = true) (hr : rangeOf s.d (lineStart a.toNat) = some r)
    (hmode : s.d.get (R.RANGE_CTRL_MODE r) ≠ 2) (hbusy : mgBusy s.d r (linePage s.d r (lineOf a.toNat)) = false) :
    exec (.memoryAccess u a n none []) s = .next (s.setDev (s.d.emit (.mem u a.toNat
      (some (bytesAt (lineBytes (Cells.find s.d.dram (lineOf a.toNat))) ((a.toNat - dramBase) % 64) n))))) := by
  rw [exec_lineAccess (data := none) h hf, memAccess_read h hm, guardAnswer_of_inLine h hr hmode hbusy]

theorem completes_macFails {s : State} {u : Fin 6} {a : BitVec 36} {n : Nat} {r : Fin 8} (h : InLine s.d u a.toNat n) (hf : s.frozen = false)
    (hm : mgMay s.d u false (lineStart a.toNat) = true) (hr : rangeOf s.d (lineStart a.toNat) = some r.val)
    (hmode : s.d.get (R.RANGE_CTRL_MODE r) = 2) : Completes (.memoryAccess u a n none [(0, .macFails)]) s haltFields [] fun e =>
      bitAt (e.get L.AL_PULSE) 55 = true ∧
      (s.d.get L.MG_HALT_TICK ≠ s.d.tick + 1 → e.get R.HALT_RECORD_CAUSE = 1 ∧ e.get R.HALT_RECORD_RANGE = r.val ∧
        e.get R.HALT_RECORD_VALID = 1 ∧ e.get R.HALT_ADDR = lineOf a.toNat * 64) := by
  have hx : lineOf a.toNat * 64 < 2 ^ 64 := by
    have ha := a.isLt
    have hle : lineOf a.toNat * 64 ≤ a.toNat - dramBase := Nat.div_mul_le_self _ _
    omega
  exact ⟨_, (exec_lineAccess (data := none) h hf _).trans (by rw [memAccess_macFails h hm hr hmode]), guardHalt_onlyChanges _ _ _ _ _,
    guardHalt_alarm _ _ _ _ _, fun ht => guardHalt_first 0 ht (by decide) r.isLt hx⟩

theorem dramPut_emit_eq (d : Dev) (line v : Nat) (x y : Out) : ((dramPut d line v).emit x).emit y =
    { d with dram := (((dramPut d line v).emit x).emit y).dram, out := (((dramPut d line v).emit x).emit y).out } := rfl

theorem dramPut_emit_dram (d : Dev) (line v : Nat) (x y : Out) : (((dramPut d line v).emit x).emit y).dram = Cells.put d.dram line v := rfl

theorem yields_lineWrite {s : State} {u : Fin 6} {a : BitVec 36} (n line : Nat) {r : Nat} {bs : List Byte} (h : InLine s.d u a.toNat bs.length)
    (hf : s.frozen = false) (hm : mgMay s.d u true (lineStart a.toNat) = true) (hr : rangeOf s.d (lineStart a.toNat) = some r)
    (hmode : s.d.get (R.RANGE_CTRL_MODE r) < 2) : Yields (.memoryAccess u a n (some bs) []) s fun e =>
      e = { s.d with dram := e.dram, out := e.out } ∧
      Cells.find e.dram line = if line = lineOf a.toNat then mergeLine (Cells.find s.d.dram line) ((a.toNat - dramBase) % 64) bs
        else Cells.find s.d.dram line := by
  refine ⟨_, (exec_lineAccess (data := some bs) h hf _).trans (by rw [memAccess_write h hm, mgWriteParts_of_line hr hmode.ne]),
    dramPut_emit_eq _ _ _ _ _, ?_⟩
  rw [dramPut_emit_dram]
  split
  · next hline =>
    subst hline
    exact Cells.find_put_same _ _ _
  · next hline => exact Cells.find_put_ne _ _ hline

end Sys2Proof.Machine

open Sys2Proof Sys2Proof.Machine

/-- Settles O48, clause by clause: the request and its check, the end of an initialization, the accesses of a line by their outcome, the steps of
a re-encryption and of a scrub pass. -/
theorem memoryGuardRows : Obligations.MemoryGuardRows := by
  unfold Obligations.MemoryGuardRows
  intro s r u a n line page bs e0
  refine ⟨fun hl => ⟨noEffect_rangeEnable, defers_rangeEnable hl⟩,
    ⟨postedAct_rangeEnable_on, fun hoff => ⟨acts_rangeRefused r hoff, fun hc => ⟨acts_rangeInit r hoff hc, acts_rangePending r hoff hc⟩⟩⟩,
    fun hf => ⟨noEffect_rangeInitDone hf, yields_rangeInitDone r line hf, ?_, ?_, ?_, ?_, noEffect_reencryptStep hf,
      fun he => ⟨yields_reencryptStep_more hf he, yields_reencryptStep_last n hf he⟩, noEffect_scrubRead hf, completes_scrubRead hf⟩⟩
  · intro hclosed
    rw [exec_memoryAccess 5 a n (some bs) [] hf (absurd · (by decide))]
    exact congrArg (fun d => Host.Outcome.next (s.setDev d)) (memAccess_no_debug hclosed _ _ _ _)
  · intro hu
    have hu : MayAccess s.d u := fun h5 => hu (Fin.ext h5)
    exact ⟨fun hn hin => (exec_sramAccess (data := none) u hf hn hin.1).trans (by rw [memAccess_sram_read hu hin]), becomes_sramWrite n hf hu⟩
  · rintro ⟨hbase, hline, hpos, hlimit, hu⟩
    have hin : InLine s.d u a.toNat n := ⟨hbase, hline, hpos, hlimit, fun h5 => hu (Fin.ext h5)⟩
    exact ⟨becomes_readRefused hin hf, fun hm hr => ⟨exec_lineRead hin hf hm hr, completes_macFails hin hf hm hr⟩⟩
  · rintro ⟨hbase, hline, hpos, hlimit, hu⟩
    have hin : InLine s.d u a.toNat bs.length := ⟨hbase, hline, hpos, hlimit, fun h5 => hu (Fin.ext h5)⟩
    exact ⟨yields_writeRefused n hin hf, yields_lineWrite n line hin hf⟩
end
